-- ==== Sys2Proof/Word.lean ====
section
/-!
DEFINITION. The word types of the GX-4180 (00 R4, 06 R159, 02 R50).
-/

namespace Sys2Proof

/-- A byte of memory. -/
abbrev Byte := BitVec 8

/-- A scalar register, an operand or result port of 64 bits, a system register (06 R159, 07 R190). -/
abbrev Word := BitVec 64

/-- A vector register, and the widest value a move carries (06 R159, R168). -/
abbrev Vec := BitVec 1024

/-- A 64-byte block of memory, byte 0 in the low bits (02 R50). -/
abbrev Block := BitVec 512

/-- A 24-bit parcel of code (06 R161). -/
abbrev Parcel := BitVec 24

end Sys2Proof
end

