-- ==== Sys2Proof/Syntax.lean ====
section
/-!
DEFINITION. The instructions of the GX-4180: one constructor of `Instr` for each row of spec/opcode_table.json.

A row with an encoding is a move parcel that writes a trigger port (06 R163, R169): it carries its guard and its
source, and, where the opcode leaves it open, its unit, its width or its slot. `move` is the move to any other
destination. A row without an encoding is an event of the hardware (95): it carries where it happens and what
arrives with it.
-/

namespace Sys2Proof

/-- The eight slots of a core (06 R158). -/
inductive Slot where
  | s0 | s1 | s2 | s3 | s4 | s5 | s6 | s7
deriving DecidableEq, Repr

/-- The guard of a move (06 R164). -/
inductive Guard where
  | always
  | p (n : BitVec 3)
  | q (n : BitVec 3)
  | notP (n : BitVec 3)
deriving DecidableEq, Repr

/-- The special sources (07 R198). `li` takes levels 0 to 5 and `tc` dimensions 0 to 2. -/
inductive Special where
  | coreNum | devn | tc (d : BitVec 2) | rank | crewn | trec | li (l : BitVec 3) | qall | pall | ca (j : BitVec 3) | rcyc | plvl
deriving DecidableEq, Repr

/-- The long-immediate forms (06 R167). -/
inductive LongForm where
  | w0 | w1 | w2 | w1w0 | w2w1 | w2w1w0
deriving DecidableEq, Repr

/-- The source of a move (06 R165). A result port is r (`false`) or s (`true`), of the own or the paired unit. -/
inductive Src where
  | sreg (n : BitVec 5)
  | vreg (n : BitVec 4)
  | pred (n : BitVec 3)
  | mask (n : BitVec 3)
  | result (s : Bool)
  | pairedResult (s : Bool)
  | special (x : Special)
  | long (f : LongForm)
  | short (i : BitVec 9)
deriving DecidableEq, Repr

/-- The destination of a move that is no trigger (06 R166). -/
inductive Dst where
  | sreg (n : BitVec 5)
  | vreg (n : BitVec 4)
  | pred (n : BitVec 3)
  | mask (n : BitVec 3)
  | otherSreg (n : BitVec 5)
  | otherVreg (n : BitVec 4)
  | oport (n : BitVec 3)
  | pairedOport (n : BitVec 3)
deriving DecidableEq, Repr

/-- The two vector units with the same functions (07 R194). -/
inductive VexUnit where
  | vex3 | vex4
deriving DecidableEq, Repr

/-- The width of a vector function (07 R194). -/
inductive Width where
  | w256 | w512 | w1024
deriving DecidableEq, Repr

/-- The slots that hold exit ports (10 R262). -/
inductive ExitSlot where
  | ctl | ix1 | ls2
deriving DecidableEq, Repr

/-- What an access that reaches a target does there (01 R37). -/
inductive AccessKind where
  | read | write | atomic
deriving DecidableEq, Repr

/-- The pack mode that a write carries (03 R84). -/
inductive PackMode where
  | raw | packed
deriving DecidableEq, Repr

/-- A message of one flit: four little-endian words (20 R417, 22 R434). -/
structure Msg where
  w0 : BitVec 64
  w1 : BitVec 64
  w2 : BitVec 64
  w3 : BitVec 64
deriving DecidableEq, Repr

/-- The header parcel of a bundle (06 R162). -/
structure Header where
  pres : BitVec 8
  sync : BitVec 8
  stop : Bool
  x : Bool
  nli : BitVec 2
  rq : BitVec 4
deriving DecidableEq, Repr

/-- A bundle as it is fetched: its header, the parcels of its present slots, its long-immediate parcels, the parcel
index of its header and of the parcel behind it (06 R161). -/
structure Bundle where
  hdr : Header
  moves : List (Slot × BitVec 24)
  long : List (BitVec 24)
  index : Nat
  stop : Nat
deriving DecidableEq, Repr

/-- Where an error-correcting code finds an error (04 R90). The number beside it is a block of HBM, a pack, or, for what
stands in a core, the core's number and 256 times the number of the line, register, port, half of a tile row, element or
block; for a receive buffer 256 times (192 slots + half rows); for an instruction cache 256 times the place in its list of
lines; for a TLB the number of the unit, as an invalidation counts them, and 1024 times the place in its list. -/
inductive EccUnit where
  | hbmBlock | packTag | cleanCopy | sreg | vreg | port | tileRow | accTile | scratchpad | receiveBuffer
  | predicate | mask | shape | vt | icache | tlb | levelTwo
deriving DecidableEq, Repr

/-- The instructions and events, one constructor for each row of spec/opcode_table.json, in its order. -/
inductive Instr where
  /-- MOVE (R169). A move parcel copies a source value, converted to the destination width, into a register, operand port or trigger port, subject to its guard. -/
  | move (slot : Slot) (g : Guard) (s : Src) (d : Dst)
  /-- IX1_ADD (R257). r := (a + b) mod 2^64; s := carry out. -/
  | ix1Add (g : Guard) (s : Src)
  /-- IX1_SUB (R257). r := (a - b) mod 2^64; s := borrow. -/
  | ix1Sub (g : Guard) (s : Src)
  /-- IX1_ADDS (R257). Signed saturating add. -/
  | ix1Adds (g : Guard) (s : Src)
  /-- IX1_SUBS (R257). Signed saturating subtract. -/
  | ix1Subs (g : Guard) (s : Src)
  /-- IX1_AND (R257). Bitwise and. -/
  | ix1And (g : Guard) (s : Src)
  /-- IX1_OR (R257). Bitwise or. -/
  | ix1Or (g : Guard) (s : Src)
  /-- IX1_XOR (R257). Bitwise exclusive or. -/
  | ix1Xor (g : Guard) (s : Src)
  /-- IX1_ANDN (R257). a and not b. -/
  | ix1Andn (g : Guard) (s : Src)
  /-- IX1_SHL (R258). 64-bit shift left by b. -/
  | ix1Shl (g : Guard) (s : Src)
  /-- IX1_SHR (R258). 64-bit logical shift right by b. -/
  | ix1Shr (g : Guard) (s : Src)
  /-- IX1_SAR (R258). 64-bit arithmetic shift right by b. -/
  | ix1Sar (g : Guard) (s : Src)
  /-- IX1_ROL (R257). Rotate left by b mod 64. -/
  | ix1Rol (g : Guard) (s : Src)
  /-- IX1_MIN (R257). Signed minimum. -/
  | ix1Min (g : Guard) (s : Src)
  /-- IX1_MAX (R257). Signed maximum. -/
  | ix1Max (g : Guard) (s : Src)
  /-- IX1_MINU (R257). Unsigned minimum. -/
  | ix1Minu (g : Guard) (s : Src)
  /-- IX1_MAXU (R257). Unsigned maximum. -/
  | ix1Maxu (g : Guard) (s : Src)
  /-- IX1_CLTS (R257). 1 if a < b signed, else 0. -/
  | ix1Clts (g : Guard) (s : Src)
  /-- IX1_CLTU (R257). 1 if a < b unsigned, else 0. -/
  | ix1Cltu (g : Guard) (s : Src)
  /-- IX1_CEQ (R257). 1 if a = b, else 0. -/
  | ix1Ceq (g : Guard) (s : Src)
  /-- IX1_CNE (R257). 1 if a differs from b, else 0. -/
  | ix1Cne (g : Guard) (s : Src)
  /-- IX1_CLES (R257). 1 if a <= b signed, else 0. -/
  | ix1Cles (g : Guard) (s : Src)
  /-- IX1_CLEU (R257). 1 if a <= b unsigned, else 0. -/
  | ix1Cleu (g : Guard) (s : Src)
  /-- IX1_SHL_8 (R258). Packed shift left of 8-bit lanes. -/
  | ix1Shl8 (g : Guard) (s : Src)
  /-- IX1_SHL_16 (R258). Packed shift left of 16-bit lanes. -/
  | ix1Shl16 (g : Guard) (s : Src)
  /-- IX1_SHL_32 (R258). Packed shift left of 32-bit lanes. -/
  | ix1Shl32 (g : Guard) (s : Src)
  /-- IX1_SHR_8 (R258). Packed logical shift right of 8-bit lanes. -/
  | ix1Shr8 (g : Guard) (s : Src)
  /-- IX1_SHR_16 (R258). Packed logical shift right of 16-bit lanes. -/
  | ix1Shr16 (g : Guard) (s : Src)
  /-- IX1_SHR_32 (R258). Packed logical shift right of 32-bit lanes. -/
  | ix1Shr32 (g : Guard) (s : Src)
  /-- IX1_SAR_8 (R258). Packed arithmetic shift right of 8-bit lanes. -/
  | ix1Sar8 (g : Guard) (s : Src)
  /-- IX1_SAR_16 (R258). Packed arithmetic shift right of 16-bit lanes. -/
  | ix1Sar16 (g : Guard) (s : Src)
  /-- IX1_SAR_32 (R258). Packed arithmetic shift right of 32-bit lanes. -/
  | ix1Sar32 (g : Guard) (s : Src)
  /-- IX1_ADD_8 (R257). Packed add of 8-bit lanes, each modulo 2^8. -/
  | ix1Add8 (g : Guard) (s : Src)
  /-- IX1_ADD_16 (R257). Packed add of 16-bit lanes. -/
  | ix1Add16 (g : Guard) (s : Src)
  /-- IX1_ADD_32 (R257). Packed add of 32-bit lanes. -/
  | ix1Add32 (g : Guard) (s : Src)
  /-- IX1_MUL (R259). Signed 128-bit product; low half in r, high half in s. -/
  | ix1Mul (g : Guard) (s : Src)
  /-- IX1_MULU (R259). Unsigned 128-bit product; low half in r, high half in s. -/
  | ix1Mulu (g : Guard) (s : Src)
  /-- IX1_DIV (R259). Signed quotient truncated toward zero; no fault on zero divisor. -/
  | ix1Div (g : Guard) (s : Src)
  /-- IX1_DIVU (R259). Unsigned quotient. -/
  | ix1Divu (g : Guard) (s : Src)
  /-- IX1_REM (R259). Signed remainder with the sign of a. -/
  | ix1Rem (g : Guard) (s : Src)
  /-- IX1_REMU (R259). Unsigned remainder. -/
  | ix1Remu (g : Guard) (s : Src)
  /-- IX1_BEXT (R260). Extract a bit field of a, zero-extended. -/
  | ix1Bext (g : Guard) (s : Src)
  /-- IX1_BEXTS (R260). Extract a bit field of a, sign-extended. -/
  | ix1Bexts (g : Guard) (s : Src)
  /-- IX1_BINS (R260). Insert the low bits of a into a field of c. -/
  | ix1Bins (g : Guard) (s : Src)
  /-- IX1_CLZ (R260). Count leading zeros. -/
  | ix1Clz (g : Guard) (s : Src)
  /-- IX1_CTZ (R260). Count trailing zeros. -/
  | ix1Ctz (g : Guard) (s : Src)
  /-- IX1_POPC (R260). Count ones. -/
  | ix1Popc (g : Guard) (s : Src)
  /-- IX1_BREV (R260). Reverse the bits of a. -/
  | ix1Brev (g : Guard) (s : Src)
  /-- IX1_BSWAP (R260). Reverse the bytes of a. -/
  | ix1Bswap (g : Guard) (s : Src)
  /-- SFX5_ADD (R195). Second ALU add into sfx5.s. -/
  | sfx5Add (g : Guard) (s : Src)
  /-- SFX5_SUB (R195). Second ALU subtract. -/
  | sfx5Sub (g : Guard) (s : Src)
  /-- SFX5_ADDS (R195). Second ALU signed saturating add. -/
  | sfx5Adds (g : Guard) (s : Src)
  /-- SFX5_SUBS (R195). Second ALU signed saturating subtract. -/
  | sfx5Subs (g : Guard) (s : Src)
  /-- SFX5_AND (R195). Second ALU and. -/
  | sfx5And (g : Guard) (s : Src)
  /-- SFX5_OR (R195). Second ALU or. -/
  | sfx5Or (g : Guard) (s : Src)
  /-- SFX5_XOR (R195). Second ALU xor. -/
  | sfx5Xor (g : Guard) (s : Src)
  /-- SFX5_ANDN (R195). Second ALU and-not. -/
  | sfx5Andn (g : Guard) (s : Src)
  /-- SFX5_SHL (R195). Second ALU shift left. -/
  | sfx5Shl (g : Guard) (s : Src)
  /-- SFX5_SHR (R195). Second ALU logical shift right. -/
  | sfx5Shr (g : Guard) (s : Src)
  /-- SFX5_SAR (R195). Second ALU arithmetic shift right. -/
  | sfx5Sar (g : Guard) (s : Src)
  /-- SFX5_ROL (R195). Second ALU rotate left. -/
  | sfx5Rol (g : Guard) (s : Src)
  /-- SFX5_MIN (R195). Second ALU signed minimum. -/
  | sfx5Min (g : Guard) (s : Src)
  /-- SFX5_MAX (R195). Second ALU signed maximum. -/
  | sfx5Max (g : Guard) (s : Src)
  /-- SFX5_MINU (R195). Second ALU unsigned minimum. -/
  | sfx5Minu (g : Guard) (s : Src)
  /-- SFX5_MAXU (R195). Second ALU unsigned maximum. -/
  | sfx5Maxu (g : Guard) (s : Src)
  /-- SFX5_CLTS (R195). Second ALU signed less-than compare. -/
  | sfx5Clts (g : Guard) (s : Src)
  /-- SFX5_CLTU (R195). Second ALU unsigned less-than compare. -/
  | sfx5Cltu (g : Guard) (s : Src)
  /-- SFX5_CEQ (R195). Second ALU equality compare. -/
  | sfx5Ceq (g : Guard) (s : Src)
  /-- SFX5_CNE (R195). Second ALU inequality compare. -/
  | sfx5Cne (g : Guard) (s : Src)
  /-- SFX5_CLES (R195). Second ALU signed less-or-equal compare. -/
  | sfx5Cles (g : Guard) (s : Src)
  /-- SFX5_CLEU (R195). Second ALU unsigned less-or-equal compare. -/
  | sfx5Cleu (g : Guard) (s : Src)
  /-- SFX5_SHL_8 (R195). Second ALU packed shift left, 8-bit lanes. -/
  | sfx5Shl8 (g : Guard) (s : Src)
  /-- SFX5_SHL_16 (R195). Second ALU packed shift left, 16-bit lanes. -/
  | sfx5Shl16 (g : Guard) (s : Src)
  /-- SFX5_SHL_32 (R195). Second ALU packed shift left, 32-bit lanes. -/
  | sfx5Shl32 (g : Guard) (s : Src)
  /-- SFX5_SHR_8 (R195). Second ALU packed logical shift right, 8-bit lanes. -/
  | sfx5Shr8 (g : Guard) (s : Src)
  /-- SFX5_SHR_16 (R195). Second ALU packed logical shift right, 16-bit lanes. -/
  | sfx5Shr16 (g : Guard) (s : Src)
  /-- SFX5_SHR_32 (R195). Second ALU packed logical shift right, 32-bit lanes. -/
  | sfx5Shr32 (g : Guard) (s : Src)
  /-- SFX5_SAR_8 (R195). Second ALU packed arithmetic shift right, 8-bit lanes. -/
  | sfx5Sar8 (g : Guard) (s : Src)
  /-- SFX5_SAR_16 (R195). Second ALU packed arithmetic shift right, 16-bit lanes. -/
  | sfx5Sar16 (g : Guard) (s : Src)
  /-- SFX5_SAR_32 (R195). Second ALU packed arithmetic shift right, 32-bit lanes. -/
  | sfx5Sar32 (g : Guard) (s : Src)
  /-- SFX5_ADD_8 (R195). Second ALU packed add, 8-bit lanes. -/
  | sfx5Add8 (g : Guard) (s : Src)
  /-- SFX5_ADD_16 (R195). Second ALU packed add, 16-bit lanes. -/
  | sfx5Add16 (g : Guard) (s : Src)
  /-- SFX5_ADD_32 (R195). Second ALU packed add, 32-bit lanes. -/
  | sfx5Add32 (g : Guard) (s : Src)
  /-- VEX_ADD (R283). Lane-wise add, integer modulo or FP32 rounded with VT.RM. -/
  | vexAdd (u : VexUnit) (w : Width) (g : Guard) (s : Src)
  /-- VEX_SUB (R283). Lane-wise subtract. -/
  | vexSub (u : VexUnit) (w : Width) (g : Guard) (s : Src)
  /-- VEX_ADDS (R284). Lane-wise saturating integer add. -/
  | vexAdds (u : VexUnit) (w : Width) (g : Guard) (s : Src)
  /-- VEX_SUBS (R284). Lane-wise saturating integer subtract. -/
  | vexSubs (u : VexUnit) (w : Width) (g : Guard) (s : Src)
  /-- VEX_MIN (R283). Lane-wise minimum. -/
  | vexMin (u : VexUnit) (w : Width) (g : Guard) (s : Src)
  /-- VEX_MAX (R283). Lane-wise maximum. -/
  | vexMax (u : VexUnit) (w : Width) (g : Guard) (s : Src)
  /-- VEX_ABS (R283). Lane-wise absolute value. -/
  | vexAbs (u : VexUnit) (w : Width) (g : Guard) (s : Src)
  /-- VEX_NEG (R283). Lane-wise negation. -/
  | vexNeg (u : VexUnit) (w : Width) (g : Guard) (s : Src)
  /-- VEX_AND (R283). Lane-wise and. -/
  | vexAnd (u : VexUnit) (w : Width) (g : Guard) (s : Src)
  /-- VEX_OR (R283). Lane-wise or. -/
  | vexOr (u : VexUnit) (w : Width) (g : Guard) (s : Src)
  /-- VEX_XOR (R283). Lane-wise xor. -/
  | vexXor (u : VexUnit) (w : Width) (g : Guard) (s : Src)
  /-- VEX_ANDN (R283). Lane-wise and-not. -/
  | vexAndn (u : VexUnit) (w : Width) (g : Guard) (s : Src)
  /-- VEX_SHL (R286). Lane-wise shift left by lane of b. -/
  | vexShl (u : VexUnit) (w : Width) (g : Guard) (s : Src)
  /-- VEX_SHR (R286). Lane-wise logical shift right. -/
  | vexShr (u : VexUnit) (w : Width) (g : Guard) (s : Src)
  /-- VEX_SAR (R286). Lane-wise arithmetic shift right. -/
  | vexSar (u : VexUnit) (w : Width) (g : Guard) (s : Src)
  /-- VEX_MUL (R285). Lane-wise multiply. -/
  | vexMul (u : VexUnit) (w : Width) (g : Guard) (s : Src)
  /-- VEX_FMA (R285). Lane-wise fused a*b+c, rounded once. -/
  | vexFma (u : VexUnit) (w : Width) (g : Guard) (s : Src)
  /-- VEX_FMS (R285). Lane-wise fused a*b-c. -/
  | vexFms (u : VexUnit) (w : Width) (g : Guard) (s : Src)
  /-- VEX_FNMA (R285). Lane-wise fused -(a*b)+c. -/
  | vexFnma (u : VexUnit) (w : Width) (g : Guard) (s : Src)
  /-- VEX_CEQ (R283). Lane-wise equality compare with mask in s. -/
  | vexCeq (u : VexUnit) (w : Width) (g : Guard) (s : Src)
  /-- VEX_CNE (R283). Lane-wise inequality compare. -/
  | vexCne (u : VexUnit) (w : Width) (g : Guard) (s : Src)
  /-- VEX_CLT (R283). Lane-wise less-than compare. -/
  | vexClt (u : VexUnit) (w : Width) (g : Guard) (s : Src)
  /-- VEX_CLE (R283). Lane-wise less-or-equal compare. -/
  | vexCle (u : VexUnit) (w : Width) (g : Guard) (s : Src)
  /-- VEX_CDET (R287). Threshold detail compare |a| > VT.THR per FP32 lane. -/
  | vexCdet (u : VexUnit) (w : Width) (g : Guard) (s : Src)
  /-- VEX_SEL (R288). Lane-wise select of a or b by mask k KN. -/
  | vexSel (u : VexUnit) (w : Width) (g : Guard) (s : Src)
  /-- VEX_CVT (R289). Convert lanes from ET to TT with round_to. -/
  | vexCvt (u : VexUnit) (w : Width) (g : Guard) (s : Src)
  /-- VEX_PERM (R288). Permute lanes of a by indices in b. -/
  | vexPerm (u : VexUnit) (w : Width) (g : Guard) (s : Src)
  /-- VEX_BCAST (R288). Broadcast lane IDX of a. -/
  | vexBcast (u : VexUnit) (w : Width) (g : Guard) (s : Src)
  /-- VEX_SLIDE (R288). Slide the concatenation a,b by IDX lanes. -/
  | vexSlide (u : VexUnit) (w : Width) (g : Guard) (s : Src)
  /-- VEX_RSUM (R290). Pairwise tree sum of lanes into lane 0. -/
  | vexRsum (u : VexUnit) (w : Width) (g : Guard) (s : Src)
  /-- VEX_RMIN (R290). Tree minimum of lanes into lane 0. -/
  | vexRmin (u : VexUnit) (w : Width) (g : Guard) (s : Src)
  /-- VEX_RMAX (R290). Tree maximum of lanes into lane 0. -/
  | vexRmax (u : VexUnit) (w : Width) (g : Guard) (s : Src)
  /-- VTSET (R291). Replace the vector type register. -/
  | vtset (u : VexUnit) (g : Guard) (s : Src)
  /-- VTGET (R291). Read the vector type register as visible to the bundle. -/
  | vtget (u : VexUnit) (g : Guard) (s : Src)
  /-- VTTHR (R291). Set VT.THR. -/
  | vtthr (u : VexUnit) (g : Guard) (s : Src)
  /-- VTCLR (R291). Clear selected sticky flags of VT. -/
  | vtclr (u : VexUnit) (g : Guard) (s : Src)
  /-- KAND (R291). 128-bit mask and. -/
  | kand (u : VexUnit) (g : Guard) (s : Src)
  /-- KOR (R291). 128-bit mask or. -/
  | kor (u : VexUnit) (g : Guard) (s : Src)
  /-- KXOR (R291). 128-bit mask xor. -/
  | kxor (u : VexUnit) (g : Guard) (s : Src)
  /-- KANDN (R291). 128-bit mask and-not. -/
  | kandn (u : VexUnit) (g : Guard) (s : Src)
  /-- KNOT (R291). 128-bit mask not. -/
  | knot (u : VexUnit) (g : Guard) (s : Src)
  /-- KGEN (R291). Mask with the lowest min(a,128) bits set. -/
  | kgen (u : VexUnit) (g : Guard) (s : Src)
  /-- KPOPC (R291). Count ones of a mask. -/
  | kpopc (u : VexUnit) (g : Guard) (s : Src)
  /-- KFFS (R291). Index of the lowest one of a mask, or 128. -/
  | kffs (u : VexUnit) (g : Guard) (s : Src)
  /-- SFX5_RCP (R292). Correctly rounded reciprocal per lane. -/
  | sfx5Rcp (w : Width) (g : Guard) (s : Src)
  /-- SFX5_RSQRT (R292). Correctly rounded reciprocal square root. -/
  | sfx5Rsqrt (w : Width) (g : Guard) (s : Src)
  /-- SFX5_SQRT (R292). Square root rounded with VT.RM. -/
  | sfx5Sqrt (w : Width) (g : Guard) (s : Src)
  /-- SFX5_DIV (R292). Division rounded with VT.RM. -/
  | sfx5Div (w : Width) (g : Guard) (s : Src)
  /-- SFX5_EXP2 (R292). 2^a correctly rounded. -/
  | sfx5Exp2 (w : Width) (g : Guard) (s : Src)
  /-- SFX5_LOG2 (R292). log2 a correctly rounded. -/
  | sfx5Log2 (w : Width) (g : Guard) (s : Src)
  /-- SFX5_TANH (R292). tanh a correctly rounded. -/
  | sfx5Tanh (w : Width) (g : Guard) (s : Src)
  /-- SFX5_SIGM (R292). Logistic sigmoid correctly rounded. -/
  | sfx5Sigm (w : Width) (g : Guard) (s : Src)
  /-- SFX5_SINPI (R292). sin(pi a) correctly rounded. -/
  | sfx5Sinpi (w : Width) (g : Guard) (s : Src)
  /-- SFX5_COSPI (R292). cos(pi a) correctly rounded. -/
  | sfx5Cospi (w : Width) (g : Guard) (s : Src)
  /-- CTL_LVL (R265). Set the trip count of a loop-sequencer level. -/
  | ctlLvl (g : Guard) (s : Src)
  /-- CTL_CABASE (R265). Set the base of a capstan address register. -/
  | ctlCabase (g : Guard) (s : Src)
  /-- CTL_CASTR (R265). Set a capstan address register's stride at a level. -/
  | ctlCastr (g : Guard) (s : Src)
  /-- CTL_LOOP (R266). Start a loop-sequencer range after the block's commit and range check. -/
  | ctlLoop (g : Guard) (s : Src)
  /-- CTL_BSEL (R270). Bucket select: choose a schedule index and set shape valid counts. -/
  | ctlBsel (g : Guard) (s : Src)
  /-- CTL_WAIT (R271). Wait until outstanding counters fall to their limits, delivering recorded faults of named paths. -/
  | ctlWait (g : Guard) (s : Src)
  /-- CTL_FORK (R273). Release, then make a record ready on this core's deque. -/
  | ctlFork (g : Guard) (s : Src)
  /-- CTL_JOIN (R274). End the task, naming a continuation as one more successor. -/
  | ctlJoin (g : Guard) (s : Src)
  /-- CTL_SPAWN (R273). Release, then enter a record in the cluster's ready list. -/
  | ctlSpawn (g : Guard) (s : Src)
  /-- CTL_LAUNCH (R276). Release, then append a launch record to a stream and return a status. -/
  | ctlLaunch (g : Guard) (s : Src)
  /-- CTL_DONE (R275). End the running task when its block commits. -/
  | ctlDone (g : Guard) (s : Src)
  /-- CTL_BAR (R277). Arrive at the crew's next barrier with release and acquire. -/
  | ctlBar (g : Guard) (s : Src)
  /-- CTL_SRD (R382). Read a system register. -/
  | ctlSrd (g : Guard) (s : Src)
  /-- CTL_SWR (R382). Write a system register at commit. -/
  | ctlSwr (g : Guard) (s : Src)
  /-- CTL_TRAP (R388). Software trap taken after the block commits. -/
  | ctlTrap (g : Guard) (s : Src)
  /-- CTL_RFE (R385). Return from the handler to FPC.HEAD in the task bank and mode. -/
  | ctlRfe (g : Guard) (s : Src)
  /-- CTL_PARK (R387). Park the task in place once its engine work is drained. -/
  | ctlPark (g : Guard) (s : Src)
  /-- CTL_ABORT (R386). End the faulting task with status 0x01 or 0x03. -/
  | ctlAbort (g : Guard) (s : Src)
  /-- CTL_YIELD (R392). Save the pre-empted task into its frame and free the core. -/
  | ctlYield (g : Guard) (s : Src)
  /-- CTL_UNPARK (R387). Resume every parked task of the context on a core, returning the count. -/
  | ctlUnpark (g : Guard) (s : Src)
  /-- CTL_CLKSET (R408). Set an engine class's requested divisor and apply the new deff. -/
  | ctlClkset (g : Guard) (s : Src)
  /-- CTL_VSET (R409). Set the core's voltage request and return a status. -/
  | ctlVset (g : Guard) (s : Src)
  /-- CTL_CLKRD (R410). Return divisors, voltage codes, a stall sample or duty and temperature. -/
  | ctlClkrd (g : Guard) (s : Src)
  /-- CTL_SWSEL (R413). Return the schedule target for the cluster's PLVL. -/
  | ctlSwsel (g : Guard) (s : Src)
  /-- EXIT_BR (R262). Exit to the exit bundle's header plus the operand. -/
  | exitBr (x : ExitSlot) (g : Guard) (s : Src)
  /-- EXIT_JMP (R262). Exit to an absolute parcel index. -/
  | exitJmp (x : ExitSlot) (g : Guard) (s : Src)
  /-- EXIT_CALL (R262). Relative exit writing the link sa31. -/
  | exitCall (x : ExitSlot) (g : Guard) (s : Src)
  /-- EXIT_CALLA (R262). Absolute exit writing the link sa31. -/
  | exitCalla (x : ExitSlot) (g : Guard) (s : Src)
  /-- EXIT_RET (R262). Absolute exit used by return prediction. -/
  | exitRet (x : ExitSlot) (g : Guard) (s : Src)
  /-- LS2_LD_B (R208). Load 1 byte zero-extended. -/
  | ls2LdB (g : Guard) (s : Src)
  /-- LS2_LD_H (R208). Load 2 bytes zero-extended. -/
  | ls2LdH (g : Guard) (s : Src)
  /-- LS2_LD_W (R208). Load 4 bytes zero-extended. -/
  | ls2LdW (g : Guard) (s : Src)
  /-- LS2_LD_D (R208). Load 8 bytes. -/
  | ls2LdD (g : Guard) (s : Src)
  /-- LS2_LD_BS (R208). Load 1 byte sign-extended. -/
  | ls2LdBs (g : Guard) (s : Src)
  /-- LS2_LD_HS (R208). Load 2 bytes sign-extended. -/
  | ls2LdHs (g : Guard) (s : Src)
  /-- LS2_LD_WS (R208). Load 4 bytes sign-extended. -/
  | ls2LdWs (g : Guard) (s : Src)
  /-- LS2_SLD_B (R208). Scratchpad load 1 byte zero-extended. -/
  | ls2SldB (g : Guard) (s : Src)
  /-- LS2_SLD_H (R208). Scratchpad load 2 bytes zero-extended. -/
  | ls2SldH (g : Guard) (s : Src)
  /-- LS2_SLD_W (R208). Scratchpad load 4 bytes zero-extended. -/
  | ls2SldW (g : Guard) (s : Src)
  /-- LS2_SLD_D (R208). Scratchpad load 8 bytes. -/
  | ls2SldD (g : Guard) (s : Src)
  /-- LS2_SLD_BS (R208). Scratchpad load 1 byte sign-extended. -/
  | ls2SldBs (g : Guard) (s : Src)
  /-- LS2_SLD_HS (R208). Scratchpad load 2 bytes sign-extended. -/
  | ls2SldHs (g : Guard) (s : Src)
  /-- LS2_SLD_WS (R208). Scratchpad load 4 bytes sign-extended. -/
  | ls2SldWs (g : Guard) (s : Src)
  /-- LS2_LDIO_B (R208). Held uncached load of 1 byte from any aperture. -/
  | ls2LdioB (g : Guard) (s : Src)
  /-- LS2_LDIO_H (R208). Held uncached load of 2 bytes. -/
  | ls2LdioH (g : Guard) (s : Src)
  /-- LS2_LDIO_W (R208). Held uncached load of 4 bytes. -/
  | ls2LdioW (g : Guard) (s : Src)
  /-- LS2_LDIO_D (R208). Held uncached load of 8 bytes. -/
  | ls2LdioD (g : Guard) (s : Src)
  /-- LS2_ST_B (R208). Held store of 1 byte. -/
  | ls2StB (g : Guard) (s : Src)
  /-- LS2_ST_H (R208). Held store of 2 bytes. -/
  | ls2StH (g : Guard) (s : Src)
  /-- LS2_ST_W (R208). Held store of 4 bytes. -/
  | ls2StW (g : Guard) (s : Src)
  /-- LS2_ST_D (R208). Held store of 8 bytes. -/
  | ls2StD (g : Guard) (s : Src)
  /-- LS2_SST_B (R208). Held scratchpad store of 1 byte. -/
  | ls2SstB (g : Guard) (s : Src)
  /-- LS2_SST_H (R208). Held scratchpad store of 2 bytes. -/
  | ls2SstH (g : Guard) (s : Src)
  /-- LS2_SST_W (R208). Held scratchpad store of 4 bytes. -/
  | ls2SstW (g : Guard) (s : Src)
  /-- LS2_SST_D (R208). Held scratchpad store of 8 bytes. -/
  | ls2SstD (g : Guard) (s : Src)
  /-- LS2_AT_ADD (R211). Atomic add, returning or update-only per its control word. -/
  | ls2AtAdd (g : Guard) (s : Src)
  /-- LS2_AT_AND (R211). Atomic and. -/
  | ls2AtAnd (g : Guard) (s : Src)
  /-- LS2_AT_OR (R211). Atomic or. -/
  | ls2AtOr (g : Guard) (s : Src)
  /-- LS2_AT_XOR (R211). Atomic xor. -/
  | ls2AtXor (g : Guard) (s : Src)
  /-- LS2_AT_MIN (R211). Atomic signed minimum. -/
  | ls2AtMin (g : Guard) (s : Src)
  /-- LS2_AT_MAX (R211). Atomic signed maximum. -/
  | ls2AtMax (g : Guard) (s : Src)
  /-- LS2_AT_MINU (R211). Atomic unsigned minimum. -/
  | ls2AtMinu (g : Guard) (s : Src)
  /-- LS2_AT_MAXU (R211). Atomic unsigned maximum. -/
  | ls2AtMaxu (g : Guard) (s : Src)
  /-- LS2_AT_FADD (R211). Atomic binary32 add. -/
  | ls2AtFadd (g : Guard) (s : Src)
  /-- LS2_AT_SWP (R211). Atomic swap, returning. -/
  | ls2AtSwp (g : Guard) (s : Src)
  /-- LS2_AT_CAS (R211). Atomic compare-and-swap, returning. -/
  | ls2AtCas (g : Guard) (s : Src)
  /-- LS2_LD_ACQ (R220). Block-final acquire load of 8 bytes at a scope. -/
  | ls2LdAcq (g : Guard) (s : Src)
  /-- LS2_ST_REL (R220). Block-final release store of 8 bytes at a scope. -/
  | ls2StRel (g : Guard) (s : Src)
  /-- LS2_ACQ (R142). Acquire a bollard and remove level-1 lines of its moored regions. -/
  | ls2Acq (g : Guard) (s : Src)
  /-- LS2_REL (R142). Release a bollard: write back moored dirty lines, set VAL, increment NREL. -/
  | ls2Rel (g : Guard) (s : Src)
  /-- LS2_FENCE (R144). Order consumer-path accesses after producer-path accesses at a scope. -/
  | ls2Fence (g : Guard) (s : Src)
  /-- LS2_MOOR (R140). Add a mooring entry binding a region to a bollard. -/
  | ls2Moor (g : Guard) (s : Src)
  /-- LS2_UNMOOR (R141). Remove mooring entries with a base and bollard. -/
  | ls2Unmoor (g : Guard) (s : Src)
  /-- LS2_POOL_SHARE (R125). Share a source block-table entry into a destination entry. -/
  | ls2PoolShare (g : Guard) (s : Src)
  /-- LS2_POOL_DROP (R125). Drop a block-table entry, releasing the block at count 0. -/
  | ls2PoolDrop (g : Guard) (s : Src)
  /-- LS2_POOL_ALLOC (R125). Allocate a cleared pool block into an entry. -/
  | ls2PoolAlloc (g : Guard) (s : Src)
  /-- LS2_XLINV (R223). Broadcast a translation invalidation of a scope. -/
  | ls2Xlinv (g : Guard) (s : Src)
  /-- LS2_XLWAIT (R224). Wait until the context's earlier invalidations are complete. -/
  | ls2Xlwait (g : Guard) (s : Src)
  /-- LS2_ICINV (R225). Invalidate instruction-cache lines of a virtual range device-wide. -/
  | ls2Icinv (g : Guard) (s : Src)
  /-- LS2_CWB (R225). Write back and merge the core's level-1 lines of a range. -/
  | ls2Cwb (g : Guard) (s : Src)
  /-- LS2_CINV (R225). As cwb, then invalidate the core's level-1 lines of the range. -/
  | ls2Cinv (g : Guard) (s : Src)
  /-- LS2_EA0 (R209). Address generation first + o. -/
  | ls2Ea0 (g : Guard) (s : Src)
  /-- LS2_EA1 (R209). Address generation first + o*2. -/
  | ls2Ea1 (g : Guard) (s : Src)
  /-- LS2_EA2 (R209). Address generation first + o*4. -/
  | ls2Ea2 (g : Guard) (s : Src)
  /-- LS2_EA3 (R209). Address generation first + o*8. -/
  | ls2Ea3 (g : Guard) (s : Src)
  /-- LS2_EA4 (R209). Address generation first + o*16. -/
  | ls2Ea4 (g : Guard) (s : Src)
  /-- LS2_EA5 (R209). Address generation first + o*32. -/
  | ls2Ea5 (g : Guard) (s : Src)
  /-- LS2_EA6 (R209). Address generation first + o*64. -/
  | ls2Ea6 (g : Guard) (s : Src)
  /-- MX6_TLD (R310). Load tile rows from a quay entry. -/
  | mx6Tld (g : Guard) (s : Src)
  /-- MX6_TLDV (R310). Load one tile row from a vector value. -/
  | mx6Tldv (g : Guard) (s : Src)
  /-- MX6_TST (R310). Push tile rows as one quay entry. -/
  | mx6Tst (g : Guard) (s : Src)
  /-- MX6_TRD (R310). Read one tile row into mx6.r. -/
  | mx6Trd (g : Guard) (s : Src)
  /-- MX6_SHSET (R304). Write a shape register, visible to later blocks. -/
  | mx6Shset (g : Guard) (s : Src)
  /-- MX6_SHGET (R308). Read a shape register. -/
  | mx6Shget (g : Guard) (s : Src)
  /-- MX6_STEP (R312). Matrix step: add exact products into an accumulator tile, rounded once to A40. -/
  | mx6Step (g : Guard) (s : Src)
  /-- MX6_AZERO (R315). Zero a run of accumulator tiles. -/
  | mx6Azero (g : Guard) (s : Src)
  /-- MX6_ARD (R315). Read a row segment of an accumulator tile as FP32 lanes. -/
  | mx6Ard (g : Guard) (s : Src)
  /-- MX6_AWR (R315). Write FP32 lanes widened into a row segment of an accumulator tile. -/
  | mx6Awr (g : Guard) (s : Src)
  /-- MX6_ACVT (R317). Convert accumulator rows to a format and push them to a quay. -/
  | mx6Acvt (g : Guard) (s : Src)
  /-- MX6_ACVTS (R317). Convert accumulator rows into the scratchpad. -/
  | mx6Acvts (g : Guard) (s : Src)
  /-- MX6_ALDQ (R315). Load accumulator rows of A40 from a quay entry. -/
  | mx6Aldq (g : Guard) (s : Src)
  /-- MX6_BCHAIN (R326). Set up a basin chain, reserving receive slots. -/
  | mx6Bchain (g : Guard) (s : Src)
  /-- MX6_BSEND (R329). Send one pass of a tile into a chain, adding arrivals at a middle hop. -/
  | mx6Bsend (g : Guard) (s : Src)
  /-- MX6_BWAIT (R329). Receive one pass of a chain and add it into the local tile. -/
  | mx6Bwait (g : Guard) (s : Src)
  /-- MX6_BFREE (R333). Release a chain's reservations and clear its entry. -/
  | mx6Bfree (g : Guard) (s : Src)
  /-- MX6_BSTS (R345). Return BNST, optionally clearing its CRC counters. -/
  | mx6Bsts (g : Guard) (s : Src)
  /-- MX6_RSTS (R320). Return MXST as left by earlier commands. -/
  | mx6Rsts (g : Guard) (s : Src)
  /-- MX6_RCLR (R320). Clear selected MXST sticky bits and residue counters. -/
  | mx6Rclr (g : Guard) (s : Src)
  /-- EX7_VLD_32 (R212). Vector load of 32 bytes. -/
  | ex7Vld32 (g : Guard) (s : Src)
  /-- EX7_VLD_64 (R212). Vector load of 64 bytes. -/
  | ex7Vld64 (g : Guard) (s : Src)
  /-- EX7_VLD_128 (R212). Vector load of 128 bytes. -/
  | ex7Vld128 (g : Guard) (s : Src)
  /-- EX7_SVLD_32 (R212). Scratchpad vector load of 32 bytes. -/
  | ex7Svld32 (g : Guard) (s : Src)
  /-- EX7_SVLD_64 (R212). Scratchpad vector load of 64 bytes. -/
  | ex7Svld64 (g : Guard) (s : Src)
  /-- EX7_SVLD_128 (R212). Scratchpad vector load of 128 bytes. -/
  | ex7Svld128 (g : Guard) (s : Src)
  /-- EX7_ELD (R213). Element load of block-formatted elements converted to FP32. -/
  | ex7Eld (g : Guard) (s : Src)
  /-- EX7_VST_32 (R212). Vector store of 32 bytes. -/
  | ex7Vst32 (g : Guard) (s : Src)
  /-- EX7_VST_64 (R212). Vector store of 64 bytes. -/
  | ex7Vst64 (g : Guard) (s : Src)
  /-- EX7_VST_128 (R212). Vector store of 128 bytes. -/
  | ex7Vst128 (g : Guard) (s : Src)
  /-- EX7_SVST_32 (R212). Scratchpad vector store of 32 bytes. -/
  | ex7Svst32 (g : Guard) (s : Src)
  /-- EX7_SVST_64 (R212). Scratchpad vector store of 64 bytes. -/
  | ex7Svst64 (g : Guard) (s : Src)
  /-- EX7_SVST_128 (R212). Scratchpad vector store of 128 bytes. -/
  | ex7Svst128 (g : Guard) (s : Src)
  /-- EX7_EST (R214). Element store of FP32 lanes into block-formatted elements. -/
  | ex7Est (g : Guard) (s : Src)
  /-- EX7_LAVG (R216). Level load: reconstruct a tree average. -/
  | ex7Lavg (g : Guard) (s : Src)
  /-- EX7_LAVG_HOME (R216). Level load performed at the tree's home. -/
  | ex7LavgHome (g : Guard) (s : Src)
  /-- EX7_LAVG_ROW (R216). Level load of 32 consecutive averages. -/
  | ex7LavgRow (g : Guard) (s : Src)
  /-- EX7_LAVG_ROW_HOME (R216). Row level load performed at the tree's home. -/
  | ex7LavgRowHome (g : Guard) (s : Src)
  /-- EX7_LDET (R216). Detail load of one coefficient. -/
  | ex7Ldet (g : Guard) (s : Src)
  /-- EX7_LDET_HOME (R216). Detail load performed at the tree's home. -/
  | ex7LdetHome (g : Guard) (s : Src)
  /-- EX7_TRST (R217). Tree store: a tree update of an average. -/
  | ex7Trst (g : Guard) (s : Src)
  /-- EX7_TDLD (R218). Load a 32-byte tree descriptor into a td register. -/
  | ex7Tdld (g : Guard) (s : Src)
  /-- EX7_Q_SET (R362). Set up or reset a quay. -/
  | ex7QSet (g : Guard) (s : Src)
  /-- EX7_Q_PUSH (R362). Push bytes of a vector value as one quay entry. -/
  | ex7QPush (g : Guard) (s : Src)
  /-- EX7_Q_POP (R362). Pop one quay entry into ex7.r. -/
  | ex7QPop (g : Guard) (s : Src)
  /-- EX7_Q_ADV (R362). Advance a quay's producer or consumer count by n. -/
  | ex7QAdv (g : Guard) (s : Src)
  /-- EX7_Q_STS (R362). Return a quay's state. -/
  | ex7QSts (g : Guard) (s : Src)
  /-- EX7_CP_REG (R348). Write a channel nest register. -/
  | ex7CpReg (g : Guard) (s : Src)
  /-- EX7_CP_GO (R347). Capture a channel's nest and queue it for the channel. -/
  | ex7CpGo (g : Guard) (s : Src)
  /-- EX7_CP_DRAIN (R359). Wait until a channel's earlier nests are drained and return CRES. -/
  | ex7CpDrain (g : Guard) (s : Src)
  /-- EX7_CP_STS (R352). Return a channel's CSTS. -/
  | ex7CpSts (g : Guard) (s : Src)
  /-- EX7_SQ_POST (R366). Post an NVMe submission entry and ring the drive's doorbell. -/
  | ex7SqPost (g : Guard) (s : Src)
  /-- EX7_SQ_CQACK (R366). Acknowledge completions and write the completion head doorbell. -/
  | ex7SqCqack (g : Guard) (s : Src)
  /-- BLOCK_ENTRY (R181). A block head is fetched and decoded whole, taking fetch or illegal-encoding faults. -/
  | blockEntry (core : Nat)
  /-- BUNDLE_PASS (R179). A slot passes a bundle once its timing conditions hold and dispatches its move. -/
  | bundlePass (core : Nat)
  /-- RESULT_LANDING (R177). A triggered operation's result or a load's data lands. -/
  | resultLanding (core : Nat) (id : Nat)
  /-- BLOCK_COMMIT (R174). A block commits when all its conditions hold, making writes architectural and releasing held operations. -/
  | blockCommit (core : Nat)
  /-- DENIAL_NOTICE (R39). A denial notice reaches the core and is delivered as access-denied fault 0x0C. -/
  | denialNotice (core : Nat)
  /-- POISON_NOTICE (R378). Poisoned data reaches the core and a machine check 0x70 is delivered. -/
  | poisonNotice (core : Nat)
  /-- ITERATION_BOUNDARY (R267). An iteration ends and the loop sequencer advances counts and stage predicates. -/
  | iterationBoundary (core : Nat)
  /-- TABLE_WALK (R18). A translation miss walks the page tables and installs or faults the translation. -/
  | tableWalk (die : Nat)
  /-- WALK_QUEUE_RETRY (R27). A miss that found the walk queue full retries after 64 reference cycles. -/
  | walkQueueRetry (die : Nat)
  /-- INVALIDATION_OBSERVED (R31). An invalidation reaches a die; TLBs and walk caches remove entries and walks restart. -/
  | invalidationObserved (id : Nat) (unit : Nat)
  /-- INVALIDATION_COMPLETE (R32). An invalidation becomes complete once all its conditions hold device-wide. -/
  | invalidationComplete (id : Nat)
  /-- COPY_ON_WRITE (R123). A shared block is copied to a popped block and the entry redirected. -/
  | copyOnWrite (core : Nat) (va : Nat)
  /-- ENTRY_INVALIDATION (R121). A broadcast entry invalidation completes across all block-entry caches. -/
  | entryInvalidation (pa : Nat)
  /-- L1_FILL (R93). A level-1 miss fills a line into its set, evicting a victim if needed. -/
  | l1Fill (core : Nat) (va : Nat)
  /-- ATOMIC_AT_HOME (R147). A returning atomic, swap or compare-and-swap is performed indivisibly at the line's home. -/
  | atomicAtHome (core : Nat)
  /-- TREE_UPDATE (R73). A tree update is performed at the tree's home, adjusting path details and root. -/
  | treeUpdate (core : Nat)
  /-- PACK_WRITE (R84). A write reaching the stack controller stores a pack and its tag in its pack mode. -/
  | packWrite (pack : Nat)
  /-- HBM_SCRUB (R116). The stack controller scrubs each populated line once per 24 hours. -/
  | hbmScrub (block : Nat)
  /-- PCIE_REQUESTER_ACCESS (R37). A PCIe requester transaction is split and checked at the root port, then performed or denied. -/
  | pcieRequesterAccess (port : Nat) (rid : Nat) (pa : Nat) (len : Nat) (write : Bool) (data : BitVec 1024)
  /-- FABRIC_REMOTE_ACCESS (R432). A remote access arriving on Berthlink is mapped to a MID and checked at ingress. -/
  | fabricRemoteAccess (link : Nat) (dev : Nat) (pa : Nat) (len : Nat) (kind : AccessKind) (mode : PackMode) (data : BitVec 1024)
  /-- ATINV_WRITE (R41). A write of ATINV starts invalidating a target's cached windows. -/
  | atinvWrite (target : Nat) (v : BitVec 64)
  /-- ATINV_COMPLETE (R40). The window invalidation finishes and BUSY clears. -/
  | atinvComplete (target : Nat)
  /-- L2MODE_WRITE (R108). A write of L2MODE is refused or starts a level-2 mode switch. -/
  | l2modeWrite (v : BitVec 64)
  /-- L2MODE_SWITCH_END (R108). The mode switch finishes, the new mode is set and BUSY clears. -/
  | l2modeSwitchEnd
  /-- RRCTL_WRITE (R110). A write of RRCTL enables or disables a range register, or is refused. -/
  | rrctlWrite (n : Nat) (v : BitVec 64)
  /-- KILLCTL_WRITE (R397). A write of KILLCTL starts the kill of a context. -/
  | killctlWrite (v : BitVec 64)
  /-- KILL_ABORT_TIMEOUT (R397). After 100 ms the root port denies an unresponsive drive and drains its writes. -/
  | killAbortTimeout (n : Nat)
  /-- KILL_COMPLETE (R398). The kill's steps finish; KSEQ is incremented as a system release and BUSY clears. -/
  | killComplete
  /-- REGISTER_WRITE (R446). A write to a register with no behaviour of its own. -/
  | registerWrite (pa : Nat) (v : BitVec 64)
  /-- CORE_TAKE_WORK (R251). An idle core takes its next work from the first yielding source. -/
  | coreTakeWork (core : Nat)
  /-- SCRATCHPAD_ZEROING (R96). The scratchpad of a new launch is zeroed and quays reset. -/
  | scratchpadZeroing (core : Nat)
  /-- TASK_START (R235). A task starts with zeroed registers and fixed special sources, as an acquire. -/
  | taskStart (core : Nat)
  /-- LAUNCH_START (R239). A mapped stream starts its head launch once ready and checks it. -/
  | launchStart (stream : Nat)
  /-- CREW_ADMISSION (R243). A crew holding C reserved cores starts all its members together. -/
  | crewAdmission
  /-- RECORD_COMPLETE (R148). A task's or record's completion drains its paths and acts as a device release. -/
  | recordComplete (core : Nat)
  /-- COPY_RECORD_RUN (R231). The record channel performs a ready copy record and completes it. -/
  | copyRecordRun (core : Nat)
  /-- SHARE_REPORT (R252). A cluster whose share is complete reports to its die, and a die to the device. -/
  | shareReport (slot : Nat) (cluster : Nat)
  /-- LAUNCH_COMPLETE (R254). The device writes the completion word, notifies, releases successors and frees the stream. -/
  | launchComplete (stream : Nat)
  /-- QUANTUM_BOUNDARY (R240). Every 250 µs waiting streams may replace mapped candidates. -/
  | quantumBoundary
  /-- STREAM_MAP (R240). A free slot is given to the waiting stream of highest effective priority. -/
  | streamMap
  /-- PREEMPTION_TAKEN (R391). A pre-emption allocates a frame and diverts fetch to the drain stub. -/
  | preemptionTaken (core : Nat)
  /-- STUB_TIMEOUT (R391). A stub that has not committed yield within 40 µs is forced to a kill. -/
  | stubTimeout (core : Nat)
  /-- YIELD_SAVE (R392). Once drained, the yielding task's state is saved and the core freed. -/
  | yieldSave (core : Nat)
  /-- FRAME_RESUME (R395). A core restores a pre-empted frame and continues at RESUME. -/
  | frameResume (core : Nat)
  /-- PARK_IN_PLACE (R387). Once drained, the parking task holds its core parked. -/
  | parkInPlace (core : Nat)
  /-- BARRIER_COMPLETE (R277). Every unended member has arrived and the crew barrier passes. -/
  | barrierComplete (crew : Nat)
  /-- WAIT_READY (R271). A ctl.wait becomes ready and takes recorded faults of named paths. -/
  | waitReady (core : Nat)
  /-- DRAIN_COMPLETE (R359). A channel drain completes, taking a recorded fault if FP = 1. -/
  | drainComplete (core : Nat)
  /-- MATRIX_COMMAND_FIRE (R305). A queued mx6 command fires in queue order once its quay or data are ready. -/
  | matrixCommandFire (core : Nat)
  /-- RESIDUE_RETRY (R319). A step whose residue check mismatched is performed again 32 matrix cycles later. -/
  | residueRetry (core : Nat) (ok : Bool)
  /-- EX7_COMMAND_FIRE (R361). A queued ex7 quay command fires once its quay has an entry or room. -/
  | ex7CommandFire (core : Nat)
  /-- NEST_COPY_EMIT (R351). A channel emits the next copy of its running nest. -/
  | nestCopyEmit (core : Nat) (ch : Nat)
  /-- ADD_ON_ROW_APPLY (R355). An arriving add-on-write row is applied in an eligible bank port slot. -/
  | addOnRowApply (core : Nat) (phase : Nat)
  /-- BASIN_ROW_ARRIVAL (R329). A basin row arrives at a receive slot, or a spill frame after the hop yielded. -/
  | basinRowArrival (core : Nat) (retries : Nat)
  /-- CHAIN_BROKEN (R335). The broken mark reaches a core and waiting chain commands take fault 0x06. -/
  | chainBroken (crew : Nat) (ch : Nat)
  /-- VOLTAGE_SETTLED (R406). A raised cluster voltage settles and pending faster divisors switch. -/
  | voltageSettled (cluster : Nat)
  /-- SAMPLE_WINDOW_BOUNDARY (R411). Every 10 µs stall samples close, PLVL may step and throttle duty changes. -/
  | sampleWindowBoundary (levels : List Nat)
  /-- THERMAL_LIMIT_CHANGE (R419). The hottest junction crosses a band and the thermal limit is announced. -/
  | thermalLimitChange (zone : Nat) (celsius : Nat)
  /-- EMERGENCY_SAVE (R422). A junction reaches 108 °C and the module saves its launches and halts. -/
  | emergencySave
  /-- POWER_CUT (R424). At 118 °C the module removes its own power. -/
  | powerCut
  /-- ROUND_BOUNDARY (R414). At each round boundary releases, joins, leaves and evictions take effect. -/
  | roundBoundary
  /-- NOTICE_EFFECT (R414). A notice's GT is reached and the ceiling is recomputed. -/
  | noticeEffect
  /-- HEARTBEAT_SEND (R415). Every 100 µs a member sends HEARTBEAT. -/
  | heartbeatSend
  /-- SILENCE_TIMEOUT (R416). No message from a member for 500 µs makes it silent. -/
  | silenceTimeout (dev : Nat)
  /-- EVICT_TIMEOUT (R416). A member silent 5 ms is named in EVICT by the leader. -/
  | evictTimeout (dev : Nat)
  /-- JOIN_TIMEOUT (R417). No JOIN_ACK within 2 ms returns the joiner to OUT with FAIL. -/
  | joinTimeout
  /-- TIDECTL_WRITE (R417). A write of TIDECTL.EN starts a join or a leave. -/
  | tidectlWrite (v : BitVec 64)
  /-- TIME_SYNC_SEND (R436). Once per round a member sends TIME_REQ to the time source. -/
  | timeSyncSend
  /-- HEARTBEAT (R416). A received HEARTBEAT ends silence and changes no limit. -/
  | heartbeat (m : Msg)
  /-- NOTICE (R415). A received NOTICE adds a limit that counts from its GT. -/
  | notice (m : Msg)
  /-- RELEASE (R415). A received RELEASE schedules a base limit change for its round. -/
  | release (m : Msg)
  /-- JOIN_REQ (R417). The leader receives JOIN_REQ and answers with JOIN_ACK and JOIN. -/
  | joinReq (m : Msg)
  /-- JOIN_ACK (R417). The joiner receives the group state and steps its time. -/
  | joinAck (m : Msg) (rest : List (BitVec 64))
  /-- JOIN (R417). A member schedules the joiner's entry for the named round. -/
  | join (m : Msg)
  /-- LEAVE (R417). A member schedules another's departure at the named round. -/
  | leave (m : Msg)
  /-- EVICT (R416). A member schedules removal of the named device. -/
  | evict (m : Msg)
  /-- TIME_REQ (R436). The time source stamps a request and answers with TIME_RSP. -/
  | timeReq (m : Msg)
  /-- TIME_RSP (R436). A member computes its offset and slews or steps GTIME. -/
  | timeRsp (m : Msg)
  /-- FLOW (R420). The rack reports a zone's measured coolant flow. -/
  | flow (zone : Nat) (value : Nat)
  /-- ACK (R420). The rack acknowledges a coolant frame. -/
  | ack (seq : Nat)
  /-- ACK_TIMEOUT (R420). An ACK missing for 1 ms counts a lost frame; three make the port unresponsive. -/
  | ackTimeout
  /-- VALVE_REFRESH (R420). The module sends VALVE for each zone at least every 10 ms. -/
  | valveRefresh (zone : Nat) (value : Nat)
  /-- LAUNCH (R238). A LAUNCH message appends a launch record, or is refused with a fault notice. -/
  | launch (link : Nat) (m : Msg)
  /-- COMPLETE (R431). A received COMPLETE is stored in the COMPLETE ring or dropped. -/
  | complete (m : Msg)
  /-- FAULT (R434). A FAULT notice about a denial, refused launch or link down is received. -/
  | fault (m : Msg)
  /-- MGMT_REGISTER_READ (R439). Management register read answered with the value. -/
  | mgmtRegisterRead (m : Msg)
  /-- MGMT_REGISTER_WRITE (R439). Management register write. -/
  | mgmtRegisterWrite (m : Msg)
  /-- MGMT_ATTESTATION (R437). Return a signed attestation report for a nonce. -/
  | mgmtAttestation (m : Msg) (nonce : BitVec 256)
  /-- MGMT_RESTART (R439). Cold restart or resume of the save image, with a restart report. -/
  | mgmtRestart (m : Msg)
  /-- MGMT_STATUS (R439). Return running, recovery or halted status. -/
  | mgmtStatus (m : Msg)
  /-- LINK_LANE_SHED (R435). A link sheds lanes, pausing and resending unacknowledged ordered flits. -/
  | linkLaneShed (link : Nat)
  /-- LINK_DOWN (R435). A link that cannot resume within 2 µs is declared down and its ordered accesses fault. -/
  | linkDown (link : Nat)
  /-- RESET (R438). The boot ROM brings up links, verifies firmware, trains HBM and awaits the host. -/
  | reset
  /-- ACCESS_AT_TARGET (R35). A plain load, store, write-combining entry, write-back, merge or copy of a local core or engine reaches its level-2 home or other target, is checked against the access table, performed or denied, and acknowledged. -/
  | accessAtTarget (core : Nat)
  /-- ECC_ERROR (R90). A correctable or uncorrectable error arises in an ECC-protected register file, array, cache, tag store or HBM, to be corrected, refetched or turned into poison. -/
  | eccError (unit : EccUnit) (n : Nat) (corrected : Bool)
  /-- LINK_RESUME (R435). A link that shed lanes resumes within 2 µs and resends its unacknowledged ordered flits in order. -/
  | linkResume (link : Nat)
  /-- VOLTAGE_LOWERING_DONE (R409). A lowering of a cluster's voltage reaches the new target, and a vset that lowered it completes. -/
  | voltageLoweringDone (cluster : Nat)
  /-- ICINV_COMPLETE (R225). Every instruction cache has removed the lines of an icinv range, and the issuing task may fetch its next block. -/
  | icinvComplete (core : Nat)
  /-- UNKNOWN_MESSAGE_TYPE (R434). A message with an unknown TYPE arrives on Berthlink and is discarded and answered with FAULT cause 1. -/
  | unknownMessageType (m : Msg)
deriving DecidableEq, Repr

end Sys2Proof
end

