-- ==== Sys2Proof/Decode.lean ====
section
/-!
DEFINITION. Decoding and encoding of parcels (06 R161 to R168, 07 R189 to R201, 11 R282, R291).

A move parcel does not name its slot: its bundle does (06 R161). `decodeParcel` therefore takes the slot.
The decoder is total: a code that no rule assigns gives `none`, and so the fate of R200.

The runtime of Lean gives the constructors of one inductive at most 244 tags, and `Instr` has one for each of the 377
rows: what builds an instruction beyond them is marked noncomputable, which its meaning in the kernel does not depend on.
`parcelDefined` has a compiled form beside it that is proved equal to it.
-/

namespace Sys2Proof

/-- The slots in ascending order. -/
def slots : List Slot := [.s0, .s1, .s2, .s3, .s4, .s5, .s6, .s7]

/-- The number of a slot (06 R158). -/
def Slot.num : Slot → Nat
  | .s0 => 0 | .s1 => 1 | .s2 => 2 | .s3 => 3 | .s4 => 4 | .s5 => 5 | .s6 => 6 | .s7 => 7

/-- The paired slot, s xor 1 (06 R158). -/
def Slot.paired : Slot → Slot
  | .s0 => .s1 | .s1 => .s0 | .s2 => .s3 | .s3 => .s2 | .s4 => .s5 | .s5 => .s4 | .s6 => .s7 | .s7 => .s6

/-- The number of operand ports of the slot's unit (07 R190). -/
def Slot.oports : Slot → Nat
  | .s0 => 4 | .s1 => 2 | .s2 => 3 | .s3 => 4 | .s4 => 4 | .s5 => 3 | .s6 => 4 | .s7 => 8

/-- Whether the slot reads file B (06 R158). -/
def Slot.fileB : Slot → Bool
  | .s0 | .s1 | .s2 | .s3 => false
  | .s4 | .s5 | .s6 | .s7 => true

/-- Slots 3 and 4 name registers of the other file (06 R160). -/
def Slot.crosses : Slot → Bool
  | .s3 | .s4 => true
  | _ => false

def VexUnit.slot : VexUnit → Slot
  | .vex3 => .s3 | .vex4 => .s4

def ExitSlot.slot : ExitSlot → Slot
  | .ctl => .s0 | .ix1 => .s1 | .ls2 => .s2

/-- The width code W of 07 R194. -/
def Width.code : Width → BitVec 2
  | .w256 => 0 | .w512 => 1 | .w1024 => 2

def Width.ofCode : BitVec 2 → Option Width
  | 0#2 => some .w256 | 1#2 => some .w512 | 2#2 => some .w1024 | _ => none

/-- The width in bits (07 R194). -/
def Width.bits : Width → Nat
  | .w256 => 256 | .w512 => 512 | .w1024 => 1024

/-! ### Guards (06 R164) -/

def decodeGuard (b : BitVec 5) : Option Guard :=
  let n := b.extractLsb' 0 3
  match b.extractLsb' 3 2 with
  | 0#2 => if n = 0 then some .always else none
  | 1#2 => some (.p n)
  | 2#2 => some (.q n)
  | _ => some (.notP n)

def encodeGuard : Guard → BitVec 5
  | .always => 0
  | .p n => 1#2 ++ n
  | .q n => 2#2 ++ n
  | .notP n => 3#2 ++ n

/-! ### Sources (06 R165, R167, 07 R198) -/

/-- The special source of SRC 0x080 + x (07 R198). -/
def decodeSpecial (x : BitVec 7) : Option Special :=
  match x.toNat with
  | 0 => some .coreNum
  | 1 => some .devn
  | 2 => some (.tc 0) | 3 => some (.tc 1) | 4 => some (.tc 2)
  | 5 => some .rank
  | 6 => some .crewn
  | 7 => some .trec
  | 8 => some (.li 0) | 9 => some (.li 1) | 10 => some (.li 2)
  | 11 => some (.li 3) | 12 => some (.li 4) | 13 => some (.li 5)
  | 14 => some .qall
  | 15 => some .pall
  | 16 => some (.ca 0) | 17 => some (.ca 1) | 18 => some (.ca 2) | 19 => some (.ca 3)
  | 20 => some (.ca 4) | 21 => some (.ca 5) | 22 => some (.ca 6) | 23 => some (.ca 7)
  | 24 => some .rcyc
  | 25 => some .plvl
  | _ => none

def encodeSpecial : Special → BitVec 7
  | .coreNum => 0
  | .devn => 1
  | .tc d => 2 + d.setWidth 7
  | .rank => 5
  | .crewn => 6
  | .trec => 7
  | .li l => 8 + l.setWidth 7
  | .qall => 14
  | .pall => 15
  | .ca j => 16 + j.setWidth 7
  | .rcyc => 24
  | .plvl => 25

/-- The long-immediate form of SRC 0x100 + x (06 R167). -/
def decodeLong (x : BitVec 8) : Option LongForm :=
  match x.toNat with
  | 0 => some .w0
  | 1 => some .w1
  | 2 => some .w2
  | 4 => some .w1w0
  | 5 => some .w2w1
  | 6 => some .w2w1w0
  | _ => none

def encodeLong : LongForm → BitVec 8
  | .w0 => 0 | .w1 => 1 | .w2 => 2 | .w1w0 => 4 | .w2w1 => 5 | .w2w1w0 => 6

/-- The highest long-immediate parcel that a form reads (07 R201). -/
def LongForm.lastParcel : LongForm → Nat
  | .w0 => 0 | .w1 => 1 | .w1w0 => 1 | .w2 => 2 | .w2w1 => 2 | .w2w1w0 => 2

def decodeSrc (b : BitVec 10) : Option Src :=
  if b.getLsbD 9 then some (.short (b.extractLsb' 0 9))
  else if b.getLsbD 8 then (decodeLong (b.extractLsb' 0 8)).map .long
  else if b.getLsbD 7 then (decodeSpecial (b.extractLsb' 0 7)).map .special
  else if b.getLsbD 6 then
    if b.extractLsb' 1 4 = 0 then
      (if b.getLsbD 5 then some (.pairedResult (b.getLsbD 0)) else some (.result (b.getLsbD 0)))
    else none
  else if b.getLsbD 5 then
    if b.getLsbD 4 then
      (if b.getLsbD 3 then some (.mask (b.extractLsb' 0 3)) else some (.pred (b.extractLsb' 0 3)))
    else some (.vreg (b.extractLsb' 0 4))
  else some (.sreg (b.extractLsb' 0 5))

def encodeSrc : Src → BitVec 10
  | .sreg n => 0#5 ++ n
  | .vreg n => 2#6 ++ n
  | .pred n => 6#7 ++ n
  | .mask n => 7#7 ++ n
  | .result s => 32#9 ++ BitVec.ofBool s
  | .pairedResult s => 48#9 ++ BitVec.ofBool s
  | .special x => 1#3 ++ encodeSpecial x
  | .long f => 1#2 ++ encodeLong f
  | .short i => 1#1 ++ i

/-! ### Destinations that are no trigger (06 R166, 07 R190) -/

def decodeDst (s : Slot) (b : BitVec 8) : Option Dst :=
  let n5 := b.extractLsb' 0 5
  let n3 := b.extractLsb' 0 3
  match b.extractLsb' 5 3 with
  | 0#3 => some (.sreg n5)
  | 1#3 =>
    if b.getLsbD 4 then
      (if b.getLsbD 3 then some (.mask n3) else some (.pred n3))
    else some (.vreg (b.extractLsb' 0 4))
  | 2#3 => if s.crosses then some (.otherSreg n5) else none
  | 3#3 => if s.crosses && !b.getLsbD 4 then some (.otherVreg (b.extractLsb' 0 4)) else none
  | 4#3 => if n5.toNat < s.oports then some (.oport n3) else none
  | 5#3 => if n5.toNat < s.paired.oports then some (.pairedOport n3) else none
  | _ => none

def encodeDst : Dst → BitVec 8
  | .sreg n => 0#3 ++ n
  | .vreg n => 2#4 ++ n
  | .pred n => 6#5 ++ n
  | .mask n => 7#5 ++ n
  | .otherSreg n => 2#3 ++ n
  | .otherVreg n => 6#4 ++ n
  | .oport n => 16#5 ++ n
  | .pairedOport n => 20#5 ++ n

/-! ### Trigger opcodes (07 R193 to R197) -/

/-- Opcodes of `ctl` (10 R265, R270 to R272, 18 R382, 20 R407). -/
def decodeCtl (g : Guard) (s : Src) (op : Nat) : Option Instr :=
  match op with
  | 0x00 => some (.ctlLvl g s)
  | 0x01 => some (.ctlCabase g s)
  | 0x02 => some (.ctlCastr g s)
  | 0x08 => some (.ctlLoop g s)
  | 0x10 => some (.ctlBsel g s)
  | 0x20 => some (.ctlWait g s)
  | 0x30 => some (.ctlFork g s)
  | 0x31 => some (.ctlJoin g s)
  | 0x32 => some (.ctlSpawn g s)
  | 0x33 => some (.ctlLaunch g s)
  | 0x34 => some (.ctlDone g s)
  | 0x38 => some (.ctlBar g s)
  | 0x50 => some (.ctlSrd g s)
  | 0x51 => some (.ctlSwr g s)
  | 0x52 => some (.ctlTrap g s)
  | 0x53 => some (.ctlRfe g s)
  | 0x54 => some (.ctlPark g s)
  | 0x55 => some (.ctlAbort g s)
  | 0x56 => some (.ctlYield g s)
  | 0x57 => some (.ctlUnpark g s)
  | 0x70 => some (.ctlClkset g s)
  | 0x71 => some (.ctlVset g s)
  | 0x72 => some (.ctlClkrd g s)
  | 0x73 => some (.ctlSwsel g s)
  | _ => none

/-- Opcodes of `ix1` (10 R257, R259, R260). -/
def decodeIx1 (g : Guard) (s : Src) (op : Nat) : Option Instr :=
  match op with
  | 0x00 => some (.ix1Add g s)
  | 0x01 => some (.ix1Sub g s)
  | 0x02 => some (.ix1Adds g s)
  | 0x03 => some (.ix1Subs g s)
  | 0x04 => some (.ix1And g s)
  | 0x05 => some (.ix1Or g s)
  | 0x06 => some (.ix1Xor g s)
  | 0x07 => some (.ix1Andn g s)
  | 0x08 => some (.ix1Shl g s)
  | 0x09 => some (.ix1Shr g s)
  | 0x0A => some (.ix1Sar g s)
  | 0x0B => some (.ix1Rol g s)
  | 0x0C => some (.ix1Min g s)
  | 0x0D => some (.ix1Max g s)
  | 0x0E => some (.ix1Minu g s)
  | 0x0F => some (.ix1Maxu g s)
  | 0x10 => some (.ix1Clts g s)
  | 0x11 => some (.ix1Cltu g s)
  | 0x12 => some (.ix1Ceq g s)
  | 0x13 => some (.ix1Cne g s)
  | 0x14 => some (.ix1Cles g s)
  | 0x15 => some (.ix1Cleu g s)
  | 0x20 => some (.ix1Shl8 g s)
  | 0x21 => some (.ix1Shl16 g s)
  | 0x22 => some (.ix1Shl32 g s)
  | 0x24 => some (.ix1Shr8 g s)
  | 0x25 => some (.ix1Shr16 g s)
  | 0x26 => some (.ix1Shr32 g s)
  | 0x28 => some (.ix1Sar8 g s)
  | 0x29 => some (.ix1Sar16 g s)
  | 0x2A => some (.ix1Sar32 g s)
  | 0x2C => some (.ix1Add8 g s)
  | 0x2D => some (.ix1Add16 g s)
  | 0x2E => some (.ix1Add32 g s)
  | 0x40 => some (.ix1Mul g s)
  | 0x41 => some (.ix1Mulu g s)
  | 0x44 => some (.ix1Div g s)
  | 0x45 => some (.ix1Divu g s)
  | 0x46 => some (.ix1Rem g s)
  | 0x47 => some (.ix1Remu g s)
  | 0x50 => some (.ix1Bext g s)
  | 0x51 => some (.ix1Bexts g s)
  | 0x52 => some (.ix1Bins g s)
  | 0x54 => some (.ix1Clz g s)
  | 0x55 => some (.ix1Ctz g s)
  | 0x56 => some (.ix1Popc g s)
  | 0x57 => some (.ix1Brev g s)
  | 0x58 => some (.ix1Bswap g s)
  | _ => none

/-- Opcodes of `ls2` (08 R208 to R225). -/
def decodeLs2 (g : Guard) (s : Src) (op : Nat) : Option Instr :=
  match op with
  | 0x00 => some (.ls2LdB g s)
  | 0x01 => some (.ls2LdH g s)
  | 0x02 => some (.ls2LdW g s)
  | 0x03 => some (.ls2LdD g s)
  | 0x04 => some (.ls2LdBs g s)
  | 0x05 => some (.ls2LdHs g s)
  | 0x06 => some (.ls2LdWs g s)
  | 0x08 => some (.ls2SldB g s)
  | 0x09 => some (.ls2SldH g s)
  | 0x0A => some (.ls2SldW g s)
  | 0x0B => some (.ls2SldD g s)
  | 0x0C => some (.ls2SldBs g s)
  | 0x0D => some (.ls2SldHs g s)
  | 0x0E => some (.ls2SldWs g s)
  | 0x10 => some (.ls2LdioB g s)
  | 0x11 => some (.ls2LdioH g s)
  | 0x12 => some (.ls2LdioW g s)
  | 0x13 => some (.ls2LdioD g s)
  | 0x20 => some (.ls2StB g s)
  | 0x21 => some (.ls2StH g s)
  | 0x22 => some (.ls2StW g s)
  | 0x23 => some (.ls2StD g s)
  | 0x28 => some (.ls2SstB g s)
  | 0x29 => some (.ls2SstH g s)
  | 0x2A => some (.ls2SstW g s)
  | 0x2B => some (.ls2SstD g s)
  | 0x30 => some (.ls2AtAdd g s)
  | 0x31 => some (.ls2AtAnd g s)
  | 0x32 => some (.ls2AtOr g s)
  | 0x33 => some (.ls2AtXor g s)
  | 0x34 => some (.ls2AtMin g s)
  | 0x35 => some (.ls2AtMax g s)
  | 0x36 => some (.ls2AtMinu g s)
  | 0x37 => some (.ls2AtMaxu g s)
  | 0x38 => some (.ls2AtFadd g s)
  | 0x39 => some (.ls2AtSwp g s)
  | 0x3A => some (.ls2AtCas g s)
  | 0x50 => some (.ls2LdAcq g s)
  | 0x51 => some (.ls2StRel g s)
  | 0x52 => some (.ls2Acq g s)
  | 0x53 => some (.ls2Rel g s)
  | 0x54 => some (.ls2Fence g s)
  | 0x55 => some (.ls2Moor g s)
  | 0x56 => some (.ls2Unmoor g s)
  | 0x60 => some (.ls2PoolShare g s)
  | 0x61 => some (.ls2PoolDrop g s)
  | 0x62 => some (.ls2PoolAlloc g s)
  | 0x64 => some (.ls2Xlinv g s)
  | 0x65 => some (.ls2Xlwait g s)
  | 0x66 => some (.ls2Icinv g s)
  | 0x68 => some (.ls2Cwb g s)
  | 0x69 => some (.ls2Cinv g s)
  | 0x70 => some (.ls2Ea0 g s)
  | 0x71 => some (.ls2Ea1 g s)
  | 0x72 => some (.ls2Ea2 g s)
  | 0x73 => some (.ls2Ea3 g s)
  | 0x74 => some (.ls2Ea4 g s)
  | 0x75 => some (.ls2Ea5 g s)
  | 0x76 => some (.ls2Ea6 g s)
  | _ => none

/-- Functions f of `vex3` and `vex4` (11 R283). -/
def decodeVex (u : VexUnit) (w : Width) (g : Guard) (s : Src) (op : Nat) : Option Instr :=
  match op with
  | 0x00 => some (.vexAdd u w g s)
  | 0x01 => some (.vexSub u w g s)
  | 0x02 => some (.vexAdds u w g s)
  | 0x03 => some (.vexSubs u w g s)
  | 0x04 => some (.vexMin u w g s)
  | 0x05 => some (.vexMax u w g s)
  | 0x06 => some (.vexAbs u w g s)
  | 0x07 => some (.vexNeg u w g s)
  | 0x08 => some (.vexAnd u w g s)
  | 0x09 => some (.vexOr u w g s)
  | 0x0A => some (.vexXor u w g s)
  | 0x0B => some (.vexAndn u w g s)
  | 0x0C => some (.vexShl u w g s)
  | 0x0D => some (.vexShr u w g s)
  | 0x0E => some (.vexSar u w g s)
  | 0x10 => some (.vexMul u w g s)
  | 0x11 => some (.vexFma u w g s)
  | 0x12 => some (.vexFms u w g s)
  | 0x13 => some (.vexFnma u w g s)
  | 0x18 => some (.vexCeq u w g s)
  | 0x19 => some (.vexCne u w g s)
  | 0x1A => some (.vexClt u w g s)
  | 0x1B => some (.vexCle u w g s)
  | 0x1C => some (.vexCdet u w g s)
  | 0x1D => some (.vexSel u w g s)
  | 0x20 => some (.vexCvt u w g s)
  | 0x28 => some (.vexPerm u w g s)
  | 0x29 => some (.vexBcast u w g s)
  | 0x2A => some (.vexSlide u w g s)
  | 0x30 => some (.vexRsum u w g s)
  | 0x31 => some (.vexRmin u w g s)
  | 0x32 => some (.vexRmax u w g s)
  | _ => none

/-- Opcodes 0xC0 to 0xFF of `vex3` and `vex4` (11 R291). -/
def decodeVt (u : VexUnit) (g : Guard) (s : Src) (op : Nat) : Option Instr :=
  match op with
  | 0xC0 => some (.vtset u g s)
  | 0xC1 => some (.vtget u g s)
  | 0xC2 => some (.vtthr u g s)
  | 0xC3 => some (.vtclr u g s)
  | 0xC8 => some (.kand u g s)
  | 0xC9 => some (.kor u g s)
  | 0xCA => some (.kxor u g s)
  | 0xCB => some (.kandn u g s)
  | 0xCC => some (.knot u g s)
  | 0xCD => some (.kgen u g s)
  | 0xCE => some (.kpopc u g s)
  | 0xCF => some (.kffs u g s)
  | _ => none

/-- Functions f of `sfx5` (11 R292). -/
def decodeSfx (w : Width) (g : Guard) (s : Src) (op : Nat) : Option Instr :=
  match op with
  | 0x00 => some (.sfx5Rcp w g s)
  | 0x01 => some (.sfx5Rsqrt w g s)
  | 0x02 => some (.sfx5Sqrt w g s)
  | 0x03 => some (.sfx5Div w g s)
  | 0x04 => some (.sfx5Exp2 w g s)
  | 0x05 => some (.sfx5Log2 w g s)
  | 0x06 => some (.sfx5Tanh w g s)
  | 0x07 => some (.sfx5Sigm w g s)
  | 0x08 => some (.sfx5Sinpi w g s)
  | 0x09 => some (.sfx5Cospi w g s)
  | _ => none

/-- Opcodes 0xC0 to 0xFF of `sfx5`, the second integer ALU (07 R195). -/
def decodeAlu2 (g : Guard) (s : Src) (op : Nat) : Option Instr :=
  match op with
  | 0xC0 => some (.sfx5Add g s)
  | 0xC1 => some (.sfx5Sub g s)
  | 0xC2 => some (.sfx5Adds g s)
  | 0xC3 => some (.sfx5Subs g s)
  | 0xC4 => some (.sfx5And g s)
  | 0xC5 => some (.sfx5Or g s)
  | 0xC6 => some (.sfx5Xor g s)
  | 0xC7 => some (.sfx5Andn g s)
  | 0xC8 => some (.sfx5Shl g s)
  | 0xC9 => some (.sfx5Shr g s)
  | 0xCA => some (.sfx5Sar g s)
  | 0xCB => some (.sfx5Rol g s)
  | 0xCC => some (.sfx5Min g s)
  | 0xCD => some (.sfx5Max g s)
  | 0xCE => some (.sfx5Minu g s)
  | 0xCF => some (.sfx5Maxu g s)
  | 0xD0 => some (.sfx5Clts g s)
  | 0xD1 => some (.sfx5Cltu g s)
  | 0xD2 => some (.sfx5Ceq g s)
  | 0xD3 => some (.sfx5Cne g s)
  | 0xD4 => some (.sfx5Cles g s)
  | 0xD5 => some (.sfx5Cleu g s)
  | 0xE0 => some (.sfx5Shl8 g s)
  | 0xE1 => some (.sfx5Shl16 g s)
  | 0xE2 => some (.sfx5Shl32 g s)
  | 0xE4 => some (.sfx5Shr8 g s)
  | 0xE5 => some (.sfx5Shr16 g s)
  | 0xE6 => some (.sfx5Shr32 g s)
  | 0xE8 => some (.sfx5Sar8 g s)
  | 0xE9 => some (.sfx5Sar16 g s)
  | 0xEA => some (.sfx5Sar32 g s)
  | 0xEC => some (.sfx5Add8 g s)
  | 0xED => some (.sfx5Add16 g s)
  | 0xEE => some (.sfx5Add32 g s)
  | _ => none

/-- Opcodes of `mx6` (13 R308, 14 R324). -/
noncomputable def decodeMx6 (g : Guard) (s : Src) (op : Nat) : Option Instr :=
  match op with
  | 0x00 => some (.mx6Tld g s)
  | 0x01 => some (.mx6Tldv g s)
  | 0x02 => some (.mx6Tst g s)
  | 0x03 => some (.mx6Trd g s)
  | 0x08 => some (.mx6Shset g s)
  | 0x09 => some (.mx6Shget g s)
  | 0x20 => some (.mx6Step g s)
  | 0x30 => some (.mx6Azero g s)
  | 0x31 => some (.mx6Ard g s)
  | 0x32 => some (.mx6Awr g s)
  | 0x33 => some (.mx6Acvt g s)
  | 0x34 => some (.mx6Acvts g s)
  | 0x35 => some (.mx6Aldq g s)
  | 0x50 => some (.mx6Bchain g s)
  | 0x51 => some (.mx6Bsend g s)
  | 0x52 => some (.mx6Bwait g s)
  | 0x53 => some (.mx6Bfree g s)
  | 0x54 => some (.mx6Bsts g s)
  | 0x70 => some (.mx6Rsts g s)
  | 0x71 => some (.mx6Rclr g s)
  | _ => none

/-- Opcodes of `ex7` (08 R212 to R218, 15 R352, R362, R366). -/
noncomputable def decodeEx7 (g : Guard) (s : Src) (op : Nat) : Option Instr :=
  match op with
  | 0x00 => some (.ex7Vld32 g s)
  | 0x01 => some (.ex7Vld64 g s)
  | 0x02 => some (.ex7Vld128 g s)
  | 0x04 => some (.ex7Svld32 g s)
  | 0x05 => some (.ex7Svld64 g s)
  | 0x06 => some (.ex7Svld128 g s)
  | 0x08 => some (.ex7Eld g s)
  | 0x10 => some (.ex7Vst32 g s)
  | 0x11 => some (.ex7Vst64 g s)
  | 0x12 => some (.ex7Vst128 g s)
  | 0x14 => some (.ex7Svst32 g s)
  | 0x15 => some (.ex7Svst64 g s)
  | 0x16 => some (.ex7Svst128 g s)
  | 0x18 => some (.ex7Est g s)
  | 0x20 => some (.ex7Lavg g s)
  | 0x21 => some (.ex7LavgHome g s)
  | 0x22 => some (.ex7LavgRow g s)
  | 0x23 => some (.ex7LavgRowHome g s)
  | 0x24 => some (.ex7Ldet g s)
  | 0x25 => some (.ex7LdetHome g s)
  | 0x28 => some (.ex7Trst g s)
  | 0x30 => some (.ex7Tdld g s)
  | 0x40 => some (.ex7QSet g s)
  | 0x41 => some (.ex7QPush g s)
  | 0x42 => some (.ex7QPop g s)
  | 0x43 => some (.ex7QAdv g s)
  | 0x44 => some (.ex7QSts g s)
  | 0x60 => some (.ex7CpReg g s)
  | 0x61 => some (.ex7CpGo g s)
  | 0x62 => some (.ex7CpDrain g s)
  | 0x63 => some (.ex7CpSts g s)
  | 0x90 => some (.ex7SqPost g s)
  | 0x91 => some (.ex7SqCqack g s)
  | _ => none

/-- Exit opcodes 0xF0 to 0xFF of `ctl`, `ix1` and `ls2` (10 R262). -/
def decodeExit (x : ExitSlot) (g : Guard) (s : Src) (op : Nat) : Option Instr :=
  match op with
  | 0xF0 => some (.exitBr x g s)
  | 0xF1 => some (.exitJmp x g s)
  | 0xF2 => some (.exitCall x g s)
  | 0xF3 => some (.exitCalla x g s)
  | 0xF4 => some (.exitRet x g s)
  | _ => none

/-- The instruction of trigger opcode `op` in slots 0 to 5. -/
def decodeLow (sl : Slot) (op : BitVec 8) (g : Guard) (s : Src) : Option Instr :=
  let n := op.toNat
  let f := (op.extractLsb' 0 6).toNat
  let w := Width.ofCode (op.extractLsb' 6 2)
  match sl with
  | .s0 => if n < 0xF0 then decodeCtl g s n else decodeExit .ctl g s n
  | .s1 => if n < 0xF0 then decodeIx1 g s n else decodeExit .ix1 g s n
  | .s2 => if n < 0xF0 then decodeLs2 g s n else decodeExit .ls2 g s n
  | .s3 => match w with
    | some w => decodeVex .vex3 w g s f
    | none => decodeVt .vex3 g s n
  | .s4 => match w with
    | some w => decodeVex .vex4 w g s f
    | none => decodeVt .vex4 g s n
  | .s5 => match w with
    | some w => decodeSfx w g s f
    | none => decodeAlu2 g s n
  | .s6 | .s7 => none

/-- The instruction of trigger opcode `op` in slot `sl`. -/
noncomputable def decodeTrigger (sl : Slot) (op : BitVec 8) (g : Guard) (s : Src) : Option Instr :=
  match sl with
  | .s6 => decodeMx6 g s op.toNat
  | .s7 => decodeEx7 g s op.toNat
  | sl => decodeLow sl op g s

/-- A move of slot `sl` with destination code `d` (06 R166). -/
noncomputable def decodeBody (sl : Slot) (g : Guard) (s : Src) (d : BitVec 9) : Option Instr :=
  if d.getLsbD 8 then decodeTrigger sl (d.extractLsb' 0 8) g s
  else (decodeDst sl (d.extractLsb' 0 8)).map (Instr.move sl g s)

/-- The instruction of move parcel `p` in slot `sl` (06 R163), `none` for a code that R200 makes illegal. -/
noncomputable def decodeParcel (sl : Slot) (p : Parcel) : Option Instr :=
  match decodeGuard (p.extractLsb' 19 5), decodeSrc (p.extractLsb' 9 10) with
  | some g, some s => decodeBody sl g s (p.extractLsb' 0 9)
  | _, _ => none

/-- Whether parcel `p` of slot `sl` is an instruction (R200). -/
noncomputable def parcelDefined (sl : Slot) (p : Parcel) : Bool := (decodeParcel sl p).isSome

/-- The trigger opcodes of `mx6`. -/
def mx6Ops : List Nat :=
  [0x00, 0x01, 0x02, 0x03, 0x08, 0x09, 0x20, 0x30, 0x31, 0x32, 0x33, 0x34, 0x35, 0x50, 0x51, 0x52, 0x53,
   0x54, 0x70, 0x71]

/-- The trigger opcodes of `ex7`. -/
def ex7Ops : List Nat :=
  [0x00, 0x01, 0x02, 0x04, 0x05, 0x06, 0x08, 0x10, 0x11, 0x12, 0x14, 0x15, 0x16, 0x18, 0x20, 0x21, 0x22,
   0x23, 0x24, 0x25, 0x28, 0x30, 0x40, 0x41, 0x42, 0x43, 0x44, 0x60, 0x61, 0x62, 0x63, 0x90, 0x91]

theorem decodeMx6_isSome (g : Guard) (s : Src) (op : Nat) : (decodeMx6 g s op).isSome = mx6Ops.contains op := by
  unfold decodeMx6
  split <;> simp_all [mx6Ops]

theorem decodeEx7_isSome (g : Guard) (s : Src) (op : Nat) : (decodeEx7 g s op).isSome = ex7Ops.contains op := by
  unfold decodeEx7
  split <;> simp_all [ex7Ops]

/-- `parcelDefined` without the instruction, for compiled code. -/
def parcelDefinedFast (sl : Slot) (p : Parcel) : Bool :=
  match decodeGuard (p.extractLsb' 19 5), decodeSrc (p.extractLsb' 9 10) with
  | some g, some s =>
    let d : BitVec 9 := p.extractLsb' 0 9
    let op : BitVec 8 := d.extractLsb' 0 8
    if d.getLsbD 8 then
      match sl with
      | .s6 => mx6Ops.contains op.toNat
      | .s7 => ex7Ops.contains op.toNat
      | sl => (decodeLow sl op g s).isSome
    else (decodeDst sl op).isSome
  | _, _ => false

@[csimp] theorem parcelDefined_eq_fast : @parcelDefined = @parcelDefinedFast := by
  funext sl p
  unfold parcelDefined parcelDefinedFast decodeParcel decodeBody decodeTrigger
  split
  · dsimp only
    split
    · cases sl <;> simp only [decodeMx6_isSome, decodeEx7_isSome]
    · rw [Option.isSome_map]
  · rfl

/-- The header parcel (06 R162). -/
def decodeHeader (p : Parcel) : Header :=
  { pres := p.extractLsb' 16 8, sync := p.extractLsb' 8 8, stop := p.getLsbD 7, x := p.getLsbD 6
    nli := p.extractLsb' 4 2, rq := p.extractLsb' 0 4 }

/-- A parcel of a 24-bit row of the opcode table does not name its slot: the lowest slot in which it is legal is
taken (log entry 17). -/
def slotOfParcel (p : Parcel) : Option Slot :=
  slots.find? fun sl => parcelDefined sl p

/-- The instruction of a row of spec/opcode_table.json whose bits are `w`: a parcel is three bytes, the first at the
lowest address, so its bits are numbered as the table numbers them (06 R161). -/
noncomputable def decodeTableWord (nbits w : Nat) : Option Instr :=
  if nbits = 24 then
    match slotOfParcel (BitVec.ofNat 24 w) with
    | some sl => decodeParcel sl (BitVec.ofNat 24 w)
    | none => none
  else none

/-! ### The encoder, from the same tables -/

/-- The slot, guard, source and destination code of an instruction that has an encoding. -/
def encodeParts : Instr → Option (Slot × Guard × Src × BitVec 9)
  | .move sl g s d => some (sl, g, s, 0#1 ++ encodeDst d)
  | .ix1Add g s => some (.s1, g, s, 0x100)
  | .ix1Sub g s => some (.s1, g, s, 0x101)
  | .ix1Adds g s => some (.s1, g, s, 0x102)
  | .ix1Subs g s => some (.s1, g, s, 0x103)
  | .ix1And g s => some (.s1, g, s, 0x104)
  | .ix1Or g s => some (.s1, g, s, 0x105)
  | .ix1Xor g s => some (.s1, g, s, 0x106)
  | .ix1Andn g s => some (.s1, g, s, 0x107)
  | .ix1Shl g s => some (.s1, g, s, 0x108)
  | .ix1Shr g s => some (.s1, g, s, 0x109)
  | .ix1Sar g s => some (.s1, g, s, 0x10A)
  | .ix1Rol g s => some (.s1, g, s, 0x10B)
  | .ix1Min g s => some (.s1, g, s, 0x10C)
  | .ix1Max g s => some (.s1, g, s, 0x10D)
  | .ix1Minu g s => some (.s1, g, s, 0x10E)
  | .ix1Maxu g s => some (.s1, g, s, 0x10F)
  | .ix1Clts g s => some (.s1, g, s, 0x110)
  | .ix1Cltu g s => some (.s1, g, s, 0x111)
  | .ix1Ceq g s => some (.s1, g, s, 0x112)
  | .ix1Cne g s => some (.s1, g, s, 0x113)
  | .ix1Cles g s => some (.s1, g, s, 0x114)
  | .ix1Cleu g s => some (.s1, g, s, 0x115)
  | .ix1Shl8 g s => some (.s1, g, s, 0x120)
  | .ix1Shl16 g s => some (.s1, g, s, 0x121)
  | .ix1Shl32 g s => some (.s1, g, s, 0x122)
  | .ix1Shr8 g s => some (.s1, g, s, 0x124)
  | .ix1Shr16 g s => some (.s1, g, s, 0x125)
  | .ix1Shr32 g s => some (.s1, g, s, 0x126)
  | .ix1Sar8 g s => some (.s1, g, s, 0x128)
  | .ix1Sar16 g s => some (.s1, g, s, 0x129)
  | .ix1Sar32 g s => some (.s1, g, s, 0x12A)
  | .ix1Add8 g s => some (.s1, g, s, 0x12C)
  | .ix1Add16 g s => some (.s1, g, s, 0x12D)
  | .ix1Add32 g s => some (.s1, g, s, 0x12E)
  | .ix1Mul g s => some (.s1, g, s, 0x140)
  | .ix1Mulu g s => some (.s1, g, s, 0x141)
  | .ix1Div g s => some (.s1, g, s, 0x144)
  | .ix1Divu g s => some (.s1, g, s, 0x145)
  | .ix1Rem g s => some (.s1, g, s, 0x146)
  | .ix1Remu g s => some (.s1, g, s, 0x147)
  | .ix1Bext g s => some (.s1, g, s, 0x150)
  | .ix1Bexts g s => some (.s1, g, s, 0x151)
  | .ix1Bins g s => some (.s1, g, s, 0x152)
  | .ix1Clz g s => some (.s1, g, s, 0x154)
  | .ix1Ctz g s => some (.s1, g, s, 0x155)
  | .ix1Popc g s => some (.s1, g, s, 0x156)
  | .ix1Brev g s => some (.s1, g, s, 0x157)
  | .ix1Bswap g s => some (.s1, g, s, 0x158)
  | .sfx5Add g s => some (.s5, g, s, 0x1C0)
  | .sfx5Sub g s => some (.s5, g, s, 0x1C1)
  | .sfx5Adds g s => some (.s5, g, s, 0x1C2)
  | .sfx5Subs g s => some (.s5, g, s, 0x1C3)
  | .sfx5And g s => some (.s5, g, s, 0x1C4)
  | .sfx5Or g s => some (.s5, g, s, 0x1C5)
  | .sfx5Xor g s => some (.s5, g, s, 0x1C6)
  | .sfx5Andn g s => some (.s5, g, s, 0x1C7)
  | .sfx5Shl g s => some (.s5, g, s, 0x1C8)
  | .sfx5Shr g s => some (.s5, g, s, 0x1C9)
  | .sfx5Sar g s => some (.s5, g, s, 0x1CA)
  | .sfx5Rol g s => some (.s5, g, s, 0x1CB)
  | .sfx5Min g s => some (.s5, g, s, 0x1CC)
  | .sfx5Max g s => some (.s5, g, s, 0x1CD)
  | .sfx5Minu g s => some (.s5, g, s, 0x1CE)
  | .sfx5Maxu g s => some (.s5, g, s, 0x1CF)
  | .sfx5Clts g s => some (.s5, g, s, 0x1D0)
  | .sfx5Cltu g s => some (.s5, g, s, 0x1D1)
  | .sfx5Ceq g s => some (.s5, g, s, 0x1D2)
  | .sfx5Cne g s => some (.s5, g, s, 0x1D3)
  | .sfx5Cles g s => some (.s5, g, s, 0x1D4)
  | .sfx5Cleu g s => some (.s5, g, s, 0x1D5)
  | .sfx5Shl8 g s => some (.s5, g, s, 0x1E0)
  | .sfx5Shl16 g s => some (.s5, g, s, 0x1E1)
  | .sfx5Shl32 g s => some (.s5, g, s, 0x1E2)
  | .sfx5Shr8 g s => some (.s5, g, s, 0x1E4)
  | .sfx5Shr16 g s => some (.s5, g, s, 0x1E5)
  | .sfx5Shr32 g s => some (.s5, g, s, 0x1E6)
  | .sfx5Sar8 g s => some (.s5, g, s, 0x1E8)
  | .sfx5Sar16 g s => some (.s5, g, s, 0x1E9)
  | .sfx5Sar32 g s => some (.s5, g, s, 0x1EA)
  | .sfx5Add8 g s => some (.s5, g, s, 0x1EC)
  | .sfx5Add16 g s => some (.s5, g, s, 0x1ED)
  | .sfx5Add32 g s => some (.s5, g, s, 0x1EE)
  | .vexAdd u w g s => some (u.slot, g, s, 1#1 ++ (w.code ++ 0x00#6))
  | .vexSub u w g s => some (u.slot, g, s, 1#1 ++ (w.code ++ 0x01#6))
  | .vexAdds u w g s => some (u.slot, g, s, 1#1 ++ (w.code ++ 0x02#6))
  | .vexSubs u w g s => some (u.slot, g, s, 1#1 ++ (w.code ++ 0x03#6))
  | .vexMin u w g s => some (u.slot, g, s, 1#1 ++ (w.code ++ 0x04#6))
  | .vexMax u w g s => some (u.slot, g, s, 1#1 ++ (w.code ++ 0x05#6))
  | .vexAbs u w g s => some (u.slot, g, s, 1#1 ++ (w.code ++ 0x06#6))
  | .vexNeg u w g s => some (u.slot, g, s, 1#1 ++ (w.code ++ 0x07#6))
  | .vexAnd u w g s => some (u.slot, g, s, 1#1 ++ (w.code ++ 0x08#6))
  | .vexOr u w g s => some (u.slot, g, s, 1#1 ++ (w.code ++ 0x09#6))
  | .vexXor u w g s => some (u.slot, g, s, 1#1 ++ (w.code ++ 0x0A#6))
  | .vexAndn u w g s => some (u.slot, g, s, 1#1 ++ (w.code ++ 0x0B#6))
  | .vexShl u w g s => some (u.slot, g, s, 1#1 ++ (w.code ++ 0x0C#6))
  | .vexShr u w g s => some (u.slot, g, s, 1#1 ++ (w.code ++ 0x0D#6))
  | .vexSar u w g s => some (u.slot, g, s, 1#1 ++ (w.code ++ 0x0E#6))
  | .vexMul u w g s => some (u.slot, g, s, 1#1 ++ (w.code ++ 0x10#6))
  | .vexFma u w g s => some (u.slot, g, s, 1#1 ++ (w.code ++ 0x11#6))
  | .vexFms u w g s => some (u.slot, g, s, 1#1 ++ (w.code ++ 0x12#6))
  | .vexFnma u w g s => some (u.slot, g, s, 1#1 ++ (w.code ++ 0x13#6))
  | .vexCeq u w g s => some (u.slot, g, s, 1#1 ++ (w.code ++ 0x18#6))
  | .vexCne u w g s => some (u.slot, g, s, 1#1 ++ (w.code ++ 0x19#6))
  | .vexClt u w g s => some (u.slot, g, s, 1#1 ++ (w.code ++ 0x1A#6))
  | .vexCle u w g s => some (u.slot, g, s, 1#1 ++ (w.code ++ 0x1B#6))
  | .vexCdet u w g s => some (u.slot, g, s, 1#1 ++ (w.code ++ 0x1C#6))
  | .vexSel u w g s => some (u.slot, g, s, 1#1 ++ (w.code ++ 0x1D#6))
  | .vexCvt u w g s => some (u.slot, g, s, 1#1 ++ (w.code ++ 0x20#6))
  | .vexPerm u w g s => some (u.slot, g, s, 1#1 ++ (w.code ++ 0x28#6))
  | .vexBcast u w g s => some (u.slot, g, s, 1#1 ++ (w.code ++ 0x29#6))
  | .vexSlide u w g s => some (u.slot, g, s, 1#1 ++ (w.code ++ 0x2A#6))
  | .vexRsum u w g s => some (u.slot, g, s, 1#1 ++ (w.code ++ 0x30#6))
  | .vexRmin u w g s => some (u.slot, g, s, 1#1 ++ (w.code ++ 0x31#6))
  | .vexRmax u w g s => some (u.slot, g, s, 1#1 ++ (w.code ++ 0x32#6))
  | .vtset u g s => some (u.slot, g, s, 0x1C0)
  | .vtget u g s => some (u.slot, g, s, 0x1C1)
  | .vtthr u g s => some (u.slot, g, s, 0x1C2)
  | .vtclr u g s => some (u.slot, g, s, 0x1C3)
  | .kand u g s => some (u.slot, g, s, 0x1C8)
  | .kor u g s => some (u.slot, g, s, 0x1C9)
  | .kxor u g s => some (u.slot, g, s, 0x1CA)
  | .kandn u g s => some (u.slot, g, s, 0x1CB)
  | .knot u g s => some (u.slot, g, s, 0x1CC)
  | .kgen u g s => some (u.slot, g, s, 0x1CD)
  | .kpopc u g s => some (u.slot, g, s, 0x1CE)
  | .kffs u g s => some (u.slot, g, s, 0x1CF)
  | .sfx5Rcp w g s => some (.s5, g, s, 1#1 ++ (w.code ++ 0x00#6))
  | .sfx5Rsqrt w g s => some (.s5, g, s, 1#1 ++ (w.code ++ 0x01#6))
  | .sfx5Sqrt w g s => some (.s5, g, s, 1#1 ++ (w.code ++ 0x02#6))
  | .sfx5Div w g s => some (.s5, g, s, 1#1 ++ (w.code ++ 0x03#6))
  | .sfx5Exp2 w g s => some (.s5, g, s, 1#1 ++ (w.code ++ 0x04#6))
  | .sfx5Log2 w g s => some (.s5, g, s, 1#1 ++ (w.code ++ 0x05#6))
  | .sfx5Tanh w g s => some (.s5, g, s, 1#1 ++ (w.code ++ 0x06#6))
  | .sfx5Sigm w g s => some (.s5, g, s, 1#1 ++ (w.code ++ 0x07#6))
  | .sfx5Sinpi w g s => some (.s5, g, s, 1#1 ++ (w.code ++ 0x08#6))
  | .sfx5Cospi w g s => some (.s5, g, s, 1#1 ++ (w.code ++ 0x09#6))
  | .ctlLvl g s => some (.s0, g, s, 0x100)
  | .ctlCabase g s => some (.s0, g, s, 0x101)
  | .ctlCastr g s => some (.s0, g, s, 0x102)
  | .ctlLoop g s => some (.s0, g, s, 0x108)
  | .ctlBsel g s => some (.s0, g, s, 0x110)
  | .ctlWait g s => some (.s0, g, s, 0x120)
  | .ctlFork g s => some (.s0, g, s, 0x130)
  | .ctlJoin g s => some (.s0, g, s, 0x131)
  | .ctlSpawn g s => some (.s0, g, s, 0x132)
  | .ctlLaunch g s => some (.s0, g, s, 0x133)
  | .ctlDone g s => some (.s0, g, s, 0x134)
  | .ctlBar g s => some (.s0, g, s, 0x138)
  | .ctlSrd g s => some (.s0, g, s, 0x150)
  | .ctlSwr g s => some (.s0, g, s, 0x151)
  | .ctlTrap g s => some (.s0, g, s, 0x152)
  | .ctlRfe g s => some (.s0, g, s, 0x153)
  | .ctlPark g s => some (.s0, g, s, 0x154)
  | .ctlAbort g s => some (.s0, g, s, 0x155)
  | .ctlYield g s => some (.s0, g, s, 0x156)
  | .ctlUnpark g s => some (.s0, g, s, 0x157)
  | .ctlClkset g s => some (.s0, g, s, 0x170)
  | .ctlVset g s => some (.s0, g, s, 0x171)
  | .ctlClkrd g s => some (.s0, g, s, 0x172)
  | .ctlSwsel g s => some (.s0, g, s, 0x173)
  | .exitBr x g s => some (x.slot, g, s, 0x1F0)
  | .exitJmp x g s => some (x.slot, g, s, 0x1F1)
  | .exitCall x g s => some (x.slot, g, s, 0x1F2)
  | .exitCalla x g s => some (x.slot, g, s, 0x1F3)
  | .exitRet x g s => some (x.slot, g, s, 0x1F4)
  | .ls2LdB g s => some (.s2, g, s, 0x100)
  | .ls2LdH g s => some (.s2, g, s, 0x101)
  | .ls2LdW g s => some (.s2, g, s, 0x102)
  | .ls2LdD g s => some (.s2, g, s, 0x103)
  | .ls2LdBs g s => some (.s2, g, s, 0x104)
  | .ls2LdHs g s => some (.s2, g, s, 0x105)
  | .ls2LdWs g s => some (.s2, g, s, 0x106)
  | .ls2SldB g s => some (.s2, g, s, 0x108)
  | .ls2SldH g s => some (.s2, g, s, 0x109)
  | .ls2SldW g s => some (.s2, g, s, 0x10A)
  | .ls2SldD g s => some (.s2, g, s, 0x10B)
  | .ls2SldBs g s => some (.s2, g, s, 0x10C)
  | .ls2SldHs g s => some (.s2, g, s, 0x10D)
  | .ls2SldWs g s => some (.s2, g, s, 0x10E)
  | .ls2LdioB g s => some (.s2, g, s, 0x110)
  | .ls2LdioH g s => some (.s2, g, s, 0x111)
  | .ls2LdioW g s => some (.s2, g, s, 0x112)
  | .ls2LdioD g s => some (.s2, g, s, 0x113)
  | .ls2StB g s => some (.s2, g, s, 0x120)
  | .ls2StH g s => some (.s2, g, s, 0x121)
  | .ls2StW g s => some (.s2, g, s, 0x122)
  | .ls2StD g s => some (.s2, g, s, 0x123)
  | .ls2SstB g s => some (.s2, g, s, 0x128)
  | .ls2SstH g s => some (.s2, g, s, 0x129)
  | .ls2SstW g s => some (.s2, g, s, 0x12A)
  | .ls2SstD g s => some (.s2, g, s, 0x12B)
  | .ls2AtAdd g s => some (.s2, g, s, 0x130)
  | .ls2AtAnd g s => some (.s2, g, s, 0x131)
  | .ls2AtOr g s => some (.s2, g, s, 0x132)
  | .ls2AtXor g s => some (.s2, g, s, 0x133)
  | .ls2AtMin g s => some (.s2, g, s, 0x134)
  | .ls2AtMax g s => some (.s2, g, s, 0x135)
  | .ls2AtMinu g s => some (.s2, g, s, 0x136)
  | .ls2AtMaxu g s => some (.s2, g, s, 0x137)
  | .ls2AtFadd g s => some (.s2, g, s, 0x138)
  | .ls2AtSwp g s => some (.s2, g, s, 0x139)
  | .ls2AtCas g s => some (.s2, g, s, 0x13A)
  | .ls2LdAcq g s => some (.s2, g, s, 0x150)
  | .ls2StRel g s => some (.s2, g, s, 0x151)
  | .ls2Acq g s => some (.s2, g, s, 0x152)
  | .ls2Rel g s => some (.s2, g, s, 0x153)
  | .ls2Fence g s => some (.s2, g, s, 0x154)
  | .ls2Moor g s => some (.s2, g, s, 0x155)
  | .ls2Unmoor g s => some (.s2, g, s, 0x156)
  | .ls2PoolShare g s => some (.s2, g, s, 0x160)
  | .ls2PoolDrop g s => some (.s2, g, s, 0x161)
  | .ls2PoolAlloc g s => some (.s2, g, s, 0x162)
  | .ls2Xlinv g s => some (.s2, g, s, 0x164)
  | .ls2Xlwait g s => some (.s2, g, s, 0x165)
  | .ls2Icinv g s => some (.s2, g, s, 0x166)
  | .ls2Cwb g s => some (.s2, g, s, 0x168)
  | .ls2Cinv g s => some (.s2, g, s, 0x169)
  | .ls2Ea0 g s => some (.s2, g, s, 0x170)
  | .ls2Ea1 g s => some (.s2, g, s, 0x171)
  | .ls2Ea2 g s => some (.s2, g, s, 0x172)
  | .ls2Ea3 g s => some (.s2, g, s, 0x173)
  | .ls2Ea4 g s => some (.s2, g, s, 0x174)
  | .ls2Ea5 g s => some (.s2, g, s, 0x175)
  | .ls2Ea6 g s => some (.s2, g, s, 0x176)
  | .mx6Tld g s => some (.s6, g, s, 0x100)
  | .mx6Tldv g s => some (.s6, g, s, 0x101)
  | .mx6Tst g s => some (.s6, g, s, 0x102)
  | .mx6Trd g s => some (.s6, g, s, 0x103)
  | .mx6Shset g s => some (.s6, g, s, 0x108)
  | .mx6Shget g s => some (.s6, g, s, 0x109)
  | .mx6Step g s => some (.s6, g, s, 0x120)
  | .mx6Azero g s => some (.s6, g, s, 0x130)
  | .mx6Ard g s => some (.s6, g, s, 0x131)
  | .mx6Awr g s => some (.s6, g, s, 0x132)
  | .mx6Acvt g s => some (.s6, g, s, 0x133)
  | .mx6Acvts g s => some (.s6, g, s, 0x134)
  | .mx6Aldq g s => some (.s6, g, s, 0x135)
  | .mx6Bchain g s => some (.s6, g, s, 0x150)
  | .mx6Bsend g s => some (.s6, g, s, 0x151)
  | .mx6Bwait g s => some (.s6, g, s, 0x152)
  | .mx6Bfree g s => some (.s6, g, s, 0x153)
  | .mx6Bsts g s => some (.s6, g, s, 0x154)
  | .mx6Rsts g s => some (.s6, g, s, 0x170)
  | .mx6Rclr g s => some (.s6, g, s, 0x171)
  | .ex7Vld32 g s => some (.s7, g, s, 0x100)
  | .ex7Vld64 g s => some (.s7, g, s, 0x101)
  | .ex7Vld128 g s => some (.s7, g, s, 0x102)
  | .ex7Svld32 g s => some (.s7, g, s, 0x104)
  | .ex7Svld64 g s => some (.s7, g, s, 0x105)
  | .ex7Svld128 g s => some (.s7, g, s, 0x106)
  | .ex7Eld g s => some (.s7, g, s, 0x108)
  | .ex7Vst32 g s => some (.s7, g, s, 0x110)
  | .ex7Vst64 g s => some (.s7, g, s, 0x111)
  | .ex7Vst128 g s => some (.s7, g, s, 0x112)
  | .ex7Svst32 g s => some (.s7, g, s, 0x114)
  | .ex7Svst64 g s => some (.s7, g, s, 0x115)
  | .ex7Svst128 g s => some (.s7, g, s, 0x116)
  | .ex7Est g s => some (.s7, g, s, 0x118)
  | .ex7Lavg g s => some (.s7, g, s, 0x120)
  | .ex7LavgHome g s => some (.s7, g, s, 0x121)
  | .ex7LavgRow g s => some (.s7, g, s, 0x122)
  | .ex7LavgRowHome g s => some (.s7, g, s, 0x123)
  | .ex7Ldet g s => some (.s7, g, s, 0x124)
  | .ex7LdetHome g s => some (.s7, g, s, 0x125)
  | .ex7Trst g s => some (.s7, g, s, 0x128)
  | .ex7Tdld g s => some (.s7, g, s, 0x130)
  | .ex7QSet g s => some (.s7, g, s, 0x140)
  | .ex7QPush g s => some (.s7, g, s, 0x141)
  | .ex7QPop g s => some (.s7, g, s, 0x142)
  | .ex7QAdv g s => some (.s7, g, s, 0x143)
  | .ex7QSts g s => some (.s7, g, s, 0x144)
  | .ex7CpReg g s => some (.s7, g, s, 0x160)
  | .ex7CpGo g s => some (.s7, g, s, 0x161)
  | .ex7CpDrain g s => some (.s7, g, s, 0x162)
  | .ex7CpSts g s => some (.s7, g, s, 0x163)
  | .ex7SqPost g s => some (.s7, g, s, 0x190)
  | .ex7SqCqack g s => some (.s7, g, s, 0x191)
  | .blockEntry _ => none
  | .bundlePass _ => none
  | .resultLanding _ _ => none
  | .blockCommit _ => none
  | .denialNotice _ => none
  | .poisonNotice _ => none
  | .iterationBoundary _ => none
  | .tableWalk _ => none
  | .walkQueueRetry _ => none
  | .invalidationObserved _ _ => none
  | .invalidationComplete _ => none
  | .copyOnWrite _ _ => none
  | .entryInvalidation _ => none
  | .l1Fill _ _ => none
  | .atomicAtHome _ => none
  | .treeUpdate _ => none
  | .packWrite _ => none
  | .hbmScrub _ => none
  | .pcieRequesterAccess _ _ _ _ _ _ => none
  | .fabricRemoteAccess _ _ _ _ _ _ _ => none
  | .atinvWrite _ _ => none
  | .atinvComplete _ => none
  | .l2modeWrite _ => none
  | .l2modeSwitchEnd => none
  | .rrctlWrite _ _ => none
  | .killctlWrite _ => none
  | .killAbortTimeout _ => none
  | .killComplete => none
  | .registerWrite _ _ => none
  | .coreTakeWork _ => none
  | .scratchpadZeroing _ => none
  | .taskStart _ => none
  | .launchStart _ => none
  | .crewAdmission => none
  | .recordComplete _ => none
  | .copyRecordRun _ => none
  | .shareReport _ _ => none
  | .launchComplete _ => none
  | .quantumBoundary => none
  | .streamMap => none
  | .preemptionTaken _ => none
  | .stubTimeout _ => none
  | .yieldSave _ => none
  | .frameResume _ => none
  | .parkInPlace _ => none
  | .barrierComplete _ => none
  | .waitReady _ => none
  | .drainComplete _ => none
  | .matrixCommandFire _ => none
  | .residueRetry _ _ => none
  | .ex7CommandFire _ => none
  | .nestCopyEmit _ _ => none
  | .addOnRowApply _ _ => none
  | .basinRowArrival _ _ => none
  | .chainBroken _ _ => none
  | .voltageSettled _ => none
  | .sampleWindowBoundary _ => none
  | .thermalLimitChange _ _ => none
  | .emergencySave => none
  | .powerCut => none
  | .roundBoundary => none
  | .noticeEffect => none
  | .heartbeatSend => none
  | .silenceTimeout _ => none
  | .evictTimeout _ => none
  | .joinTimeout => none
  | .tidectlWrite _ => none
  | .timeSyncSend => none
  | .heartbeat _ => none
  | .notice _ => none
  | .release _ => none
  | .joinReq _ => none
  | .joinAck _ _ => none
  | .join _ => none
  | .leave _ => none
  | .evict _ => none
  | .timeReq _ => none
  | .timeRsp _ => none
  | .flow _ _ => none
  | .ack _ => none
  | .ackTimeout => none
  | .valveRefresh _ _ => none
  | .launch _ _ => none
  | .complete _ => none
  | .fault _ => none
  | .mgmtRegisterRead _ => none
  | .mgmtRegisterWrite _ => none
  | .mgmtAttestation _ _ => none
  | .mgmtRestart _ => none
  | .mgmtStatus _ => none
  | .linkLaneShed _ => none
  | .linkDown _ => none
  | .reset => none
  | .accessAtTarget _ => none
  | .eccError _ _ _ => none
  | .linkResume _ => none
  | .voltageLoweringDone _ => none
  | .icinvComplete _ => none
  | .unknownMessageType _ => none

/-- The slot and the parcel of an instruction that has an encoding (06 R163). -/
def encode (i : Instr) : Option (Slot × Parcel) :=
  match encodeParts i with
  | some (sl, g, s, d) => some (sl, encodeGuard g ++ encodeSrc s ++ d)
  | none => none

/-- The header parcel of a header (06 R162). -/
def encodeHeader (h : Header) : Parcel :=
  h.pres ++ h.sync ++ BitVec.ofBool h.stop ++ BitVec.ofBool h.x ++ h.nli ++ h.rq

end Sys2Proof
end

