-- ==== Sys2Proof/Config.lean ====
section
/-!
DEFINITION. What an implementation of the GX-4180 fixes and the free values of the model.

A constant without a body is a free value: nothing in Lean can say which value it has, so a theorem about
it holds for every value. The row of notes/assumptions/ that names it stands in its docstring.
-/

namespace Sys2Proof.Config

/-- Which entry a full TLB, a full block-entry cache or a full instruction cache gives up: the spec names no replacement rule
(01 R25, 04 R121). The argument is a counter of the model: of the free values, or of the invalidations issued. Log entry 10. -/
opaque victim : Nat → Nat

/-- The index that a level-2 slice computes from a line's number for the set that holds it (04 R104). Log entry 91. -/
opaque l2Set : Nat → Nat

/-- The index that the level-2 TLB of a die computes from a page's size code and number for the set that holds its
translation (01 R25). Log entry 92. -/
opaque tlb2Set : Nat → Nat → Nat

/-- The data that a denied or poisoned read delivers (01 R38). Log entry 2. -/
opaque poisonData : Nat → BitVec 1024

/-- The 8 bytes that a device behind a PCIe aperture returns to a read (01 R35). Log entry 6. -/
opaque pcieRead : Nat → Nat → BitVec 64

/-- The 8 bytes that a remote device returns to a read or to an atomic (05 R157). Log entry 6. -/
opaque remoteRead : Nat → Nat → BitVec 64

/-- FADDR of a fault for which 18 R380 names no content: an instruction's privilege fault, and a quay fault. The
argument is the model's counter of free values. Log entry 20. -/
opaque faultAddr : Nat → BitVec 64

/-- The fused floor code of each cluster's voltage (20 R405). Log entry 15. -/
opaque floorCode : Nat → BitVec 7

/-- Block i of the opaque parts of a save frame (18 R393). The first argument is the model's counter of free values. Log entry 89. -/
opaque frameBlock : Nat → Nat → BitVec 512

/-- The fused seed from which the boot ROM derives the identity key pair (22 R437). Log entry 7. -/
opaque identitySeed : BitVec 256

/-- The fuse state that an attestation report carries (22 R437). Log entry 7. -/
opaque fuseState : BitVec 128

/-- The SHA-512 digest of the running firmware image (22 R437). Log entry 7. -/
opaque firmwareDigest : BitVec 512

/-- Whether a residue check finds a mismatch (13 R319): a fault of the hardware, none by itself. Log entry 8. -/
opaque freeBit : Nat → Bool

/-- The requester ID of the drive of a storage queue: the spec names it (18 R397) and does not say how a drive gets it.
Log entry 129. -/
opaque driveId : Nat → BitVec 16

/-- Which of two overlapping copies of a block a copy record delivers (09 R231). Log entry 9. -/
opaque overlapOld : Nat → Bool

end Sys2Proof.Config
end

