-- ==== Sys2Proof/Machine/Bits.lean ====
section
/-!
DEFINITION. Bit fields, sign extension, byte order, and sparse maps: the helpers the machine is written with.

A sparse map is a list of keys and values in one canonical form: keys strictly rising, and no entry equal to the
value that an unlisted key reads as. Memory, register files and every other keyed store use it.
-/

namespace Sys2Proof.Machine

/-! ### Fields (00 R4) -/

/-- Bits [lo + len - 1 : lo] of a natural number. -/
def field (x lo len : Nat) : Nat := (x >>> lo) % 2 ^ len

/-- Bit i. -/
def bit (x i : Nat) : Bool := x.testBit i

/-- Bits [hi : lo] of a word as a number. -/
def wfield {n : Nat} (w : BitVec n) (hi lo : Nat) : Nat := field w.toNat lo (hi + 1 - lo)

/-- A word with bits [hi : lo] replaced by the low bits of `v`. -/
def setField (w : BitVec 64) (hi lo : Nat) (v : Nat) : BitVec 64 :=
  let m := BitVec.ofNat 64 ((2 ^ (hi + 1 - lo) - 1) <<< lo)
  (w &&& ~~~m) ||| (BitVec.ofNat 64 (v <<< lo) &&& m)

/-- The two's complement reading of the low `n` bits. -/
def sint (n x : Nat) : Int :=
  let y := x % 2 ^ n
  if 2 * y ≥ 2 ^ n then (y : Int) - (2 ^ n : Nat) else (y : Int)

/-- An integer as `n` bits. -/
def ofInt (n : Nat) (x : Int) : Nat := (x % ((2 ^ n : Nat) : Int)).toNat

/-- A word with bits below `n` sign-extended. -/
def sextWord (n x : Nat) : BitVec 64 := BitVec.ofInt 64 (sint n x)

/-- One if true. -/
def b2n (b : Bool) : Nat := if b then 1 else 0

def boolWord (b : Bool) : BitVec 64 := if b then 1 else 0

/-- Byte i of a number. -/
def byteOf (x i : Nat) : BitVec 8 := BitVec.ofNat 8 (x >>> (8 * i))

/-- The first `n` bytes of a number, the low byte first (00 R4). -/
def bytesOf (x : Nat) : Nat → List (BitVec 8)
  | 0 => []
  | n + 1 => BitVec.ofNat 8 x :: bytesOf (x / 256) n

/-- The number that bytes spell, the low byte first (00 R4). -/
def ofBytes : List (BitVec 8) → Nat
  | [] => 0
  | b :: bs => b.toNat + 256 * ofBytes bs

/-- The floor of the binary logarithm of a number that is not 0. -/
def log2 (x : Nat) : Nat := Nat.log2 x

/-- Numbers from `a`, `n` of them. -/
def upto (a : Nat) : Nat → List Nat
  | 0 => []
  | n + 1 => a :: upto (a + 1) n

/-- The integer square root: the largest r with r * r ≤ x, by bits from bit `k` down. -/
def isqrtFrom (x : Nat) : Nat → Nat → Nat
  | 0, r => if (r + 1) * (r + 1) ≤ x then r + 1 else r
  | k + 1, r =>
    let r' := r + 2 ^ (k + 1)
    isqrtFrom x k (if r' * r' ≤ x then r' else r)

def isqrt (x : Nat) : Nat := if x = 0 then 0 else isqrtFrom x (log2 x / 2 + 1) 0

/-- Number of ones among the low `n` bits. -/
def popcount (x : Nat) : Nat → Nat
  | 0 => 0
  | n + 1 => b2n (x.testBit n) + popcount x n

/-- Replace element `i` of a list. -/
def setAt {α : Type} : List α → Nat → α → List α
  | [], _, _ => []
  | _ :: xs, 0, v => v :: xs
  | x :: xs, n + 1, v => x :: setAt xs n v

/-- Change element `i` of a list. -/
def modAt {α : Type} : List α → Nat → (α → α) → List α
  | [], _, _ => []
  | x :: xs, 0, f => f x :: xs
  | x :: xs, n + 1, f => x :: modAt xs n f

/-! ### Sparse maps -/

/-- A sparse map. -/
abbrev SMap (β : Type) := List (Nat × β)

/-- What key `k` reads as; `d` where it is not listed. -/
def SMap.get {β : Type} (d : β) : SMap β → Nat → β
  | [], _ => d
  | (k', v) :: m, k => if k' = k then v else SMap.get d m k

/-- Drop key `k`. -/
def SMap.erase {β : Type} (m : SMap β) (k : Nat) : SMap β := m.filter fun e => e.1 != k

/-- Put `v` at key `k`, before the first key that is not smaller. -/
def SMap.insert {β : Type} : SMap β → Nat → β → SMap β
  | [], k, v => [(k, v)]
  | (k', v') :: m, k, v =>
    if k < k' then (k, v) :: (k', v') :: m
    else if k = k' then (k, v) :: m
    else (k', v') :: SMap.insert m k v

/-- Write `v` at key `k`; the entry is dropped when `v` is what an unlisted key reads as. -/
def SMap.set {β : Type} [DecidableEq β] (d : β) (m : SMap β) (k : Nat) (v : β) : SMap β :=
  if v = d then m.erase k else m.insert k v

/-- Apply `f` to every listed value; an entry that becomes what an unlisted key reads as is dropped. -/
def SMap.mapVals {β : Type} [DecidableEq β] (d : β) (f : β → β) (m : SMap β) : SMap β :=
  (m.map fun e => (e.1, f e.2)).filter fun e => !decide (e.2 = d)

/-- Keys strictly rising from above `lo` (`none`: from anywhere). -/
def SMap.rising {β : Type} : Option Nat → SMap β → Bool
  | _, [] => true
  | lo, (k, _) :: m => (match lo with | none => true | some l => decide (l < k)) && SMap.rising (some k) m

/-- The canonical form of a sparse map. -/
def SMap.wf {β : Type} [DecidableEq β] (d : β) (m : SMap β) : Bool :=
  SMap.rising none m && m.all fun e => !decide (e.2 = d)

/-- Keys in a set kept as a rising list. -/
def setInsert : List Nat → Nat → List Nat
  | [], k => [k]
  | k' :: m, k => if k < k' then k :: k' :: m else if k = k' then k' :: m else k' :: setInsert m k

end Sys2Proof.Machine
end

