-- ==== Sys2Proof/Machine/Num.lean ====
section
/-!
DEFINITION. The number formats, exact values, rounding and the A40 sum (02 R42 to R63).
-/

namespace Sys2Proof.Machine

/-- An exact value: NaN, an infinity, or (-1)^neg * m * 2^e. A zero keeps its sign (02 R59). -/
inductive Exact where
  | nan
  | inf (neg : Bool)
  | fin (neg : Bool) (m : Nat) (e : Int)
deriving DecidableEq, Repr

/-- A number format (02 R42 to R46). -/
inductive Fmt where
  | fp32 | fp16 | bf16 | a40
  | t8 (es : Nat) | t6 (es : Nat)
  | int (bits : Nat) (signed : Bool)
deriving DecidableEq, Repr

/-- The events of a conversion (02 R59) and of binary32 arithmetic (11 R278, R285). -/
structure Ev where
  nv : Bool := false
  dz : Bool := false
  ov : Bool := false
  uf : Bool := false
  ix : Bool := false
  sat : Bool := false
deriving DecidableEq, Repr

/-- Events together. -/
def Ev.or (a b : Ev) : Ev :=
  { nv := a.nv || b.nv, dz := a.dz || b.dz, ov := a.ov || b.ov, uf := a.uf || b.uf, ix := a.ix || b.ix, sat := a.sat || b.sat }

/-- The sticky flags [23:18] of VT that events set (11 R278). -/
def Ev.bits (e : Ev) : BitVec 64 :=
  BitVec.ofNat 64 (b2n e.nv <<< 23 + b2n e.dz <<< 22 + b2n e.ov <<< 21 + b2n e.uf <<< 20 + b2n e.ix <<< 19 + b2n e.sat <<< 18)

def zero : Exact := .fin false 0 0

/-- Two to the power n. -/
def pow2 (n : Nat) : Nat := 1 <<< n

/-- Words of 64 bits as a number, the first lowest. -/
def ofWords : List Nat → Nat
  | [] => 0
  | x :: xs => x + ofWords xs * pow2 64

/-- A natural number times 2^k, rounded down when k is negative. -/
def scale (m : Nat) (k : Int) : Nat :=
  match k with
  | .ofNat n => m <<< n
  | .negSucc n => m >>> (n + 1)

/-- Whether bits are lost by `scale`. -/
def lost (m : Nat) (k : Int) : Bool :=
  match k with
  | .ofNat _ => false
  | .negSucc n => m % pow2 (n + 1) != 0

/-- The exponent of the leading bit of a value that is not zero. -/
def lead (m : Nat) (e : Int) : Int := (log2 m : Int) + e

def Exact.isNan : Exact → Bool
  | .nan => true
  | _ => false

def Exact.isInf : Exact → Bool
  | .inf _ => true
  | _ => false

def Exact.isZero : Exact → Bool
  | .fin _ 0 _ => true
  | _ => false

def Exact.isFin : Exact → Bool
  | .fin _ _ _ => true
  | _ => false

def Exact.sign : Exact → Bool
  | .nan => false
  | .inf s => s
  | .fin s _ _ => s

def Exact.neg : Exact → Exact
  | .nan => .nan
  | .inf s => .inf (!s)
  | .fin s m e => .fin (!s) m e

def Exact.abs : Exact → Exact
  | .nan => .nan
  | .inf _ => .inf false
  | .fin _ m e => .fin false m e

/-- The value times 2^k. -/
def Exact.shift (x : Exact) (k : Int) : Exact :=
  match x with
  | .fin s m e => .fin s m (e + k)
  | y => y

/-- Compare two magnitudes m1 * 2^e1 and m2 * 2^e2. -/
def magLt (m1 : Nat) (e1 : Int) (m2 : Nat) (e2 : Int) : Bool :=
  let e := min e1 e2
  decide (scale m1 (e1 - e) < scale m2 (e2 - e))

/-- x < y as numbers, false with a NaN; -0 and +0 are equal. -/
def Exact.lt : Exact → Exact → Bool
  | .nan, _ => false
  | _, .nan => false
  | .inf true, .inf true => false
  | .inf true, _ => true
  | .inf false, _ => false
  | .fin _ _ _, .inf s => !s
  | .fin s1 m1 e1, .fin s2 m2 e2 =>
    let n1 := s1 && m1 != 0
    let n2 := s2 && m2 != 0
    if n1 && !n2 then true
    else if !n1 && n2 then false
    else if n1 then magLt m2 e2 m1 e1
    else magLt m1 e1 m2 e2

/-- x = y as numbers, false with a NaN. -/
def Exact.numEq (x y : Exact) : Bool := !x.isNan && !y.isNan && !x.lt y && !y.lt x

/-- The exact product (13 R312): NaN for a NaN and for zero times an infinity. -/
def Exact.mul : Exact → Exact → Exact
  | .nan, _ => .nan
  | _, .nan => .nan
  | .inf s, .inf t => .inf (s != t)
  | .inf s, .fin t m _ => if m = 0 then .nan else .inf (s != t)
  | .fin s m _, .inf t => if m = 0 then .nan else .inf (s != t)
  | .fin s m e, .fin t n f => .fin (s != t) (m * n) (e + f)

/-- The exact sum; `rtz` does not matter to the sign of an exact zero sum (11 R285): +0, and -0 only of two -0. -/
def Exact.add : Exact → Exact → Exact
  | .nan, _ => .nan
  | _, .nan => .nan
  | .inf s, .inf t => if s = t then .inf s else .nan
  | .inf s, _ => .inf s
  | _, .inf t => .inf t
  | .fin s m e, .fin t n f =>
    let g := min e f
    let a : Int := scale m (e - g)
    let b : Int := scale n (f - g)
    let x := (if s then -a else a) + (if t then -b else b)
    if x = 0 then .fin (s && t) 0 0 else .fin (decide (x < 0)) x.natAbs g

/-! ### Formats (02 R43, R45) -/

/-- Fraction bits of an IEEE-style format. -/
def Fmt.frac : Fmt → Nat
  | .fp32 => 23 | .fp16 => 10 | .bf16 => 7 | .a40 => 30 | _ => 0

/-- Exponent bits of an IEEE-style format. -/
def Fmt.expBits : Fmt → Nat
  | .fp32 => 8 | .fp16 => 5 | .bf16 => 8 | .a40 => 9 | _ => 0

def Fmt.bias (f : Fmt) : Nat := pow2 (f.expBits - 1) - 1

/-- The exponent of the smallest normal value. -/
def Fmt.emin (f : Fmt) : Int := 1 - (f.bias : Int)

def Fmt.ieee : Fmt → Bool
  | .fp32 | .fp16 | .bf16 | .a40 => true
  | _ => false

/-- The canonical NaN, or the NaN code of a T format (02 R44, R47). -/
def Fmt.nanCode : Fmt → Nat
  | .t8 _ => 0x80
  | .t6 _ => 0x20
  | .int _ _ => 0
  | f => (pow2 f.expBits - 1) <<< f.frac + pow2 (f.frac - 1)

/-- The sign bit's weight. -/
def Fmt.signBit : Fmt → Nat
  | .t8 _ => 0x80
  | .t6 _ => 0x20
  | f => pow2 (f.frac + f.expBits)

/-- Length of the run of bits equal to `b` in `m`, from bit `i - 1` downward. -/
def runLen (m : Nat) (b : Bool) : Nat → Nat
  | 0 => 0
  | i + 1 => if m.testBit i == b then 1 + runLen m b i else 0

/-- `t_decode` of 02 R46: `w` magnitude bits, `es` exponent bits, run cap w - 1. -/
def tDecode (code w es : Nat) : Exact :=
  let s := code.testBit w
  let m := code % pow2 w
  if m = 0 then (if s then .nan else zero)
  else
    let b := m.testBit (w - 1)
    let k := runLen m b w
    if k > w - 1 then .fin s 1 ((w - 2) * pow2 es : Nat)
    else
      let r : Int := if b then (k : Int) - 1 else -(k : Int)
      let rest := w - k - 1
      let taken := min es rest
      let e := ((m % pow2 rest) >>> (rest - taken)) * pow2 (es - taken)
      let fb := rest - taken
      let f := m % pow2 fb
      .fin s (pow2 fb + f) (r * (pow2 es : Nat) + e - fb)

/-- The exact value of a code (02 R42 to R47). -/
def decodeNum (f : Fmt) (code : Nat) : Exact :=
  match f with
  | .t8 es => tDecode code 7 es
  | .t6 es => tDecode code 5 es
  | .int n sg => let x : Int := if sg then sint n code else ((code % pow2 n : Nat) : Int)
                 .fin (decide (x < 0)) x.natAbs 0
  | _ =>
    let fr := code % pow2 f.frac
    let ex := field code f.frac f.expBits
    let s := code.testBit (f.frac + f.expBits)
    if ex = pow2 f.expBits - 1 then (if fr = 0 then .inf s else .nan)
    else if ex = 0 then .fin s fr (f.emin - f.frac)
    else .fin s (pow2 f.frac + fr) ((ex : Int) - f.bias - f.frac)

/-- The largest finite magnitude's code (02 R43, R45, R47). -/
def Fmt.maxCode : Fmt → Nat
  | .t8 _ => 0x7E
  | .t6 _ => 0x1E
  | .int n sg => if sg then pow2 (n - 1) - 1 else pow2 n - 1
  | f => (pow2 f.expBits - 1) <<< f.frac - 1

/-- max_finite of a format. -/
def Fmt.maxFinite (f : Fmt) : Exact := decodeNum f f.maxCode

/-- max_int and min_int of an integer format (02 R42). -/
def maxInt (n : Nat) (sg : Bool) : Int := if sg then (pow2 (n - 1) : Int) - 1 else (pow2 n : Int) - 1

def minInt (n : Nat) (sg : Bool) : Int := if sg then -(pow2 (n - 1) : Int) else 0

/-- Round m * 2^e to a multiple of 2^q: the quotient, and whether it is exact. -/
def roundQ (m : Nat) (e q : Int) (rtz : Bool) : Nat × Bool :=
  let k := e - q
  let y := scale m k
  match k with
  | .ofNat _ => (y, true)
  | .negSucc n =>
    let r := m % pow2 (n + 1)
    let half := pow2 n
    if r = 0 then (y, true)
    else if rtz then (y, false)
    else if r < half then (y, false)
    else if r > half then (y + 1, false)
    else (y + y % 2, false)

/-- The magnitude code of the largest T code whose value is at most m * 2^e. -/
def tFloor (f : Fmt) (m : Nat) (e : Int) : Nat → Nat
  | 0 => 0
  | c + 1 =>
    match decodeNum f (c + 1) with
    | .fin _ n g => if magLt m e n g then tFloor f m e c else c + 1
    | _ => tFloor f m e c

/-- The magnitude code of a T format nearest to m * 2^e, ties to the even code, and whether it is exact. -/
def tRound (f : Fmt) (m : Nat) (e : Int) : Nat × Bool :=
  let lo := tFloor f m e f.maxCode
  match decodeNum f lo, decodeNum f (lo + 1) with
  | .fin _ a g, .fin _ b h =>
    let q := min e (min g h)
    let x := scale m (e - q)
    let l := scale a (g - q)
    let u := scale b (h - q)
    if x = l then (lo, true)
    else if x - l < u - x then (lo, false)
    else if u - x < x - l then (lo + 1, false)
    else (lo + lo % 2, false)
  | _, _ => (lo, true)

/-- `round_to` of 02 R59 with the events it returns; `wid` says that the conversion is widening (02 R60). -/
def roundTo (x : Exact) (f : Fmt) (rtz wid : Bool) : Nat × Ev :=
  match f with
  | .int n sg =>
    match x with
    | .nan => (0, { nv := true })
    | .inf s => (ofInt n (if s then minInt n sg else maxInt n sg), { sat := true })
    | .fin s m e =>
      let (q, ex) := roundQ m e 0 rtz
      let y : Int := if s then -(q : Int) else q
      if y > maxInt n sg then (ofInt n (maxInt n sg), { sat := true, ix := true })
      else if y < minInt n sg then (ofInt n (minInt n sg), { sat := true, ix := true })
      else (ofInt n y, { ix := !ex })
  | f =>
    match x with
    | .nan => (f.nanCode, {})
    | .inf s =>
      let sb := if s then f.signBit else 0
      if wid && f.ieee then (sb + (f.maxCode + 1), {}) else (sb + f.maxCode, { sat := true })
    | .fin s m e =>
      if m = 0 then (if f.ieee && s then f.signBit else 0, {})
      else
        let sb := if s then f.signBit else 0
        match f.maxFinite with
        | .fin _ mm me =>
          if magLt mm me m e then (sb + f.maxCode, { sat := true, ix := true })
          else if f.ieee then
            let b := max (lead m e) f.emin
            let (q, ex) := roundQ m e (b - f.frac) rtz
            (sb + ((b - f.emin).toNat <<< f.frac + q), { ix := !ex })
          else
            let (c, ex) := tRound f m e
            (if c = 0 then 0 else sb + c, { ix := !ex })
        | _ => (0, {})

/-- Whether a conversion is widening (02 R60). -/
def widening (src dst : Fmt) : Bool :=
  if src = dst then true
  else match src, dst with
    | .fp16, .fp32 | .fp16, .a40 | .bf16, .fp32 | .bf16, .a40 => true
    | .t8 _, .fp32 | .t8 _, .a40 | .t6 _, .fp32 | .t6 _, .a40 => true
    | .fp32, .a40 => true
    | .int 8 true, .int 16 true | .int 8 true, .int 32 true | .int 8 true, .int 64 true => true
    | .int 8 true, .fp16 | .int 8 true, .bf16 | .int 8 true, .fp32 | .int 8 true, .a40 => true
    | .int 16 true, .int 32 true | .int 16 true, .int 64 true | .int 16 true, .fp32 | .int 16 true, .a40 => true
    | .int 32 true, .int 64 true | .int 32 true, .a40 => true
    | .t6 0, .t8 _ => true
    | _, _ => false

/-! ### Binary32 arithmetic (11 R285, 03 R72) -/

/-- Round an exact result of binary32 arithmetic: overflow to infinity under rne, to the largest finite under rtz. -/
def roundFp32 (x : Exact) (rtz : Bool) : Nat × Ev :=
  match x with
  | .nan => (Fmt.fp32.nanCode, {})
  | .inf s => (if s then 0xFF800000 else 0x7F800000, {})
  | .fin s m e =>
    let sb := if s then 0x80000000 else 0
    if m = 0 then (sb, {})
    else
      let b := max (lead m e) (-126)
      let (q, ex) := roundQ m e (b - 23) rtz
      let c := (b + 126).toNat <<< 23 + q
      if c ≥ 0x7F800000 then (sb + (if rtz then 0x7F7FFFFF else 0x7F800000), { ov := true, ix := true })
      else (sb + c, { ix := !ex, uf := !ex && decide (c < 0x00800000) })

def fp32 (c : Nat) : Exact := decodeNum .fp32 c

/-- Events of an operation whose exact result is a NaN made from operands that are none (11 R285). -/
def nvUnless (nanIn : Bool) (x : Exact) : Ev := { nv := x.isNan && !nanIn }

/-- binary32 addition. -/
def fadd (rtz : Bool) (a b : Nat) : Nat × Ev :=
  let x := (fp32 a).add (fp32 b)
  let (c, ev) := roundFp32 x rtz
  (c, ev.or (nvUnless ((fp32 a).isNan || (fp32 b).isNan) x))

def fneg (a : Nat) : Nat := if (fp32 a).isNan then Fmt.fp32.nanCode else a ^^^ 0x80000000

def fabs (a : Nat) : Nat := if (fp32 a).isNan then Fmt.fp32.nanCode else a % 0x80000000

/-- binary32 subtraction. -/
def fsub (rtz : Bool) (a b : Nat) : Nat × Ev := 
  let x := (fp32 a).add (fp32 b).neg
  let (c, ev) := roundFp32 x rtz
  (c, ev.or (nvUnless ((fp32 a).isNan || (fp32 b).isNan) x))

/-- binary32 multiplication. -/
def fmul (rtz : Bool) (a b : Nat) : Nat × Ev :=
  let x := (fp32 a).mul (fp32 b)
  let (c, ev) := roundFp32 x rtz
  (c, ev.or (nvUnless ((fp32 a).isNan || (fp32 b).isNan) x))

/-- a * b + c rounded once; zero times infinity raises NV even beside a NaN (11 R285). -/
def ffma (rtz : Bool) (a b c : Nat) (negP negC : Bool) : Nat × Ev :=
  let x := fp32 a
  let y := fp32 b
  let z := if negC then (fp32 c).neg else fp32 c
  let p := if negP then (x.mul y).neg else x.mul y
  let r := p.add z
  let (k, ev) := roundFp32 r rtz
  let nanIn := x.isNan || y.isNan || z.isNan
  let badMul := p.isNan && !x.isNan && !y.isNan
  (k, ev.or { nv := badMul || (r.isNan && !nanIn) })

/-- A quotient, or a root, with a sticky bit below its last bit: a and b not zero. -/
def sticky (q : Nat) (inexact : Bool) : Nat := 2 * q + b2n inexact

/-- binary32 division (11 R292, R293). -/
def fdiv (rtz : Bool) (a b : Nat) : Nat × Ev :=
  match fp32 a, fp32 b with
  | .nan, _ => (Fmt.fp32.nanCode, {})
  | _, .nan => (Fmt.fp32.nanCode, {})
  | .inf _, .inf _ => (Fmt.fp32.nanCode, { nv := true })
  | .inf s, .fin t _ _ => roundFp32 (.inf (s != t)) rtz
  | .fin s _ _, .inf t => roundFp32 (.fin (s != t) 0 0) rtz
  | .fin s m e, .fin t n f =>
    if n = 0 then
      if m = 0 then (Fmt.fp32.nanCode, { nv := true })
      else ((roundFp32 (.inf (s != t)) rtz).1, { dz := true })
    else
      let q := (m <<< 64) / n
      roundFp32 (.fin (s != t) (sticky q ((m <<< 64) % n != 0)) (e - f - 65)) rtz

/-- binary32 square root with the rounding of VT.RM (11 R292, R293). -/
def fsqrt (rtz : Bool) (a : Nat) : Nat × Ev :=
  match fp32 a with
  | .nan => (Fmt.fp32.nanCode, {})
  | .inf s => if s then (Fmt.fp32.nanCode, { nv := true }) else roundFp32 (.inf false) rtz
  | .fin s m e =>
    if m = 0 then roundFp32 (.fin s 0 0) rtz
    else if s then (Fmt.fp32.nanCode, { nv := true })
    else
      let m' := if e % 2 = 0 then m <<< 80 else m <<< 81
      let e' := if e % 2 = 0 then e - 80 else e - 81
      let r := isqrt m'
      roundFp32 (.fin false (sticky r (r * r != m')) (e' / 2 - 1)) rtz

/-! ### The A40 sum (02 R62) -/

/-- Sum of the terms truncated into the window whose lowest bit is 2^u, and the sticky bit. -/
def windowSum (u : Int) : List Exact → Int × Bool
  | [] => (0, false)
  | .fin s m e :: xs =>
    let (t, st) := windowSum u xs
    let y : Int := scale m (e - u)
    (t + (if s then -y else y), st || lost m (e - u))
  | _ :: xs => windowSum u xs

/-- The greatest leading exponent of the terms that are not zero. -/
def maxLead : List Exact → Option Int
  | [] => none
  | .fin _ m e :: xs =>
    match maxLead xs with
    | none => if m = 0 then none else some (lead m e)
    | some k => if m = 0 then some k else some (max k (lead m e))
  | _ :: xs => maxLead xs

/-- `round_a40` of 02 R62 on s = x * 2^u. -/
def roundA40 (x : Int) (u : Int) (st : Bool) : Nat :=
  if x = 0 then 0
  else
    let neg := decide (x < 0)
    let m := x.natAbs
    let (c, ev) := roundTo (.fin neg m u) .a40 false true
    if !ev.ix || ev.sat then c
    else
      let b := max (lead m u) Fmt.a40.emin
      let k := u - (b - 30)
      match k with
      | .ofNat _ => c
      | .negSucc n =>
        if st && m % pow2 (n + 1) = pow2 n then
          (if neg then Fmt.a40.signBit else 0) + ((b - Fmt.a40.emin).toNat <<< 30 + (scale m k + 1))
        else c

/-- `a40_sum` of 02 R62, as an A40 code. -/
def a40Sum (ts : List Exact) : Nat :=
  if ts.any Exact.isNan then Fmt.a40.nanCode
  else
    let p := ts.any fun t => t.isInf && !t.sign
    let n := ts.any fun t => t.isInf && t.sign
    if p && n then Fmt.a40.nanCode
    else if p then Fmt.a40.maxCode + 1
    else if n then Fmt.a40.signBit + (Fmt.a40.maxCode + 1)
    else
      match maxLead ts with
      | none => if ts.all Exact.sign then Fmt.a40.signBit else 0
      | some em =>
        let u := em - 47
        let (x, st) := windowSum u ts
        roundA40 x u st

def a40 (c : Nat) : Exact := decodeNum .a40 c

/-- The sum of two A40 codes (14 R329). -/
def a40Add (x y : Nat) : Nat := a40Sum [a40 x, a40 y]

/-- FP32 widened exactly to A40 (02 R60). -/
def widenA40 (c : Nat) : Nat := (roundTo (fp32 c) .a40 false true).1

end Sys2Proof.Machine
end

