-- ==== Sys2Proof/Machine/Blocks.lean ====
section
/-!
DEFINITION. The self-describing block (02 R50 to R58), tree arithmetic (03 R64 to R74) and pack images (15 R357).
-/

namespace Sys2Proof.Machine

/-! ### Width classes and formats (02 R51) -/

/-- Elements of a block in a width class: 1 the 16-bit, 2 the 8-bit, 3 the 6-bit class. -/
def classCap (cls : Nat) : Nat :=
  match cls with
  | 1 => 31
  | 2 => 62
  | 3 => 82
  | _ => 0

def classBits (cls : Nat) : Nat :=
  match cls with
  | 1 => 16
  | 2 => 8
  | 3 => 6
  | _ => 0

/-- The format and the class of a format code; `none` for 0x00 and for a code outside the table. -/
def formatOf (code : Nat) : Option (Fmt × Nat) :=
  match code with
  | 0x10 => some (.fp16, 1)
  | 0x11 => some (.bf16, 1)
  | 0x20 => some (.t8 0, 2)
  | 0x21 => some (.t8 1, 2)
  | 0x22 => some (.t8 2, 2)
  | 0x40 => some (.int 8 true, 2)
  | 0x30 => some (.t6 0, 3)
  | 0x31 => some (.t6 1, 3)
  | _ => none

/-- A format code of the class other than 0x00. -/
def codeInClass (cls code : Nat) : Bool :=
  match formatOf code with
  | some (_, c) => c == cls
  | none => false

/-- The format under which a block reads in a class; `none`: it reads as a zero block (02 R51, R53). -/
def blockFmt (cls : Nat) (b : Block) : Option Fmt :=
  match formatOf (field b.toNat 0 8) with
  | some (f, c) => if c = cls then some f else none
  | none => none

/-- The scale byte as it is read (02 R52, R53). -/
def blockScale (b : Block) : Nat :=
  let s := field b.toNat 8 8
  if s = 0 ∨ s = 0xFF then 0x80 else s

/-- The code in slot `j` (02 R51). -/
def blockCode (cls : Nat) (b : Block) (j : Nat) : Nat := field b.toNat (16 + classBits cls * j) (classBits cls)

/-- The value of slot `j` read in class `cls` (02 R54): the decoded value times the block's multiplier. -/
def elementValue (cls : Nat) (b : Block) (j : Nat) : Exact :=
  match blockFmt cls b with
  | none => zero
  | some f => (decodeNum f (blockCode cls b j)).shift ((blockScale b : Int) - 128)

/-- Convert an element's value to FP32 (02 R54, R60): widening by format for every element format. -/
def elementFp32 (cls : Nat) (b : Block) (j : Nat) : Nat × Ev := roundTo (elementValue cls b j) .fp32 false true

/-- Bits [lo + len - 1 : lo] of a block replaced. -/
def setBits (b : Block) (lo len v : Nat) : Block :=
  let x := b.toNat
  BitVec.ofNat 512 (x - (field x lo len) <<< lo + (v % pow2 len) <<< lo)

def setCode (cls : Nat) (b : Block) (j v : Nat) : Block := setBits b (16 + classBits cls * j) (classBits cls) v

/-- A materialised block: the format, the scale 0x80, every element zero (02 R57). -/
def freshBlock (fmt : Nat) : Block := BitVec.ofNat 512 (0x8000 + fmt)

/-- The block that an element store writes into: materialised when it reads as a zero block, its scale byte made
0x80 when that alone is ill-formed, the spare bits zero in the 6-bit class (02 R51, R57). -/
def storeBase (cls dfmt : Nat) (b : Block) : Block :=
  match blockFmt cls b with
  | none => freshBlock dfmt
  | some _ =>
    let b := setBits b 8 8 (blockScale b)
    if cls = 3 then setBits b 508 4 0 else b

/-- A plain element store of value `v` (02 R56): it saturates and never changes a well-formed header. -/
def storeElem (cls dfmt : Nat) (b : Block) (j : Nat) (v : Exact) (src : Fmt) : Block × Ev :=
  let b := storeBase cls dfmt b
  match blockFmt cls b with
  | none => (b, {})
  | some f =>
    let (c, ev) := roundTo (v.shift (128 - (blockScale b : Int))) f false (widening src f)
    (setCode cls b j c, ev)

/-! ### Coefficient stores (03 R74) -/

/-- The least scale in s .. 0xFE at which |v| fits, or 0xFE; the largest finite INT8 value is 127 (log entry 108). -/
def fitScale (f : Fmt) (v : Exact) : Nat → Nat → Nat
  | 0, s => min s 0xFE
  | n + 1, s =>
    if s ≥ 0xFE then 0xFE
    else
      match f.maxFinite, v.abs.shift (128 - (s : Int)) with
      | .fin _ mm me, .fin _ m e => if magLt mm me m e then fitScale f v n (s + 1) else s
      | _, _ => s

/-- Re-round every slot but `i` from scale `sc` to scale `sc2` into the block's own format: a NaN code becomes the
canonical one (log entry 106). -/
def rescaleSlots (cls : Nat) (f : Fmt) (sc sc2 i : Nat) : Nat → Block → Block
  | 0, b => b
  | j + 1, b =>
    let b := rescaleSlots cls f sc sc2 i j b
    if j = i then b
    else
      let v := (decodeNum f (blockCode cls b j)).shift ((sc : Int) - sc2)
      setCode cls b j (roundTo v f false true).1

/-- `store_coef` of 03 R74 within one block; `v` is a binary32 code. The spare bits of a 6-bit block stay as they are
(log entry 109). -/
def storeCoef (cls dfmt : Nat) (b : Block) (j v : Nat) : Block :=
  let b := match blockFmt cls b with
    | none => freshBlock dfmt
    | some _ => b
  match blockFmt cls b with
  | none => b
  | some f =>
    let x := fp32 v
    let sc := blockScale b
    let (c, ev) := roundTo (x.shift (128 - (sc : Int))) f false (widening .fp32 f)
    if ev.sat && x.isFin && decide (sc < 0xFE) then
      let sc2 := fitScale f x 255 (sc + 1)
      let b := rescaleSlots cls f sc sc2 j (classCap cls) b
      let b := setCode cls b j (roundTo (x.shift (128 - (sc2 : Int))) f false (widening .fp32 f)).1
      setBits b 8 8 sc2
    else setBits (setCode cls b j c) 8 8 sc

/-! ### Trees (03 R64 to R73) -/

/-- A tree descriptor: four words (03 R69). -/
structure TreeDesc where
  base : Nat
  depth : Nat
  ar : Bool
  cls : Nat
  dfmt : Nat
  gy : Nat
  gx : Nat
  rstride : Nat
  tstride : Nat
deriving DecidableEq, Repr

/-- The fields of a descriptor's 32 bytes (03 R69). -/
def treeDesc (d : BitVec 256) : TreeDesc :=
  let x := d.toNat
  let b := field x 6 50
  { base := (if b.testBit 49 then b + (0xFF <<< 50) else b) * 64
    depth := field x (64 + 44) 4
    ar := bit x (64 + 42)
    cls := field x (64 + 40) 2
    dfmt := field x (64 + 32) 8
    gy := field x (64 + 16) 16
    gx := field x 64 16
    rstride := field x (128 + 32) 24
    tstride := field x 128 24 }

/-- The leaves of a tree (03 R64). -/
def TreeDesc.leaves (t : TreeDesc) : Nat := if t.ar then pow2 (2 * t.depth) else pow2 t.depth

/-- The blocks of a tree (03 R68). -/
def TreeDesc.nb (t : TreeDesc) : Nat := (t.leaves + classCap t.cls - 1) / classCap t.cls

/-- The conditions of a descriptor load (03 R70). -/
def treeDescOk (d : BitVec 256) : Bool :=
  let x := d.toNat
  let t := treeDesc d
  field x 0 6 == 0 && field x 56 8 == 0 && field x (64 + 48) 16 == 0 && !bit x (64 + 43) &&
  field x (128 + 56) 8 == 0 && field x (128 + 24) 8 == 0 && field x 192 64 == 0 &&
  t.cls != 0 && codeInClass t.cls t.dfmt &&
  decide (1 ≤ t.depth) && decide (t.depth ≤ if t.ar then 7 else 14) &&
  decide (1 ≤ t.gx) && decide (1 ≤ t.gy) && decide (t.nb ≤ t.tstride) &&
  (t.gy == 1 || decide (t.gx * t.tstride ≤ t.rstride))

/-- The address of tree (gx, gy) (03 R69), modulo 2^64. -/
def TreeDesc.treeBase (t : TreeDesc) (gx gy : Nat) : Nat := (t.base + 64 * (gy * t.rstride + gx * t.tstride)) % pow2 64

/-- `zorder` of 03 R67 on seven bit positions. -/
def zorder (x y : Nat) : Nat → Nat
  | 0 => 0
  | b + 1 => zorder x y b + b2n (x.testBit b) * pow2 (2 * b) + 2 * b2n (y.testBit b) * pow2 (2 * b)

/-- The synthesis row of a child for h, v and g, true for -1 (03 R66). -/
def row4 (cx cy : Nat) : Bool × Bool × Bool := (cx = 1, cy = 1, cx != cy)

/-- A position within a level: p for arity 2, (x, y) for arity 4. -/
structure Pos where
  x : Nat
  y : Nat
deriving DecidableEq, Repr

/-- The coefficients that the path of an average at level `l` uses at level `m`, each with whether its synthesis
row is -1 (03 R67, R72). -/
def pathCoefs (ar : Bool) (l m : Nat) (p : Pos) : List (Nat × Bool) :=
  let xm := p.x >>> (l - m)
  if ar then
    let ym := p.y >>> (l - m)
    let i := pow2 (2 * (m - 1)) + 3 * zorder (xm >>> 1) (ym >>> 1) 7
    let (sh, sv, sg) := row4 (xm % 2) (ym % 2)
    [(i, sh), (i + 1, sv), (i + 2, sg)]
  else [(pow2 (m - 1) + xm >>> 1, xm % 2 = 1)]

/-- Every coefficient of a path from the root down, in the order of 03 R72. -/
def pathAll (ar : Bool) (l : Nat) (p : Pos) : Nat → List (Nat × Bool)
  | 0 => []
  | m + 1 => pathAll ar l p m ++ pathCoefs ar l (m + 1) p

/-- The blocks of a tree as they were read: block number and bytes. -/
abbrev TreeBlocks := SMap Block

/-- `coef` of 03 R72. -/
def coef (cls : Nat) (bs : TreeBlocks) (i : Nat) : Nat :=
  (elementFp32 cls (SMap.get 0 bs (i / classCap cls)) (i % classCap cls)).1

/-- Multiply by the row's sign; exact (03 R72). -/
def signed (minus : Bool) (c : Nat) : Nat := if minus then fneg c else c

/-- Add the path's coefficients one by one (03 R72). -/
def addPath (cls : Nat) (bs : TreeBlocks) (a : Nat) : List (Nat × Bool) → Nat
  | [] => a
  | (i, s) :: ps => addPath cls bs (fadd false a (signed s (coef cls bs i))).1 ps

/-- `tree_avg` of 03 R72. -/
def treeAvg (t : TreeDesc) (bs : TreeBlocks) (l : Nat) (p : Pos) : Nat :=
  addPath t.cls bs (coef t.cls bs 0) (pathAll t.ar l p l)

/-- `adjust` of 03 R73. -/
def adjust (t : TreeDesc) (bs : TreeBlocks) (i x : Nat) : TreeBlocks :=
  let k := i / classCap t.cls
  let b := SMap.get 0 bs k
  bs.insert k (storeCoef t.cls t.dfmt b (i % classCap t.cls) (fadd false (coef t.cls bs i) x).1)

def adjustAll (t : TreeDesc) (f : Nat) (bs : TreeBlocks) : List (Nat × Bool) → TreeBlocks
  | [] => bs
  | (i, s) :: ps => adjustAll t f (adjust t bs i (signed s f)) ps

/-- The levels from `m` down to 1, then the root (03 R73). -/
def updateFrom (t : TreeDesc) (l : Nat) (p : Pos) : Nat → Nat → TreeBlocks → TreeBlocks
  | 0, f, bs => adjust t bs 0 f
  | m + 1, f, bs =>
    let f := (fdiv false f (if t.ar then 0x40800000 else 0x40000000)).1
    updateFrom t l p m f (adjustAll t f bs (pathCoefs t.ar l (m + 1) p))

/-- `tree_update` of 03 R73 on the blocks of the tree. -/
def treeUpdate (t : TreeDesc) (bs : TreeBlocks) (l : Nat) (p : Pos) (new : Nat) : TreeBlocks :=
  updateFrom t l p l (fsub false new (treeAvg t bs l p)).1 bs

/-- The detail that an access names (03 R67, R71): level m, its level-(m-1) average, and the selector. -/
def detailIndex (t : TreeDesc) (m : Nat) (p : Pos) (sel : Nat) : Nat :=
  if t.ar then pow2 (2 * (m - 1)) + 3 * zorder p.x p.y 7 + sel else pow2 (m - 1) + p.x

/-- The blocks that coefficients lie in, each once. -/
def coefBlocks (cls : Nat) (is : List Nat) : List Nat := is.foldl (fun a i => setInsert a (i / classCap cls)) []

/-- The blocks of the path of an average (03 R81). -/
def pathBlocks (t : TreeDesc) (l : Nat) (p : Pos) : List Nat :=
  coefBlocks t.cls (0 :: (pathAll t.ar l p l).map Prod.fst)

/-! ### CRC-32C (15 R353) -/

/-- Eight steps of the reflected polynomial 0x82F6_3B78. -/
def crcBits : Nat → Nat → Nat
  | 0, c => c
  | n + 1, c => crcBits n (if c % 2 = 1 then (c >>> 1) ^^^ 0x82F63B78 else c >>> 1)

/-- The running value after one byte. -/
def crcByte (c : Nat) (b : BitVec 8) : Nat := crcBits 8 (c ^^^ b.toNat)

/-- The running value after bytes in ascending order. -/
def crcRun (c : Nat) (bs : List (BitVec 8)) : Nat := bs.foldl crcByte c

/-- The CRC-32C of bytes. -/
def crc32c (bs : List (BitVec 8)) : Nat := crcRun 0xFFFFFFFF bs ^^^ 0xFFFFFFFF

/-! ### Packs and pack images (03 R82 to R84, 15 R357) -/

/-- Whether packed mode keeps a block (03 R84): its byte 0 is not 0x00. -/
def blockPresent (b : Block) : Bool := field b.toNat 0 8 != 0

/-- The tag of a pack of four blocks in packed mode. -/
def packTag : List Block → Nat → Nat
  | [], _ => 0
  | b :: bs, i => b2n (blockPresent b) <<< i + packTag bs (i + 1)

end Sys2Proof.Machine
end

