-- ==== Sys2Proof/Machine/State.lean ====
section
/-!
DEFINITION. The state of the GX-4180: everything the spec gives the machine, as plain data, and the machine right
after reset. INVENTORY.md lists every piece with its rule and its reset value.

Registers a core reads by number, and the writes to them that are not yet visible, are kept under the number of
their place (`Loc.key`); everything else is a field with its own name.
-/

namespace Sys2Proof.Machine

/-! ### Why a step can stop -/

/-- The reasons a step could stop with a fault. The machine of this spec takes every fault it describes as a next
state (18 R383), so no step answers with one: nobody raises it. Safe. -/
inductive Fault where
  /-- Raised by nobody: no rule of the spec stops the machine. Safe. -/
  | noRule
deriving DecidableEq, Repr

/-- The reasons a step could be refused. -/
inductive Refusal where
  /-- Raised by an arm of `exec` whose instruction has no meaning yet: none has been left so. Safe. -/
  | notModelled (mnemonic : String)
deriving DecidableEq, Repr

/-! ### Registers and their pending writes (06 R159, R169, R177) -/

/-- A place that moves, operations and the loop sequencer write, by name. Ports carry their unit's slot number. -/
inductive Loc where
  | sreg (fileB : Bool) (n : Nat)
  | vreg (fileB : Bool) (n : Nat)
  | pred (n : Nat)
  | mask (n : Nat)
  | oport (slot n : Nat)
  | rport (slot : Nat) (s : Bool)
  | vt
  | tsh (n : Nat)
  | td (n : Nat)
  | trip (l : Nat)
  | cb (j : Nat)
  | cs (j l : Nat)
  | nest (ch idx : Nat)
deriving DecidableEq, Repr

/-- The number of a place; `handler` gives the second copy of the banked ones (18 R383): ports, p0 to p7, sa24 to
sa31 and sb24 to sb31, and the registers of the loop sequencer, which a trap freezes (log entry 19). -/
def Loc.key (handler : Bool) : Loc → Nat
  | .sreg f n => b2n f * 32 + n + (if 24 ≤ n then 4096 * b2n handler else 0)
  | .vreg f n => 64 + b2n f * 16 + n
  | .pred n => 96 + n + 4096 * b2n handler
  | .mask n => 104 + n
  | .oport s n => 112 + 8 * s + n + 4096 * b2n handler
  | .rport s r => 176 + 2 * s + b2n r + 4096 * b2n handler
  | .vt => 192
  | .tsh n => 193 + n
  | .td n => 201 + n
  | .trip l => 209 + l + 4096 * b2n handler
  | .cb j => 215 + j + 4096 * b2n handler
  | .cs j l => 223 + 8 * l + j + 4096 * b2n handler
  | .nest c i => 271 + 32 * c + i

/-- How a write changes what its place holds (11 R279, 13 R304). -/
inductive WriteOp where
  | put      -- replaces the value
  | orBits   -- ORs bits in: the event writes of VT
  | clear    -- clears the bits given: vtclr
  | thr      -- replaces bits [63:32]: vtthr
  | byte1    -- replaces bits [15:8]: the valid rows of a shape register
  | byte2    -- replaces bits [23:16]: its valid columns
deriving DecidableEq, Repr

/-- A denial or a poison that reached a core and is not yet delivered (01 R39, 18 R378): the fault code, the
address, the access kind of FCAUSE and the mask of its path (05 R128). -/
structure Notice where
  code : Nat
  addr : Nat
  kind : Nat
  path : Nat
  seen : Bool
deriving DecidableEq, Repr

/-- A write that has its place in program order but is not yet part of what a block inherits (06 R177, 08 R206). -/
structure PWrite where
  id : Nat
  key : Nat
  op : WriteOp
  val : Vec
  trig : Nat          -- the bundle that made it
  slot : Nat          -- and its slot
  vis : Nat           -- the first bundle to which it is visible
  blk : Nat           -- the block that made it
  later : Bool        -- visible to later blocks only (08 R206)
  landed : Bool       -- its value has arrived
  load : Bool         -- it counts in `ld` until it lands (06 R176)
  early : Bool := false   -- it must land before its block commits (06 R174)
  bad : Option Notice -- it carries poison or a denial
deriving DecidableEq, Repr

/-- The registers of a core: the values every write before them has left, and the pending writes in program
order. -/
structure RegFile where
  base : SMap Vec := []
  pend : List PWrite := []
  handler : Bool := false   -- the handler bank is in use (18 R383)
  nextId : Nat := 0
deriving DecidableEq, Repr

/-- The loop sequencer's own state (10 R264); trip counts, bases and strides are places of `RegFile`. -/
structure Seq where
  lv : Nat := 0
  nb : Nat := 0
  rstart : Nat := 0
  qn : Nat := 0
  icount : Nat := 0
  li : List Nat := [0, 0, 0, 0, 0, 0]
  q : BitVec 8 := 0
  range : List Bundle := []   -- the replay buffer; empty while it is still to be fetched again
  away : Bool := false        -- fetch has been diverted from the active range to a drain stub (18 R391)
deriving DecidableEq, Repr

/-! ### Translation (01 R14 to R33) -/

/-- A cached leaf (01 R25): the page's first address, its size code, its leaf and the level it stood at. -/
structure TlbEntry where
  asid : Nat
  va : Nat
  size : Nat
  leaf : BitVec 64
  level : Nat
  pool : Nat := 0       -- the address of the descriptor that a pooled leaf names (04 R117)
deriving DecidableEq, Repr

/-- What a translation gives an access (01 R18, R20): the address, the leaf, the remote device if there is one, and
whether a read falls on a pool entry with V = 0. -/
structure Xlat where
  va : Nat
  pa : Nat
  leaf : BitVec 64
  dev : Option Nat
  hole : Bool
  thru : Bool := false  -- the write right that decided it has been removed: the store is made at the home (04 R121, R126)
deriving DecidableEq, Repr

/-- Who makes an access: the core, its context's registers, the mode and the module's device number (01 R14, R15,
R23). -/
structure Who where
  core : Nat
  xroot : Word
  xrdt : Word
  xpool : Word
  sup : Bool
  devn : Nat
  sched : Bool := false     -- the die's scheduler makes it: it has no level-1 TLB (01 R25)
deriving DecidableEq, Repr

/-! ### Held operations (06 R173) -/

/-- The combining operations of atomics (08 R211). -/
inductive AtOp where
  | add | and | or | xor | min | max | minu | maxu | fadd | swp | cas
deriving DecidableEq, Repr

/-- A held operation with the operands it captured at dispatch and the translations it was checked with. -/
inductive HOp where
  | load (n : Nat) (signed : Bool) (x : Xlat)   -- a load of cached memory that waits behind a held operation of its block
  | await (pa : Nat)   -- an ordering operation that has been sent to a remote home and is not acknowledged (05 R138)
  | store (n : Nat) (x : Xlat) (v : BitVec 1024)
  | sstore (n off : Nat) (v : BitVec 1024)
  | ldio (n : Nat) (x : Xlat)
  | atomic (op : AtOp) (cw : Nat) (x : Xlat) (a c : Word)
  | ldAcq (scope : Nat) (x : Xlat)
  | stRel (scope : Nat) (x : Xlat) (v : Word)
  | acq (scope : Nat) (x : Xlat)
  | rel (scope : Nat) (x : Xlat) (v : Word)
  | fence (scope p c : Nat)
  | moor (base len : Word) (x : Xlat)
  | unmoor (base : Word) (x : Xlat)
  | poolShare (d s : Xlat) (dp sp : Nat)
  | poolDrop (d : Xlat) (dp : Nat)
  | poolAlloc (d : Xlat) (dp : Nat)
  | xlinv (scope asid base len : Nat)
  | xlwait (upTo : Option Nat)   -- once it is reached: the invalidations below this number are those issued before it
  | icinv (base len : Nat)
  | cacheRegion (inv : Bool) (base len : Nat)
  | vload (n : Nat) (x : Xlat)
  | vstore (n : Nat) (x : Xlat) (v : BitVec 1024)
  | svload (n off : Nat)
  | svstore (n off : Nat) (v : BitVec 1024)
  | eld (base i0 c cls : Nat) (xs : List Xlat)
  | est (base i0 c cls dfmt : Nat) (v : BitVec 1024) (xs : List Xlat)
  | lavg (home row : Bool) (d : BitVec 256) (sel pos : Nat) (xs : List Xlat)
  | ldet (home : Bool) (d : BitVec 256) (sel pos : Nat) (xs : List Xlat)
  | trst (d : BitVec 256) (sel pos new : Nat) (xs : List Xlat)
  | tdld (td : Nat) (x : Xlat)
  | qset (q : Nat) (w : Word)
  | qpush (q : Nat) (v : BitVec 1024)
  | qpop (q : Nat)
  | qadv (q n : Nat) (consumer : Bool)
  | qsts (q : Nat)
  | cpReg (ch idx : Nat) (v : Word)
  | cpGo (ch : Nat) (regs : List Word) (td : BitVec 256)
  | cpDrain (ch : Nat)
  | cpSts (ch : Nat)
  | sqPost (q : Nat) (e : BitVec 512) (refuse : Bool)
  | sqCqack (q n sqhd : Nat)
  | fork (a : Nat)
  | join (a : Nat)
  | spawn (a : Nat)
  | launch (a : Nat) (stream : Nat)
  | done
  | bar
  | swr (num : Nat) (v : Word)
  | trap (v : Word)
  | rfe
  | park
  | abort
  | yield (resume : Nat)
  | unpark (core : Nat)
  | clkset (eng dv : Nat)
  | vset (code : Nat)
  | clkrd (sel : Nat)
  | swsel (a b c : Nat)
deriving DecidableEq, Repr

/-- A held operation in the block store buffer or in the copy engine's command queue. -/
structure Held where
  op : HOp
  slot : Nat
  bundle : Nat
  blk : Nat
  sup : Bool
  rid : Option Nat      -- the pending write that takes its result
  released : Bool
  again : Bool := false -- it follows a pool operation or `xlwait` of its block: it is translated once more (08 R222, R224)
deriving DecidableEq, Repr

/-! ### The matrix engine and the basin (13, 14) -/

/-- A command of the matrix engine with its captured operands (13 R305, 14 R324). -/
inductive MxCmd where
  | tld (w : Nat) | tldv (v : Vec) (w : Nat) | tst (w : Nat) | trd (w : Nat)
  | shset (n : Nat) (v : Word) | shget (n : Nat) (v : Word)
  | step (w : Nat) (shA shB : Word)
  | azero (w : Nat) | ard (w : Nat) | awr (v : Vec) (w : Nat)
  | acvt (w : Nat) | acvts (w off rows : Nat) | aldq (w : Nat)
  | rsts | rclr (w : Nat)
  | bchain (w : Nat) (ranks : List Nat) | bsend (w : Nat) | bwait (w : Nat) | bfree (ch : Nat) | bsts (clr : Bool)
deriving DecidableEq, Repr

/-- A command in the queue; `row` counts the rows of a basin pass that it has finished (14 R338). -/
structure MxEntry where
  cmd : MxCmd
  word : Word
  bundle : Nat
  blk : Nat
  rid : Option Nat
  released : Bool
  row : Nat
  retry : Bool          -- the step waits for its second try (13 R319)
  pass : Option Nat     -- the pass that a basin command which has fired belongs to (14 R327)
deriving DecidableEq, Repr

/-- Half a row in a receive slot (14 R332, R343): its pass, its 48 elements, the cores that it came from as bits, whose
number is the fan-in count, and whether it is poisoned. -/
structure SlotHalf where
  pass : Nat
  data : List (BitVec 40)
  srcs : Nat
  bad : Bool
deriving DecidableEq, Repr

/-- One receive slot (14 R322): the chain it is reserved for, and the halves of the rows it holds, half h of row r at
2 r + h. -/
structure RecvSlot where
  crew : Nat
  ch : Nat
  rows : SMap (Option SlotHalf)
deriving DecidableEq, Repr

/-- A flit on its way to a core (14 R329, R343): its chain, pass, row and half, the core that sent it, and the word and
the place in program order of the command that did. -/
structure Flit where
  crew : Nat
  ch : Nat
  pass : Nat
  row : Nat
  half : Nat
  fan : Bool
  src : Nat
  word : Word
  blk : Nat
  bundle : Nat
  data : List (BitVec 40)
  bad : Bool
deriving DecidableEq, Repr

/-- The rest of a pass that a hop forwards as poisoned rows after a fault (14 R337): from row `row` on, each as two flits
like `flit`. -/
structure Forward where
  hop : Nat
  row : Nat
  flit : Flit
deriving DecidableEq, Repr

/-- The matrix engine of a core. -/
structure Matrix where
  tiles : SMap Block := []          -- t n, row k, half h at 192 n + 2 k + h (13 R302)
  tilePoison : List Nat := []
  acc : SMap (BitVec 40) := []      -- c n, row r, column j at (96 n + r) * 96 + j (13 R305)
  accPoison : List Nat := []
  tileErr : List Nat := []          -- halves and elements with an uncorrectable error that no block has read yet (18 R378)
  accErr : List Nat := []
  queue : List MxEntry := []
  rcor : Nat := 0
  runc : Nat := 0
  ev : Ev := {}                     -- MXST NV, SAT, IX
  fp : Bool := false
  fc : Nat := 0
  fword : Word := 0                 -- the captured word of the recorded tile fault
  ffeed : Option Nat := none        -- the channel whose fault fed it (15 R363)
  phase : Nat := 0                  -- matrix cycles since the last step fired (15 R355)
  applied : List Nat := []          -- the bank groups to which a row was applied in that cycle
  lastStep : Option Nat := none     -- the bank group of the step whose writeback window may still come
  recv : List (Option RecvSlot) := [none, none, none, none]
  arriving : List Flit := []
  forwards : List Forward := []
  crcr : Nat := 0
  crcf : Nat := 0
deriving DecidableEq, Repr

/-! ### The copy engine, quays, storage (15) -/

/-- A released nest (15 R347): its captured registers in the order of R348, the captured tree descriptor, the copies
emitted and the running CRC, or of a pack-out the length of its image (R353, R357). -/
structure Nest where
  regs : List Word
  td : BitVec 256
  sup : Bool
  iter : Nat
  crc : Nat
  marks : List (Nat × Nat) := []   -- copies that may still be denied, and the CRC before each (15 R353)
  dead : Bool           -- it has faulted, and copies of it are still in flight (15 R347)
deriving DecidableEq, Repr

/-- A channel (15 R347, R358). -/
structure Channel where
  nests : List Nest := []
  cres : Word := 0
  iter : Nat := 0
  fp : Bool := false
  fc : Nat := 0
  faddr : Nat := 0
  fkind : Nat := 0
  flvl : Nat := 7
deriving DecidableEq, Repr

/-- A quay (15 R361, R362). -/
structure Quay where
  v : Bool := false
  base : Nat := 0
  dm1 : Nat := 0
  esm1 : Nat := 0
  pc : Nat := 0
  cc : Nat := 0
  feed : Nat := 0xF
  taking : Option Nat := none   -- the channel that has read an entry whose pop waits for its rows (15 R358)
  coming : List (Nat × List (Block × Bool)) := []   -- entries being written, with their channels: PC rises as they land (15 R361)
deriving DecidableEq, Repr

/-- An add-on-write row on its way to a core (15 R355), and the copy of its nest that it belongs to. -/
structure AddOnRow where
  src : Nat
  ctx : Nat := 0        -- the context that sent it (05 R156)
  ch : Nat
  copy : Nat
  tile : Nat
  row : Nat
  mask : Nat
  quay : Option Nat := none   -- the quay whose entry the copy takes (15 R358)
  data : List (BitVec 32)
deriving DecidableEq, Repr

/-- A copy record that the record channel performs (09 R231). -/
structure RecordCopy where
  addr : Nat
  ctx : Nat
  sup : Bool
  creatorSup : Bool
  owner : Option Nat
  origin : Nat
  src : Nat
  dst : Nat
  len : Nat
  doneBytes : Nat
  crc : Nat
  mode : Nat
deriving DecidableEq, Repr

/-- The copy engine of a core. -/
structure CopyEngine where
  queue : List Held := []
  chans : SMap Channel := []
  quays : SMap Quay := []
  qflt : Word := 0
  qfeed : Option Nat := none        -- the channel whose fault made the recorded quay fault a feed pop (15 R363)
  addOn : List AddOnRow := []
  record : Option RecordCopy := none
  drained : List Nat := []          -- the channels whose recorded faults the next block takes; 8 is a quay's (15 R359, R363)
deriving DecidableEq, Repr

/-! ### The core -/

/-- The running task (09 R235). -/
structure Task where
  ctx : Nat
  trec : Nat
  owner : Option Nat       -- the stream of its owning launch (09 R246)
  crew : Option Nat
  rank : Nat
  crewn : Nat
  tc : Nat × Nat × Nat
  record : Bool            -- it was started from a task record
  origin : Nat             -- its origin cluster (09 R252)
  code : Nat               -- address of its code object header
  sup : Bool               -- MODE of its record
  creatorSup : Bool
  rst : Bool
  spw : Nat
deriving DecidableEq, Repr

/-- What a core has read of a code object header (06 R182). -/
structure CodeObj where
  addr : Nat := 0
  ctx : Nat := 0            -- the context that it was read in
  npar : Nat := 0
  lat : List Nat := []
  stubs : List (Nat × Nat × Nat) := []
  dstub : Option Nat := none
deriving DecidableEq, Repr

/-- What a core does next. -/
inductive Phase where
  | idle
  | starting          -- a task is placed and has not started (09 R235)
  | head              -- at a block head (06 R171)
  | run               -- bundles of the current block pass
  | commit            -- every bundle of the block has passed
  | release           -- the block has committed and its held operations are performed
  | iter              -- at an iteration boundary (10 R267)
  | barrier           -- arrived at a crew barrier (10 R277)
  | ending (status aux : Nat)   -- the task ends and its record is not yet complete (05 R148)
  | parking           -- `ctl.park` waits for the engines (18 R387)
  | parked
  | yielding (resume : Nat)
  | unparked          -- in a save frame: it was parked, and `ctl.unpark` has acted on it (18 R387)
  | dying             -- the task is forced to a kill, and its engine work has not ended (18 R395)
deriving DecidableEq, Repr

/-- A fault to be taken: code, address, access kind, level, slot, channel and bundle of the block (18 R379, R380). -/
structure FaultInfo where
  code : Nat
  addr : Nat := 0
  kind : Nat := 0
  lvl : Nat := 7
  slot : Nat := 0
  ch : Nat := 0
  bidx : Nat := 0
  aft : Bool := false
deriving DecidableEq, Repr

/-- What stands behind a barrier at which a task was pre-empted (18 R391): entries of the block store buffer, of the copy
engine's queue, and the operations that end the block. -/
structure Behind where
  store : List Held := []
  ex : List Held := []
  final : List HOp := []
deriving DecidableEq, Repr

/-- Where a core stands in its code. -/
structure Control where
  phase : Phase := .idle
  head : Nat := 0               -- the next, or the current, block head
  cameFrom : Nat := 0           -- the exit bundle that led there (10 R263)
  negative : Bool := false      -- the exit target is no parcel index
  bundles : List Bundle := []   -- the bundles of the block that have not passed
  bidx : Nat := 0
  cur : Bundle := { hdr := { pres := 0, sync := 0, stop := false, x := true, nli := 0, rq := 0 }
                    moves := [], long := [], index := 0, stop := 0 }
  todo : List (Slot × Parcel) := []   -- the moves of the bundle that have not been performed
  exit : Option Nat := none     -- the target of the exit that fired (10 R262)
  exitNeg : Bool := false
  deferred : Option (Notice × Nat) := none   -- what a move would have consumed, and its slot: it waits for the lower
                                             -- slots of its bundle (18 R379)
  loop : Option (Nat × Nat) := none          -- `ctl.loop` of the block: loop word and QN
  waiting : Option Nat := none               -- the limits of a `ctl.wait` that is not yet ready (10 R271)
  final : List HOp := []        -- operations of the block that end or divert it after commit
  blk : Nat := 0
  bcount : Nat := 0
  store : List Held := []       -- the block store buffer (06 R173)
  held : Nat := 0               -- its entries that triggers of the block with false guards have taken
  iterate : Bool := false       -- the block ended an iteration of the range
  behind : Behind := {}
deriving DecidableEq, Repr

/-- Pre-emption of a task (18 R391). -/
inductive Preempt where
  | none
  | pending
  | stub (frame since : Nat)
deriving DecidableEq, Repr

/-- The trap state of a core (18 R380, R381). -/
structure Trap where
  fcause : Word := 0
  faddr : Word := 0
  fpc : Word := 0
  tl : Bool := false
  sup : Bool := false
  preempt : Preempt := .none
  savedSeq : Seq := {}
  savedCode : CodeObj := {}
  savedFrom : Nat := 0
deriving DecidableEq, Repr

/-- The clocks of a core (20 R404 to R411): the requested divisors, the divisors its engines run at, the voltage
request and the stall samples, in the order control, vector, matrix, copy. -/
structure Clocks where
  d : List Nat := [2, 2, 2, 2]
  run : List Nat := [16, 16, 16, 16]
  vreq : Nat := 0
  waiting : List (Nat × Option Nat) := []   -- engines that wait for voltage, with the result they owe
  busy : List Nat := [0, 0, 0, 0]
  stall : List Nat := [0, 0, 0, 0]
  lastBusy : List Nat := [0, 0, 0, 0]
  lastStall : List Nat := [0, 0, 0, 0]
  counted : List Nat := [0, 0, 0, 0]   -- when the engine cycle last counted ends, doubled, with 1 more if it was busy
  entering : Bool := false      -- the first bundle of the task waits for its clocks (21 R426)
deriving DecidableEq, Repr

/-- One core. -/
structure Core where
  regs : RegFile := {}
  seq : Seq := {}
  ctl : Control := {}
  trap : Trap := {}
  xroot : Word := 0
  xrdt : Word := 0
  xpool : Word := 0
  code : CodeObj := {}
  hdr : CodeObj := {}           -- the header that the core last read (06 R183)
  task : Option Task := none
  mx : Matrix := {}
  cp : CopyEngine := {}
  clk : Clocks := {}
  ways : Nat := 0               -- scratchpad ways n (04 R92)
  scratch : SMap (BitVec 8) := []
  scratchPoison : List Nat := []
  scratchErr : List Nat := []       -- its blocks with an error that no block has read yet (18 R378, R393)
  lastLaunch : Option Nat := none   -- the launch whose task it last ran (04 R96)
  stOut : List Nat := []        -- lines of the stores that count in `st` (06 R176)
  notices : List Notice := []
  arrived : Nat := 0            -- crew barriers at which the task has arrived (10 R277)
deriving DecidableEq, Repr

/-! ### The memory system (01, 03, 04) -/

/-- The state of a level-1 line (04 R98). -/
inductive LineState where
  | clean | shared | exclusive | dirty
  | updateOnly (op : AtOp) (w8 : Bool)
deriving DecidableEq, Repr

/-- A level-1 line: its physical line number, its way, and the bits written since the fill, or, of an update-only line,
the elements touched (04 R92, R98). -/
structure L1Line where
  line : Nat
  way : Nat
  st : LineState
  data : Block
  mask : Block
  coh : Bool
  packed : Bool
  poison : Bool
  th : Bool            -- its page is tree-homed (01 R19)
  born : Nat           -- the order in which update-only lines were made (04 R101)
deriving DecidableEq, Repr

/-- An entry of the write-combining buffer, with the bits stored into its line (04 R100). -/
structure WcEntry where
  line : Nat
  data : Block
  mask : Block
  packed : Bool
  th : Bool
deriving DecidableEq, Repr

/-- A frame of a level-2 slice: the line it holds, its way, and the range register that retains it (04 R104, R111). -/
structure L2Line where
  line : Nat
  way : Nat
  kept : Option Nat
deriving DecidableEq, Repr

/-- A translation miss of a core (01 R27): the access, whether its walk has ended in a fault that the access will take,
and, of a miss that found the queue full, when it looks again. -/
structure Miss where
  core : Nat
  va : Nat
  fetch : Bool
  sup : Bool
  done : Bool
  retryAt : Option Nat
deriving DecidableEq, Repr

/-- An instruction-cache line: 64 bytes at a virtual address under an ASID (04 R102). -/
structure ILine where
  asid : Nat
  va : Nat
  data : Block
deriving DecidableEq, Repr

/-- A block-entry cache entry, with the frame of the block that it names (04 R121). -/
structure BecEntry where
  pa : Nat
  entry : Nat
  right : Bool
  base : Nat
  size : Nat
deriving DecidableEq, Repr

/-- An access that its peer has not acknowledged (05 R157, 22 R435). -/
structure Unacked where
  core : Nat
  mid : Nat
  dev : Nat
  pa : Nat
  store : Bool
  path : Nat
  rid : Option Nat
  kind : Nat := 0                   -- the kind of access that a denial of it names (18 R380)
  ctx : Nat := 0                    -- the context that made it (18 R397)
  bad : Bool := false               -- the data that it carries is poisoned (04 R116)
  tree : Bool := false              -- a tree update, which counts in `st` until then (08 R217)
  ch : Option Nat := none           -- the channel whose copy it is (05 R146)
  copy : Nat := 0                   -- and the number of that copy in its nest (15 R358)
  serial : Nat := 0                 -- how many messages were sent before it (22 R433)
deriving DecidableEq, Repr

/-- An outstanding invalidation (01 R29 to R33): its scope, its context and the units that have observed it. -/
structure Inval where
  id : Nat
  core : Nat
  ctx : Nat
  scope : Nat
  asid : Nat
  base : Nat
  len : Nat
  seen : List Nat
  frames : List (Nat × Nat) := []     -- first address and size of the frames of the leaves it has removed
  old : List (Nat × Nat) := []        -- cores that hold old operations, and the last block of them
  remote : List Unacked := []         -- the accesses of the observing cores that no remote home had acknowledged
  rows : List AddOnRow := []          -- the add-on-writes of the observing cores that were on their way
  saved : List Nat := []              -- cores with old operations of a task that was pre-empted at a barrier
deriving DecidableEq, Repr

/-- A mooring (05 R140). -/
structure Mooring where
  asid : Nat
  base : Nat
  len : Nat
  bol : Nat
deriving DecidableEq, Repr

/-- An entry of a denial log (01 R38). -/
structure Denial where
  mid : Nat
  pa : Nat
  kind : Nat
  unpopulated : Bool
deriving DecidableEq, Repr

/-- A target with an access table (01 R35, R40). Targets are numbered: the register blocks of dies 0 to 3, the stack
controllers 4 to 19, the level-2 slices 20 to 147, the root ports 148 to 151, the ingress of links 152 to 183. -/
structure Target where
  en : Bool := false
  base : Nat := 0
  busy : Bool := false
  invAll : Bool := false
  invMid : Nat := 0
  cache : SMap (BitVec 128) := []   -- cached windows by 32 MID + window
  log : List Denial := []
  lost : Nat := 0
deriving DecidableEq, Repr

/-- A copy-on-write whose count has not been lowered yet (04 R123): who made it, the address of the pool's descriptor and the
index of the old block. -/
structure CowDebt where
  who : Who
  pool : Nat
  block : Nat
deriving DecidableEq, Repr

/-- A range register (04 R109). -/
structure RangeReg where
  base : Nat := 0
  last : Nat := 0
  ways : Nat := 0
  ratio : Nat := 0
  err : Bool := false
  en : Bool := false
deriving DecidableEq, Repr

/-- Memory and everything that caches it. -/
structure MemSys where
  mem : List Host.Cell := []        -- the bytes at the homes
  poison : List Nat := []           -- poisoned 64-byte blocks (04 R440)
  tags : SMap Nat := []             -- presence tags; an unlisted pack reads 0b1111 (03 R82)
  dirtyPacks : SMap (Option Bool) := []   -- dirty packs in level 2: whether a raw write reached them (03 R85)
  rawPacks : List Nat := []         -- packs to which a raw write has been made since their fill (03 R85)
  l1 : SMap (List L1Line) := []     -- by core, the most recently used line first (04 R93)
  wc : SMap (List WcEntry) := []    -- by core, the oldest entry first (04 R100)
  icache : SMap (List ILine) := []
  bec : SMap (List BecEntry) := []
  tlb : SMap (List TlbEntry) := []  -- level-1 TLBs of cores 0 to 255, instruction TLBs 256 to 511
  tlb2 : SMap (List TlbEntry) := []
  walk : SMap (SMap Nat) := []      -- walk caches by die and level, by the entry's address
  invals : List Inval := []
  nextInval : Nat := 0
  targets : SMap Target := []
  moors : SMap (List Mooring) := [] -- by die; shared mode uses table 0
  part : Bool := false              -- L2MODE.MODE
  l2busy : Bool := false
  l2ref : Bool := false
  l2mfull : Bool := false
  rr : SMap RangeReg := []
  rrCount : SMap Nat := []          -- sampling counter of slice s for register n at 8 s + n
  l2 : SMap (List L2Line) := []     -- level-2 slices by 32 die + k, the most recently used line first (04 R104)
  misses : SMap (List Miss) := []   -- by die, in order of arrival: the first eight have a walker (01 R27)
  cows : List CowDebt := []         -- copy-on-writes under way, the oldest first (04 R123)
  psub : Nat := 0
  corrected : SMap Nat := []        -- corrected-error counters by unit
deriving DecidableEq, Repr

/-! ### The scheduler (09, 18) -/

/-- A launch in flight (09 R239, R242). -/
structure Launch where
  addr : Nat
  stream : Nat
  ctx : Nat
  sup : Bool
  creatorSup : Bool
  prio : Nat
  rst : Bool
  code : Nat
  entry : Nat
  csize : Nat
  spw : Nat
  notify : Nat
  gx : Nat
  gy : Nat
  gz : Nat
  dealt : Nat              -- crews dealt so far
  errs : Nat
  fatal : Option (Nat × Nat)    -- a status that ends the launch, with AUX
  killed : Bool            -- a kill of its context completes it (18 R397)
  forced : Bool            -- a task of it was forced to a kill (20 R423)
  reports : List Nat       -- clusters that have reported (09 R252)
  serial : Nat             -- counts launches, for 04 R96
deriving DecidableEq, Repr

/-- A stream as the hardware follows it (09 R240). -/
structure Stream where
  waitFrom : Option Nat := none
  flight : Option Launch := none
  supQueued : List Nat := []     -- queued launch records with creator mode supervisor (R444)
deriving DecidableEq, Repr

/-- A stream slot (09 R240). -/
structure StreamSlot where
  stream : Nat
  mappedAt : Nat
  prevBoundary : Bool      -- it was mapped before the previous quantum boundary
  leaving : Option Nat     -- the stream that replaces it once its tasks have yielded
deriving DecidableEq, Repr

/-- A ready record (09 R246). -/
structure ReadyRec where
  addr : Nat
  ctx : Nat
  creatorSup : Bool
  owner : Option Nat
  origin : Nat
  prio : Nat
  copy : Bool
deriving DecidableEq, Repr

/-- An entry of a ready list: a record, or the crews of one that a launch dealt to the cluster (09 R242). -/
inductive Ready where
  | record (r : ReadyRec)
  | launch (stream : Nat) (crews : List Nat)
deriving DecidableEq, Repr

/-- A member of a crew (09 R243, R244). -/
structure Member where
  rank : Nat
  core : Nat
  ended : Bool
  arrived : Nat
deriving DecidableEq, Repr

/-- A chain of a crew (14 R323). -/
structure Chain where
  fan : Bool
  ranks : List Nat
  broken : Bool
  begun : List Nat         -- by hop, the passes whose commands have fired (14 R327, R333)
  ended : List Nat         -- by hop, the passes whose commands have finished
deriving DecidableEq, Repr

/-- A crew (09 R242, R243): the cores it may use, those it holds, and its members once it is admitted. -/
structure Crew where
  id : Nat
  stream : Nat
  index : Nat
  size : Nat
  region : List Nat
  held : List Nat
  members : List Member
  admitted : Bool
  released : Nat           -- barriers that have completed
  chains : SMap (Option Chain)
deriving DecidableEq, Repr

/-- The blocks of a save frame that stands in the module and not in the save area of its context, by number (20 R423, R424). -/
structure Kept where
  key : Nat                         -- 1024 CTX + 4 core + frame
  blocks : SMap Block
deriving DecidableEq, Repr

/-- The hardware scheduler. -/
structure Sched where
  en : Bool := false
  stab : Nat := 0
  dqsb : Nat := 0
  schErr : Nat := 0
  ctxb : Nat := 0
  shsb : Nat := 0
  killing : Option (Nat × Nat) := none   -- the context being killed, and the step of R397 it has reached
  slots : SMap (Option StreamSlot) := []
  streams : SMap Stream := []
  ready : SMap (List Ready) := []   -- by 8 cluster + PRIO
  deque : SMap (List ReadyRec) := []   -- by core, head first
  spill : SMap Nat := []            -- by core, the entries in its spill area in memory (09 R248)
  share : SMap Nat := []            -- by 32 stream + cluster while mapped; saved counters are in memory
  crews : List Crew := []           -- in dealing order
  nextCrew : Nat := 0
  frames : SMap (Option Core) := []   -- the opaque parts of save frames (18 R393), by 1024 CTX + 4 core + frame
  kept : List Kept := []            -- frames that a restart has taken from the save image and no core has resumed (20 R424)
  serial : Nat := 0
  quantum : Nat := 800000           -- the reference cycle of the next quantum boundary
  quanta : Nat := 0
  abandoned : List (ReadyRec × Bool) := []   -- records, with their MODE, that end with the kill of their context (18 R394, R397)
deriving DecidableEq, Repr

/-! ### Power, tide, fabric, boot (20, 22) -/

/-- A cluster's power state (20 R405, R410 to R412, R421). -/
structure ClusterPwr where
  code : Nat := 0
  target : Nat := 0
  settling : Bool := false
  lowering : Bool := false
  plvl : Nat := 0
  duty : Nat := 8
deriving DecidableEq, Repr

/-- A coolant zone (20 R419 to R421). -/
structure Zone where
  temp : Nat := 0
  valve : Nat := 0xFF
  flow : Nat := 0
  raisedAt : Option Nat := none
  flowAt : Option Nat := none
  sentAt : Nat := 0          -- when its valve was last sent
deriving DecidableEq, Repr

/-- Power and cooling. -/
structure Power where
  clusters : SMap ClusterPwr := []
  zones : SMap Zone := []
  coolMin0 : Word := 0xFFFFFFFFFFFFFFFF
  coolMin1 : Word := 0xFFFFFFFFFFFFFFFF
  pump : Nat := 0
  lostFrames : Nat := 0
  unresponsive : Bool := false
  frameSeq : Nat := 0
  frames : List (BitVec 64) := []   -- frames sent to the rack
  awaiting : List (Nat × Nat) := [] -- frames not yet acknowledged: sequence number and when they were sent
  thermal : Nat := 2                -- the module's thermal limit
  hot : Nat := 0                    -- the hottest junction seen in the running window
  window : Nat := 32000             -- the reference cycle of the next window boundary
  esw0 : Word := 0
  esw1 : Word := 0
  tripped : Option Nat := none      -- the group time of the 108 °C event
deriving DecidableEq, Repr

/-- A notice of the tide (20 R414). -/
structure TideNotice where
  limit : Nat
  gt : Nat
  seq : Nat
deriving DecidableEq, Repr

/-- A member of the group as this module sees it (20 R414 to R417). -/
structure TideMember where
  dev : Nat
  base : Nat
  relseq : Nat
  notices : List TideNotice
  last : Nat
  release : List (Nat × Nat × Nat)   -- round, limit, SEQ of the releases that wait for their boundary
  joins : Option Nat                 -- the round from which it counts
  leaves : Option Nat                -- the round at which it goes
deriving DecidableEq, Repr

/-- The states of R417. -/
inductive TideState where
  | out | joining | member | leaving
deriving DecidableEq, Repr

/-- The tide (20 R414 to R418). -/
structure Tide where
  group : Nat := 0
  leader : Nat := 0
  en : Bool := false
  limit : BitVec 5 := 2
  late : Nat := 0
  fail : Bool := false
  state : TideState := .out
  ceil : Nat := 2
  members : List TideMember := []
  seq : Nat := 0
  joinSent : Option Nat := none
  joinRound : Option Nat := none
  leaveRound : Option Nat := none
  stepped : Bool := false            -- the joiner has stepped its group time (22 R436)
  evicted : List Nat := []           -- devices that this member has removed (R416)
  own : Nat := 2                     -- the own limit last announced
  beatAt : Nat := 0                  -- when the next HEARTBEAT is due
  syncRound : Nat := 0               -- the last round in which TIME_REQ was sent
deriving DecidableEq, Repr

/-- An entry of an ingress table (22 R432). -/
structure Ingress where
  v : Bool := false
  dev : Nat := 0
  sup : Bool := false
  mid : Nat := 0
deriving DecidableEq, Repr

/-- What answers a PCIe requester's read (01 R38): its data, or Completer Abort. -/
structure Completion where
  port : Nat
  rid : Nat
  abort : Bool
  data : BitVec 1024
deriving DecidableEq, Repr

/-- A message that waits on its link behind ordered accesses to its device, or while the link is paused (22 R433, R435). -/
structure HeldMsg where
  link : Nat
  dev : Nat
  serial : Nat                      -- how many messages were sent before it
  msg : Msg
deriving DecidableEq, Repr

/-- The fabric (22). -/
structure Fabric where
  devn : Nat := 0xFFFF
  gtime : Nat := 0
  ldown : BitVec 32 := 0
  sheds : SMap Nat := []            -- by link: how often it has shed half of its lanes (00 R1, R435)
  crbase : Nat := 0
  cren : Bool := false
  crlost : Nat := 0
  crpc : Nat := 0
  crcc : Nat := 0
  ingress : SMap Ingress := []      -- by 64 link + entry
  unacked : SMap (List Unacked) := []   -- by link
  outbox : List (Nat × Msg) := []   -- messages that have left, the oldest first: device and flit
  held : List HeldMsg := []         -- messages that wait on their links, the oldest first
  serial : Nat := 0                 -- how many messages have been sent
  reports : List (BitVec 1536) := []    -- attestation reports sent
  paused : SMap Nat := []           -- by link: one more than the cycle at which it shed lanes (R435)
  slew : Int := 0                   -- the correction of GTIME that is still to be made
deriving DecidableEq, Repr

/-- What the device serves (22 R438, R439). -/
inductive BootState where
  | running | recovery | halted | off
deriving DecidableEq, Repr

/-- A storage command from its post until it ends (15 R368): its context, its queue, its command identifier, the core that
posted it, and when a kill sent an Abort for it (18 R397). -/
structure Command where
  ctx : Nat
  queue : Nat
  cid : Nat
  core : Nat := 0
  abortAt : Option Nat := none
deriving DecidableEq, Repr

/-- Storage (15 R365, R368). -/
structure Storage where
  en : Bool := false
  base : Nat := 0
  outstanding : List Command := []
  denied : List (Nat × Nat) := []    -- root ports and the requester IDs that they deny (18 R397)
deriving DecidableEq, Repr

/-- The state of the machine. -/
structure State where
  agenda : List Instr := []      -- what happens next, chosen outside the machine (log entry 1)
  curCore : Nat := 0             -- whose turn it is when the agenda is empty (log entry 1)
  fresh : Nat := 0               -- the counter that free values are applied to (log entry 2)
  now : Nat := 0                 -- reference cycles since reset, at the model's pace (log entry 3)
  ms : MemSys := {}
  cores : SMap Core := []        -- by flat core number; an unlisted core is as after reset
  sched : Sched := {}
  pwr : Power := {}
  tide : Tide := {}
  fab : Fabric := {}
  sto : Storage := {}
  boot : BootState := .running
  pcie : List Completion := []   -- completions sent at the root ports, the oldest first (01 R38)
  committed : Bool := false      -- COMMIT read 1 at the restart (22 R439)
  image : Sched := {}            -- what the last image saved holds of the scheduler in its opaque parts (20 R423)
deriving DecidableEq, Repr

/-- The machine right after reset: every field at the value the spec gives, or at the value that a log entry
names. -/
def State.reset : State := {}

end Sys2Proof.Machine
end

