-- ==== Sys2Proof/Machine/Mem.lean ====
section
/-!
DEFINITION. Memory at the homes: bytes, poison, tags, access tables, level-1 caches and write-combining buffers
(01 R10, R35 to R41; 03 R82 to R87; 04 R89 to R114, R440 to R443).

A home performs one access at a time. Denials, poison and substitutions are part of what an access answers.
-/

namespace Sys2Proof.Machine

/-! ### Physical space (01 R10) -/

/-- What lies at a physical address. -/
inductive Space where
  | hbm | unpopulated | reserved | pcie (port : Nat) | regs (die : Nat)
deriving DecidableEq, Repr

def space (pa : Nat) : Space :=
  if pa < 0x20000000000 then
    if pa % 0x2000000000 < 80 * 1073741824 then .hbm else .unpopulated
  else if pa < 0x80000000000 then .reserved
  else if pa < 0xC0000000000 then .pcie (pa / 0x10000000000 - 8)
  else if pa < 0xFF000000000 then .reserved
  else .regs (pa / 0x400000000 % 4)

/-- An HBM aperture, populated or not. -/
def inAperture (pa : Nat) : Bool := pa < 0x20000000000

/-- The fold of 04 R105. -/
def foldSlice : Nat → Nat → Nat → Nat
  | 0, _, k => k
  | n + 1, g, k => foldSlice n (g / 32) (k ^^^ (g % 32))

/-- `home_slice` of 04 R105 as the slice's number 32 die + k. -/
def homeSlice (ms : MemSys) (die pa : Nat) (th : Bool) : Nat :=
  let g := if th then field pa 16 21 else field pa 8 29
  let d := if ms.part then die else field pa 39 2
  32 * d + foldSlice 6 g 0

/-- The target that checks an access of a local master (01 R35). -/
def targetOf (ms : MemSys) (die pa : Nat) (th : Bool) : Nat :=
  match space pa with
  | .hbm => 20 + homeSlice ms die pa th
  | .unpopulated => 20 + homeSlice ms die pa th
  | .reserved => die
  | .pcie p => 148 + p
  | .regs d => d

/-! ### Bytes, poison and tags at the home -/

/-- What a byte that nothing has written reads as: bring-up scrubs populated memory with zeros (22 R438). -/
def emptyByte : BitVec 8 := 0

/-- The canonical form of memory. -/
def Memory.wf (m : List Host.Cell) : Bool := SMap.wf emptyByte m

/-- Whether the block of an address is absent: its pack is not dirty in level 2 and its tag says so (03 R82, R83). -/
def MemSys.absent (ms : MemSys) (a : Nat) : Bool :=
  (SMap.get none ms.dirtyPacks (a / 256)).isNone && !(SMap.get 15 ms.tags (a / 256)).testBit (a / 64 % 4)

/-- A byte at its home; every read honours the presence tag (03 R83). -/
def MemSys.byte (ms : MemSys) (a : Nat) : BitVec 8 := if ms.absent a then 0 else SMap.get emptyByte ms.mem a

/-- The number that `n` bytes from `a` spell (00 R4). -/
def MemSys.readN (ms : MemSys) (a : Nat) : Nat → Nat
  | 0 => 0
  | n + 1 => (ms.byte a).toNat + 256 * ms.readN (a + 1) n

/-- The 64-byte block that holds `a`. -/
def MemSys.block (ms : MemSys) (a : Nat) : Block := BitVec.ofNat 512 (ms.readN (a / 64 * 64) 64)

/-- Write the bytes of `v` whose bit of `mask` is set, `n` bytes from `a`. -/
def writeMasked : Nat → List Host.Cell → Nat → Nat → Nat → List Host.Cell
  | 0, m, _, _, _ => m
  | n + 1, m, a, v, mask =>
    writeMasked n (if mask % 2 = 1 then SMap.set emptyByte m a (BitVec.ofNat 8 v) else m) (a + 1) (v / 256) (mask / 2)

def allOnes (n : Nat) : Nat := pow2 n - 1

/-- Whether the block that holds `a` is poisoned. -/
def MemSys.poisoned (ms : MemSys) (a : Nat) : Bool := ms.poison.contains (a / 64)

def MemSys.setPoison (ms : MemSys) (a : Nat) (p : Bool) : MemSys :=
  { ms with poison := if p then setInsert ms.poison (a / 64) else ms.poison.filter (· != a / 64) }

/-- The pack of `a` as it expands (03 R84): the bytes of its absent blocks are zero. -/
def MemSys.expanded (ms : MemSys) (a : Nat) : List Host.Cell :=
  ms.mem.filter fun e => !(e.1 / 256 == a / 256 && ms.absent e.1)

/-- A write at the home within one pack: bytes, poison (04 R440) and the mode of the dirty pack (03 R84, R85). `bad` is
the poison of the data written. -/
def MemSys.put (ms : MemSys) (a n v mask : Nat) (packed bad : Bool) : MemSys :=
  let whole := a % 64 = 0 ∧ n = 64 ∧ mask = allOnes 64
  let raw := !packed || (SMap.get none ms.dirtyPacks (a / 256)).getD false || ms.rawPacks.contains (a / 256)
  let ms1 := { ms with mem := writeMasked n (ms.expanded a) a v mask
                       dirtyPacks := SMap.insert ms.dirtyPacks (a / 256) (some raw)
                       rawPacks := if packed then ms.rawPacks else setInsert ms.rawPacks (a / 256) }
  if whole then ms1.setPoison a bad
  else if bad && mask != 0 then ms1.setPoison a true else ms1

/-- Bits as bytes: a byte counts when any of its bits does. -/
def byteMaskOf : Nat → Nat → Nat
  | 0, _ => 0
  | n + 1, x => (if x % 256 = 0 then 0 else 1) + 2 * byteMaskOf n (x / 256)

/-- Merge the bits of `v` that `bits` names into a line at its home. -/
def MemSys.merge (ms : MemSys) (line : Nat) (v bits : Block) (packed bad : Bool) : MemSys :=
  let a := 64 * line
  let new : Block := (ms.block a &&& ~~~bits) ||| (v &&& bits)
  ms.put a 64 new.toNat (byteMaskOf 64 bits.toNat) packed (bad || (ms.poisoned a && bits != BitVec.allOnes 512))

/-! ### Places outside the HBM apertures (04 R91) -/

/-- `n` 8-byte words that a device behind a root port, or a remote device, returns: free values. -/
def freeWords (f : Nat → BitVec 64) (a : Nat) : Nat → Nat
  | 0 => 0
  | n + 1 => (f a).toNat + freeWords f (a + 8) n * pow2 64

/-- The first `n` bytes of free words. -/
def freeBytes (f : Nat → BitVec 64) (a n : Nat) : Nat := freeWords f a ((n + 7) / 8) % pow2 (8 * n)

/-- What a structure, a table or a record reads as where it lies: outside the HBM apertures, whose bytes are no memory, free
data (04 R91; log entry 124). -/
def MemSys.placeN (ms : MemSys) (pa n : Nat) : Nat :=
  if inAperture pa then ms.readN pa n else freeBytes (Config.pcieRead ms.nextInval) pa n

/-! ### Merging level-1 copies (04 R98 to R106) -/

/-- The new value of an element of `w` bytes from the old value, the operand and the compare value (08 R211). -/
def atApply (op : AtOp) (w o x c : Nat) : Nat :=
  let b := 8 * w
  match op with
  | .add => (o + x) % pow2 b
  | .and => Nat.land o x
  | .or => Nat.lor o x
  | .xor => Nat.xor o x
  | .min => if sint b o ≤ sint b x then o else x
  | .max => if sint b o ≤ sint b x then x else o
  | .minu => min o x
  | .maxu => max o x
  | .fadd => (fadd false o x).1
  | .swp => x
  | .cas => if o = c then x else o

/-- home := op(home, pending) for each touched element, `i` elements left from the top (04 R101). -/
def mergeElems (op : AtOp) (w : Nat) (home pending bits : Nat) : Nat → Nat
  | 0 => home
  | i + 1 =>
    let h := mergeElems op w home pending bits i
    if bits.testBit (8 * w * i) then
      let o := field home (8 * w * i) (8 * w)
      let x := field pending (8 * w * i) (8 * w)
      h - o <<< (8 * w * i) + (atApply op w o x 0) <<< (8 * w * i)
    else h

/-- Put what a level-1 line has pending into its home: its written bits, or its updates. An update keeps the poison of
what it is computed from (04 R440). -/
def MemSys.putLine (ms : MemSys) (l : L1Line) : MemSys :=
  match l.st with
  | .dirty => ms.merge l.line l.data l.mask l.packed l.poison
  | .updateOnly op w8 =>
    let w := if w8 then 8 else 4
    let a := 64 * l.line
    ms.put a 64 (mergeElems op w (ms.block a).toNat l.data.toNat l.mask.toNat (64 / w)) (byteMaskOf 64 l.mask.toNat) l.packed
      (l.poison || ms.poisoned a)
  | _ => ms

def MemSys.lines (ms : MemSys) (core : Nat) : List L1Line := SMap.get [] ms.l1 core

def MemSys.setLines (ms : MemSys) (core : Nat) (ls : List L1Line) : MemSys :=
  { ms with l1 := SMap.set [] ms.l1 core ls }

def L1Line.isUpdate (l : L1Line) : Bool :=
  match l.st with
  | .updateOnly _ _ => true
  | _ => false

/-- Every core that holds level-1 lines. -/
def MemSys.l1Cores (ms : MemSys) : List Nat := ms.l1.map Prod.fst

/-- Remove the copies of a line on a coherent page from every core but `own`; `f` puts what each has pending into the
home first (04 R106). -/
def MemSys.expelWith (f : Nat → MemSys → L1Line → MemSys) (ms : MemSys) (line : Nat) (own : Option Nat) : MemSys :=
  ms.l1Cores.foldl (fun m c =>
    if own = some c then m
    else
      let gone (l : L1Line) : Bool := l.line == line && l.coh
      ((m.lines c).filter gone).foldl (fun m l =>
        let m := f c m l
        m.setLines c ((m.lines c).filter fun k => k.line != line)) m) ms

/-! ### Packs (03 R82 to R85) -/

/-- Whether a block of a dirty pack is kept when the pack is stored: every block in raw mode, else one that is poisoned
or whose byte 0 is not zero (03 R84, R87). -/
def MemSys.kept (ms : MemSys) (raw : Bool) (k : Nat) : Bool := raw || ms.poison.contains k || blockPresent (ms.block (64 * k))

/-- Whether block number `k` is present (03 R85). -/
def MemSys.present (ms : MemSys) (k : Nat) : Bool :=
  match SMap.get none ms.dirtyPacks (k / 4) with
  | some raw => ms.kept raw k
  | none => (SMap.get 15 ms.tags (k / 4)).testBit (k % 4)

/-- Write a dirty pack back to its stack: the tag rule of 03 R84. An omitted block then reads as 64 zero bytes (03 R83)
and has no frame in level 2 (03 R85). -/
def MemSys.packWrite (ms : MemSys) (p : Nat) : MemSys :=
  match SMap.get none ms.dirtyPacks p with
  | none => ms
  | some raw =>
    let keep (i : Nat) : Bool := ms.kept raw (4 * p + i)
    let tag := b2n (keep 0) + 2 * b2n (keep 1) + 4 * b2n (keep 2) + 8 * b2n (keep 3)
    let dropB (m : List Host.Cell) (i : Nat) : List Host.Cell :=
      if keep i then m else m.filter fun e => !(decide (256 * p + 64 * i ≤ e.1) && decide (e.1 < 256 * p + 64 * i + 64))
    { ms with tags := SMap.set 15 ms.tags p tag
              dirtyPacks := SMap.erase ms.dirtyPacks p
              mem := (upto 0 4).foldl dropB ms.mem
              l2 := if raw then ms.l2 else SMap.mapVals [] (fun ls => ls.filter fun l => l.line / 4 != p || keep (l.line % 4)) ms.l2 }

/-! ### The level-2 slices (04 R104, R106, R110, R111; 03 R85) -/

def MemSys.slice (ms : MemSys) (sl : Nat) : List L2Line := SMap.get [] ms.l2 sl

def MemSys.setSlice (ms : MemSys) (sl : Nat) (ls : List L2Line) : MemSys := { ms with l2 := SMap.set [] ms.l2 sl ls }

/-- The ways reserved for the enabled registers below register `n` (04 R110). -/
def MemSys.reservedBelow (ms : MemSys) (n : Nat) : Nat :=
  (upto 0 n).foldl (fun a i => let r : RangeReg := SMap.get {} ms.rr i; if r.en then a + r.ways else a) 0

/-- The ways that a fill may use: those that a register has reserved, counted from way 15 downward in order of the
registers' numbers, or those that none has reserved (04 R110, R111). -/
def MemSys.fillWays (ms : MemSys) (cls : Option Nat) : List Nat :=
  match cls with
  | some n => upto (16 - ms.reservedBelow (n + 1)) (ms.reservedBelow (n + 1) - ms.reservedBelow n)
  | none => upto 0 (16 - ms.reservedBelow 8)

/-- A line leaves its slice: a line of a coherent page leaves every level-1 cache first (04 R106), and a dirty pack is
written back to its stack (03 R85). -/
def MemSys.evict (ms : MemSys) (sl line : Nat) : MemSys :=
  let ms := ms.expelWith (fun _ m l => m.putLine l) line none
  (ms.setSlice sl ((ms.slice sl).filter fun l => l.line != line)).packWrite (line / 4)

/-- The line that makes room among lines of one set in order of use: the least recently used, of the retained ones first
where the fill is a retained one (04 R104, R111). -/
def l2Victim (retain : Bool) (set : List L2Line) : Option L2Line :=
  if retain then ((set.filter fun l => l.kept.isSome).getLast?).or set.getLast? else set.getLast?

/-- Make room for a line among the ways `ws` of a slice, and answer the way (04 R104). The index of a line's set among
the 3,072 of a slice is a free value (log entry 91). -/
def MemSys.makeWay (ms : MemSys) (sl line : Nat) (cls : Option Nat) : MemSys × Nat :=
  let ws := ms.fillWays cls
  let ls := ms.slice sl
  match ws.find? fun w => !ls.any fun l => l.way == w with
  | some w => (ms, w)
  | none =>
    let set := ls.filter fun l => Config.l2Set l.line % 3072 == Config.l2Set line % 3072
    match ws.find? fun w => !set.any fun l => l.way == w with
    | some w => (ms, w)
    | none =>
      match l2Victim cls.isSome (set.filter fun l => ws.contains l.way) with
      | some v => (ms.evict sl v.line, v.way)
      | none => (ms, 0)

/-- An access of a class finds or fills the frame of a line; the line is then the most recently used (04 R111). -/
def MemSys.occupy (sl : Nat) (cls : Option Nat) (ms : MemSys) (line : Nat) : MemSys :=
  let place (m : MemSys) : MemSys :=
    let (m, way) := m.makeWay sl line cls
    m.setSlice sl ({ line := line, way := way, kept := cls } :: m.slice sl)
  match (ms.slice sl).find? fun l => l.line == line with
  | some l =>
    let rest := (ms.slice sl).filter fun k => k.line != line
    if cls.isSome && l.kept.isNone then place (ms.setSlice sl rest) else ms.setSlice sl (l :: rest)
  | none => place ms

/-- The class of an access: the enabled register of lowest number that covers it advances its sampling counter, and
retains the access or not (04 R111). A register without ways retains nothing. With `count` false it is the class that the
access has already been given, and the counter stays. -/
def MemSys.classOf (count : Bool) (ms : MemSys) (sl pa : Nat) : List Nat → MemSys × Option Nat
  | [] => (ms, none)
  | n :: ns =>
    let r := SMap.get {} ms.rr n
    if r.en && decide (r.base ≤ pa / 4096) && decide (pa / 4096 ≤ r.last) then
      let now := SMap.get 0 ms.rrCount (8 * sl + n)
      let c := if count then now else (now + 127) % 128
      let keep := decide (1 ≤ r.ratio) && c % pow2 (r.ratio - 1) == 0 && decide (1 ≤ r.ways)
      ({ ms with rrCount := SMap.set 0 ms.rrCount (8 * sl + n) ((c + 1) % 128) }, if keep then some n else none)
    else ms.classOf count sl pa ns

/-- A write at one partition invalidates the line in every other, whose dirty data is written back first (04 R107). -/
def MemSys.leavePartitions (ms : MemSys) (die line : Nat) : MemSys :=
  let other (e : Nat × List L2Line) : Bool := e.1 / 32 != die && e.2.any fun l => l.line == line
  if ms.l2.any other then
    let ms := ms.packWrite (line / 4)
    let keep (e : Nat × List L2Line) : Nat × List L2Line := if e.1 / 32 = die then e else (e.1, e.2.filter fun l => l.line != line)
    { ms with l2 := (ms.l2.map keep).filter fun e => !e.2.isEmpty }
  else ms

/-- A pack that is filled afresh has had no raw write since (03 R85). -/
def MemSys.freshPack (ms : MemSys) (sl p : Nat) : MemSys :=
  if (ms.slice sl).any fun l => l.line / 4 == p then ms else { ms with rawPacks := ms.rawPacks.filter (· != p) }

/-- An access reaches the home slice of its line: the sampling counter, where `count` says so, and on a miss a frame for each
present block of the pack (03 R85, 04 R104 to R111). `th` is the tree-homed attribute of its page. -/
def MemSys.reach (count : Bool) (ms : MemSys) (die pa : Nat) (th write : Bool) : MemSys :=
  if !inAperture pa then ms
  else
    let sl := homeSlice ms die pa th
    let line := pa / 64
    let (ms, cls) := ms.classOf count sl pa (if ms.rr = [] then [] else upto 0 8)
    let ms := if write && ms.part then ms.leavePartitions die line else ms
    if (ms.slice sl).any fun l => l.line == line then ms.occupy sl cls line
    else
      let ms := ms.freshPack sl (line / 4)
      ((upto (line / 4 * 4) 4).filter fun k => (k == line && write) || ms.present k).foldl (MemSys.occupy sl cls) ms

/-- An access reaches its home slice. An access that carries no page attributes counts as one of a page that is not
tree-homed (log entry 121). -/
def MemSys.visit (ms : MemSys) (die pa : Nat) (th write : Bool) : MemSys := ms.reach true die pa th write

/-- The write half of an access that has read its line at the home in the same step: the counter has advanced already. -/
def MemSys.claim (ms : MemSys) (die pa : Nat) (th : Bool) : MemSys := ms.reach false die pa th true

/-- A raw write makes every block of its pack present: each takes a frame in the slice that holds the pack, of the class of
the frames that it has (03 R84, R85). -/
def MemSys.fillPack (ms : MemSys) (p : Nat) : MemSys :=
  (ms.l2.filter fun e => e.2.any fun l => l.line / 4 == p).foldl (fun (m : MemSys) e =>
    let cls := (e.2.find? fun l => l.line / 4 == p).bind L2Line.kept
    ((upto (4 * p) 4).filter fun k => !(m.slice e.1).any fun l => l.line == k).foldl (MemSys.occupy e.1 cls) m) ms

/-- A write at a home whose slice has the frame of its line. -/
def MemSys.putHome (ms : MemSys) (a n v mask : Nat) (packed bad : Bool) : MemSys :=
  let ms := ms.put a n v mask packed bad
  if packed then ms else ms.fillPack (a / 256)

/-! ### Write-backs and recalls of level-1 copies (04 R98 to R106) -/

/-- Whether a line in a state has something pending. -/
def LineState.pending : LineState → Bool
  | .dirty => true
  | .updateOnly _ _ => true
  | _ => false

def L1Line.pending (l : L1Line) : Bool := l.st.pending

/-- What a level-1 line of a core has pending reaches its home; nothing is left to send when room for it in level 2 has
already taken it there. -/
def MemSys.sendLine (core : Nat) (ms : MemSys) (l : L1Line) : MemSys :=
  let ms := ms.visit (core / 64) (64 * l.line) l.th true
  if (ms.lines core).contains l then
    let ms := ms.putLine l
    if l.packed || !l.st.pending then ms else ms.fillPack (l.line / 4)
  else ms

/-- Remove the copies of a line on a coherent page from every core but `own`, with what they have pending. -/
def MemSys.expel (ms : MemSys) (line : Nat) (own : Option Nat) : MemSys := ms.expelWith MemSys.sendLine line own


/-- What stays of a line that has reached its home: a merged line goes, a written-back one stays clean (04 R101). -/
def L1Line.settled (drop : Bool) (l : L1Line) : Option L1Line :=
  if drop || l.isUpdate then none
  else some { l with st := (match l.st with | .dirty => if l.coh then .shared else .clean | x => x), mask := 0 }

/-- Write a line back, or merge it, at its home. -/
def MemSys.flushLine (core : Nat) (drop : Bool) (ms : MemSys) (l : L1Line) : MemSys :=
  let ms := if l.pending then (if l.coh then ms.expel l.line (some core) else ms).sendLine core l else ms
  ms.setLines core ((ms.lines core).filterMap fun k => if k.line = l.line then l.settled drop else some k)

/-- Write back or merge the lines of a core that `p` names, and drop them if `drop` (04 R101, 05 R134). -/
def MemSys.flushWhere (ms : MemSys) (core : Nat) (p : L1Line → Bool) (drop : Bool) : MemSys :=
  ((ms.lines core).filter p).foldl (MemSys.flushLine core drop) ms

/-- Before a read at the home by any path: every update-only copy of the line merges (04 R101), and a coherent dirty
copy is written back. -/
def MemSys.recall (ms : MemSys) (line : Nat) : MemSys :=
  ms.l1Cores.foldl (fun m c => m.flushWhere c (fun l => l.line == line && (l.isUpdate || (l.coh && l.st == .dirty))) false) ms

/-- A core's own copy of a line after a write at the home: the bits that it has not written itself follow the home. -/
def MemSys.refresh (ms : MemSys) (core line : Nat) : MemSys :=
  if (ms.lines core).any fun l => l.line == line then
    let h := ms.block (64 * line)
    let bad := ms.poisoned (64 * line)
    ms.setLines core ((ms.lines core).map fun l =>
      if l.line == line && !l.isUpdate then { l with data := (h &&& ~~~l.mask) ||| (l.data &&& l.mask), poison := bad || (l.poison && l.st == .dirty) }
      else l)
  else ms

/-! ### The check at a target (01 R36 to R38) -/

/-- A window of the table, cached or read from memory (01 R36, R41). -/
def MemSys.window (ms : MemSys) (t : Target) (mid w : Nat) : BitVec 128 :=
  match t.cache.find? fun e => e.1 == 32 * mid + w with
  | some e => e.2
  | none => BitVec.ofNat 128 (ms.readN (t.base * 0x200000 + 512 * mid + 16 * w) 16)

/-- The die that a stack attaches to (01 R10, 04 R115). -/
def stackDie (pa : Nat) : Nat := field pa 39 2

/-- A target that checks against its table reads the eight lines of the MID's windows at their homes and keeps them
(01 R41). It uses their bytes whatever they are: of a line that is poisoned, or that lies where no memory is, too
(log entry 123). -/
def MemSys.cacheWindows (ms : MemSys) (tn mid : Nat) : MemSys :=
  let t := SMap.get {} ms.targets tn
  if t.en && !t.cache.any (fun e => e.1 == 32 * mid) then
    let a := t.base * 0x200000 + 512 * mid
    let ms := (upto 0 8).foldl (fun (m : MemSys) i => (m.recall (a / 64 + i)).visit (stackDie a) (a + 64 * i) false false) ms
    let cache := (upto 0 32).foldl (fun c w => SMap.insert c (32 * mid + w) (ms.window t mid w)) t.cache
    { ms with targets := SMap.set {} ms.targets tn { t with cache := cache } }
  else ms

/-- Whether a window is enabled, well formed and holds the granule (01 R37). -/
def windowHolds (win : BitVec 128) (g : Nat) : Bool :=
  let x := win.toNat
  bit x 0 && field x 44 20 == 0 && field x 4 8 == 0 && field x 108 20 == 0 && field x 64 12 == 0 &&
  decide (field x 12 32 ≤ g) && decide (g ≤ field x 76 32)

/-- What a window allows. -/
def windowAllows (win : BitVec 128) (k : AccessKind) : Bool :=
  let x := win.toNat
  match k with
  | .read => bit x 1
  | .write => bit x 2
  | .atomic => bit x 3 && bit x 1 && bit x 2

/-- The first window that holds the granule decides (01 R37). -/
def checkWindows (ms : MemSys) (t : Target) (mid g : Nat) (k : AccessKind) : List Nat → Bool
  | [] => false
  | w :: ws =>
    let win := ms.window t mid w
    if windowHolds win g then windowAllows win k else checkWindows ms t mid g k ws

/-- `check_at_target` of 01 R37. -/
def MemSys.allowed (ms : MemSys) (tn mid pa : Nat) (k : AccessKind) : Bool :=
  let t := SMap.get {} ms.targets tn
  if t.en then checkWindows ms t mid (field pa 12 32) k (upto 0 32) else mid == 0

/-- The access kind as FCAUSE and the denial log number it (18 R380). -/
def kindCode : AccessKind → Nat
  | .read => 0 | .write => 1 | .atomic => 2

/-- Enter a denial in a target's log of 16 entries, or count it as lost (01 R38). -/
def MemSys.deny (ms : MemSys) (tn mid pa : Nat) (k : AccessKind) (unpop : Bool) : MemSys :=
  let t := SMap.get {} ms.targets tn
  let d : Denial := { mid := mid, pa := pa, kind := kindCode k, unpopulated := unpop }
  let t := if t.log.length < 16 then { t with log := t.log ++ [d] } else { t with lost := t.lost + 1 }
  { ms with targets := SMap.set {} ms.targets tn t }

/-- Whether an access of a local master is performed: the check, and the denial it makes. -/
def MemSys.check (ms : MemSys) (die mid pa : Nat) (k : AccessKind) (th : Bool) : MemSys × Bool :=
  let tn := targetOf ms die pa th
  match space pa with
  | .unpopulated => (ms.deny tn mid pa k true, false)
  | .reserved => (ms.deny tn mid pa k true, false)
  | _ =>
    let ms := ms.cacheWindows tn mid
    if ms.allowed tn mid pa k then (ms, true) else (ms.deny tn mid pa k false, false)

/-! ### Leaf attributes (01 R19) -/

def leafDev (l : BitVec 64) : Nat := wfield l 63 56
def leafPool (l : BitVec 64) : Nat := wfield l 55 52
def leafFrame (l : BitVec 64) : Nat := wfield l 51 20
def leafG (l : BitVec 64) : Bool := l.getLsbD 16
def leafPsn (l : BitVec 64) : Nat := wfield l 15 14
def leafPl (l : BitVec 64) : Bool := l.getLsbD 13
def leafTh (l : BitVec 64) : Bool := l.getLsbD 12
def leafPk (l : BitVec 64) : Bool := l.getLsbD 11
def leafCoh (l : BitVec 64) : Bool := l.getLsbD 10
def leafU (l : BitVec 64) : Bool := l.getLsbD 9
def leafX (l : BitVec 64) : Bool := l.getLsbD 8
def leafW (l : BitVec 64) : Bool := l.getLsbD 7
def leafR (l : BitVec 64) : Bool := l.getLsbD 6
def leafSize (l : BitVec 64) : Nat := wfield l 5 2

def Who.die (w : Who) : Nat := w.core / 64
def Who.mid (w : Who) : Nat := wfield w.xrdt 55 44
def Who.asid (w : Who) : Nat := wfield w.xroot 15 0

/-! ### Accesses at the home -/

/-- What a read answers: the value with nothing against it, or a notice. -/
structure Got where
  val : Nat
  bad : Option Notice
deriving DecidableEq, Repr

def Got.ok (v : Nat) : Got := { val := v, bad := none }

/-- The notice of a denied access (01 R39). -/
def denied (pa kind path : Nat) : Notice := { code := 0x0C, addr := pa, kind := kind, path := path, seen := false }

/-- The notice of poison that reaches a consumer (18 R378). -/
def poisonNotice (va kind path : Nat) : Notice := { code := 0x70, addr := va, kind := kind, path := path, seen := false }

/-- Count substituted blocks (04 R442). -/
def MemSys.substitute (ms : MemSys) : MemSys := { ms with psub := min (ms.psub + 1) 0xFFFFFFFF }

/-- Read `n` bytes at the home of a line, with the check, the recall and poison (01 R37, 04 R101, R90). The
bytes lie within one block. -/
def homeRead (ms : MemSys) (w : Who) (x : Xlat) (pa n path : Nat) (kind : AccessKind) : MemSys × Got :=
  let (ms, ok) := ms.check w.die w.mid pa kind (leafTh x.leaf)
  if !ok then (ms, { val := (Config.poisonData 0).toNat % pow2 (8 * n), bad := some (denied pa (kindCode kind) path) })
  else if !inAperture pa then (ms, .ok (ms.placeN pa n))
  else
    let ms := (ms.recall (pa / 64)).visit w.die pa (leafTh x.leaf) false
    if ms.poisoned pa then
      if leafPsn x.leaf = 1 then (ms.substitute, .ok 0)
      else (ms, { val := ms.readN pa n, bad := some (poisonNotice (x.va + (pa - x.pa)) (kindCode kind) path) })
    else (ms, .ok (ms.readN pa n))

/-- Make the home of a line ready for a write: the copies on coherent pages leave, but for the writer's own, and the line
has its frame (04 R106). -/
def MemSys.openHome (ms : MemSys) (die pa : Nat) (th : Bool) (own : Option Nat) : MemSys :=
  (ms.expel (pa / 64) own).visit die pa th true

/-- `openHome` for a write of an access that has read the line at the home in the same step. -/
def MemSys.claimHome (ms : MemSys) (die pa : Nat) (th : Bool) (own : Option Nat) : MemSys :=
  (ms.expel (pa / 64) own).claim die pa th

/-- The core whose own level-1 copy a write on a path keeps: the scalar and the vector path of a core are the writer of that
copy, and no other path uses it (04 R99, R106). -/
def writerOf (w : Who) (path : Nat) : Option Nat := if path ≤ 2 && !w.sched then some w.core else none

/-- Write `n` bytes at the home, with the check; `none` when it was performed (01 R37, R38, 04 R106). The writer's own copy
follows the home. -/
def homeWrite (ms : MemSys) (w : Who) (x : Xlat) (pa n v mask path : Nat) (bad : Bool) : MemSys × Option Notice :=
  let (ms, ok) := ms.check w.die w.mid pa .write (leafTh x.leaf)
  if !ok then (ms, some (denied pa 1 path))
  else if !inAperture pa then (ms, none)
  else
    let own := writerOf w path
    let ms := (ms.openHome w.die pa (leafTh x.leaf) own).putHome pa n v mask (leafPk x.leaf) bad
    (if own.isSome then ms.refresh w.core (pa / 64) else ms, none)

/-! ### The level-1 cache and the write-combining buffer (04 R92 to R100) -/

/-- An entry of a core leaves for its home; the core's own copy of the line follows. -/
def MemSys.leave (core : Nat) (ms : MemSys) (e : WcEntry) : MemSys :=
  let ms := (ms.openHome (core / 64) (64 * e.line) e.th (some core)).merge e.line e.data e.mask e.packed false
  (if e.packed then ms else ms.fillPack (e.line / 4)).refresh core e.line

def MemSys.wcOf (ms : MemSys) (core : Nat) : List WcEntry := SMap.get [] ms.wc core

/-- Drain the entries of a core that `p` names (04 R100). -/
def MemSys.drainWhere (ms : MemSys) (core : Nat) (p : WcEntry → Bool) : MemSys :=
  let es := ms.wcOf core
  let ms1 := (es.filter p).foldl (MemSys.leave core) ms
  { ms1 with wc := SMap.set [] ms1.wc core (es.filter fun e => !p e) }

def MemSys.drainWc (ms : MemSys) (core : Nat) : MemSys := ms.drainWhere core fun _ => true

/-- The ways of a set that hold lines. -/
def usedWays (ls : List L1Line) (set : Nat) : List Nat := (ls.filter fun l => l.line % 512 == set).map L1Line.way

/-- The last line of a set in order of use: the least recently used (04 R93). -/
def lruOf (ls : List L1Line) (set : Nat) : Option L1Line := (ls.filter fun l => l.line % 512 == set).getLast?

/-- Make room in the set of `line` and answer the way (04 R93, R95); `n` ways are scratchpad. -/
def MemSys.room (ms : MemSys) (core n line : Nat) : MemSys × Nat :=
  let ls := ms.lines core
  let set := line % 512
  match (upto 0 (16 - n)).find? fun w => !(usedWays ls set).contains w with
  | some w => (ms, w)
  | none =>
    match lruOf ls set with
    | none => (ms, 0)
    | some v => (ms.flushWhere core (fun l => l.line == v.line) true, v.way)

/-- Put a line first in the order of use. -/
def MemSys.touch (ms : MemSys) (core : Nat) (l : L1Line) : MemSys :=
  ms.setLines core (l :: (ms.lines core).filter fun k => k.line != l.line)

/-- Whether another core holds a tracked copy. -/
def MemSys.heldElsewhere (ms : MemSys) (core line : Nat) : Bool :=
  ms.l1.any fun e => e.1 != core && e.2.any fun l => l.line == line && l.coh

/-- Copies of other cores lose exclusivity when one is shared (04 R98). -/
def MemSys.shareOthers (ms : MemSys) (core line : Nat) : MemSys :=
  { ms with l1 := ms.l1.map fun e =>
      if e.1 = core then e else (e.1, e.2.map fun l => if l.line == line && l.coh && l.st == .exclusive then { l with st := .shared } else l) }

/-- Fill a line from its home; `excl` asks for exclusivity (04 R93, R99). -/
def MemSys.fill (ms : MemSys) (core n : Nat) (leaf : BitVec 64) (line : Nat) (excl : Bool) : MemSys × L1Line :=
  let ms := ms.recall line
  let ms := if leafCoh leaf && excl then ms.expel line (some core) else ms
  let ms := ms.visit (core / 64) (64 * line) (leafTh leaf) false
  let (ms, way) := ms.room core n line
  let other := ms.heldElsewhere core line
  let ms := if leafCoh leaf then ms.shareOthers core line else ms
  let l : L1Line :=
    { line := line, way := way
      st := if leafCoh leaf then (if other then .shared else .exclusive) else .clean
      data := ms.block (64 * line), mask := 0, coh := leafCoh leaf, packed := leafPk leaf, poison := ms.poisoned (64 * line)
      th := leafTh leaf, born := 0 }
  (ms.touch core l, l)

/-- Bits of `n` bytes at byte offset `o` of a block. -/
def bitSpan (o n : Nat) : Block := BitVec.ofNat 512 (allOnes (8 * n) <<< (8 * o))

/-- A load of the scalar or vector path from a local HBM aperture, within one block (04 R99, R100). `n` is the
number of scratchpad ways. -/
def cachedLoad (ms : MemSys) (w : Who) (ways : Nat) (x : Xlat) (pa n path : Nat) : MemSys × Got :=
  let line := pa / 64
  let answer (m : MemSys) (l : L1Line) : MemSys × Got :=
    let v := field l.data.toNat (8 * (pa % 64)) (8 * n)
    if l.poison then
      if leafPsn x.leaf = 1 then (m.substitute, .ok 0)
      else (m, { val := v, bad := some (poisonNotice (x.va + (pa - x.pa)) 0 path) })
    else (m, .ok v)
  let ms := ms.drainWhere w.core fun e => e.line == line && (e.mask &&& bitSpan (pa % 64) n) != 0
  let ms := ms.flushWhere w.core (fun l => l.line == line && l.isUpdate) true
  match (ms.lines w.core).find? fun l => l.line == line with
  | some l => answer (ms.touch w.core l) l
  | none =>
    let (ms, ok) := ms.check w.die w.mid pa .read (leafTh x.leaf)
    if !ok then (ms, { val := (Config.poisonData 0).toNat % pow2 (8 * n), bad := some (denied pa 0 path) })
    else
      let (ms, l) := ms.fill w.core ways x.leaf line false
      answer ms l

/-- Bits of a store merged into a line of the level-1 cache; the pack mode is that of the stores since the line was last
clean (03 R84, R88). -/
def L1Line.store (l : L1Line) (data bits : Block) (packed : Bool) : L1Line :=
  { l with st := .dirty, data := (l.data &&& ~~~bits) ||| (data &&& bits), mask := l.mask ||| bits
           packed := (l.st != .dirty || l.packed) && packed, poison := l.poison && bits != BitVec.allOnes 512 }

/-- Bits of a store merged into an entry. -/
def WcEntry.store (e : WcEntry) (data bits : Block) (packed : Bool) : WcEntry :=
  { e with data := (e.data &&& ~~~bits) ||| (data &&& bits), mask := e.mask ||| bits, packed := e.packed && packed }

/-- Put a store into the write-combining buffer: the oldest of four entries makes room for a fifth line, and a full entry
leaves (04 R100). -/
def MemSys.combine (ms : MemSys) (core line : Nat) (data bits : Block) (packed th : Bool) : MemSys :=
  let full (e : WcEntry) : Bool := e.line == line && e.mask == BitVec.allOnes 512
  let es := ms.wcOf core
  if es.any fun e => e.line == line then
    let es := es.map fun e => if e.line == line then e.store data bits packed else e
    { ms with wc := SMap.set [] ms.wc core es }.drainWhere core full
  else
    let e : WcEntry := { line := line, data := data &&& bits, mask := bits, packed := packed, th := th }
    let ms := match es with
      | [a, _, _, _] => ms.drainWhere core fun k => k.line == a.line
      | _ => ms
    { ms with wc := SMap.set [] ms.wc core (ms.wcOf core ++ [e]) }.drainWhere core full

/-- Bytes that a later store of the core has put into the level-1 cache leave the write-combining buffer. -/
def MemSys.uncombine (ms : MemSys) (core line : Nat) (bits : Block) : MemSys :=
  let es := (ms.wcOf core).map fun e => if e.line == line then { e with mask := e.mask &&& ~~~bits } else e
  { ms with wc := SMap.set [] ms.wc core (es.filter fun e => e.mask != 0) }

/-- A store of the scalar or vector path to a local HBM aperture: the bits of `data` that `bits` names within one block
(04 R99, R100). It is checked at its home when it is made (log entry 5). -/
def cachedStoreBits (ms : MemSys) (w : Who) (ways : Nat) (x : Xlat) (pa : Nat) (data bits : Block) (path : Nat) : MemSys × Option Notice :=
  let line := pa / 64
  let (ms, ok) := ms.check w.die w.mid pa .write (leafTh x.leaf)
  if !ok then (ms, some (denied pa 1 path))
  else
    let ms := ms.flushWhere w.core (fun l => l.line == line && l.isUpdate) true
    match (ms.lines w.core).find? fun l => l.line == line with
    | some l =>
      let ms := if l.coh then (ms.recall line).expel line (some w.core) else ms
      (((ms.uncombine w.core line bits).touch w.core (l.store data bits (leafPk x.leaf))), none)
    | none =>
      if leafCoh x.leaf then
        let (ms, l) := ms.fill w.core ways x.leaf line true
        ((ms.uncombine w.core line bits).touch w.core (l.store data bits (leafPk x.leaf)), none)
      else (ms.combine w.core line data bits (leafPk x.leaf) (leafTh x.leaf), none)

/-- Bytes of `v` put into a block at byte offset `o`. -/
def putBytes (b : Block) (o n v : Nat) : Block := setBits b (8 * o) (8 * n) v

/-- `cachedStoreBits` for `n` bytes of `v`. -/
def cachedStore (ms : MemSys) (w : Who) (ways : Nat) (x : Xlat) (pa n v path : Nat) : MemSys × Option Notice :=
  cachedStoreBits ms w ways x pa (putBytes 0 (pa % 64) n v) (bitSpan (pa % 64) n) path

/-- The oldest update-only line of a core that already has eight (04 R101). -/
def oldestUpdate (ls : List L1Line) : Option L1Line :=
  let ups := ls.filter L1Line.isUpdate
  if ups.length < 8 then none
  else ups.foldl (fun o l => match o with | some k => if l.born < k.born then some l else o | none => some l) none

/-- A non-returning commutative atomic enters an update-only line (04 R101). -/
def updateOnly (ms : MemSys) (w : Who) (ways : Nat) (x : Xlat) (op : AtOp) (w8 : Bool) (v : Nat) : MemSys × Option Notice :=
  let line := x.pa / 64
  let n := if w8 then 8 else 4
  let o := x.pa % 64
  let (ms, ok) := ms.check w.die w.mid x.pa .atomic (leafTh x.leaf)
  if !ok then (ms, some (denied x.pa 2 1))
  else
    let ms := ms.drainWhere w.core fun e => e.line == line && (e.mask &&& bitSpan o n) != 0
    let ms := ms.flushWhere w.core (fun l => l.line == line && l.st != .updateOnly op w8) true
    match (ms.lines w.core).find? fun l => l.line == line with
    | some l =>
      let old := field l.data.toNat (8 * o) (8 * n)
      let new := if l.mask.getLsbD (8 * o) then atApply op n old v 0 else v
      (ms.touch w.core { l with data := putBytes l.data o n new, mask := l.mask ||| bitSpan o n, packed := l.packed && leafPk x.leaf }, none)
    | none =>
      let ms := match oldestUpdate (ms.lines w.core) with
        | some k => ms.flushWhere w.core (fun l => l.line == k.line) true
        | none => ms
      let (ms, way) := ms.room w.core ways line
      let born := 1 + ((ms.lines w.core).map L1Line.born).foldl max 0
      let l : L1Line := { line := line, way := way, st := .updateOnly op w8, data := putBytes 0 o n v, mask := bitSpan o n
                          coh := leafCoh x.leaf, packed := leafPk x.leaf, poison := false, th := leafTh x.leaf, born := born }
      (ms.touch w.core l, none)

/-! ### What releases, fences and completions do to a core's caches (05 R134, R144, R148) -/

/-- Drain the write-combining buffer and merge the update-only lines. -/
def MemSys.drainMerge (ms : MemSys) (core : Nat) : MemSys :=
  (ms.drainWc core).flushWhere core L1Line.isUpdate true

/-- Write back every dirty line that `p` names; it stays valid and clean. -/
def MemSys.writeBack (ms : MemSys) (core : Nat) (p : L1Line → Bool) : MemSys :=
  ms.flushWhere core (fun l => l.st == .dirty && p l) false

/-- The release of R134 at scope `s`; `all` writes back every dirty entry-page line. -/
def MemSys.release (ms : MemSys) (core scope : Nat) (all : Bool) : MemSys :=
  let ms := ms.drainWc core
  if scope = 0 then ms
  else
    let ms := ms.flushWhere core L1Line.isUpdate true
    if all then ms.writeBack core fun l => !l.coh else ms

/-- The flush of a record's completion and of a yield (05 R148, R151). -/
def MemSys.completeFlush (ms : MemSys) (core : Nat) : MemSys := (ms.drainMerge core).writeBack core fun _ => true

/-- Move the way boundary from `n` to `m` scratchpad ways (04 R95). -/
def MemSys.moveBoundary (ms : MemSys) (core m : Nat) : MemSys :=
  ms.flushWhere core (fun l => decide (16 - m ≤ l.way)) true

/-! ### Pool blocks at their homes (04 R120) -/

/-- Whether a line lies in the frame [a, a + n). -/
def inFrame (a n line : Nat) : Bool := decide (a ≤ 64 * line) && decide (64 * line < a + n)

/-- Clear a block of `n` bytes: its lines go at their homes, with the tracked level-1 copies, and its tags say absent, so
it reads as zero blocks and carries no poison. -/
def MemSys.clearBlocks (ms : MemSys) (a n : Nat) : MemSys :=
  { ms with mem := ms.mem.filter fun e => !(decide (a ≤ e.1) && decide (e.1 < a + n))
            poison := ms.poison.filter fun k => !inFrame a n k
            tags := (upto (a / 256) (n / 256)).foldl (fun t p => SMap.set 15 t p 0) ms.tags
            dirtyPacks := ms.dirtyPacks.filter fun e => !(decide (a ≤ 256 * e.1) && decide (256 * e.1 < a + n))
            l1 := SMap.mapVals [] (fun ls => ls.filter fun l => !(l.coh && inFrame a n l.line)) ms.l1
            rawPacks := ms.rawPacks.filter fun p => !(decide (a ≤ 256 * p) && decide (256 * p < a + n))
            l2 := SMap.mapVals [] (fun ls => ls.filter fun l => !inFrame a n l.line) ms.l2 }

/-- Write back and invalidate every level-1 line of a frame on every core (01 R32, 04 R120). -/
def MemSys.flushFrame (ms : MemSys) (a n : Nat) : MemSys :=
  ms.l1Cores.foldl (fun m c => m.flushWhere c (fun l => inFrame a n l.line) true) ms

/-- Copy what the homes of a pool block hold, with the packs' tags and modes and the poison (04 R123). A read at a
home merges the update-only copies first (04 R101); other level-1 copies on entry pages stay as they are (04 R126). -/
def MemSys.moveBlocks (ms : MemSys) (die src dst n : Nat) : MemSys :=
  let ms := ms.l1Cores.foldl (fun m c => m.flushWhere c (fun l => inFrame src n l.line && (l.isUpdate || (l.coh && l.st == .dirty))) false) ms
  let ms := (upto 0 (n / 64)).foldl (fun (m : MemSys) i => m.visit die (src + 64 * i) false false) ms
  let ms := ms.clearBlocks dst n
  let moved : List Host.Cell := (ms.mem.filter fun e => decide (src ≤ e.1) && decide (e.1 < src + n)).map fun e => (e.1 - src + dst, e.2)
  let bad := (ms.poison.filter fun k => inFrame src n k).map fun k => k - src / 64 + dst / 64
  let ms := { ms with
    mem := moved.foldl (fun m e => SMap.set emptyByte m e.1 e.2) ms.mem
    poison := bad.foldl setInsert ms.poison
    tags := (upto (src / 256) (n / 256)).foldl (fun t p => SMap.set 15 t (p - src / 256 + dst / 256) (SMap.get 15 ms.tags p)) ms.tags
    dirtyPacks := (ms.dirtyPacks.filter fun e => decide (src ≤ 256 * e.1) && decide (256 * e.1 < src + n)).foldl
      (fun d e => SMap.insert d (e.1 - src / 256 + dst / 256) e.2) ms.dirtyPacks }
  (upto 0 (n / 64)).foldl (fun (m : MemSys) i => m.visit die (dst + 64 * i) false false) ms

/-- The lines of a frame that the targets deny to a party (01 R13, R35). -/
def MemSys.deniedLines (ms : MemSys) (w : Who) (a n : Nat) (k : AccessKind) : MemSys × List Nat :=
  (upto 0 (n / 64)).foldl (fun (r : MemSys × List Nat) i =>
    let (m, ok) := r.1.check w.die w.mid (a + 64 * i) k false
    (m, if ok then r.2 else r.2 ++ [i])) (ms, [])

/-- Copy a pool block at the homes under the MID of the write that it is made for (04 R123). A line that may not be read
arrives poisoned, and one that may not be written stays as it was (01 R38; log entry 122). -/
def MemSys.copyBlocks (ms : MemSys) (w : Who) (src dst n : Nat) : MemSys :=
  let (ms, unread) := ms.deniedLines w src n .read
  let (ms, unwritten) := ms.deniedLines w dst n .write
  let m := ms.moveBlocks w.die src dst n
  let m := unread.foldl (fun (m : MemSys) i => m.put (dst + 64 * i) 64 (Config.poisonData 0).toNat (allOnes 64) false true) m
  unwritten.foldl (fun (m : MemSys) i =>
    m.put (dst + 64 * i) 64 (ms.readN (dst + 64 * i) 64) (allOnes 64) false (ms.poisoned (dst + 64 * i))) m

end Sys2Proof.Machine
end

