-- ==== Sys2Proof/Machine/Xlate.lean ====
section
/-!
DEFINITION. Translation, TLBs, block pools and instruction fetch (01 R9 to R33, R441; 04 R102, R117 to R126).
-/

namespace Sys2Proof.Machine

/-- The kinds of access of 01 R22. -/
inductive XKind where
  | fetch | load | store | atomic
deriving DecidableEq, Repr

/-- A fault of a translation: its code (18 R378), its level and the address that the fault registers take. -/
structure XFault where
  code : Nat
  lvl : Nat
  addr : Nat
deriving DecidableEq, Repr

/-- KIND of FCAUSE (18 R380). -/
def XKind.code : XKind → Nat
  | .load => 0 | .store => 1 | .atomic => 2 | .fetch => 3

/-! ### Reads of structures in memory (01 R441) -/

/-- A coherent read of a structure under the context's MID. -/
def structRead (ms : MemSys) (w : Who) (pa n lvl : Nat) : MemSys × Except XFault Nat :=
  let (ms, ok) := ms.check w.die w.mid pa .read false
  if !ok then (ms, .error { code := 0x0C, lvl := lvl, addr := pa })
  else
    let ms := (ms.recall (pa / 64)).visit w.die pa false false
    if ms.poisoned pa then (ms, .error { code := 0x70, lvl := lvl, addr := pa })
    else (ms, .ok (ms.placeN pa n))

/-- A write that the hardware makes to a structure at its home, under a MID; a denied one is discarded (01 R13, R38), and one
to a place outside the HBM apertures leaves memory as it is (log entry 124). -/
def MemSys.writeAs (ms : MemSys) (die mid pa n v : Nat) : MemSys :=
  let (ms, ok) := ms.check die mid pa .write false
  if ok && inAperture pa then (ms.openHome die pa false none).putHome pa n v (allOnes n) false false else ms

/-- A write to a pool structure under the MID of the access that it is made for (04 R118). -/
def MemSys.structWrite (ms : MemSys) (w : Who) (pa n v : Nat) : MemSys := ms.writeAs w.die w.mid pa n v

/-- A write that the device makes to a table of its own, under firmware's MID (log entry 93). -/
def MemSys.hwWrite (ms : MemSys) (pa n v : Nat) : MemSys := ms.writeAs (stackDie pa) 0 pa n v

/-- A read that the device makes of a table of its own, under firmware's MID; a denied one gives free data (01 R38, log
entry 93). -/
def MemSys.hwRead (ms : MemSys) (pa n : Nat) : MemSys × Nat :=
  let (ms, ok) := ms.check (stackDie pa) 0 pa .read false
  if ok then
    let ms := (ms.recall (pa / 64)).visit (stackDie pa) pa false false
    (ms, ms.placeN pa n)
  else (ms, (Config.poisonData 0).toNat % pow2 (8 * n))

/-! ### The walk (01 R17, R18, R21) -/

/-- The index of an address at a level (01 R17). -/
def tableIndex (va lvl : Nat) : Nat := if lvl = 4 then field va 48 8 else field va (12 + 9 * lvl) 9

/-- The leaf size codes of a level (01 R17). -/
def sizeAtLevel (lvl k : Nat) : Bool :=
  match lvl with
  | 0 => decide (k ≤ 4)
  | 1 => decide (5 ≤ k) && decide (k ≤ 8)
  | 2 => decide (9 ≤ k) && decide (k ≤ 13)
  | 3 => decide (14 ≤ k)
  | _ => false

def pageSize (k : Nat) : Nat := pow2 (12 + 2 * k)

/-- `leaf_well_formed` of 01 R21. -/
def leafOk (l : BitVec 64) (lvl : Nat) : Bool :=
  wfield l 19 17 == 0 && sizeAtLevel lvl (leafSize l) &&
  (leafPl l || leafFrame l * 4096 % pageSize (leafSize l) == 0) &&
  decide (leafPsn l ≤ 1) && (leafPl l || leafPool l == 0) &&
  (!leafPl l || (!leafTh l && leafDev l == 0 && !leafX l)) &&
  (!leafTh l || decide (2 ≤ leafSize l)) && (leafDev l == 0 || !leafX l)

/-- A walk-cache read, or a read of the table that fills it (01 R25). Entries of level 0 are not cached. -/
def entryRead (ms : MemSys) (w : Who) (pa lvl : Nat) : MemSys × Except XFault Nat :=
  let k := 8 * w.die + lvl
  let c := SMap.get [] ms.walk k
  match SMap.get 0 c pa with
  | 0 =>
    match structRead ms w pa 8 lvl with
    | (ms, .error f) => (ms, .error f)
    | (ms, .ok e) =>
      if lvl ≠ 0 ∧ e % 4 = 3 then
        let c := if c.length < 256 then c else SMap.erase c ((c.map Prod.fst).getD (Config.victim ms.nextInval % 256) 0)
        ({ ms with walk := SMap.set [] ms.walk k (SMap.insert c pa e) }, .ok e)
      else (ms, .ok e)
  | e => (ms, .ok e)

/-- Levels `lvl`, `lvl` - 1 … 0 of the walk (01 R18): the leaf and the level it stands at. Where the replicas of a leaf
differ, the one in the slot that the address indexes translates (01 R17; log entry 94). -/
def walkFrom (w : Who) (va : Nat) : Nat → MemSys → Nat → MemSys × Except XFault (BitVec 64 × Nat)
  | lvl, ms, table =>
    match entryRead ms w (table + 8 * tableIndex va lvl) lvl with
    | (ms, .error f) => (ms, .error f)
    | (ms, .ok e) =>
      if !bit e 0 then (ms, .error { code := 0x08, lvl := lvl, addr := va })
      else if bit e 1 then
        match lvl with
        | 0 => (ms, .error { code := 0x09, lvl := lvl, addr := va })
        | l + 1 =>
          if field e 52 12 ≠ 0 ∨ field e 2 18 ≠ 0 then (ms, .error { code := 0x09, lvl := lvl, addr := va })
          else walkFrom w va l ms (field e 20 32 * 4096)
      else if leafOk (BitVec.ofNat 64 e) lvl then (ms, .ok (BitVec.ofNat 64 e, lvl))
      else (ms, .error { code := 0x09, lvl := lvl, addr := va })

/-- The walk from the root (01 R18). -/
def walk (ms : MemSys) (w : Who) (va : Nat) : MemSys × Except XFault (BitVec 64 × Nat) :=
  walkFrom w va 4 ms (wfield w.xroot 51 20 * 4096)

/-! ### TLBs (01 R25) -/

/-- The address of the pool descriptor that a leaf names (04 R117). -/
def poolAddr (w : Who) (leaf : BitVec 64) : Nat := wfield w.xpool 43 10 * 1024 + 64 * leafPool leaf

def TlbEntry.hits (e : TlbEntry) (asid va : Nat) : Bool :=
  (leafG e.leaf || e.asid == asid) && decide (e.va ≤ va) && decide (va < e.va + pageSize e.size)

/-- Put an entry into a TLB of `cap` entries; a full one gives up an entry of its own choice. -/
def tlbInsert (es : List TlbEntry) (cap free : Nat) (e : TlbEntry) : List TlbEntry :=
  if es.length < cap then e :: es else e :: es.eraseIdx (Config.victim free % cap)

def tlbOf (ms : MemSys) (w : Who) (fetch : Bool) : List TlbEntry :=
  if w.sched then [] else SMap.get [] ms.tlb (w.core + if fetch then 256 else 0)

/-- Fill the level-1 or the instruction TLB of a core; a scheduler has none (01 R25). -/
def tlbFill (ms : MemSys) (w : Who) (fetch : Bool) (e : TlbEntry) : MemSys :=
  if w.sched then ms
  else
    let k := w.core + if fetch then 256 else 0
    { ms with tlb := SMap.set [] ms.tlb k (tlbInsert (SMap.get [] ms.tlb k) (if fetch then 32 else 128) ms.nextInval e) }

/-- The set of the level-2 TLB that holds a translation: one of 2,048 (log entry 92). -/
def TlbEntry.set (e : TlbEntry) : Nat := Config.tlb2Set e.size (e.va / pageSize e.size) % 2048

/-- Put an entry into the level-2 TLB, whose sets hold eight (01 R25). -/
def tlb2Insert (es : List TlbEntry) (free : Nat) (e : TlbEntry) : List TlbEntry :=
  if es.length < 8 then e :: es
  else
    let same := es.filter fun k => k.set == e.set
    if same.length < 8 then e :: es
    else
      match same[Config.victim free % 8]? with
      | some v => e :: es.erase v
      | none => e :: es

/-- The leaf of an address: level-1 or instruction TLB, level-2 TLB, walk. -/
def lookupLeaf (ms : MemSys) (w : Who) (fetch : Bool) (va : Nat) : MemSys × Except XFault (BitVec 64 × Nat) :=
  match (tlbOf ms w fetch).find? fun e => e.hits w.asid va with
  | some e => (ms, .ok (e.leaf, e.level))
  | none =>
    match (SMap.get [] ms.tlb2 w.die).find? fun e => e.hits w.asid va with
    | some e => (tlbFill ms w fetch e, .ok (e.leaf, e.level))
    | none =>
      match walk ms w va with
      | (ms, .error f) => (ms, .error f)
      | (ms, .ok (leaf, lvl)) =>
        let e : TlbEntry := { asid := w.asid, va := va / pageSize (leafSize leaf) * pageSize (leafSize leaf)
                              size := leafSize leaf, leaf := leaf, level := lvl, pool := poolAddr w leaf }
        let ms := { ms with tlb2 := SMap.set [] ms.tlb2 w.die (tlb2Insert (SMap.get [] ms.tlb2 w.die) ms.nextInval e) }
        (tlbFill ms w fetch e, .ok (leaf, lvl))

/-- The access check of 01 R22: the code of the first failure. -/
def accessFault (leaf : BitVec 64) (kind : XKind) (sup : Bool) : Option Nat :=
  if !sup && !leafU leaf then some 0x03
  else if sup && kind == .fetch && leafU leaf then some 0x03
  else
    let ok := match kind with
      | .fetch => leafX leaf
      | .load => leafR leaf
      | .store => leafW leaf
      | .atomic => leafR leaf && leafW leaf
    if ok then none else some 0x0A

/-- The checks before the tables: canonical form and the supervisor half (01 R9, R18). -/
def vaFault (va : Nat) (sup : Bool) : Option Nat :=
  if field va 56 8 ≠ (if va.testBit 55 then 0xFF else 0) then some 0x07
  else if !sup && va.testBit 55 then some 0x03
  else none

/-! ### Block pools (04 R117 to R125) -/

/-- A pool descriptor (04 R118). -/
structure Pool where
  addr : Nat
  base : Nat
  bsz : Nat
  rcb : Nat
  en : Bool
  flb : Nat
  nblk : Nat
  flcnt : Nat
  cow : Nat
  err : Nat
  clean : Bool
deriving DecidableEq, Repr

def Pool.bytes (p : Pool) : Nat := pow2 (10 + p.bsz)

def poolDesc (addr x : Nat) : Pool :=
  let wd (i : Nat) : Nat := field x (64 * i) 64
  { addr := addr, base := field (wd 0) 10 34, bsz := field (wd 0) 0 4, rcb := field (wd 1) 6 38, en := bit (wd 1) 0
    flb := field (wd 2) 6 38, nblk := field (wd 3) 32 25, flcnt := field (wd 3) 0 25, cow := field (wd 4) 0 32
    err := field (wd 5) 0 32
    clean := field (wd 0) 44 20 == 0 && field (wd 0) 4 6 == 0 && field (wd 1) 44 20 == 0 && field (wd 1) 1 5 == 0 &&
      field (wd 2) 44 20 == 0 && field (wd 2) 0 6 == 0 && field (wd 3) 57 7 == 0 && field (wd 3) 25 7 == 0 &&
      field (wd 4) 32 32 == 0 && field (wd 5) 32 32 == 0 && wd 6 == 0 && wd 7 == 0 }

/-- The conditions of 04 R119; `page` is the page's size. -/
def Pool.ok (p : Pool) (page : Nat) : Bool :=
  p.en && p.clean && decide (p.bsz ≤ 10) && p.base * 1024 % p.bytes == 0 && decide (1 ≤ p.nblk) &&
  decide (p.nblk ≤ pow2 24) && decide (p.flcnt ≤ p.nblk) && decide (p.bytes ≤ page)

/-- Read the descriptor that a leaf names. -/
def readPool (ms : MemSys) (w : Who) (idx : Nat) : MemSys × Except XFault Pool :=
  let a := wfield w.xpool 43 10 * 1024 + 64 * idx
  match structRead ms w a 64 7 with
  | (ms, .error f) => (ms, .error f)
  | (ms, .ok x) => (ms, .ok (poolDesc a x))

def countAddr (p : Pool) (i : Nat) : Nat := p.rcb * 64 + 2 * i

def blockAddr (p : Pool) (i : Nat) : Nat := p.base * 1024 + i * p.bytes

/-- A block-table entry that a fault or status 7 names: V = 1 with a reserved bit or an index out of range. -/
def entryBad (p : Pool) (e : Nat) : Bool := bit e 31 && (field e 24 7 != 0 || decide (p.nblk ≤ field e 0 24))

/-- What a core has written into a block becomes visible at its home: write-combining entries leave, update-only lines
merge and dirty lines are written back. -/
def MemSys.showFrame (ms : MemSys) (core a n : Nat) : MemSys :=
  (ms.drainWhere core fun e => inFrame a n e.line).flushWhere core (fun l => inFrame a n l.line && l.pending) false

/-- Broadcast an entry invalidation: every block-entry cache drops the entry, and the writes made through a write right
so removed become visible at their homes (04 R121). -/
def MemSys.entryInvalidate (ms : MemSys) (pa : Nat) : MemSys :=
  let rights := ms.bec.filterMap fun e => (e.2.find? fun b => b.pa == pa && b.right).map fun b => (e.1, b)
  let ms := rights.foldl (fun (m : MemSys) r => m.showFrame r.1 r.2.base r.2.size) ms
  { ms with bec := SMap.mapVals [] (fun es => es.filter fun b => b.pa != pa) ms.bec }

/-- The block-entry cache of the core that makes an access; a scheduler has none (04 R121). -/
def MemSys.becOf (ms : MemSys) (w : Who) : List BecEntry := if w.sched then [] else SMap.get [] ms.bec w.core

/-- Fill a block-entry cache of 64 entries. -/
def MemSys.becFill (ms : MemSys) (w : Who) (p : Pool) (pa entry : Nat) (right : Bool) : MemSys :=
  if w.sched then ms
  else
    let es := (ms.becOf w).filter fun k => k.pa != pa
    let es := if es.length < 64 then es else es.eraseIdx (Config.victim ms.nextInval % 64)
    let b : BecEntry := { pa := pa, entry := entry, right := right, base := blockAddr p (field entry 0 24), size := p.bytes }
    { ms with bec := SMap.set [] ms.bec w.core (b :: es) }

/-- Pop the top of the free list (04 R120). -/
def poolPop (ms : MemSys) (w : Who) (p : Pool) : MemSys × Pool × Nat :=
  let i := ms.placeN (p.flb * 64 + 4 * (p.flcnt - 1)) 4
  let p := { p with flcnt := p.flcnt - 1 }
  (ms.structWrite w (p.addr + 24) 4 p.flcnt, p, i)

/-- Count an error in the descriptor (04 R118, wrapping). -/
def poolErr (ms : MemSys) (w : Who) (p : Pool) : MemSys := ms.structWrite w (p.addr + 40) 4 ((p.err + 1) % pow2 32)

/-- Release a block (04 R120): flush its lines everywhere, drop its entries' lines from the block-entry caches, push
its index. -/
def releaseBlock (ms : MemSys) (w : Who) (p : Pool) (i : Nat) : MemSys :=
  let ms := ms.flushFrame (blockAddr p i) p.bytes
  let ms := { ms with bec := SMap.mapVals [] (fun es => es.filter fun b => b.base != blockAddr p i || !bit b.entry 31) ms.bec }
  if p.flcnt = p.nblk then poolErr ms w p
  else (ms.structWrite w (p.flb * 64 + 4 * p.flcnt) 4 i).structWrite w (p.addr + 24) 4 (p.flcnt + 1)

/-- `copy_on_write` of 04 R123 up to the decrement of the old block's count, which is left to be made; the free list is not
empty. -/
def copyOnWrite (ms : MemSys) (w : Who) (p : Pool) (ea old : Nat) : MemSys × Nat :=
  let (ms, p, new) := poolPop ms w p
  let ms := ms.copyBlocks w (blockAddr p old) (blockAddr p new) p.bytes
  let ms := ms.structWrite w (countAddr p new) 2 1
  let ms := (ms.structWrite w ea 4 (pow2 31 + new)).entryInvalidate ea
  let ms := ms.structWrite w (p.addr + 32) 4 ((p.cow + 1) % pow2 32)
  ({ ms with cows := ms.cows ++ [{ who := w, pool := p.addr, block := old }] }, new)

/-- The end of a copy-on-write: the old block's count falls, and at 0 the block is released (04 R123). -/
def payCow (ms : MemSys) (d : CowDebt) : MemSys :=
  let p := poolDesc d.pool (ms.placeN d.pool 64)
  let c := ms.placeN (countAddr p d.block) 2 - 1
  let ms := ms.structWrite d.who (countAddr p d.block) 2 c
  if c = 0 then releaseBlock ms d.who p d.block else ms

/-- Every copy-on-write that is under way ends. -/
def MemSys.payCows (ms : MemSys) : MemSys := { ms.cows.foldl payCow ms with cows := [] }

/-- The address of the entry of an offset (04 R120). -/
def entryAddr (leaf : BitVec 64) (p : Pool) (off : Nat) : Nat := leafFrame leaf * 4096 + 4 * (off / p.bytes)

/-- The decision of 04 R122 for a write whose write right is not cached. -/
def poolDecide (ms : MemSys) (w : Who) (va : Nat) (p : Pool) (ea e : Nat) : MemSys × Except XFault Nat :=
  let i := field e 0 24
  if !bit e 31 then
    if p.flcnt = 0 then (ms, .error { code := 0x12, lvl := 7, addr := va })
    else
      match structRead ms w (p.flb * 64 + 4 * (p.flcnt - 1)) 4 7 with
      | (ms, .error f) => (ms, .error f)
      | (ms, .ok _) =>
        let (ms, p, b) := poolPop ms w p
        let ms := ms.clearBlocks (blockAddr p b) p.bytes
        let ms := ms.structWrite w (countAddr p b) 2 1
        let ms := (ms.structWrite w ea 4 (pow2 31 + b)).entryInvalidate ea
        (ms.becFill w p ea (pow2 31 + b) true, .ok b)
  else if entryBad p e then (ms, .error { code := 0x13, lvl := 7, addr := va })
  else
    match structRead ms w (countAddr p i) 2 7 with
    | (ms, .error f) => (ms, .error f)
    | (ms, .ok c) =>
      if c = 0 then (ms, .error { code := 0x13, lvl := 7, addr := va })
      else if c = 1 then (ms.becFill w p ea e true, .ok i)
      else if p.flcnt = 0 then (ms, .error { code := 0x12, lvl := 7, addr := va })
      else
        match structRead ms w (p.flb * 64 + 4 * (p.flcnt - 1)) 4 7 with
        | (ms, .error f) => (ms, .error f)
        | (ms, .ok _) =>
          let (ms, b) := copyOnWrite ms w p ea i
          (ms.becFill w p ea (pow2 31 + b) true, .ok b)

/-- `pooled_address` of 01 R18, R20: the physical address, and whether a read falls on an entry with V = 0. -/
def pooledAddress (ms : MemSys) (w : Who) (va : Nat) (leaf : BitVec 64) (off : Nat) (kind : XKind) :
    MemSys × Except XFault (Nat × Bool) :=
  match readPool ms w (leafPool leaf) with
  | (ms, .error f) => (ms, .error f)
  | (ms, .ok p) =>
    if !p.ok (pageSize (leafSize leaf)) then (ms, .error { code := 0x14, lvl := 7, addr := va })
    else
      let ea := entryAddr leaf p off
      let hit := (ms.becOf w).find? fun b => b.pa == ea
      let read : MemSys × Except XFault Nat := match hit with
        | some b => (ms, .ok b.entry)
        | none => structRead ms w ea 4 7
      match read with
      | (ms, .error f) => (ms, .error f)
      | (ms, .ok e) =>
        let write : Bool := kind == XKind.store || kind == XKind.atomic
        if write then
          match hit with
          | some b =>
            if b.right && bit e 31 && !entryBad p e then (ms, .ok (blockAddr p (field e 0 24) + off % p.bytes, false))
            else
              match structRead ms w ea 4 7 with
              | (ms, .error f) => (ms, .error f)
              | (ms, .ok e) =>
                match poolDecide ms w va p ea e with
                | (ms, .error f) => (ms, .error f)
                | (ms, .ok i) => (ms, .ok (blockAddr p i + off % p.bytes, false))
          | none =>
            match poolDecide ms w va p ea e with
            | (ms, .error f) => (ms, .error f)
            | (ms, .ok i) => (ms, .ok (blockAddr p i + off % p.bytes, false))
        else if !bit e 31 then (ms, .ok (0, true))
        else if entryBad p e then (ms, .error { code := 0x13, lvl := 7, addr := va })
        else
          let ms := match hit with
            | some _ => ms
            | none => ms.becFill w p ea e false
          (ms, .ok (blockAddr p (field e 0 24) + off % p.bytes, false))

/-! ### `translate` (01 R18) -/

/-- The remote device of a leaf: `none` for local (01 R15). -/
def remoteOf (ms : MemSys) (w : Who) (va : Nat) (leaf : BitVec 64) : MemSys × Except XFault (Option Nat) :=
  if leafDev leaf = 0 then (ms, .ok none)
  else
    match structRead ms w (wfield w.xrdt 43 12 * 4096 + 2 * leafDev leaf) 2 7 with
    | (ms, .error f) => (ms, .error f)
    | (ms, .ok d) =>
      if d = 0xFFFF then (ms, .error { code := 0x0B, lvl := 7, addr := va })
      else (ms, .ok (if d = w.devn then none else some d))

/-- A fault in reading a structure as the fault of the access it is read for: a denial keeps the address of the
structure, a machine check has the access's (01 R441, 18 R380). -/
def XFault.forAccess (f : XFault) (va : Nat) : XFault := if f.code = 0x70 then { f with addr := va } else f

/-- The leaf that translates `va` for an access of a kind, which R22 admits (01 R18, R22). -/
def leafFor (ms : MemSys) (w : Who) (va : Nat) (kind : XKind) : MemSys × Except XFault (BitVec 64) :=
  match vaFault va w.sup with
  | some c => (ms, .error { code := c, lvl := 7, addr := va })
  | none =>
    match lookupLeaf ms w (kind == .fetch) va with
    | (ms, .error f) => (ms, .error (f.forAccess va))
    | (ms, .ok (leaf, lvl)) =>
      match accessFault leaf kind w.sup with
      | some c => (ms, .error { code := c, lvl := lvl, addr := va })
      | none => (ms, .ok leaf)

/-- Translate `va` for an access of a kind (01 R18). A copy-on-write that it makes is left under way: others may be decided
before the old block's count falls (04 R123). -/
def translateFor (ms : MemSys) (w : Who) (va : Nat) (kind : XKind) : MemSys × Except XFault Xlat :=
  match leafFor ms w va kind with
  | (ms, .error f) => (ms, .error f)
  | (ms, .ok leaf) =>
    let off := va % pageSize (leafSize leaf)
    if leafPl leaf then
      match pooledAddress ms w va leaf off kind with
      | (ms, .error f) => (ms, .error (f.forAccess va))
      | (ms, .ok (pa, hole)) => (ms, .ok { va := va, pa := pa, leaf := leaf, dev := none, hole := hole })
    else
      match remoteOf ms w va leaf with
      | (ms, .error f) => (ms, .error (f.forAccess va))
      | (ms, .ok d) => (ms, .ok { va := va, pa := leafFrame leaf * 4096 + off, leaf := leaf, dev := d, hole := false })

/-- Translate `va` for an access of a kind, with the end of every copy-on-write. -/
def translate (ms : MemSys) (w : Who) (va : Nat) (kind : XKind) : MemSys × Except XFault Xlat :=
  let (ms, r) := translateFor ms w va kind
  (ms.payCows, r)

/-- Translate several addresses; the first fault ends it. -/
def translateAll (w : Who) (kind : XKind) : List Nat → MemSys → MemSys × Except XFault (List Xlat)
  | [], ms => (ms, .ok [])
  | a :: as, ms =>
    match translate ms w a kind with
    | (ms, .error f) => (ms, .error f)
    | (ms, .ok x) =>
      match translateAll w kind as ms with
      | (ms, .error f) => (ms, .error f)
      | (ms, .ok xs) => (ms, .ok (x :: xs))

/-- The walk of R18 without the checks of R22, for the cache-region operations (08 R225). -/
def translateBare (ms : MemSys) (w : Who) (va : Nat) : MemSys × Option (Nat × BitVec 64) :=
  match vaFault va w.sup with
  | some _ => (ms, none)
  | none =>
    match lookupLeaf ms w false va with
    | (ms, .error _) => (ms, none)
    | (ms, .ok (leaf, _)) =>
      if leafPl leaf then
        match pooledAddress ms w va leaf (va % pageSize (leafSize leaf)) .load with
        | (ms, .ok (pa, false)) => (ms, some (pa, leaf))
        | (ms, _) => (ms, none)
      else
        match remoteOf ms w va leaf with
        | (ms, .ok none) => (ms, some (leafFrame leaf * 4096 + va % pageSize (leafSize leaf), leaf))
        | (ms, _) => (ms, none)

/-! ### Regions of virtual memory (05 R142, 08 R225) -/

/-- Apply `f` to the lines of each mapped page of [va, stop), page by page; `fuel` bounds the pages. A page of a
pool is taken in parts of 1 KiB, since its blocks lie apart. -/
def eachPage (w : Who) (f : Nat → Nat → MemSys → MemSys) (stop : Nat) : Nat → Nat → MemSys → MemSys
  | 0, _, ms => ms
  | fuel + 1, va, ms =>
    if stop ≤ va then ms
    else
      match translateBare ms w va with
      | (ms, none) => eachPage w f stop fuel ((va / 1024 + 1) * 1024) ms
      | (ms, some (pa, leaf)) =>
        let size := if leafPl leaf then 1024 else pageSize (leafSize leaf)
        let next := min stop ((va / size + 1) * size)
        eachPage w f stop fuel next (f pa (next - va) ms)

/-- Whether a line lies in [pa, pa + n). -/
def lineIn (pa n line : Nat) : Bool := decide (pa ≤ 64 * line + 63) && decide (64 * line < pa + n)

/-- The removal of R142 and of `cinv`: dirty lines are written back, update-only lines merged, then all go. -/
def MemSys.evictRegion (ms : MemSys) (w : Who) (va len : Nat) : MemSys :=
  eachPage w (fun pa n m => m.flushWhere w.core (fun l => lineIn pa n l.line) true) (va + len) (len / 1024 + 2) va ms

/-- `cwb`: drain, write back and merge the lines of a range (08 R225). -/
def MemSys.writeBackRegion (ms : MemSys) (w : Who) (va len : Nat) : MemSys :=
  eachPage w (fun pa n m => (m.drainWhere w.core (fun e => lineIn pa n e.line)).flushWhere w.core
    (fun l => lineIn pa n l.line && (l.isUpdate || l.st == .dirty)) false) (va + len) (len / 1024 + 2) va ms

/-! ### Pool operations (04 R125, 08 R222) -/

/-- The entry that a pool operation names: its address and its POOL field, and nothing on a page with PL = 0. A descriptor
that cannot be read is no fault: the operation returns status 8 (04 R125). -/
def poolEntry (ms : MemSys) (w : Who) (va : Nat) : MemSys × Except XFault (Option (Xlat × Nat)) :=
  match leafFor ms w va .atomic with
  | (ms, .error f) => (ms, .error f)
  | (ms, .ok leaf) =>
    if !leafPl leaf then (ms, .ok none)
    else
      let x : Xlat := { va := va, pa := leafFrame leaf * 4096, leaf := leaf, dev := none, hole := false }
      match readPool ms w (leafPool leaf) with
      | (ms, .error _) => (ms, .ok (some (x, leafPool leaf)))
      | (ms, .ok p) =>
        if !p.ok (pageSize (leafSize leaf)) then (ms, .error { code := 0x14, lvl := 7, addr := va })
        else (ms, .ok (some ({ x with pa := entryAddr leaf p (va % pageSize (leafSize leaf)) }, leafPool leaf)))

/-- The entry's address under the descriptor as it is when the operation is performed. -/
def entryOf (p : Pool) (x : Xlat) : Nat := entryAddr x.leaf p (x.va % pageSize (leafSize x.leaf))

/-- Read an entry for a pool operation: status 8 for a denied or poisoned read, 7 for an ill-formed entry. -/
def poolRead (ms : MemSys) (w : Who) (p : Pool) (ea : Nat) : MemSys × Except Nat Nat :=
  match structRead ms w ea 4 7 with
  | (ms, .error _) => (ms, .error 8)
  | (ms, .ok e) => if entryBad p e then (ms, .error 7) else (ms, .ok e)

def poolShare (ms : MemSys) (w : Who) (dx sx : Xlat) (dp sp : Nat) : MemSys × Nat :=
  if dp ≠ sp then (ms, 3)
  else
    match readPool ms w dp with
    | (ms, .error _) => (ms, 8)
    | (ms, .ok p) =>
      let d := entryOf p dx
      let s := entryOf p sx
      let (ms, r1) := poolRead ms w p (min d s)
      let (ms, r2) := poolRead ms w p (max d s)
      match r1, r2 with
      | .error a, .error b => (ms, if a = 7 ∨ b = 7 then 7 else 8)
      | .error a, _ => (ms, a)
      | _, .error b => (ms, b)
      | _, _ =>
        let de := ms.placeN d 4
        let se := ms.placeN s 4
        if !bit se 31 then (ms, 1)
        else
          match structRead ms w (countAddr p (field se 0 24)) 2 7 with
          | (ms, .error _) => (ms, 8)
          | (ms, .ok c) =>
            if bit de 31 then (ms, 2)
            else if c = 65535 then (ms, 4)
            else
              let ms := ms.structWrite w (countAddr p (field se 0 24)) 2 (c + 1)
              let ms := if c + 1 = 2 then ms.entryInvalidate s else ms
              ((ms.structWrite w d 4 se).entryInvalidate d, 0)

def poolDrop (ms : MemSys) (w : Who) (dx : Xlat) (dp : Nat) : MemSys × Nat :=
  match readPool ms w dp with
  | (ms, .error _) => (ms, 8)
  | (ms, .ok p) =>
    let d := entryOf p dx
    match poolRead ms w p d with
    | (ms, .error a) => (ms, a)
    | (ms, .ok e) =>
      if !bit e 31 then (ms, 1)
      else
        match structRead ms w (countAddr p (field e 0 24)) 2 7 with
        | (ms, .error _) => (ms, 8)
        | (ms, .ok c) =>
          let ms := (ms.structWrite w d 4 (e % pow2 31)).entryInvalidate d
          if c = 0 then (poolErr ms w p, 6)
          else
            let ms := ms.structWrite w (countAddr p (field e 0 24)) 2 (c - 1)
            (if c = 1 then releaseBlock ms w p (field e 0 24) else ms, 0)

/-- `pool_alloc`; the free list is read, and its denial or poison answered, before the entry's V counts (04 R125). -/
def poolAlloc (ms : MemSys) (w : Who) (dx : Xlat) (dp : Nat) : MemSys × Nat :=
  match readPool ms w dp with
  | (ms, .error _) => (ms, 8)
  | (ms, .ok p) =>
    let d := entryOf p dx
    match poolRead ms w p d with
    | (ms, .error a) => (ms, a)
    | (ms, .ok e) =>
      match (if p.flcnt = 0 then (ms, .ok 0) else structRead ms w (p.flb * 64 + 4 * (p.flcnt - 1)) 4 7) with
      | (ms, .error _) => (ms, 8)
      | (ms, .ok _) =>
        if bit e 31 then (ms, 2)
        else if p.flcnt = 0 then (ms, 5)
        else
          let (ms, p, b) := poolPop ms w p
          let ms := ms.clearBlocks (blockAddr p b) p.bytes
          let ms := ms.structWrite w (countAddr p b) 2 1
          ((ms.structWrite w d 4 (pow2 31 + b)).entryInvalidate d, 0)

/-! ### Instruction fetch (04 R102, 06 R161, R181) -/

def MemSys.ilines (ms : MemSys) (core : Nat) : List ILine := SMap.get [] ms.icache core

/-- The 64 bytes that a fetch reads at its target: at a home, or, uncached, from a place outside the HBM apertures,
whose bytes `io` gives (04 R91). -/
def fetchBlock (io : Nat → Nat) (ms : MemSys) (w : Who) (x : Xlat) (pa : Nat) : MemSys × Except XFault Block :=
  if inAperture pa then
    let (ms, g) := homeRead ms w x pa 64 1 .read
    match g.bad with
    | some n => (ms, .error { code := n.code, lvl := 7, addr := n.addr })
    | none => (ms, .ok (BitVec.ofNat 512 g.val))
  else
    let (ms, ok) := ms.check w.die w.mid pa .read false
    if ok then (ms, .ok (BitVec.ofNat 512 (io pa))) else (ms, .error { code := 0x0C, lvl := 7, addr := pa })

/-- The 64 bytes of code at a virtual line, from the instruction cache or from the target. A full cache of 64 KiB gives up a
line of its own choice (log entry 10). -/
def fetchLine (io : Nat → Nat) (ms : MemSys) (w : Who) (va : Nat) : MemSys × Except XFault Block :=
  let lv := va / 64 * 64
  match translate ms w va .fetch with
  | (ms, .error f) => (ms, .error f)
  | (ms, .ok x) =>
    match (ms.ilines w.core).find? fun l => l.asid == w.asid && l.va == lv with
    | some l => (ms, .ok l.data)
    | none =>
      let pa := x.pa / 64 * 64
      match fetchBlock io ms w { x with va := lv, pa := pa } pa with
      | (ms, .error f) => (ms, .error f)
      | (ms, .ok b) =>
        if inAperture pa then
          let l : ILine := { asid := w.asid, va := lv, data := b }
          let ls := (ms.ilines w.core)
          let ls := if ls.length < 1024 then ls else ls.eraseIdx (Config.victim ms.nextInval % 1024)
          ({ ms with icache := SMap.set [] ms.icache w.core (l :: ls) }, .ok b)
        else (ms, .ok b)

/-- The 3-byte parcel at a virtual address. -/
def fetchParcel (io : Nat → Nat) (ms : MemSys) (w : Who) (va : Nat) : MemSys × Except XFault Parcel :=
  match fetchLine io ms w va with
  | (ms, .error f) => (ms, .error f)
  | (ms, .ok b) =>
    let o := va % 64
    if o ≤ 61 then (ms, .ok (BitVec.ofNat 24 (field b.toNat (8 * o) 24)))
    else
      match fetchLine io ms w ((va / 64 + 1) * 64) with
      | (ms, .error f) => (ms, .error f)
      | (ms, .ok b2) =>
        let k := 64 - o
        (ms, .ok (BitVec.ofNat 24 (field b.toNat (8 * o) (8 * k) + (field b2.toNat 0 (24 - 8 * k)) <<< (8 * k))))

/-- Bytes read with the access kind of an instruction fetch, for a code object header (06 R183): `n` blocks. -/
def fetchBlocks (io : Nat → Nat) (w : Who) : Nat → Nat → MemSys → MemSys × Except XFault (List Block)
  | 0, _, ms => (ms, .ok [])
  | n + 1, va, ms =>
    match translate ms w va .fetch with
    | (ms, .error f) => (ms, .error f)
    | (ms, .ok x) =>
      match fetchBlock io ms w x x.pa with
      | (ms, .error f) => (ms, .error f)
      | (ms, .ok b) =>
        match fetchBlocks io w n (va + 64) ms with
        | (ms, .error f) => (ms, .error f)
        | (ms, .ok bs) => (ms, .ok (b :: bs))

/-! ### Invalidation (01 R29 to R32) -/

/-- Whether an invalidation removes a TLB entry (01 R29). -/
def Inval.matches (i : Inval) (e : TlbEntry) : Bool :=
  match i.scope with
  | 0 => !leafG e.leaf && e.asid == i.asid && decide (e.va < i.base + i.len) && decide (i.base < e.va + pageSize e.size)
  | 1 => !leafG e.leaf && e.asid == i.asid
  | 2 => !leafG e.leaf
  | _ => true

/-- A unit observes an invalidation (01 R31): level-1 and instruction TLBs 0 to 511, and of die d the level-2 TLB
with its walk caches, 512 + d. -/
def MemSys.observe (ms : MemSys) (i : Inval) (u : Nat) : MemSys :=
  let keep (es : List TlbEntry) : List TlbEntry := es.filter fun e => !i.matches e
  if u < 512 then { ms with tlb := SMap.set [] ms.tlb u (keep (SMap.get [] ms.tlb u)) }
  else
    { ms with tlb2 := SMap.set [] ms.tlb2 (u - 512) (keep (SMap.get [] ms.tlb2 (u - 512)))
              walk := ms.walk.filter fun e => e.1 / 8 != u - 512 }

/-- The leaves that an invalidation would remove, wherever they are cached. -/
def MemSys.matching (ms : MemSys) (i : Inval) : List TlbEntry :=
  ((ms.tlb.map Prod.snd).flatten ++ (ms.tlb2.map Prod.snd).flatten).filter i.matches

/-- The frames that a leaf gives a page: of a pooled one, the blocks that its block table names (01 R32, 04 R120). -/
def MemSys.framesOf (ms : MemSys) (e : TlbEntry) : List (Nat × Nat) :=
  if leafPl e.leaf then
    let p := poolDesc e.pool (ms.readN e.pool 64)
    let t := leafFrame e.leaf * 4096
    (ms.mem.filter fun c => decide (t ≤ c.1) && decide (c.1 < t + 4 * (pageSize e.size / p.bytes)) && c.1 % 4 == 3 &&
        decide (128 ≤ c.2.toNat)).map
      fun c => (blockAddr p (field (ms.readN (c.1 - 3) 4) 0 24), p.bytes)
  else [(leafFrame e.leaf * 4096, pageSize e.size)]

/-- What completes an invalidation once every unit has observed it (01 R32, conditions 5 and 6); `frames` are those of
the leaves it removed. -/
def MemSys.finishInval (ms : MemSys) (frames : List (Nat × Nat)) : MemSys :=
  let cs := (ms.wc.map Prod.fst ++ ms.l1.map Prod.fst)
  let ms := cs.foldl (fun m c => (m.drainWc c).flushWhere c L1Line.isUpdate true) ms
  frames.foldl (fun m f => m.flushFrame f.1 f.2) ms

end Sys2Proof.Machine
end

