-- ==== Sys2Proof/Machine/Ops.lean ====
section
/-!
DEFINITION. The named operations over a core: its registers and their pending writes (06 R169, R177), its outstanding
counters (06 R176), held operations (06 R173), code object headers (06 R182, R183), abandonment (06 R175), taking an
exception (18 R383, R384, R386) and the return from one (18 R385).
-/

namespace Sys2Proof.Machine

abbrev Out := Host.Outcome State Fault Refusal

/-! ### Cores -/

def State.core (s : State) (k : Nat) : Core := SMap.get {} s.cores k

def State.setCore (s : State) (k : Nat) (c : Core) : State := { s with cores := SMap.set {} s.cores k c }

def State.modCore (s : State) (k : Nat) (f : Core → Core) : State := s.setCore k (f (s.core k))

/-- Change every core that stands in the list; `f` leaves a core as after reset as it is. -/
def State.mapCores (s : State) (f : Core → Core) : State := { s with cores := SMap.mapVals {} f s.cores }

/-- Ask the cores of running tasks that `p` names to pre-empt them (18 R391). -/
def State.askPreempt (s : State) (p : Core → Bool) : State :=
  s.mapCores fun c => if p c && c.task.isSome && c.trap.preempt == .none then { c with trap := { c.trap with preempt := .pending } } else c

/-- Who makes an access of core `k` (01 R23). -/
def State.who (s : State) (k : Nat) : Who :=
  let c := s.core k
  { core := k, xroot := c.xroot, xrdt := c.xrdt, xpool := c.xpool, sup := c.trap.sup, devn := s.fab.devn }

/-- The context of the running task (18 R381); 0 with no task. -/
def Core.ctx (c : Core) : Nat := match c.task with | some t => t.ctx | none => 0

/-- The next value of the counter that free values are applied to. -/
def State.tick (s : State) : State := { s with fresh := s.fresh + 1 }

/-! ### The register file (06 R169, R177) -/

def applyOp (op : WriteOp) (old new : Vec) : Vec :=
  match op with
  | .put => new
  | .orBits => old ||| new
  | .clear => old &&& ~~~new
  | .thr => (old &&& 0xFFFFFFFF) ||| ((new &&& 0xFFFFFFFF) <<< 32)
  | .byte1 => (old &&& ~~~(0xFF00 : Vec)) ||| ((new &&& 0xFF) <<< 8)
  | .byte2 => (old &&& ~~~(0xFF0000 : Vec)) ||| ((new &&& 0xFF) <<< 16)

/-- Whether a write is visible to bundle `m` of block `blk` (06 R177, 08 R206). -/
def PWrite.visible (p : PWrite) (m blk : Nat) : Bool := decide (p.vis ≤ m) && (!p.later || decide (p.blk < blk))

/-- What a read of key `k` in bundle `m` returns: the last write in program order that is visible (06 R177). -/
def RegFile.read (r : RegFile) (k m blk : Nat) : Vec :=
  r.pend.foldl (fun v p => if p.key = k ∧ p.visible m blk = true then applyOp p.op v p.val else v) (SMap.get 0 r.base k)

/-- Whether every write that the read sees has landed; if not, the slot waits (06 R177). -/
def RegFile.ready (r : RegFile) (k m blk : Nat) : Bool := r.pend.all fun p => p.key != k || !p.visible m blk || p.landed

/-- The denial or the poison that the read would consume (01 R39, 18 R378). -/
def RegFile.bad (r : RegFile) (k m blk : Nat) : Option Notice :=
  r.pend.foldl (fun b p => if p.key = k ∧ p.visible m blk = true then (if p.op = .put then p.bad else p.bad <|> b) else b) none

/-- Put a write in program order: bundles, and within a bundle slots (05 R127). -/
def pendInsert (p : PWrite) : List PWrite → List PWrite
  | [] => [p]
  | e :: es => if e.trig = p.trig ∧ p.slot < e.slot ∧ e.key = p.key then p :: e :: es else e :: pendInsert p es

def RegFile.push (r : RegFile) (p : PWrite) : RegFile := { r with pend := pendInsert p r.pend, nextId := r.nextId + 1 }

/-- The value of a pending write arrives. -/
def RegFile.land (r : RegFile) (id : Nat) (v : Vec) (bad : Option Notice) : RegFile :=
  { r with pend := r.pend.map fun p => if p.id = id then { p with val := v, landed := true, bad := bad } else p }

/-- A load's data lands with the value it was given when it was performed. -/
def RegFile.arrive (r : RegFile) (id : Nat) : RegFile :=
  { r with pend := r.pend.map fun p => if p.id = id then { p with landed := true } else p }

/-- Writes that are visible from bundle `m` on and have landed become part of the base; `kept` are the keys of
writes before that could not. -/
def settle (m : Nat) : List Nat → List PWrite → SMap Vec → List PWrite → SMap Vec × List PWrite
  | _, [], b, out => (b, out.reverse)
  | kept, p :: ps, b, out =>
    if p.landed ∧ p.vis ≤ m ∧ p.bad = none ∧ !kept.contains p.key then
      settle m kept ps (SMap.set 0 b p.key (applyOp p.op (SMap.get 0 b p.key) p.val)) out
    else settle m (p.key :: kept) ps b (p :: out)

def RegFile.settle (r : RegFile) (m : Nat) : RegFile :=
  let (b, p) := Sys2Proof.Machine.settle m [] r.pend r.base []
  { r with base := b, pend := p }

/-! ### What the current bundle reads and writes -/

def Core.key (c : Core) (l : Loc) : Nat := l.key c.regs.handler

/-- A register or port as the current bundle sees it. -/
def Core.rd (c : Core) (l : Loc) : Vec := c.regs.read (c.key l) c.ctl.bcount c.ctl.blk

/-- An operand port as a trigger of the current bundle sees it: with the writes of the same bundle (06 R169). -/
def Core.port (c : Core) (sl : Slot) (n : Nat) : Vec := c.regs.read (c.key (.oport sl.num n)) (c.ctl.bcount + 1) c.ctl.blk

/-- An operand port of 64 bits. -/
def Core.portW (c : Core) (sl : Slot) (n : Nat) : Word := (c.port sl n).setWidth 64

def Core.isReady (c : Core) (l : Loc) : Bool := c.regs.ready (c.key l) c.ctl.bcount c.ctl.blk

def Core.badAt (c : Core) (l : Loc) : Option Notice := c.regs.bad (c.key l) c.ctl.bcount c.ctl.blk

/-- The assumed latency of a class in the running code object (06 R178). -/
def Core.la (c : Core) (cls : Nat) : Nat := c.code.lat.getD cls 1

/-- A write of the current bundle that is visible `d` bundles later and whose value is there at once. -/
def Core.write (c : Core) (sl : Slot) (l : Loc) (op : WriteOp) (v : Vec) (d : Nat) : Core :=
  let p : PWrite :=
    { id := c.regs.nextId, key := c.key l, op := op, val := v, trig := c.ctl.bcount, slot := sl.num
      vis := c.ctl.bcount + d, blk := c.ctl.blk, later := false, landed := true, load := false, bad := none }
  { c with regs := c.regs.push p }

/-- The result of an operation of a class, into a result port (06 R178). -/
def Core.result (c : Core) (sl : Slot) (s : Bool) (cls : Nat) (v : Vec) : Core :=
  c.write sl (.rport sl.num s) .put v (c.la cls)

/-- The result of a load that has been performed and whose data has not landed (06 R176); `early` if it must land before
its block commits, as a load that is not of cached memory must (06 R174). -/
def Core.loadResult (c : Core) (sl : Slot) (l : Loc) (cls : Nat) (v : Vec) (early : Bool) (bad : Option Notice) : Core :=
  let p : PWrite :=
    { id := c.regs.nextId, key := c.key l, op := .put, val := v, trig := c.ctl.bcount, slot := sl.num
      vis := c.ctl.bcount + c.la cls, blk := c.ctl.blk, later := false, landed := false, load := true, early := early, bad := bad }
  { c with regs := c.regs.push p }

/-- A write that a held operation owes to later blocks, `d` bundles on (08 R206); `load` if it counts in `ld`. -/
def Core.oweIn (c : Core) (sl : Slot) (l : Loc) (op : WriteOp) (d : Nat) (load : Bool) : Core :=
  let p : PWrite :=
    { id := c.regs.nextId, key := c.key l, op := op, val := 0, trig := c.ctl.bcount, slot := sl.num
      vis := c.ctl.bcount + d, blk := c.ctl.blk, later := true, landed := false, load := load, bad := none }
  { c with regs := c.regs.push p }

/-- The result that a held operation of a class owes to later blocks. -/
def Core.owe (c : Core) (sl : Slot) (l : Loc) (op : WriteOp) (cls : Nat) (load : Bool) : Core :=
  c.oweIn sl l op (c.la cls) load

/-- The number of the next pending write. -/
def Core.nextId (c : Core) : Nat := c.regs.nextId

/-- The value that a held operation owed arrives. -/
def Core.pay (c : Core) (rid : Option Nat) (v : Vec) (bad : Option Notice) : Core :=
  match rid with
  | some id => { c with regs := c.regs.land id v bad }
  | none => c

/-- A write that was owed is not made: its operation was discarded (13 R306). -/
def Core.forgive (c : Core) (rid : Option Nat) : Core :=
  match rid with
  | some id => { c with regs := { c.regs with pend := c.regs.pend.filter fun p => p.id != id } }
  | none => c

/-! ### Held operations (06 R173) -/

/-- The pool operations (08 R222). -/
def HOp.isPool : HOp → Bool
  | .poolShare .. | .poolDrop .. | .poolAlloc .. => true
  | _ => false

/-- Operations that no later access of the task is translated before (08 R222, R224). -/
def HOp.retargets (o : HOp) : Bool := o.isPool || (match o with | .xlwait _ => true | _ => false)

/-- An entry for a held operation, with the operands it captured. -/
def Core.entry (c : Core) (sl : Slot) (op : HOp) (rid : Option Nat) : Held :=
  { op := op, slot := sl.num, bundle := c.ctl.bidx, blk := c.ctl.blk, sup := c.trap.sup, rid := rid, released := false
    again := c.ctl.store.any fun h => !h.released && h.op.retargets }

/-- A held operation of slots 0 to 5 takes an entry of the block store buffer. -/
def Core.hold (c : Core) (sl : Slot) (op : HOp) (rid : Option Nat) : Core :=
  { c with ctl := { c.ctl with store := c.ctl.store ++ [c.entry sl op rid] } }

/-- A command of slot 7 takes an entry of the copy engine's queue. -/
def Core.holdEx (c : Core) (op : HOp) (rid : Option Nat) : Core :=
  { c with cp := { c.cp with queue := c.cp.queue ++ [c.entry .s7 op rid] } }

/-- A command of slot 6 takes an entry of the matrix engine's queue. -/
def Core.holdMx (c : Core) (cmd : MxCmd) (word : Word) (rid : Option Nat) : Core :=
  let e : MxEntry :=
    { cmd := cmd, word := word, bundle := c.ctl.bidx, blk := c.ctl.blk, rid := rid, released := false, row := 0, retry := false, pass := none }
  { c with mx := { c.mx with queue := c.mx.queue ++ [e] } }

/-! ### Paths and program order of held operations (05 R127, R128) -/

/-- Whether an entry of the copy engine's queue makes an access of the vector path. -/
def HOp.isVector : HOp → Bool
  | .vload .. | .vstore .. | .svload .. | .svstore .. | .eld .. | .est .. | .lavg .. | .ldet .. | .trst .. | .tdld .. => true
  | _ => false

/-- Loads of the vector path (05 R131). -/
def HOp.isVectorLoad : HOp → Bool
  | .vload .. | .svload .. | .eld .. | .lavg .. | .ldet .. | .tdld .. => true
  | _ => false

def HOp.isStorage : HOp → Bool
  | .sqPost .. | .sqCqack .. => true
  | _ => false

def HOp.isNest : HOp → Bool
  | .cpGo .. => true
  | _ => false

def HOp.isDrain : HOp → Bool
  | .cpDrain _ => true
  | _ => false

/-- A plain store of slots 0 to 5. -/
def HOp.isPlainStore : HOp → Bool
  | .store .. | .sstore .. => true
  | _ => false

/-- The bit of the access path that a command of slot 7 makes accesses on; `none` for one that makes none. -/
def HOp.exPath (o : HOp) : Option Nat :=
  if o.isVector then some 1 else if o.isNest then some 2 else if o.isStorage then some 5 else none

/-- An entry that comes before a held operation in program order. -/
def Held.before (e h : Held) : Bool :=
  decide (e.blk < h.blk) || (e.blk == h.blk && (decide (e.bundle < h.bundle) || (e.bundle == h.bundle && decide (e.slot < h.slot))))

/-- The translations that a held operation carries. -/
def HOp.xlats : HOp → List Xlat
  | .load _ _ x => [x]
  | .store _ x _ => [x]
  | .ldio _ x => [x]
  | .atomic _ _ x _ _ => [x]
  | .ldAcq _ x => [x]
  | .stRel _ x _ => [x]
  | .acq _ x => [x]
  | .rel _ x _ => [x]
  | .moor _ _ x => [x]
  | .unmoor _ x => [x]
  | .poolShare d s _ _ => [d, s]
  | .poolDrop d _ => [d]
  | .poolAlloc d _ => [d]
  | .vload _ x => [x]
  | .vstore _ x _ => [x]
  | .eld _ _ _ _ xs => xs
  | .est _ _ _ _ _ _ xs => xs
  | .lavg _ _ _ _ _ xs => xs
  | .ldet _ _ _ _ xs => xs
  | .trst _ _ _ _ xs => xs
  | .tdld _ x => [x]
  | _ => []

/-- An operation with its translations changed. -/
def HOp.mapX (f : Xlat → Xlat) : HOp → HOp
  | .load n g x => .load n g (f x)
  | .store n x v => .store n (f x) v
  | .ldio n x => .ldio n (f x)
  | .atomic op w x a c => .atomic op w (f x) a c
  | .ldAcq s x => .ldAcq s (f x)
  | .stRel s x v => .stRel s (f x) v
  | .acq s x => .acq s (f x)
  | .rel s x v => .rel s (f x) v
  | .moor a b x => .moor a b (f x)
  | .unmoor a x => .unmoor a (f x)
  | .vload n x => .vload n (f x)
  | .vstore n x v => .vstore n (f x) v
  | .eld b i c k xs => .eld b i c k (xs.map f)
  | .est b i c k d v xs => .est b i c k d v (xs.map f)
  | .lavg h r d s p xs => .lavg h r d s p (xs.map f)
  | .ldet h d s p xs => .ldet h d s p (xs.map f)
  | .trst d s p n xs => .trst d s p n (xs.map f)
  | .tdld t x => .tdld t (f x)
  | o => o

/-- The kind of access that a held operation is translated for (01 R22). -/
def HOp.xkind : HOp → XKind
  | .store .. | .stRel .. | .rel .. | .vstore .. | .est .. => .store
  | .atomic .. | .trst .. => .atomic
  | _ => .load

/-- Operations that write the places they are translated to. -/
def HOp.writes (o : HOp) : Bool := o.xkind != .load

/-- Whether an access is not cached on the module: it goes to a PCIe aperture, to register space or to a remote device
(04 R91). -/
def Xlat.uncached (x : Xlat) : Bool := x.dev.isSome || !(x.hole || inAperture x.pa)

/-- Whether an operation is performed in issue order with the task's other uncached accesses (04 R91, 08 R208). -/
def HOp.uncached (o : HOp) : Bool := (match o with | .ldio .. => true | _ => false) || o.xlats.any Xlat.uncached

/-- Whether an `ls2.xlwait` of the current block waits for invalidations that are outstanding: no access that follows it is
translated before they are complete (08 R224). -/
def State.xlWaits (s : State) (k : Nat) : Bool :=
  (s.core k).ctl.store.any (fun h => !h.released && h.op == .xlwait none) && s.ms.invals.any fun i => i.ctx == (s.core k).ctx

/-! ### Outstanding counters (06 R176) -/

/-- `ld`: loads from their dispatch, held ones from their release. -/
def Core.ld (c : Core) : Nat :=
  (c.regs.pend.filter fun p => p.load && !p.landed && (!p.later || decide (p.blk < c.ctl.blk))).length

/-- Whether an entry of the copy engine's queue counts in `st`. -/
def HOp.isExStore : HOp → Bool
  | .vstore .. | .svstore .. | .est .. | .trst .. => true
  | _ => false

/-- A load that waits in the block store buffer behind an operation of its block; it takes no entry (06 R173). -/
def HOp.isLoad : HOp → Bool
  | .load .. => true
  | _ => false

/-- Whether an entry of the block store buffer counts in `st` from its release. -/
def HOp.isStore : HOp → Bool
  | .store .. | .sstore .. | .cacheRegion .. => true
  | .atomic _ cw _ _ _ => !bit cw 2
  | _ => false

/-- The stores of the current block that will count in `st` from their release. -/
def Core.stHeld (c : Core) : Nat :=
  (c.ctl.store.filter fun h => !h.released && h.op.isStore).length + (c.cp.queue.filter fun h => !h.released && h.op.isExStore).length

/-- Tree updates of a core whose remote home has not completed them: they count in `st` (08 R217). -/
def State.treesOut (s : State) (k : Nat) : Nat :=
  ((s.fab.unacked.map fun (e : Nat × List Unacked) => (e.2.filter fun u => u.core == k && u.tree).length).foldl (· + ·) 0)

/-- `st`: released stores, tree updates and non-returning atomics that are not performed at device scope. -/
def Core.st (c : Core) : Nat :=
  c.stOut.length + (c.ctl.store.filter fun h => h.released && h.op.isStore).length +
  (c.cp.queue.filter fun h => h.released && h.op.isExStore).length

/-- Whether `st` leaves no room for one more store even when the counted stores are performed: too many commands of the copy
engine and updates of remote trees stand out (06 R176). -/
def State.storeFull (s : State) (k : Nat) : Bool :=
  let c := s.core k
  decide (63 + c.stOut.length ≤ c.st + c.stHeld + s.treesOut k)

/-- `cp`: released nests that are not drained. -/
def Core.cpCount (c : Core) : Nat :=
  ((c.cp.chans.map fun e => e.2.nests.length).foldl (· + ·) 0) +
  (c.cp.queue.filter fun h => h.released && h.op.isNest).length

/-- `tl`: released matrix commands that are not finished. -/
def Core.tl (c : Core) : Nat := (c.mx.queue.filter fun e => e.released).length

/-! ### Code objects (06 R182, R183) -/

/-- Word i of a header. -/
def headerWord (bs : List Block) (i : Nat) : Nat := field (bs.getD (i / 8) 0).toNat (64 * (i % 8)) 64

/-- The header's fields. -/
def codeOf (addr : Nat) (bs : List Block) : CodeObj :=
  { addr := addr, npar := field (headerWord bs 1) 0 25
    lat := (upto 0 16).map fun i => field (headerWord bs (2 + i / 8)) (8 * (i % 8)) 6
    stubs := (upto 0 16).filterMap fun j =>
      if bit (headerWord bs (6 + 2 * j)) 32 then
        some (field (headerWord bs (5 + 2 * j)) 0 32, field (headerWord bs (5 + 2 * j)) 32 32, field (headerWord bs (6 + 2 * j)) 0 32)
      else none
    dstub := if bit (headerWord bs 4) 32 then some (field (headerWord bs 4) 0 32) else none }

/-- Whether a header is well formed (06 R183). -/
def codeOk (bs : List Block) : Bool :=
  let o := codeOf 0 bs
  headerWord bs 0 == 0x6A3C91E500010000 && decide (headerWord bs 1 < pow2 25) &&
  (upto 0 16).all (fun i => field (headerWord bs (2 + i / 8)) (8 * (i % 8) + 6) 2 == 0) &&
  decide (headerWord bs 4 < pow2 33) &&
  (upto 0 16).all (fun j => decide (headerWord bs (6 + 2 * j) < pow2 33)) &&
  (upto 37 27).all (fun i => headerWord bs i == 0) &&
  o.lat.all (fun l => decide (1 ≤ l)) && decide (1 ≤ o.npar) &&
  o.stubs.all (fun r => decide (r.1 ≤ r.2.1) && decide (r.2.1 < o.npar) && decide (r.2.2 < o.npar)) &&
  (match o.dstub with | some d => decide (d < o.npar) | none => true)

/-- Read a header with the access kind of a fetch: `none` for a header that is not well formed, a fault code for one
that cannot be read. Outside the HBM apertures its bytes are free values (log entry 6). -/
def readHeader (ms : MemSys) (w : Who) (addr : Nat) : MemSys × Except Nat (Option CodeObj) :=
  match fetchBlocks (fun a => freeBytes (Config.pcieRead ms.nextInval) a 64) w 8 addr ms with
  | (ms, .error f) => (ms, .error f.code)
  | (ms, .ok bs) => (ms, .ok (if codeOk bs then some (codeOf addr bs) else none))

/-! ### Context entries (18 R390) -/

structure CtxEntry where
  xroot : Word
  xrdt : Word
  xpool : Word
  hcode : Nat
  hentry : Nat
  en : Bool
  savev : Nat
  kseq : Nat
deriving DecidableEq, Repr

/-- The canonical virtual address that the bits [55:6] of a word give (01 R9). -/
def va56 (w : Nat) : Nat := field w 6 50 * 64 + (if w.testBit 55 then 0xFF <<< 56 else 0)

def State.ctxAddr (s : State) (n : Nat) : Nat := s.sched.ctxb * 262144 + 64 * n

/-- The fields of XROOT, XRDT and XPOOL; their reserved bits read 0 (01 R14, 04 R117). -/
def xrootFields (x : Nat) : Word := BitVec.ofNat 64 (field x 0 16 + field x 20 32 <<< 20)
def xrdtFields (x : Nat) : Word := BitVec.ofNat 64 (field x 12 44 <<< 12)
def xpoolFields (x : Nat) : Word := BitVec.ofNat 64 (field x 10 34 <<< 10)

/-- The entry that 64 bytes spell. -/
def ctxOf (x : Nat) : CtxEntry :=
  let wd (i : Nat) : Nat := field x (64 * i) 64
  { xroot := xrootFields (wd 0), xrdt := xrdtFields (wd 1), xpool := xpoolFields (wd 2)
    hcode := va56 (wd 3), hentry := field (wd 4) 32 32, en := bit (wd 4) 0
    savev := field (wd 5) 32 24, kseq := field (wd 5) 0 32 }

/-- The memory system after the read of entry n, and the entry. -/
def State.readCtx (s : State) (n : Nat) : State × CtxEntry :=
  ({ s with ms := (s.ms.hwRead (s.ctxAddr n) 64).1 }, ctxOf (s.ms.hwRead (s.ctxAddr n) 64).2)

/-! ### Abandonment (06 R175) -/

/-- The current block has done nothing: its writes, its held operations and its commands go. Writes of earlier
blocks stay. -/
def Core.abandon (c : Core) : Core :=
  { c with
    regs := { c.regs with pend := c.regs.pend.filter fun p => p.blk != c.ctl.blk }
    mx := { c.mx with queue := c.mx.queue.filter fun e => e.released }
    cp := { c.cp with queue := c.cp.queue.filter fun e => e.released }
    ctl := { c.ctl with
      todo := [], bundles := [], exit := none, exitNeg := false, deferred := none, loop := none, waiting := none
      final := [], store := c.ctl.store.filter (fun e => e.released), held := 0, iterate := false } }

/-! ### Taking an exception (18 R378 to R386) -/

/-- The machine checks (18 R378). -/
def machineCheck (code : Nat) : Bool :=
  code == 0x70 || code == 0x71 || code == 0x24 || code == 0x25 || code == 0x49

/-- FCAUSE (18 R380). -/
def causeWord (f : FaultInfo) (pm : Bool) : Word :=
  BitVec.ofNat 64 (f.code % 256 + 256 * b2n (machineCheck f.code) + 512 * (f.kind % 4) + 2048 * (f.lvl % 8) +
    16384 * (f.ch % 16) + 262144 * (f.slot % 8) + 2097152 * b2n pm + 4194304 * b2n f.aft)

/-- FPC (18 R380): HEAD holds the low 32 bits of a head that has more (log entry 139). -/
def fpcWord (head bidx : Nat) : Word := BitVec.ofNat 64 (head % pow2 32 + pow2 32 * (bidx % 64))

/-- The task ends as `ctl.abort` ends it (18 R386). -/
def Core.abort (c : Core) (aux : Nat) : Core :=
  { c with ctl := { c.ctl with phase := .ending (if c.trap.fcause.getLsbD 8 then 3 else 1) aux } }

/-- The keys of the loop sequencer's registers in the task bank. -/
def sequencerKeys : List Nat := upto 209 62

/-- The registers of a core as the handler finds them: its own bank, and the frozen loop sequencer as it stood. -/
def RegFile.toHandler (r : RegFile) : RegFile :=
  { r with handler := true
           base := sequencerKeys.foldl (fun b k => SMap.set 0 b (k + 4096) (SMap.get 0 b k)) r.base }

/-- Enter the handler whose code object has been read (18 R383, items 3 to 6). -/
def Core.enterHandler (c : Core) (obj : CodeObj) (entry : Nat) : Core :=
  { c with
    regs := c.regs.toHandler
    seq := {}
    code := obj
    hdr := obj
    trap := { c.trap with tl := true, sup := true, savedSeq := c.seq, savedCode := c.code, savedFrom := c.ctl.cameFrom }
    ctl := { c.ctl with phase := .head, head := entry, cameFrom := 0, negative := false } }

/-- The fault registers (18 R383, item 2). -/
def Core.setFault (c : Core) (f : FaultInfo) (head : Nat) : Core :=
  { c with trap := { c.trap with fcause := causeWord f c.trap.sup, faddr := BitVec.ofNat 64 f.addr, fpc := fpcWord head f.bidx } }

/-- Enter the handler of the running context for a fault that stands in the fault registers, or abort the task when
the context has none (18 R383). -/
def enterContextHandler (s : State) (k : Nat) (code : Nat) : State :=
  let (s, e) := s.readCtx (s.core k).ctx
  if e.hcode = 0 then s.modCore k fun c => c.abort code
  else
    let (ms, r) := readHeader s.ms { s.who k with sup := true } e.hcode
    let s := { s with ms := ms }
    match r with
    | .ok (some obj) => s.modCore k fun c => c.enterHandler { obj with ctx := c.ctx } e.hentry
    | _ => s.modCore k fun c => c.abort code

/-- A fault of the current block of core `k`: the block is abandoned and the handler entered; with TL = 1 the task is
aborted and the fault registers keep the first fault (18 R383, R384). -/
def takeFault (s : State) (k : Nat) (f : FaultInfo) : State :=
  let c := (s.core k).abandon
  if c.trap.tl then s.setCore k (c.abort (0x100 + f.code))
  else enterContextHandler (s.setCore k (c.setFault f c.ctl.head)) k f.code

/-- A software trap, taken after its block has committed (18 R388); `head` is the exit's target. The task stands at the
first bundle of the next block: BIDX is 0 (log entry 26). -/
def takeTrap (s : State) (k : Nat) (a : Word) (slot head : Nat) : State :=
  let c := s.core k
  let f : FaultInfo := { code := 0x17, addr := a.toNat, slot := slot, bidx := 0, aft := true }
  if c.trap.tl then s.setCore k (c.abort 0x117)
  else enterContextHandler (s.setCore k (c.setFault f head)) k 0x17

/-! ### The return from an exception (18 R385) -/

/-- The return. A block of an active range is fetched afresh, so the replay buffer is to be filled again (07 R202). -/
def Core.rfe (c : Core) : Core :=
  { c with
    regs := { c.regs with handler := false }
    seq := { c.trap.savedSeq with range := [] }
    code := c.trap.savedCode
    trap := { c.trap with tl := false, sup := c.trap.fcause.getLsbD 21 }
    ctl := { c.ctl with phase := .head, head := wfield c.trap.fpc 31 0, cameFrom := c.trap.savedFrom, negative := false } }

/-! ### Recorded denials and poison (01 R39, 18 R378) -/

def Notice.same (a b : Notice) : Bool := a.code == b.code && a.addr == b.addr && a.kind == b.kind && a.path == b.path

/-- A notice has been delivered: it marks nothing any more. -/
def Core.delivered (c : Core) (n : Notice) : Core :=
  { c with
    notices := c.notices.filter (fun m => !m.same n)
    regs := { c.regs with pend := c.regs.pend.map fun p =>
      if (match p.bad with | some m => m.same n | none => false) then { p with bad := none } else p } }

def Notice.fault (n : Notice) (slot bidx : Nat) : FaultInfo :=
  { code := n.code, addr := n.addr, kind := n.kind, slot := slot, bidx := bidx }

/-- Take the fault that a notice stands for. -/
def takeNotice (s : State) (k : Nat) (n : Notice) (slot bidx : Nat) : State :=
  takeFault (s.modCore k fun c => c.delivered n) k (n.fault slot bidx)

/-- Record a notice of an access that a target denied, or that met poison. -/
def Core.note (c : Core) (n : Option Notice) : Core :=
  match n with
  | some n => { c with notices := c.notices ++ [n] }
  | none => c

end Sys2Proof.Machine
end

