-- ==== Sys2Proof/Machine/Operands.lean ====
section
/-!
DEFINITION. The operand forms of a move: guards, sources, conversion, destinations, and how a slot passes a move
(06 R160, R164 to R169; 07 R189 to R192, R198).
-/

namespace Sys2Proof.Machine

/-- How a value is converted (06 R168, 07 R191). -/
inductive Kind where
  | scalar | mask | vector
deriving DecidableEq, Repr

/-- Widths of a destination (06 R168). -/
inductive DKind where
  | scalar | mask | vector | pred
deriving DecidableEq, Repr

/-- The width of a result port (07 R190, R191). -/
def rportKind (sl : Slot) (s : Bool) : Kind :=
  match sl, s with
  | .s0, _ | .s1, _ | .s2, _ => .scalar
  | .s3, false | .s4, false | .s5, false | .s6, false | .s7, false => .vector
  | .s3, true | .s4, true => .mask
  | .s5, true | .s6, true | .s7, true => .scalar

/-- The width of an operand port (07 R190). -/
def oportKind (sl : Slot) (n : Nat) : DKind :=
  match sl with
  | .s3 | .s4 => if n < 3 then .vector else .scalar
  | .s5 => if n < 2 then .vector else .scalar
  | .s7 => if n < 1 then .vector else .scalar
  | _ => .scalar

/-- A scalar in each of the 16 elements of a vector (06 R168). -/
def broadcast (x : Word) : Vec := (BitVec.replicate 16 x).setWidth 1024

/-- The conversion table of 06 R168. -/
def convert (k : Kind) (v : Vec) (d : DKind) : Vec :=
  match d with
  | .scalar => (v.setWidth 64).setWidth 1024
  | .vector =>
    match k with
    | .scalar => broadcast (v.setWidth 64)
    | .mask => (v.setWidth 128).setWidth 1024
    | .vector => v
  | .mask => if k = .scalar then (v.setWidth 64).setWidth 1024 else (v.setWidth 128).setWidth 1024
  | .pred => if v.setWidth 64 = (0 : Word) then 0 else 1

/-! ### Guards (06 R164) -/

def Core.predBit (c : Core) (n : Nat) : Bool := (c.rd (.pred n)).getLsbD 0

def Core.guard (c : Core) : Guard → Bool
  | .always => true
  | .p n => c.predBit n.toNat
  | .q n => c.seq.q.getLsbD n.toNat
  | .notP n => !c.predBit n.toNat

def Core.guardReady (c : Core) : Guard → Bool
  | .always => true
  | .p n => c.isReady (.pred n.toNat)
  | .q _ => true
  | .notP n => c.isReady (.pred n.toNat)

/-! ### Sources (06 R165, R167; 07 R198) -/

/-- The place that a source reads and its width; `none` for a value that is no place. -/
def srcLoc (sl : Slot) : Src → Option (Loc × Kind)
  | .sreg n => some (.sreg sl.fileB n.toNat, .scalar)
  | .vreg n => some (.vreg sl.fileB n.toNat, .vector)
  | .pred n => some (.pred n.toNat, .scalar)
  | .mask n => some (.mask n.toNat, .mask)
  | .result s => some (.rport sl.num s, rportKind sl s)
  | .pairedResult s => some (.rport sl.paired.num s, rportKind sl.paired s)
  | .special _ => none
  | .long _ => none
  | .short _ => none

/-- The long immediates (06 R167). -/
def longValue (ws : List (BitVec 24)) (f : LongForm) : Word :=
  let w (i : Nat) : Nat := (ws.getD i 0).toNat
  match f with
  | .w0 => sextWord 24 (w 0)
  | .w1 => sextWord 24 (w 1)
  | .w2 => sextWord 24 (w 2)
  | .w1w0 => sextWord 48 (w 0 + w 1 <<< 24)
  | .w2w1 => sextWord 48 (w 1 + w 2 <<< 24)
  | .w2w1w0 => BitVec.ofNat 64 (w 0 + w 1 <<< 24 + w 2 <<< 48)

/-- The cluster of a core (00 R2). -/
def clusterOf (k : Nat) : Nat := k / 8

/-- The capstan address register ca j (10 R264). -/
def Core.capstan (c : Core) (j : Nat) : Word :=
  (upto 0 c.seq.lv).foldl
    (fun a l => a + BitVec.ofNat 64 (c.seq.li.getD l 0) * (c.rd (.cs j l)).setWidth 64) ((c.rd (.cb j)).setWidth 64)

/-- LI l: 0 when the level is not active (07 R198). -/
def Core.iter (c : Core) (l : Nat) : Nat := if l < c.seq.lv then c.seq.li.getD l 0 else 0

def specialValue (s : State) (k : Nat) (x : Special) : Word :=
  let c := s.core k
  match x with
  | .coreNum => BitVec.ofNat 64 k
  | .devn => BitVec.ofNat 64 s.fab.devn
  | .tc d =>
    match c.task with
    | some t => BitVec.ofNat 64 (match d.toNat with | 0 => t.tc.1 | 1 => t.tc.2.1 | _ => t.tc.2.2)
    | none => 0
  | .rank => BitVec.ofNat 64 (match c.task with | some t => t.rank | none => 0)
  | .crewn => BitVec.ofNat 64 (match c.task with | some t => t.crewn | none => 0)
  | .trec => BitVec.ofNat 64 (match c.task with | some t => t.trec | none => 0)
  | .li l => BitVec.ofNat 64 (c.iter l.toNat)
  | .qall => c.seq.q.setWidth 64
  | .pall => BitVec.ofNat 64 ((upto 0 8).foldl (fun a n => a + b2n (c.predBit n) <<< n) 0)
  | .ca j => c.capstan j.toNat
  | .rcyc => BitVec.ofNat 64 s.now
  | .plvl => BitVec.ofNat 64 (SMap.get {} s.pwr.clusters (clusterOf k)).plvl

/-- The value of a source and its width (06 R165). -/
def srcValue (s : State) (k : Nat) (sl : Slot) (src : Src) : Vec × Kind :=
  let c := s.core k
  match srcLoc sl src with
  | some (l, kd) => (c.rd l, kd)
  | none =>
    match src with
    | .special x => ((specialValue s k x).setWidth 1024, .scalar)
    | .long f => ((longValue c.ctl.cur.long f).setWidth 1024, .scalar)
    | .short i => ((sextWord 9 i.toNat).setWidth 1024, .scalar)
    | _ => (0, .scalar)

/-- Whether what a source reads has landed (06 R177). -/
def Core.srcReady (c : Core) (sl : Slot) (src : Src) : Bool :=
  match srcLoc sl src with
  | some (l, _) => c.isReady l
  | none => match src with
    | .special .pall => (upto 0 8).all fun n => c.isReady (.pred n)
    | _ => true

/-- The denial or poison that a source would consume (01 R39). -/
def Core.srcBad (c : Core) (sl : Slot) (src : Src) : Option Notice :=
  match srcLoc sl src with
  | some (l, _) => c.badAt l
  | none => match src with
    | .special .pall => (upto 0 8).findSome? fun n => c.badAt (.pred n)
    | _ => none

/-! ### Triggers of slots 0 to 5 that are held (06 R173) -/

/-- The destination code of a move parcel. -/
def moveDst (p : Parcel) : Nat := wfield p 8 0

/-- The trigger opcode of a move parcel; `none` for a destination that is no trigger. -/
def moveOp (p : Parcel) : Option Nat := if 256 ≤ moveDst p then some (moveDst p - 256) else none

/-- Held triggers of slots 0 to 5 (06 R173). -/
def isHeld (m : Slot × Parcel) : Bool :=
  match m.1, moveOp m.2 with
  | .s0, some op => (decide (0x30 ≤ op) && decide (op ≤ 0x38)) || (decide (0x51 ≤ op) && decide (op ≤ 0x57)) || (decide (0x70 ≤ op) && decide (op ≤ 0x73))
  | .s2, some op => decide (0x10 ≤ op) && decide (op ≤ 0x69)
  | _, _ => false

/-- The entries of the block store buffer that are taken. -/
def Core.taken (c : Core) : Nat := (c.ctl.store.filter fun h => !h.op.isLoad).length + c.ctl.final.length + c.ctl.held

def Core.storeRoom (c : Core) : Bool := decide (c.taken < 32)

/-! ### Passing a move (06 R169, R179) -/

/-- The move at the head of the bundle's moves has been taken. -/
def Core.pop (c : Core) : Core := { c with ctl := { c.ctl with todo := c.ctl.todo.drop 1 } }

/-- A trigger whose guard is false does nothing. A held one of slots 0 to 5 takes its entry even so (06 R173), and waits while
there is none. -/
def Core.skip (c : Core) : Core :=
  if c.ctl.todo.head?.any isHeld then
    if c.storeRoom then { c.pop with ctl := { c.pop.ctl with held := c.ctl.held + 1 } } else c
  else c.pop

/-- The value with an uncorrectable error that a guard reads (18 R378). -/
def Core.guardBad (c : Core) : Guard → Option Notice
  | .p n => c.badAt (.pred n.toNat)
  | .notP n => c.badAt (.pred n.toNat)
  | _ => none

/-- What a trigger would consume and may not: a denial, poison or an uncorrectable error in its source, in an operand port
of its unit (log entry 95), or in a place that it reads besides. -/
def Core.operandBad (c : Core) (sl : Slot) (src : Src) (reads : List Loc) : Option Notice :=
  c.srcBad sl src <|> (upto 0 8).findSome? (fun n => c.regs.bad (c.key (.oport sl.num n)) (c.ctl.bcount + 1) c.ctl.blk) <|>
    reads.findSome? c.badAt

/-- The notice that a move takes, and its slot: one that a lower slot of the bundle has met comes first (18 R379). -/
def Core.metBad (c : Core) (sl : Slot) (own : Option Notice) : Option (Notice × Nat) :=
  match c.ctl.deferred with
  | some (n, d) => if d < sl.num then some (n, d) else own.map fun b => (b, sl.num)
  | none => own.map fun b => (b, sl.num)

/-- A trigger of slot `sl` on the core whose turn it is, with a port of width `dk` (11 R282, 13 R308). It waits, and nothing
changes, until its guard, its source and what it `reads` besides are there and `need` holds; with a false guard it is
skipped; a value that carries a denial, poison or an error is not consumed (18 R378); otherwise `act` performs it on the
written value, or answers that it waits. -/
def triggerOr (s : State) (sl : Slot) (dk : DKind) (g : Guard) (src : Src) (need : Core → Bool)
    (act : State → Nat → Core → Vec → Option State) (reads : Core → List Loc := fun _ => []) : Out :=
  let k := s.curCore
  let c := s.core k
  if !c.guardReady g then .next s
  else
    match c.metBad sl (c.guardBad g) with
    | some (n, d) => .next (takeNotice s k n d c.ctl.bidx)
    | none =>
      if !c.guard g then .next (s.setCore k c.skip)
      else if !(c.srcReady sl src && (reads c).all c.isReady && need c) then .next s
      else
        match c.operandBad sl src (reads c) with
        | some b => .next (takeNotice s k b sl.num c.ctl.bidx)
        | none =>
          let v := srcValue s k sl src
          .next ((act (s.setCore k c.pop) k c.pop (convert v.2 v.1 dk)).getD s)

/-- A trigger that waits for nothing but its need. -/
def trigger (s : State) (sl : Slot) (dk : DKind) (g : Guard) (src : Src) (need : Core → Bool)
    (act : State → Nat → Core → Vec → State) (reads : Core → List Loc := fun _ => []) : Out :=
  triggerOr s sl dk g src need (fun s k c v => some (act s k c v)) reads

/-- A trigger that makes an access (08 R224). -/
def accessTrigger (s : State) (sl : Slot) (dk : DKind) (g : Guard) (src : Src) (need : Core → Bool)
    (act : State → Nat → Core → Vec → State) (reads : Core → List Loc := fun _ => []) : Out :=
  triggerOr s sl dk g src need (fun s k c v => if s.xlWaits k then none else some (act s k c v)) reads

/-- A trigger that counts in `st`: it waits while no room is left there (06 R176). `access` if it is translated (08 R224). -/
def storeTrigger (access : Bool) (s : State) (sl : Slot) (dk : DKind) (g : Guard) (src : Src) (need : Core → Bool)
    (act : State → Nat → Core → Vec → State) (reads : Core → List Loc := fun _ => []) : Out :=
  triggerOr s sl dk g src need
    (fun s k c v => if (access && s.xlWaits k) || s.storeFull k then none else some (act s k c v)) reads

/-- A precise fault of the trigger that passes. -/
def moveFault (s : State) (k : Nat) (sl : Slot) (code addr : Nat) : State :=
  takeFault s k { code := code, addr := addr, slot := sl.num, bidx := (s.core k).ctl.bidx }

/-- The same for an access of a kind (18 R380). -/
def kindFault (s : State) (k : Nat) (sl : Slot) (code addr kind : Nat) : State :=
  takeFault s k { code := code, addr := addr, kind := kind, slot := sl.num, bidx := (s.core k).ctl.bidx }

/-- A fault of an access of the trigger that passes, with its kind and level. -/
def accessFaultAt (s : State) (k : Nat) (sl : Slot) (f : XFault) (kind : Nat) : State :=
  takeFault s k { code := f.code, addr := f.addr, kind := kind, lvl := f.lvl, slot := sl.num, bidx := (s.core k).ctl.bidx }

/-- An operation on registers alone. -/
def regTrigger (s : State) (sl : Slot) (dk : DKind) (g : Guard) (src : Src) (need : Core → Bool) (act : Core → Vec → Core)
    (reads : Core → List Loc := fun _ => []) : Out :=
  trigger s sl dk g src need (fun s k c v => s.setCore k (act c v)) reads

def noNeed (_ : Core) : Bool := true

/-! ### The move (06 R166, R168, R169) -/

/-- The place, the width and the delay in bundles of a destination (06 R160, R177). -/
def dstLoc (sl : Slot) : Dst → Loc × DKind × Nat
  | .sreg n => (.sreg sl.fileB n.toNat, .scalar, 1)
  | .vreg n => (.vreg sl.fileB n.toNat, .vector, 1)
  | .pred n => (.pred n.toNat, .pred, 1)
  | .mask n => (.mask n.toNat, .mask, 1)
  | .otherSreg n => (.sreg (!sl.fileB) n.toNat, .scalar, 2)
  | .otherVreg n => (.vreg (!sl.fileB) n.toNat, .vector, 2)
  | .oport n => (.oport sl.num n.toNat, oportKind sl n.toNat, 1)
  | .pairedOport n => (.oport sl.paired.num n.toNat, oportKind sl.paired n.toNat, 1)

/-- A value with a denial or poison waits for the lower slots of its bundle (18 R379). -/
def Core.deferBad (c : Core) (n : Notice) (slot : Nat) : Core :=
  match c.ctl.deferred with
  | some (_, d) => if d < slot then c else { c with ctl := { c.ctl with deferred := some (n, slot) } }
  | none => { c with ctl := { c.ctl with deferred := some (n, slot) } }

/-- MOVE (06 R169). -/
def execMove (sl : Slot) (g : Guard) (src : Src) (d : Dst) (s : State) : Out :=
  let k := s.curCore
  let c := s.core k
  if !c.guardReady g then .next s
  else
    match c.guardBad g with
    | some n => .next (s.setCore k (c.pop.deferBad n sl.num))
    | none =>
      if !c.guard g then .next (s.setCore k c.pop)
      else if !c.srcReady sl src then .next s
      else
        match c.srcBad sl src with
        | some n => .next (s.setCore k (c.pop.deferBad n sl.num))
        | none =>
          let v := srcValue s k sl src
          let (l, w, n) := dstLoc sl d
          .next (s.setCore k (c.pop.write sl l .put (convert v.2 v.1 w) n))

end Sys2Proof.Machine
end

