-- ==== Sys2Proof/Machine/Flags.lean ====
section
/-!
DEFINITION. The vector type register VT: its fields, the lane control word, and event writes (11 R278 to R282).
-/

namespace Sys2Proof.Machine

/-- Element types (11 R280): the format of an ET code, `none` for a reserved one. -/
def elemType (et : Nat) : Option Fmt :=
  match et with
  | 0x00 => some .fp32 | 0x01 => some .fp16 | 0x02 => some .bf16
  | 0x04 => some (.int 8 true) | 0x05 => some (.int 16 true) | 0x06 => some (.int 32 true) | 0x07 => some (.int 64 true)
  | 0x0C => some (.int 8 false) | 0x0D => some (.int 16 false) | 0x0E => some (.int 32 false) | 0x0F => some (.int 64 false)
  | 0x10 => some (.t8 0) | 0x11 => some (.t8 1) | 0x12 => some (.t8 2)
  | 0x14 => some (.t6 0) | 0x15 => some (.t6 1)
  | _ => none

/-- The width of an element (11 R280). -/
def elemWidth : Fmt → Nat
  | .fp32 => 32 | .fp16 => 16 | .bf16 => 16 | .a40 => 40
  | .t8 _ => 8 | .t6 _ => 8
  | .int n _ => n

/-- Whether a value for VT sets a reserved bit (11 R278). -/
def vtReserved (x : Nat) : Bool := field x 24 8 != 0 || field x 9 9 != 0 || field x 5 3 != 0

/-- VT as the current bundle reads it (11 R279). -/
def Core.vtNow (c : Core) : Word := (c.rd .vt).setWidth 64

def vtEt (vt : Word) : Nat := wfield vt 4 0
def vtRtz (vt : Word) : Bool := vt.getLsbD 8
def vtThrOf (vt : Word) : Nat := wfield vt 63 32

/-- The event write of an operation, visible with its result (11 R279). -/
def Core.events (c : Core) (sl : Slot) (cls : Nat) (e : Ev) : Core :=
  c.write sl .vt .orBits (e.bits.setWidth 1024) (c.la cls)

/-! ### The lane control word (11 R281) -/

def laneTT (lc : Word) : Nat := wfield lc 20 16
def laneIdx (lc : Word) : Nat := wfield lc 14 8
def laneMe (lc : Word) : Bool := lc.getLsbD 3
def laneKn (lc : Word) : Nat := wfield lc 2 0

/-- Whether its reserved bits are zero. -/
def laneOk (lc : Word) : Bool := decide (lc.toNat < pow2 21) && !lc.getLsbD 15 && wfield lc 7 4 == 0

/-- Bit j of the mask that the lane control word names. -/
def Core.maskBit (c : Core) (kn j : Nat) : Bool := (c.rd (.mask kn)).getLsbD j

/-- Whether lane j takes part. -/
def Core.laneOn (c : Core) (lc : Word) (j : Nat) : Bool := !laneMe lc || c.maskBit (laneKn lc) j

end Sys2Proof.Machine
end

