-- ==== Sys2Proof/Machine/Scalar.lean ====
section
/-!
DEFINITION. The integer operations of `ix1` and of the second ALU of `sfx5` (10 R256 to R260, 07 R195).
-/

namespace Sys2Proof.Machine

/-! ### Values (10 R257) -/

def aluAdd (a b : Word) : Word := a + b

/-- The carry out of an addition. -/
def carryOut (a b : Word) : Word := boolWord (decide (pow2 64 ≤ a.toNat + b.toNat))

def aluSub (a b : Word) : Word := a - b

/-- The borrow of a subtraction. -/
def borrowOut (a b : Word) : Word := boolWord (decide (a.toNat < b.toNat))

/-- An integer limited to the signed range of 64 bits. -/
def satWord (x : Int) : Word :=
  if x > maxInt 64 true then BitVec.ofInt 64 (maxInt 64 true)
  else if x < minInt 64 true then BitVec.ofInt 64 (minInt 64 true)
  else BitVec.ofInt 64 x

def aluAdds (a b : Word) : Word := satWord (a.toInt + b.toInt)
def aluSubs (a b : Word) : Word := satWord (a.toInt - b.toInt)
def aluAnd (a b : Word) : Word := a &&& b
def aluOr (a b : Word) : Word := a ||| b
def aluXor (a b : Word) : Word := a ^^^ b
def aluAndn (a b : Word) : Word := a &&& ~~~b
def aluRol (a b : Word) : Word := a.rotateLeft (b.toNat % 64)
def aluMin (a b : Word) : Word := if a.toInt ≤ b.toInt then a else b
def aluMax (a b : Word) : Word := if a.toInt ≤ b.toInt then b else a
def aluMinu (a b : Word) : Word := if a.toNat ≤ b.toNat then a else b
def aluMaxu (a b : Word) : Word := if a.toNat ≤ b.toNat then b else a
def aluClts (a b : Word) : Word := boolWord (decide (a.toInt < b.toInt))
def aluCltu (a b : Word) : Word := boolWord (decide (a.toNat < b.toNat))
def aluCeq (a b : Word) : Word := boolWord (decide (a = b))
def aluCne (a b : Word) : Word := boolWord (decide (a ≠ b))
def aluCles (a b : Word) : Word := boolWord (decide (a.toInt ≤ b.toInt))
def aluCleu (a b : Word) : Word := boolWord (decide (a.toNat ≤ b.toNat))

/-! ### Lanes and shifts (10 R258, 11 R286) -/

/-- The kinds of shift. -/
inductive ShiftKind where
  | shl | shr | sar
deriving DecidableEq, Repr

/-- One lane of `w` bits shifted by `n`. -/
def shiftLane (kd : ShiftKind) (x n w : Nat) : Nat :=
  match kd with
  | .shl => if n ≥ w then 0 else (x <<< n) % pow2 w
  | .shr => if n ≥ w then 0 else x >>> n
  | .sar => if n ≥ w then (if x.testBit (w - 1) then pow2 w - 1 else 0) else ofInt w (sint w x >>> n)

/-- `f` of each of the low lanes of `w` bits, the low lane first. -/
def mapLanes (w x : Nat) (f : Nat → Nat → Nat) : Nat → Nat
  | 0 => 0
  | i + 1 => mapLanes w x f i + (f i (field x (w * i) w)) <<< (w * i)

/-- A shift of the lanes of `w` bits of a word. -/
def shiftWord (kd : ShiftKind) (w : Nat) (a b : Word) : Word :=
  BitVec.ofNat 64 (mapLanes w a.toNat (fun _ x => shiftLane kd x b.toNat w) (64 / w))

/-- A packed addition. -/
def addLanes (w : Nat) (a b : Word) : Word :=
  BitVec.ofNat 64 (mapLanes w a.toNat (fun i x => (x + field b.toNat (w * i) w) % pow2 w) (64 / w))

/-! ### Multiply and divide (10 R259) -/

def mulLow (a b : Word) : Word := BitVec.ofInt 64 (a.toInt * b.toInt)
def mulHigh (a b : Word) : Word := BitVec.ofInt 64 ((a.toInt * b.toInt) >>> 64)
def muluLow (a b : Word) : Word := BitVec.ofNat 64 (a.toNat * b.toNat)
def muluHigh (a b : Word) : Word := BitVec.ofNat 64 ((a.toNat * b.toNat) >>> 64)

/-- The signed quotient, truncated toward zero; all ones by zero. -/
def divWord (a b : Word) : Word := if b = 0 then BitVec.allOnes 64 else BitVec.ofInt 64 (a.toInt.tdiv b.toInt)

/-- The unsigned quotient; all ones by zero. -/
def divuWord (a b : Word) : Word := if b = 0 then BitVec.allOnes 64 else BitVec.ofNat 64 (a.toNat / b.toNat)

/-- The signed remainder, with the sign of a; a by zero. -/
def remWord (a b : Word) : Word := if b = 0 then a else BitVec.ofInt 64 (a.toInt.tmod b.toInt)

/-- The unsigned remainder; a by zero. -/
def remuWord (a b : Word) : Word := if b = 0 then a else BitVec.ofNat 64 (a.toNat % b.toNat)

/-! ### Bit fields and counts (10 R260) -/

def fieldPos (b : Word) : Nat := wfield b 5 0
def fieldLen (b : Word) : Nat := min (wfield b 14 8) 64

def bitExtract (a b : Word) : Word := BitVec.ofNat 64 (field a.toNat (fieldPos b) (fieldLen b))

def bitExtractS (a b : Word) : Word :=
  if fieldLen b = 0 then 0 else sextWord (fieldLen b) (field a.toNat (fieldPos b) (fieldLen b))

/-- Bits [POS + LEN - 1 : POS] of c replaced by the low bits of a; what lies above bit 63 is not written. -/
def bitInsert (a b c : Word) : Word :=
  let m : Word := BitVec.ofNat 64 ((pow2 (fieldLen b) - 1) <<< fieldPos b)
  (c &&& ~~~m) ||| (BitVec.ofNat 64 (a.toNat <<< fieldPos b) &&& m)

/-- Zeros above the highest one among the low `n` bits. -/
def leadZeros (x : Nat) : Nat → Nat
  | 0 => 0
  | n + 1 => if x.testBit n then 0 else 1 + leadZeros x n

/-- Zeros below the lowest one, from bit `i`, `n` bits left. -/
def trailZeros (x i : Nat) : Nat → Nat
  | 0 => 0
  | n + 1 => if x.testBit i then 0 else 1 + trailZeros x (i + 1) n

def bitReverse (a : Word) : Word := a.reverse

/-- Byte i moves to byte 7 - i. -/
def byteSwap (a : Word) : Word := BitVec.ofNat 64 (mapLanes 8 0 (fun i _ => field a.toNat (8 * (7 - i)) 8) 8)

/-! ### Delivery (10 R256, 07 R192, R195) -/

def wordVec (w : Word) : Vec := w.setWidth 1024

/-- An operation of `ix1` with one result. -/
def ix1One (s : State) (g : Guard) (src : Src) (cls : Nat) (f : Word → Word → Word → Word) : Out :=
  regTrigger s .s1 .scalar g src noNeed fun c v =>
    c.result .s1 false cls (wordVec (f (v.setWidth 64) (c.portW .s1 0) (c.portW .s1 1)))

/-- An operation of `ix1` with two results. -/
def ix1Two (s : State) (g : Guard) (src : Src) (cls : Nat) (f h : Word → Word → Word) : Out :=
  regTrigger s .s1 .scalar g src noNeed fun c v =>
    (c.result .s1 false cls (wordVec (f (v.setWidth 64) (c.portW .s1 0)))).result .s1 true cls
      (wordVec (h (v.setWidth 64) (c.portW .s1 0)))

/-- An operation of the second ALU: b from `sfx5.o2`, the result to `sfx5.s`. -/
def sfx5Alu (s : State) (g : Guard) (src : Src) (f : Word → Word → Word) : Out :=
  regTrigger s .s5 .vector g src noNeed fun c v =>
    c.result .s5 true 0 (wordVec (f (v.setWidth 64) (c.portW .s5 2)))

/-! ### The instructions -/

/-- IX1_ADD (R257). -/
def execIx1Add (g : Guard) (src : Src) (s : State) : Out := ix1Two s g src 0 aluAdd carryOut

/-- IX1_SUB (R257). -/
def execIx1Sub (g : Guard) (src : Src) (s : State) : Out := ix1Two s g src 0 aluSub borrowOut

/-- IX1_ADDS (R257). -/
def execIx1Adds (g : Guard) (src : Src) (s : State) : Out := ix1One s g src 0 (fun a b _ => aluAdds a b)

/-- IX1_SUBS (R257). -/
def execIx1Subs (g : Guard) (src : Src) (s : State) : Out := ix1One s g src 0 (fun a b _ => aluSubs a b)

/-- IX1_AND (R257). -/
def execIx1And (g : Guard) (src : Src) (s : State) : Out := ix1One s g src 0 (fun a b _ => aluAnd a b)

/-- IX1_OR (R257). -/
def execIx1Or (g : Guard) (src : Src) (s : State) : Out := ix1One s g src 0 (fun a b _ => aluOr a b)

/-- IX1_XOR (R257). -/
def execIx1Xor (g : Guard) (src : Src) (s : State) : Out := ix1One s g src 0 (fun a b _ => aluXor a b)

/-- IX1_ANDN (R257). -/
def execIx1Andn (g : Guard) (src : Src) (s : State) : Out := ix1One s g src 0 (fun a b _ => aluAndn a b)

/-- IX1_SHL (R258). -/
def execIx1Shl (g : Guard) (src : Src) (s : State) : Out := ix1One s g src 0 (fun a b _ => shiftWord .shl 64 a b)

/-- IX1_SHR (R258). -/
def execIx1Shr (g : Guard) (src : Src) (s : State) : Out := ix1One s g src 0 (fun a b _ => shiftWord .shr 64 a b)

/-- IX1_SAR (R258). -/
def execIx1Sar (g : Guard) (src : Src) (s : State) : Out := ix1One s g src 0 (fun a b _ => shiftWord .sar 64 a b)

/-- IX1_ROL (R257). -/
def execIx1Rol (g : Guard) (src : Src) (s : State) : Out := ix1One s g src 0 (fun a b _ => aluRol a b)

/-- IX1_MIN (R257). -/
def execIx1Min (g : Guard) (src : Src) (s : State) : Out := ix1One s g src 0 (fun a b _ => aluMin a b)

/-- IX1_MAX (R257). -/
def execIx1Max (g : Guard) (src : Src) (s : State) : Out := ix1One s g src 0 (fun a b _ => aluMax a b)

/-- IX1_MINU (R257). -/
def execIx1Minu (g : Guard) (src : Src) (s : State) : Out := ix1One s g src 0 (fun a b _ => aluMinu a b)

/-- IX1_MAXU (R257). -/
def execIx1Maxu (g : Guard) (src : Src) (s : State) : Out := ix1One s g src 0 (fun a b _ => aluMaxu a b)

/-- IX1_CLTS (R257). -/
def execIx1Clts (g : Guard) (src : Src) (s : State) : Out := ix1One s g src 0 (fun a b _ => aluClts a b)

/-- IX1_CLTU (R257). -/
def execIx1Cltu (g : Guard) (src : Src) (s : State) : Out := ix1One s g src 0 (fun a b _ => aluCltu a b)

/-- IX1_CEQ (R257). -/
def execIx1Ceq (g : Guard) (src : Src) (s : State) : Out := ix1One s g src 0 (fun a b _ => aluCeq a b)

/-- IX1_CNE (R257). -/
def execIx1Cne (g : Guard) (src : Src) (s : State) : Out := ix1One s g src 0 (fun a b _ => aluCne a b)

/-- IX1_CLES (R257). -/
def execIx1Cles (g : Guard) (src : Src) (s : State) : Out := ix1One s g src 0 (fun a b _ => aluCles a b)

/-- IX1_CLEU (R257). -/
def execIx1Cleu (g : Guard) (src : Src) (s : State) : Out := ix1One s g src 0 (fun a b _ => aluCleu a b)

/-- IX1_SHL_8 (R258). -/
def execIx1Shl8 (g : Guard) (src : Src) (s : State) : Out := ix1One s g src 0 (fun a b _ => shiftWord .shl 8 a b)

/-- IX1_SHL_16 (R258). -/
def execIx1Shl16 (g : Guard) (src : Src) (s : State) : Out := ix1One s g src 0 (fun a b _ => shiftWord .shl 16 a b)

/-- IX1_SHL_32 (R258). -/
def execIx1Shl32 (g : Guard) (src : Src) (s : State) : Out := ix1One s g src 0 (fun a b _ => shiftWord .shl 32 a b)

/-- IX1_SHR_8 (R258). -/
def execIx1Shr8 (g : Guard) (src : Src) (s : State) : Out := ix1One s g src 0 (fun a b _ => shiftWord .shr 8 a b)

/-- IX1_SHR_16 (R258). -/
def execIx1Shr16 (g : Guard) (src : Src) (s : State) : Out := ix1One s g src 0 (fun a b _ => shiftWord .shr 16 a b)

/-- IX1_SHR_32 (R258). -/
def execIx1Shr32 (g : Guard) (src : Src) (s : State) : Out := ix1One s g src 0 (fun a b _ => shiftWord .shr 32 a b)

/-- IX1_SAR_8 (R258). -/
def execIx1Sar8 (g : Guard) (src : Src) (s : State) : Out := ix1One s g src 0 (fun a b _ => shiftWord .sar 8 a b)

/-- IX1_SAR_16 (R258). -/
def execIx1Sar16 (g : Guard) (src : Src) (s : State) : Out := ix1One s g src 0 (fun a b _ => shiftWord .sar 16 a b)

/-- IX1_SAR_32 (R258). -/
def execIx1Sar32 (g : Guard) (src : Src) (s : State) : Out := ix1One s g src 0 (fun a b _ => shiftWord .sar 32 a b)

/-- IX1_ADD_8 (R257). -/
def execIx1Add8 (g : Guard) (src : Src) (s : State) : Out := ix1One s g src 0 (fun a b _ => addLanes 8 a b)

/-- IX1_ADD_16 (R257). -/
def execIx1Add16 (g : Guard) (src : Src) (s : State) : Out := ix1One s g src 0 (fun a b _ => addLanes 16 a b)

/-- IX1_ADD_32 (R257). -/
def execIx1Add32 (g : Guard) (src : Src) (s : State) : Out := ix1One s g src 0 (fun a b _ => addLanes 32 a b)

/-- IX1_MUL (R259). -/
def execIx1Mul (g : Guard) (src : Src) (s : State) : Out := ix1Two s g src 1 mulLow mulHigh

/-- IX1_MULU (R259). -/
def execIx1Mulu (g : Guard) (src : Src) (s : State) : Out := ix1Two s g src 1 muluLow muluHigh

/-- IX1_DIV (R259). -/
def execIx1Div (g : Guard) (src : Src) (s : State) : Out := ix1One s g src 2 (fun a b _ => divWord a b)

/-- IX1_DIVU (R259). -/
def execIx1Divu (g : Guard) (src : Src) (s : State) : Out := ix1One s g src 2 (fun a b _ => divuWord a b)

/-- IX1_REM (R259). -/
def execIx1Rem (g : Guard) (src : Src) (s : State) : Out := ix1One s g src 2 (fun a b _ => remWord a b)

/-- IX1_REMU (R259). -/
def execIx1Remu (g : Guard) (src : Src) (s : State) : Out := ix1One s g src 2 (fun a b _ => remuWord a b)

/-- IX1_BEXT (R260). -/
def execIx1Bext (g : Guard) (src : Src) (s : State) : Out := ix1One s g src 0 (fun a b _ => bitExtract a b)

/-- IX1_BEXTS (R260). -/
def execIx1Bexts (g : Guard) (src : Src) (s : State) : Out := ix1One s g src 0 (fun a b _ => bitExtractS a b)

/-- IX1_BINS (R260). -/
def execIx1Bins (g : Guard) (src : Src) (s : State) : Out := ix1One s g src 0 (fun a b c => bitInsert a b c)

/-- IX1_CLZ (R260). -/
def execIx1Clz (g : Guard) (src : Src) (s : State) : Out := ix1One s g src 0 (fun a _ _ => BitVec.ofNat 64 (leadZeros a.toNat 64))

/-- IX1_CTZ (R260). -/
def execIx1Ctz (g : Guard) (src : Src) (s : State) : Out := ix1One s g src 0 (fun a _ _ => BitVec.ofNat 64 (trailZeros a.toNat 0 64))

/-- IX1_POPC (R260). -/
def execIx1Popc (g : Guard) (src : Src) (s : State) : Out := ix1One s g src 0 (fun a _ _ => BitVec.ofNat 64 (popcount a.toNat 64))

/-- IX1_BREV (R260). -/
def execIx1Brev (g : Guard) (src : Src) (s : State) : Out := ix1One s g src 0 (fun a _ _ => bitReverse a)

/-- IX1_BSWAP (R260). -/
def execIx1Bswap (g : Guard) (src : Src) (s : State) : Out := ix1One s g src 0 (fun a _ _ => byteSwap a)

/-- SFX5_ADD (R195). -/
def execSfx5Add (g : Guard) (src : Src) (s : State) : Out := sfx5Alu s g src (aluAdd)

/-- SFX5_SUB (R195). -/
def execSfx5Sub (g : Guard) (src : Src) (s : State) : Out := sfx5Alu s g src (aluSub)

/-- SFX5_ADDS (R195). -/
def execSfx5Adds (g : Guard) (src : Src) (s : State) : Out := sfx5Alu s g src (aluAdds)

/-- SFX5_SUBS (R195). -/
def execSfx5Subs (g : Guard) (src : Src) (s : State) : Out := sfx5Alu s g src (aluSubs)

/-- SFX5_AND (R195). -/
def execSfx5And (g : Guard) (src : Src) (s : State) : Out := sfx5Alu s g src (aluAnd)

/-- SFX5_OR (R195). -/
def execSfx5Or (g : Guard) (src : Src) (s : State) : Out := sfx5Alu s g src (aluOr)

/-- SFX5_XOR (R195). -/
def execSfx5Xor (g : Guard) (src : Src) (s : State) : Out := sfx5Alu s g src (aluXor)

/-- SFX5_ANDN (R195). -/
def execSfx5Andn (g : Guard) (src : Src) (s : State) : Out := sfx5Alu s g src (aluAndn)

/-- SFX5_SHL (R195). -/
def execSfx5Shl (g : Guard) (src : Src) (s : State) : Out := sfx5Alu s g src (shiftWord .shl 64)

/-- SFX5_SHR (R195). -/
def execSfx5Shr (g : Guard) (src : Src) (s : State) : Out := sfx5Alu s g src (shiftWord .shr 64)

/-- SFX5_SAR (R195). -/
def execSfx5Sar (g : Guard) (src : Src) (s : State) : Out := sfx5Alu s g src (shiftWord .sar 64)

/-- SFX5_ROL (R195). -/
def execSfx5Rol (g : Guard) (src : Src) (s : State) : Out := sfx5Alu s g src (aluRol)

/-- SFX5_MIN (R195). -/
def execSfx5Min (g : Guard) (src : Src) (s : State) : Out := sfx5Alu s g src (aluMin)

/-- SFX5_MAX (R195). -/
def execSfx5Max (g : Guard) (src : Src) (s : State) : Out := sfx5Alu s g src (aluMax)

/-- SFX5_MINU (R195). -/
def execSfx5Minu (g : Guard) (src : Src) (s : State) : Out := sfx5Alu s g src (aluMinu)

/-- SFX5_MAXU (R195). -/
def execSfx5Maxu (g : Guard) (src : Src) (s : State) : Out := sfx5Alu s g src (aluMaxu)

/-- SFX5_CLTS (R195). -/
def execSfx5Clts (g : Guard) (src : Src) (s : State) : Out := sfx5Alu s g src (aluClts)

/-- SFX5_CLTU (R195). -/
def execSfx5Cltu (g : Guard) (src : Src) (s : State) : Out := sfx5Alu s g src (aluCltu)

/-- SFX5_CEQ (R195). -/
def execSfx5Ceq (g : Guard) (src : Src) (s : State) : Out := sfx5Alu s g src (aluCeq)

/-- SFX5_CNE (R195). -/
def execSfx5Cne (g : Guard) (src : Src) (s : State) : Out := sfx5Alu s g src (aluCne)

/-- SFX5_CLES (R195). -/
def execSfx5Cles (g : Guard) (src : Src) (s : State) : Out := sfx5Alu s g src (aluCles)

/-- SFX5_CLEU (R195). -/
def execSfx5Cleu (g : Guard) (src : Src) (s : State) : Out := sfx5Alu s g src (aluCleu)

/-- SFX5_SHL_8 (R195). -/
def execSfx5Shl8 (g : Guard) (src : Src) (s : State) : Out := sfx5Alu s g src (shiftWord .shl 8)

/-- SFX5_SHL_16 (R195). -/
def execSfx5Shl16 (g : Guard) (src : Src) (s : State) : Out := sfx5Alu s g src (shiftWord .shl 16)

/-- SFX5_SHL_32 (R195). -/
def execSfx5Shl32 (g : Guard) (src : Src) (s : State) : Out := sfx5Alu s g src (shiftWord .shl 32)

/-- SFX5_SHR_8 (R195). -/
def execSfx5Shr8 (g : Guard) (src : Src) (s : State) : Out := sfx5Alu s g src (shiftWord .shr 8)

/-- SFX5_SHR_16 (R195). -/
def execSfx5Shr16 (g : Guard) (src : Src) (s : State) : Out := sfx5Alu s g src (shiftWord .shr 16)

/-- SFX5_SHR_32 (R195). -/
def execSfx5Shr32 (g : Guard) (src : Src) (s : State) : Out := sfx5Alu s g src (shiftWord .shr 32)

/-- SFX5_SAR_8 (R195). -/
def execSfx5Sar8 (g : Guard) (src : Src) (s : State) : Out := sfx5Alu s g src (shiftWord .sar 8)

/-- SFX5_SAR_16 (R195). -/
def execSfx5Sar16 (g : Guard) (src : Src) (s : State) : Out := sfx5Alu s g src (shiftWord .sar 16)

/-- SFX5_SAR_32 (R195). -/
def execSfx5Sar32 (g : Guard) (src : Src) (s : State) : Out := sfx5Alu s g src (shiftWord .sar 32)

/-- SFX5_ADD_8 (R195). -/
def execSfx5Add8 (g : Guard) (src : Src) (s : State) : Out := sfx5Alu s g src (addLanes 8)

/-- SFX5_ADD_16 (R195). -/
def execSfx5Add16 (g : Guard) (src : Src) (s : State) : Out := sfx5Alu s g src (addLanes 16)

/-- SFX5_ADD_32 (R195). -/
def execSfx5Add32 (g : Guard) (src : Src) (s : State) : Out := sfx5Alu s g src (addLanes 32)

end Sys2Proof.Machine
end

