-- ==== Sys2Proof/Machine/Sfu.lean ====
section
/-!
DEFINITION. The special functions of `sfx5` (11 R292, R293).

A function that R292 makes correctly rounded is computed in fixed point with 448 fraction bits and rounded once.
That is the nearest binary32 value unless the exact result lies within 2^-400 of a tie (log entry 18).
-/

namespace Sys2Proof.Machine

/-- Fraction bits of the fixed-point numbers of this file. -/
def fxBits : Nat := 448

def fxOne : Int := (pow2 fxBits : Int)

def fxMul (a b : Int) : Int := a * b / fxOne

/-- A binary32 magnitude m * 2^e in fixed point; exact, since e is at least -149. -/
def toFx (s : Bool) (m : Nat) (e : Int) : Int :=
  let x : Int := scale m (e + fxBits)
  if s then -x else x

/-- A fixed-point number as an exact value. -/
def ofFx (x : Int) : Exact := .fin (decide (x < 0)) x.natAbs (-(fxBits : Int))

/-- Sum of x^(k+1) / (k+1)! ..., term by term: `n` terms after term `t` of index `k`. -/
def expTerms (x : Int) : Nat → Nat → Int → Int
  | 0, _, t => t
  | n + 1, k, t => t + expTerms x n (k + 1) (fxMul t x / (k + 1 : Nat))

/-- e^x for |x| at most 1. -/
def fxExp (x : Int) : Int := expTerms x 100 0 fxOne

/-- Sum of t / (2k+1) with t multiplied by x^2 each time. -/
def atanhTerms (x2 : Int) : Nat → Nat → Int → Int
  | 0, _, _ => 0
  | n + 1, k, t => t / (2 * k + 1 : Nat) + atanhTerms x2 n (k + 1) (fxMul t x2)

/-- The natural logarithm of 2: 2 * atanh (1/3). -/
def fxLn2 : Int := 2 * atanhTerms (fxOne / 9) 150 0 (fxOne / 3)

/-- Alternating sum of t / (2k+1): the arctangent. -/
def atanTerms (x2 : Int) : Nat → Nat → Int → Int
  | 0, _, _ => 0
  | n + 1, k, t => t / (2 * k + 1 : Nat) - atanTerms x2 n (k + 1) (fxMul t x2)

/-- Pi: 16 * atan (1/5) - 4 * atan (1/239). -/
def fxPi : Int :=
  16 * atanTerms (fxOne / 25) 110 0 (fxOne / 5) - 4 * atanTerms (fxOne / 57121) 40 0 (fxOne / 239)

/-- Alternating sum with factorials, from index `k` in steps of two: sine from 1, cosine from 0. -/
def sinTerms (x2 : Int) : Nat → Nat → Int → Int
  | 0, _, t => t
  | n + 1, k, t => t - sinTerms x2 n (k + 2) (fxMul t x2 / ((k + 1) * (k + 2) : Nat))

/-- sin x for |x| at most 2. -/
def fxSin (x : Int) : Int := sinTerms (fxMul x x) 60 1 x

/-- cos x for |x| at most 2. -/
def fxCos (x : Int) : Int := sinTerms (fxMul x x) 60 0 fxOne

/-- 2^x of a fixed-point number, as an exact value. -/
def fxExp2 (x : Int) : Exact :=
  let k := x / fxOne
  let f := x % fxOne
  (ofFx (fxExp (fxMul f fxLn2))).shift k

/-- The natural logarithm of y in [1, 2): 2 * atanh ((y - 1) / (y + 1)). -/
def fxLog (y : Int) : Int :=
  let z := (y - fxOne) * fxOne / (y + fxOne)
  2 * atanhTerms (fxMul z z) 150 0 z

/-- log2 (m * 2^e), m not 0. -/
def fxLog2 (m : Nat) (e : Int) : Int :=
  let l := log2 m
  let y : Int := scale m ((fxBits : Int) - l)
  ((l : Int) + e) * fxOne + fxLog y * fxOne / fxLn2

/-- Round a result of a special function: to nearest even, OF when it leaves the range, no other event (11 R292). -/
def roundSf (x : Exact) : Nat × Ev :=
  let (c, ev) := roundFp32 x false
  (c, { ov := ev.ov })

def canonNan : Nat × Ev := (Fmt.fp32.nanCode, {})

def nvNan : Nat × Ev := (Fmt.fp32.nanCode, { nv := true })

def infCode (s : Bool) : Nat := if s then 0xFF800000 else 0x7F800000

def zeroCode (s : Bool) : Nat := if s then 0x80000000 else 0

def sfRcp (a : Nat) : Nat × Ev :=
  match fp32 a with
  | .nan => canonNan
  | .inf s => (zeroCode s, {})
  | .fin s m e =>
    if m = 0 then (infCode s, { dz := true })
    else
      let q := pow2 80 / m
      roundSf (.fin s (sticky q (pow2 80 % m != 0)) (-e - 81))

def sfRsqrt (a : Nat) : Nat × Ev :=
  match fp32 a with
  | .nan => canonNan
  | .inf s => if s then nvNan else (0, {})
  | .fin s m e =>
    if m = 0 then (infCode s, { dz := true })
    else if s then nvNan
    else
      let m' := if e % 2 = 0 then m else 2 * m
      let e' := if e % 2 = 0 then e else e - 1
      let r := isqrt (pow2 160 / m')
      roundSf (.fin false (sticky r (r * r * m' != pow2 160)) (-(e' / 2) - 81))

def sfExp2 (a : Nat) : Nat × Ev :=
  match fp32 a with
  | .nan => canonNan
  | .inf s => if s then (0, {}) else (infCode false, {})
  | .fin s m e =>
    if m = 0 then (0x3F800000, {})
    else if !s && !magLt m e 1 7 then (infCode false, { ov := true })
    else if s && !magLt m e 1 9 then (0, {})
    else roundSf (fxExp2 (toFx s m e))

def sfLog2 (a : Nat) : Nat × Ev :=
  match fp32 a with
  | .nan => canonNan
  | .inf s => if s then nvNan else (infCode false, {})
  | .fin s m e =>
    if m = 0 then (infCode true, { dz := true })
    else if s then nvNan
    else if m = pow2 (log2 m) then
      let k := lead m e
      roundSf (.fin (decide (k < 0)) k.natAbs 0)
    else roundSf (ofFx (fxLog2 m e))

/-- e^-|x| as a fixed-point number, for |x| < 2^8. -/
def fxExpNeg (x : Int) : Int :=
  let y := -(x.natAbs : Int) * fxOne / fxLn2
  let k := y / fxOne
  let f := y % fxOne
  let v := fxExp (fxMul f fxLn2)
  match k with
  | .ofNat n => v <<< n
  | .negSucc n => v >>> (n + 1)

def sfTanh (a : Nat) : Nat × Ev :=
  match fp32 a with
  | .nan => canonNan
  | .inf s => (if s then 0xBF800000 else 0x3F800000, {})
  | .fin s m e =>
    if m = 0 then (zeroCode s, {})
    else if !magLt m e 1 6 then (if s then 0xBF800000 else 0x3F800000, {})
    else if magLt m e 1 (-40) then (zeroCode s + a % 0x80000000, {})
    else
      let q := fxExpNeg (toFx false m (e + 1))
      let t := (fxOne - q) * fxOne / (fxOne + q)
      roundSf (ofFx (if s then -t else t))

def sfSigm (a : Nat) : Nat × Ev :=
  match fp32 a with
  | .nan => canonNan
  | .inf s => (if s then 0 else 0x3F800000, {})
  | .fin s m e =>
    if m = 0 then (0x3F000000, {})
    else if !magLt m e 1 8 then (if s then 0 else 0x3F800000, {})
    else
      let q := fxExpNeg (toFx false m e)
      let t := if s then q * fxOne / (fxOne + q) else fxOne * fxOne / (fxOne + q)
      roundSf (ofFx t)

/-- sin (pi x) of fixed-point x in [0, 2). -/
def fxSinPi (x : Int) : Int :=
  let h := fxOne / 2
  if x ≤ h then fxSin (fxMul x fxPi)
  else if x < fxOne then fxSin (fxMul (fxOne - x) fxPi)
  else if x ≤ fxOne + h then -fxSin (fxMul (x - fxOne) fxPi)
  else -fxSin (fxMul (2 * fxOne - x) fxPi)

/-- cos (pi x) of fixed-point x in [0, 2). -/
def fxCosPi (x : Int) : Int :=
  let h := fxOne / 2
  let q := fxOne / 4
  let c (y : Int) : Int := if y ≤ q then fxCos (fxMul y fxPi) else fxSin (fxMul (h - y) fxPi)
  if x ≤ h then c x
  else if x ≤ fxOne then -c (fxOne - x)
  else if x ≤ fxOne + h then -c (x - fxOne)
  else c (2 * fxOne - x)

def sfSinpi (a : Nat) : Nat × Ev :=
  match fp32 a with
  | .nan => canonNan
  | .inf _ => nvNan
  | .fin s m e =>
    let x := toFx false m e
    if x % fxOne = 0 then (zeroCode s, {})
    else
      let v := fxSinPi (x % (2 * fxOne))
      roundSf (ofFx (if s then -v else v))

def sfCospi (a : Nat) : Nat × Ev :=
  match fp32 a with
  | .nan => canonNan
  | .inf _ => nvNan
  | .fin _ m e =>
    let x := toFx false m e
    if x % fxOne = fxOne / 2 then (0, {})
    else if x % (2 * fxOne) = 0 then (0x3F800000, {})
    else if x % fxOne = 0 then (0xBF800000, {})
    else roundSf (ofFx (fxCosPi (x % (2 * fxOne))))

end Sys2Proof.Machine
end

