-- ==== Sys2Proof/Machine/Vector.lean ====
section
/-!
DEFINITION. The vector functions of `vex3` and `vex4`, the type-register and mask functions, and the special functions
of `sfx5` (11 R278 to R293).
-/

namespace Sys2Proof.Machine

/-- What one lane of a function gives: its bits in `r`, its bit in `s`, and its events. -/
structure Lane where
  r : Nat
  t : Bool := false
  ev : Ev := {}
deriving DecidableEq, Repr

/-- What the lanes of a function read: the element type, its width, the number of lanes, VT, the lane control word, and
the three operands (11 R281, R282). -/
structure LaneIn where
  fmt : Fmt
  ew : Nat
  n : Nat
  vt : Word
  lc : Word
  a : Nat
  b : Nat
  c : Nat
deriving DecidableEq, Repr

def LaneIn.la (x : LaneIn) (j : Nat) : Nat := field x.a (x.ew * j) x.ew
def LaneIn.lb (x : LaneIn) (j : Nat) : Nat := field x.b (x.ew * j) x.ew
def LaneIn.lcv (x : LaneIn) (j : Nat) : Nat := field x.c (x.ew * j) x.ew
def LaneIn.rtz (x : LaneIn) : Bool := vtRtz x.vt

/-- The lanes 0 to n - 1 together; a masked-off lane gives 0 and no event (11 R281). -/
def lanes (w : Nat) (on : Nat → Bool) (f : Nat → Lane) : Nat → Lane
  | 0 => { r := 0 }
  | j + 1 =>
    let p := lanes w on f j
    if on j then
      let x := f j
      { r := p.r + x.r <<< (w * j), t := false, ev := p.ev.or x.ev }
    else p

/-- The bits of `s`: bit j of each lane. -/
def laneBits (on : Nat → Bool) (f : Nat → Lane) : Nat → Nat
  | 0 => 0
  | j + 1 => laneBits on f j + b2n (on j && (f j).t) <<< j

/-- The types that a function accepts (11 R283). -/
inductive Accepts where
  | intFp | int | fp | any
deriving DecidableEq, Repr

def Accepts.ok (x : Accepts) (f : Fmt) : Bool :=
  match x, f with
  | .any, _ => true
  | .intFp, .fp32 => true
  | .intFp, .int _ _ => true
  | .int, .int _ _ => true
  | .fp, .fp32 => true
  | _, _ => false

/-! ### Lane functions (11 R284 to R289) -/

def modW (f : Fmt) (x : Int) : Nat := ofInt (elemWidth f) x

/-- The number that an integer lane stands for. -/
def laneInt (f : Fmt) (x : Nat) : Int :=
  match f with
  | .int n true => sint n x
  | _ => (x : Int)

def pair (x : Nat × Ev) : Lane := { r := x.1, ev := x.2 }

def laneAdd (x : LaneIn) (j : Nat) : Lane :=
  match x.fmt with
  | .fp32 => pair (fadd x.rtz (x.la j) (x.lb j))
  | f => { r := modW f ((x.la j : Int) + x.lb j) }

def laneSub (x : LaneIn) (j : Nat) : Lane :=
  match x.fmt with
  | .fp32 => pair (fsub x.rtz (x.la j) (x.lb j))
  | f => { r := modW f ((x.la j : Int) - x.lb j) }

/-- A saturated integer result (11 R284). -/
def satLane (f : Fmt) (y : Int) : Lane :=
  match f with
  | .int n sg =>
    if y > maxInt n sg then { r := ofInt n (maxInt n sg), ev := { sat := true } }
    else if y < minInt n sg then { r := ofInt n (minInt n sg), ev := { sat := true } }
    else { r := ofInt n y }
  | _ => { r := 0 }

def laneAdds (x : LaneIn) (j : Nat) : Lane := satLane x.fmt (laneInt x.fmt (x.la j) + laneInt x.fmt (x.lb j))

def laneSubs (x : LaneIn) (j : Nat) : Lane := satLane x.fmt (laneInt x.fmt (x.la j) - laneInt x.fmt (x.lb j))

/-- Whether FP32 code a stands before b in the order of `min` and `max`: as numbers, -0 below +0. -/
def fpBefore (a b : Nat) : Bool :=
  (fp32 a).lt (fp32 b) || ((fp32 a).numEq (fp32 b) && a.testBit 31 && !b.testBit 31)

def minCode (f : Fmt) (a b : Nat) : Nat :=
  match f with
  | .fp32 => if (fp32 a).isNan || (fp32 b).isNan then Fmt.fp32.nanCode else if fpBefore b a then b else a
  | f => if laneInt f a ≤ laneInt f b then a else b

def maxCode (f : Fmt) (a b : Nat) : Nat :=
  match f with
  | .fp32 => if (fp32 a).isNan || (fp32 b).isNan then Fmt.fp32.nanCode else if fpBefore a b then b else a
  | f => if laneInt f a ≤ laneInt f b then b else a

def laneMin (x : LaneIn) (j : Nat) : Lane := { r := minCode x.fmt (x.la j) (x.lb j) }

def laneMax (x : LaneIn) (j : Nat) : Lane := { r := maxCode x.fmt (x.la j) (x.lb j) }

def laneAbs (x : LaneIn) (j : Nat) : Lane :=
  match x.fmt with
  | .fp32 => { r := fabs (x.la j) }
  | f => { r := modW f (laneInt f (x.la j)).natAbs }

def laneNeg (x : LaneIn) (j : Nat) : Lane :=
  match x.fmt with
  | .fp32 => { r := fneg (x.la j) }
  | f => { r := modW f (-(x.la j : Int)) }

def laneAnd (x : LaneIn) (j : Nat) : Lane := { r := x.la j &&& x.lb j }
def laneOr (x : LaneIn) (j : Nat) : Lane := { r := x.la j ||| x.lb j }
def laneXor (x : LaneIn) (j : Nat) : Lane := { r := x.la j ^^^ x.lb j }
def laneAndn (x : LaneIn) (j : Nat) : Lane := { r := x.la j &&& (x.lb j ^^^ (pow2 x.ew - 1)) }

def laneShift (kd : ShiftKind) (x : LaneIn) (j : Nat) : Lane := { r := shiftLane kd (x.la j) (x.lb j) x.ew }

def laneMul (x : LaneIn) (j : Nat) : Lane :=
  match x.fmt with
  | .fp32 => pair (fmul x.rtz (x.la j) (x.lb j))
  | f => { r := modW f ((x.la j : Int) * x.lb j) }

def laneFma (x : LaneIn) (j : Nat) : Lane :=
  match x.fmt with
  | .fp32 => pair (ffma x.rtz (x.la j) (x.lb j) (x.lcv j) false false)
  | f => { r := modW f ((x.la j : Int) * x.lb j + x.lcv j) }

def laneFms (x : LaneIn) (j : Nat) : Lane :=
  match x.fmt with
  | .fp32 => pair (ffma x.rtz (x.la j) (x.lb j) (x.lcv j) false true)
  | f => { r := modW f ((x.la j : Int) * x.lb j - x.lcv j) }

def laneFnma (x : LaneIn) (j : Nat) : Lane :=
  match x.fmt with
  | .fp32 => pair (ffma x.rtz (x.la j) (x.lb j) (x.lcv j) true false)
  | f => { r := modW f (-((x.la j : Int) * x.lb j) + x.lcv j) }

/-- All ones or zero, and the bit of `s` (11 R283). -/
def truth (x : LaneIn) (b : Bool) : Lane := { r := if b then pow2 x.ew - 1 else 0, t := b }

def eqCode (f : Fmt) (a b : Nat) : Bool :=
  match f with
  | .fp32 => (fp32 a).numEq (fp32 b)
  | _ => a == b

def ltCode (f : Fmt) (a b : Nat) : Bool :=
  match f with
  | .fp32 => (fp32 a).lt (fp32 b)
  | f => decide (laneInt f a < laneInt f b)

def laneCeq (x : LaneIn) (j : Nat) : Lane := truth x (eqCode x.fmt (x.la j) (x.lb j))
def laneCne (x : LaneIn) (j : Nat) : Lane := truth x (!eqCode x.fmt (x.la j) (x.lb j))
def laneClt (x : LaneIn) (j : Nat) : Lane := truth x (ltCode x.fmt (x.la j) (x.lb j))
def laneCle (x : LaneIn) (j : Nat) : Lane := truth x (ltCode x.fmt (x.la j) (x.lb j) || eqCode x.fmt (x.la j) (x.lb j))

/-- |a| > THR (11 R287). -/
def laneCdet (x : LaneIn) (j : Nat) : Lane := truth x ((fp32 (vtThrOf x.vt)).lt (fp32 (x.la j % pow2 31)))

def lanePerm (x : LaneIn) (j : Nat) : Lane := { r := if x.lb j < x.n then x.la (x.lb j) else 0 }

def laneBcast (x : LaneIn) (_ : Nat) : Lane := { r := if laneIdx x.lc < x.n then x.la (laneIdx x.lc) else 0 }

def laneSlide (x : LaneIn) (j : Nat) : Lane :=
  let i := j + laneIdx x.lc
  { r := if i < x.n then x.la i else if i < 2 * x.n then x.lb (i - x.n) else 0 }

/-! ### Performing a vector function (11 R282) -/

/-- What the lanes read, for a unit whose lane control word stands in port `p`. -/
def laneIn (c : Core) (sl : Slot) (lc : Word) (w : Width) (f : Fmt) (v : Vec) : LaneIn :=
  { fmt := f, ew := elemWidth f, n := w.bits / elemWidth f, vt := c.vtNow, lc := lc, a := v.toNat % pow2 w.bits
    b := (c.port sl 0).toNat % pow2 w.bits, c := (c.port sl 1).toNat % pow2 w.bits }

/-- The checks of 11 R282: the operand value that faults, or the element type. -/
def vecCheck (c : Core) (lc : Word) (acc : Accepts) : Except Word Fmt :=
  if !laneOk lc then .error lc
  else match elemType (vtEt c.vtNow) with
    | none => .error c.vtNow
    | some f => if acc.ok f then .ok f else .error c.vtNow

/-- What a lane function with its lane control word in port `p` of slot `sl` reads besides its operands: VT, and the mask
register that the word names where it masks, or `always` (11 R281, R288). -/
def laneReads (sl : Slot) (p : Nat) (always : Bool) (c : Core) : List Loc :=
  let lc := c.portW sl p
  if always || laneMe lc then [.vt, .mask (laneKn lc)] else [.vt]

/-- The results of lane functions go to `r`, to `s` when the function gives bits there, and to VT. -/
def deliverLanes (c : Core) (sl : Slot) (cls : Nat) (x : LaneIn) (bits : Bool) (on : Nat → Bool) (f : Nat → Lane) : Core :=
  let y := lanes x.ew on f x.n
  let c1 := c.result sl false cls (BitVec.ofNat 1024 y.r)
  let c2 := if bits then c1.result sl true cls (BitVec.ofNat 1024 (laneBits on f x.n)) else c1
  c2.events sl cls y.ev

/-- A function of `vex3` or `vex4` that works lane by lane. -/
def vexFn (s : State) (u : VexUnit) (w : Width) (g : Guard) (src : Src) (cls : Nat) (acc : Accepts) (bits : Bool)
    (f : LaneIn → Nat → Lane) : Out :=
  trigger (reads := laneReads u.slot 3 false) s u.slot .vector g src noNeed fun s k c v =>
    let lc := c.portW u.slot 3
    match vecCheck c lc acc with
    | .error e => moveFault s k u.slot 0x04 e.toNat
    | .ok fm =>
      let x := laneIn c u.slot lc w fm v
      s.setCore k (deliverLanes c u.slot cls x bits (c.laneOn lc) (f x))

/-- `sel`: the mask chooses, and masks nothing off (11 R288). -/
def vexSelect (s : State) (u : VexUnit) (w : Width) (g : Guard) (src : Src) : Out :=
  trigger (reads := laneReads u.slot 3 true) s u.slot .vector g src noNeed fun s k c v =>
    let lc := c.portW u.slot 3
    match vecCheck c lc .any with
    | .error e => moveFault s k u.slot 0x04 e.toNat
    | .ok fm =>
      let x := laneIn c u.slot lc w fm v
      s.setCore k (deliverLanes c u.slot 3 x false (fun _ => true)
        fun j => { r := if c.maskBit (laneKn lc) j then x.la j else x.lb j })

/-- Whether `cvt` rounds to a target with VT.RM (11 R289). -/
def cvtUsesRm : Fmt → Bool
  | .fp32 | .int 32 _ | .int 64 _ => true
  | _ => false

/-- The bits of a code in an element: a T6 code is the low six of its byte (11 R280). -/
def elemCode (f : Fmt) (x : Nat) : Nat :=
  match f with
  | .t6 _ => x % 64
  | _ => x

/-- One lane of `cvt` (11 R289); with one format on both sides the lane is copied, the high bits of a T6 byte and reserved codes
too (log entry 140). -/
def cvtLane (src dst : Fmt) (rtz : Bool) (x : Nat) : Lane :=
  if src = dst then { r := x }
  else pair (roundTo (decodeNum src (elemCode src x)) dst (rtz && cvtUsesRm dst) (widening src dst))

def vexConvert (s : State) (u : VexUnit) (w : Width) (g : Guard) (src : Src) : Out :=
  trigger (reads := laneReads u.slot 3 false) s u.slot .vector g src noNeed fun s k c v =>
    let lc := c.portW u.slot 3
    match vecCheck c lc .any with
    | .error e => moveFault s k u.slot 0x04 e.toNat
    | .ok fm =>
      match elemType (laneTT lc) with
      | none => moveFault s k u.slot 0x04 lc.toNat
      | some tt =>
        let n := w.bits / max (elemWidth fm) (elemWidth tt)
        let x : LaneIn := { laneIn c u.slot lc w fm v with ew := elemWidth tt, n := n }
        let sw := elemWidth fm
        s.setCore k (deliverLanes c u.slot 5 x false (c.laneOn lc) fun j => cvtLane fm tt x.rtz (field x.a (sw * j) sw))

/-! ### Reductions (11 R290) -/

/-- One level of the tree. -/
def reduceLevel (f : Nat → Nat → Nat × Ev) : List Nat → List Nat × Ev
  | a :: b :: xs =>
    let (r, e) := f a b
    let (rs, es) := reduceLevel f xs
    (r :: rs, e.or es)
  | xs => (xs, {})

/-- Levels until one element is left. -/
def reduceTree (f : Nat → Nat → Nat × Ev) : Nat → List Nat → Nat × Ev
  | 0, xs => (xs.getD 0 0, {})
  | d + 1, xs =>
    match xs with
    | [x] => (x, {})
    | _ =>
      let (ys, e) := reduceLevel f xs
      let (r, e2) := reduceTree f d ys
      (r, e.or e2)

/-- The reductions: the identity of a masked-off lane and the combination of two. -/
inductive Reduction where
  | sum | min | max
deriving DecidableEq, Repr

def Reduction.identity (k : Reduction) (f : Fmt) : Nat :=
  match k, f with
  | .sum, .fp32 => 0x80000000
  | .min, .fp32 => 0x7F800000
  | .max, .fp32 => 0xFF800000
  | .sum, _ => 0
  | .min, .int n sg => ofInt n (maxInt n sg)
  | .max, .int n sg => ofInt n (minInt n sg)
  | _, _ => 0

def Reduction.combine (k : Reduction) (f : Fmt) (rtz : Bool) (a b : Nat) : Nat × Ev :=
  match k with
  | .min => (minCode f a b, {})
  | .max => (maxCode f a b, {})
  | .sum =>
    match f with
    | .fp32 => fadd rtz a b
    | f => (modW f ((a : Int) + b), {})

def vexReduce (s : State) (u : VexUnit) (w : Width) (g : Guard) (src : Src) (r : Reduction) : Out :=
  trigger (reads := laneReads u.slot 3 false) s u.slot .vector g src noNeed fun s k c v =>
    let lc := c.portW u.slot 3
    match vecCheck c lc .intFp with
    | .error e => moveFault s k u.slot 0x04 e.toNat
    | .ok fm =>
      let x := laneIn c u.slot lc w fm v
      let es := (upto 0 x.n).map fun j => if c.laneOn lc j then x.la j else r.identity fm
      let y := reduceTree (r.combine fm x.rtz) 10 es
      s.setCore k ((c.result u.slot false 6 (BitVec.ofNat 1024 y.1)).events u.slot 6 y.2)

/-! ### Special functions (11 R292, R293) -/

/-- A special function of one operand, or `div` of two. -/
def sfxFn (s : State) (w : Width) (g : Guard) (src : Src) (f : Bool → Nat → Nat → Nat × Ev) : Out :=
  trigger (reads := laneReads .s5 2 false) s .s5 .vector g src noNeed fun s k c v =>
    let lc := c.portW .s5 2
    match vecCheck c lc .fp with
    | .error e => moveFault s k .s5 0x04 e.toNat
    | .ok fm =>
      let x := laneIn c .s5 lc w fm v
      s.setCore k (deliverLanes c .s5 7 x false (c.laneOn lc) fun j => pair (f x.rtz (x.la j) (x.lb j)))

/-! ### VT and mask functions (11 R291) -/

/-- A write of VT. -/
def vtWrite (s : State) (u : VexUnit) (g : Guard) (src : Src) (op : WriteOp) (ok : Word → Bool) : Out :=
  trigger s u.slot .vector g src noNeed fun s k c v =>
    let a : Word := v.setWidth 64
    if ok a then s.setCore k (c.write u.slot .vt op (wordVec a) (c.la 3)) else moveFault s k u.slot 0x04 a.toNat

def vtsetOk (a : Word) : Bool := !vtReserved a.toNat && (elemType (vtEt a)).isSome

/-- A mask function: a and b on 128 bits. -/
def maskFn (s : State) (u : VexUnit) (g : Guard) (src : Src) (f : BitVec 128 → BitVec 128 → BitVec 128) : Out :=
  regTrigger s u.slot .vector g src noNeed fun c v =>
    c.result u.slot false 3 ((f (v.setWidth 128) ((c.port u.slot 0).setWidth 128)).setWidth 1024)

/-! ### The instructions -/

/-- VEX_ADD (R283). -/
def execVexAdd (u : VexUnit) (w : Width) (g : Guard) (src : Src) (s : State) : Out := vexFn s u w g src 3 .intFp false laneAdd

/-- VEX_SUB (R283). -/
def execVexSub (u : VexUnit) (w : Width) (g : Guard) (src : Src) (s : State) : Out := vexFn s u w g src 3 .intFp false laneSub

/-- VEX_ADDS (R284). -/
def execVexAdds (u : VexUnit) (w : Width) (g : Guard) (src : Src) (s : State) : Out := vexFn s u w g src 3 .int false laneAdds

/-- VEX_SUBS (R284). -/
def execVexSubs (u : VexUnit) (w : Width) (g : Guard) (src : Src) (s : State) : Out := vexFn s u w g src 3 .int false laneSubs

/-- VEX_MIN (R283). -/
def execVexMin (u : VexUnit) (w : Width) (g : Guard) (src : Src) (s : State) : Out := vexFn s u w g src 3 .intFp false laneMin

/-- VEX_MAX (R283). -/
def execVexMax (u : VexUnit) (w : Width) (g : Guard) (src : Src) (s : State) : Out := vexFn s u w g src 3 .intFp false laneMax

/-- VEX_ABS (R283). -/
def execVexAbs (u : VexUnit) (w : Width) (g : Guard) (src : Src) (s : State) : Out := vexFn s u w g src 3 .intFp false laneAbs

/-- VEX_NEG (R283). -/
def execVexNeg (u : VexUnit) (w : Width) (g : Guard) (src : Src) (s : State) : Out := vexFn s u w g src 3 .intFp false laneNeg

/-- VEX_AND (R283). -/
def execVexAnd (u : VexUnit) (w : Width) (g : Guard) (src : Src) (s : State) : Out := vexFn s u w g src 3 .any false laneAnd

/-- VEX_OR (R283). -/
def execVexOr (u : VexUnit) (w : Width) (g : Guard) (src : Src) (s : State) : Out := vexFn s u w g src 3 .any false laneOr

/-- VEX_XOR (R283). -/
def execVexXor (u : VexUnit) (w : Width) (g : Guard) (src : Src) (s : State) : Out := vexFn s u w g src 3 .any false laneXor

/-- VEX_ANDN (R283). -/
def execVexAndn (u : VexUnit) (w : Width) (g : Guard) (src : Src) (s : State) : Out := vexFn s u w g src 3 .any false laneAndn

/-- VEX_SHL (R286). -/
def execVexShl (u : VexUnit) (w : Width) (g : Guard) (src : Src) (s : State) : Out := vexFn s u w g src 3 .any false (laneShift .shl)

/-- VEX_SHR (R286). -/
def execVexShr (u : VexUnit) (w : Width) (g : Guard) (src : Src) (s : State) : Out := vexFn s u w g src 3 .any false (laneShift .shr)

/-- VEX_SAR (R286). -/
def execVexSar (u : VexUnit) (w : Width) (g : Guard) (src : Src) (s : State) : Out := vexFn s u w g src 3 .any false (laneShift .sar)

/-- VEX_MUL (R285). -/
def execVexMul (u : VexUnit) (w : Width) (g : Guard) (src : Src) (s : State) : Out := vexFn s u w g src 4 .intFp false laneMul

/-- VEX_FMA (R285). -/
def execVexFma (u : VexUnit) (w : Width) (g : Guard) (src : Src) (s : State) : Out := vexFn s u w g src 4 .intFp false laneFma

/-- VEX_FMS (R285). -/
def execVexFms (u : VexUnit) (w : Width) (g : Guard) (src : Src) (s : State) : Out := vexFn s u w g src 4 .intFp false laneFms

/-- VEX_FNMA (R285). -/
def execVexFnma (u : VexUnit) (w : Width) (g : Guard) (src : Src) (s : State) : Out := vexFn s u w g src 4 .intFp false laneFnma

/-- VEX_CEQ (R283). -/
def execVexCeq (u : VexUnit) (w : Width) (g : Guard) (src : Src) (s : State) : Out := vexFn s u w g src 3 .intFp true laneCeq

/-- VEX_CNE (R283). -/
def execVexCne (u : VexUnit) (w : Width) (g : Guard) (src : Src) (s : State) : Out := vexFn s u w g src 3 .intFp true laneCne

/-- VEX_CLT (R283). -/
def execVexClt (u : VexUnit) (w : Width) (g : Guard) (src : Src) (s : State) : Out := vexFn s u w g src 3 .intFp true laneClt

/-- VEX_CLE (R283). -/
def execVexCle (u : VexUnit) (w : Width) (g : Guard) (src : Src) (s : State) : Out := vexFn s u w g src 3 .intFp true laneCle

/-- VEX_CDET (R287). -/
def execVexCdet (u : VexUnit) (w : Width) (g : Guard) (src : Src) (s : State) : Out := vexFn s u w g src 3 .fp true laneCdet

/-- VEX_SEL (R288). -/
def execVexSel (u : VexUnit) (w : Width) (g : Guard) (src : Src) (s : State) : Out := vexSelect s u w g src

/-- VEX_CVT (R289). -/
def execVexCvt (u : VexUnit) (w : Width) (g : Guard) (src : Src) (s : State) : Out := vexConvert s u w g src

/-- VEX_PERM (R288). -/
def execVexPerm (u : VexUnit) (w : Width) (g : Guard) (src : Src) (s : State) : Out := vexFn s u w g src 5 .any false lanePerm

/-- VEX_BCAST (R288). -/
def execVexBcast (u : VexUnit) (w : Width) (g : Guard) (src : Src) (s : State) : Out := vexFn s u w g src 5 .any false laneBcast

/-- VEX_SLIDE (R288). -/
def execVexSlide (u : VexUnit) (w : Width) (g : Guard) (src : Src) (s : State) : Out := vexFn s u w g src 5 .any false laneSlide

/-- VEX_RSUM (R290). -/
def execVexRsum (u : VexUnit) (w : Width) (g : Guard) (src : Src) (s : State) : Out := vexReduce s u w g src .sum

/-- VEX_RMIN (R290). -/
def execVexRmin (u : VexUnit) (w : Width) (g : Guard) (src : Src) (s : State) : Out := vexReduce s u w g src .min

/-- VEX_RMAX (R290). -/
def execVexRmax (u : VexUnit) (w : Width) (g : Guard) (src : Src) (s : State) : Out := vexReduce s u w g src .max

/-- VTSET (R291). -/
def execVtset (u : VexUnit) (g : Guard) (src : Src) (s : State) : Out := vtWrite s u g src .put vtsetOk

/-- VTGET (R291). -/
def execVtget (u : VexUnit) (g : Guard) (src : Src) (s : State) : Out :=
  regTrigger (reads := fun _ => [.vt]) s u.slot .vector g src noNeed fun c _ => c.result u.slot false 3 (wordVec c.vtNow)

/-- VTTHR (R291). -/
def execVtthr (u : VexUnit) (g : Guard) (src : Src) (s : State) : Out := vtWrite s u g src .thr fun a => decide (a.toNat < pow2 32)

/-- VTCLR (R291). -/
def execVtclr (u : VexUnit) (g : Guard) (src : Src) (s : State) : Out := vtWrite s u g src .clear fun a => a &&& 0xFC0000 = a

/-- KAND (R291). -/
def execKand (u : VexUnit) (g : Guard) (src : Src) (s : State) : Out := maskFn s u g src fun a b => a &&& b

/-- KOR (R291). -/
def execKor (u : VexUnit) (g : Guard) (src : Src) (s : State) : Out := maskFn s u g src fun a b => a ||| b

/-- KXOR (R291). -/
def execKxor (u : VexUnit) (g : Guard) (src : Src) (s : State) : Out := maskFn s u g src fun a b => a ^^^ b

/-- KANDN (R291). -/
def execKandn (u : VexUnit) (g : Guard) (src : Src) (s : State) : Out := maskFn s u g src fun a b => a &&& ~~~b

/-- KNOT (R291). -/
def execKnot (u : VexUnit) (g : Guard) (src : Src) (s : State) : Out := maskFn s u g src fun a _ => ~~~a

/-- KGEN (R291). -/
def execKgen (u : VexUnit) (g : Guard) (src : Src) (s : State) : Out := maskFn s u g src fun a _ => BitVec.ofNat 128 (pow2 (min (a.toNat % pow2 64) 128) - 1)

/-- KPOPC (R291). -/
def execKpopc (u : VexUnit) (g : Guard) (src : Src) (s : State) : Out := maskFn s u g src fun a _ => BitVec.ofNat 128 (popcount a.toNat 128)

/-- KFFS (R291). -/
def execKffs (u : VexUnit) (g : Guard) (src : Src) (s : State) : Out := maskFn s u g src fun a _ => BitVec.ofNat 128 (trailZeros a.toNat 0 128)

/-- SFX5_RCP (R292). -/
def execSfx5Rcp (w : Width) (g : Guard) (src : Src) (s : State) : Out := sfxFn s w g src (fun _ a _ => sfRcp a)

/-- SFX5_RSQRT (R292). -/
def execSfx5Rsqrt (w : Width) (g : Guard) (src : Src) (s : State) : Out := sfxFn s w g src (fun _ a _ => sfRsqrt a)

/-- SFX5_SQRT (R292). -/
def execSfx5Sqrt (w : Width) (g : Guard) (src : Src) (s : State) : Out := sfxFn s w g src (fun m a _ => fsqrt m a)

/-- SFX5_DIV (R292). -/
def execSfx5Div (w : Width) (g : Guard) (src : Src) (s : State) : Out := sfxFn s w g src (fun m a b => fdiv m a b)

/-- SFX5_EXP2 (R292). -/
def execSfx5Exp2 (w : Width) (g : Guard) (src : Src) (s : State) : Out := sfxFn s w g src (fun _ a _ => sfExp2 a)

/-- SFX5_LOG2 (R292). -/
def execSfx5Log2 (w : Width) (g : Guard) (src : Src) (s : State) : Out := sfxFn s w g src (fun _ a _ => sfLog2 a)

/-- SFX5_TANH (R292). -/
def execSfx5Tanh (w : Width) (g : Guard) (src : Src) (s : State) : Out := sfxFn s w g src (fun _ a _ => sfTanh a)

/-- SFX5_SIGM (R292). -/
def execSfx5Sigm (w : Width) (g : Guard) (src : Src) (s : State) : Out := sfxFn s w g src (fun _ a _ => sfSigm a)

/-- SFX5_SINPI (R292). -/
def execSfx5Sinpi (w : Width) (g : Guard) (src : Src) (s : State) : Out := sfxFn s w g src (fun _ a _ => sfSinpi a)

/-- SFX5_COSPI (R292). -/
def execSfx5Cospi (w : Width) (g : Guard) (src : Src) (s : State) : Out := sfxFn s w g src (fun _ a _ => sfCospi a)

end Sys2Proof.Machine
end

