-- ==== Sys2Proof/Machine/Ls2.lean ====
section
/-!
DEFINITION. The instructions of `ls2` as they are dispatched: address, checks, translation, and the load or the held
operation (08 R204 to R225; 05 R138 to R144).
-/

namespace Sys2Proof.Machine

/-! ### Room, and faults without an address (06 R176, R179) -/

/-- Whether one more load can count. -/
def Core.ldRoom (c : Core) : Bool := decide ((c.regs.pend.filter fun p => p.load && !p.landed).length < 63)

def Core.loadRoom (c : Core) : Bool := c.ldRoom && c.storeRoom

/-- A privilege fault of the trigger that passes: R380 names no content of FADDR for it. -/
def privilegeFault (s : State) (k : Nat) (sl : Slot) : State :=
  moveFault s.tick k sl 0x03 (Config.faultAddr s.fresh).toNat

/-! ### Store forwarding within a block (05 R131) -/

/-- Byte `a` of memory as the stores in the block store buffer leave it. -/
def forwardByte (a : Nat) (b : Nat) : List Held → Nat
  | [] => b
  | h :: hs =>
    match h.op with
    | .store n x v =>
      if x.dev = none ∧ x.pa ≤ a ∧ a < x.pa + n then forwardByte a (field v.toNat (8 * (a - x.pa)) 8) hs else forwardByte a b hs
    | _ => forwardByte a b hs

/-- `n` bytes from `a`, of which memory gives `v`. -/
def forward (a v : Nat) (hs : List Held) : Nat → Nat
  | 0 => 0
  | n + 1 => forwardByte a (v % 256) hs + 256 * forward (a + 1) (v / 256) hs n

/-- The same for the scratchpad. -/
def forwardScratch (a : Nat) (b : Nat) : List Held → Nat
  | [] => b
  | h :: hs =>
    match h.op with
    | .sstore n off v =>
      if off ≤ a ∧ a < off + n then forwardScratch a (field v.toNat (8 * (a - off)) 8) hs else forwardScratch a b hs
    | _ => forwardScratch a b hs

def forwardPad (a v : Nat) (hs : List Held) : Nat → Nat
  | 0 => 0
  | n + 1 => forwardScratch a (v % 256) hs + 256 * forwardPad (a + 1) (v / 256) hs n

/-! ### The scratchpad (04 R92, R97) -/

def Core.padBytes (c : Core) (a : Nat) : Nat → Nat
  | 0 => 0
  | n + 1 => (SMap.get 0 c.scratch a).toNat + 256 * c.padBytes (a + 1) n

/-- Write `n` bytes of `v` at an offset. -/
def padWrite : Nat → SMap (BitVec 8) → Nat → Nat → SMap (BitVec 8)
  | 0, m, _, _ => m
  | n + 1, m, a, v => padWrite n (SMap.set 0 m a (BitVec.ofNat 8 v)) (a + 1) (v / 256)

/-- Whether `n` bytes from an offset lie in the scratchpad. -/
def Core.padOk (c : Core) (a n : Nat) : Bool := decide (a + n ≤ 32768 * c.ways)

/-- Poison of the scratchpad's blocks (04 R440). -/
def Core.padPoisoned (c : Core) (a : Nat) : Bool := c.scratchPoison.contains (a / 64)

/-- Whether `n` bytes from an offset meet a block that a restored task holds poisoned and that no block has read (18 R393). -/
def Core.padErr (c : Core) (a n : Nat) : Bool := c.scratchErr.any fun b => decide (a / 64 ≤ b) && decide (b ≤ (a + n - 1) / 64)

/-- The precise machine check of such a read. -/
def takePadError (s : State) (k : Nat) (sl : Slot) : State :=
  takeFault (s.modCore k fun c => { c with scratchErr := [] }) k { code := 0x71, slot := sl.num, bidx := (s.core k).ctl.bidx }

/-! ### Loads (08 R208) -/

/-- The value of a load of `n` bytes in a register. -/
def extend (signed : Bool) (n v : Nat) : Word := if signed then sextWord (8 * n) v else BitVec.ofNat 64 (v % pow2 (8 * n))

/-- The value of a read that falls on a pool entry with V = 0: zeros (01 R20). -/
def holeOr (x : Xlat) (r : MemSys × Got) (ms : MemSys) : MemSys × Got := if x.hole then (ms, .ok 0) else r

/-- The bytes of each block that an access of the vector path reaches. -/
def HOp.vectorSpan : HOp → Nat
  | .vload n _ => n
  | .vstore n _ _ => n
  | .tdld _ _ => 32
  | _ => 64

/-- Whether an operation reaches some of `n` bytes at `pa`, with accesses of `m` bytes. -/
def HOp.meets (o : HOp) (m pa n : Nat) : Bool :=
  o.xlats.any fun x => x.dev.isNone && decide (pa < x.pa + m) && decide (x.pa < pa + n)

/-- Whether a command of slot 7 reaches some of `n` bytes at `pa`. -/
def HOp.vectorMeets (o : HOp) (pa n : Nat) : Bool := o.isVector && o.meets o.vectorSpan pa n

/-- Whether a released access of the vector path of the core that is not yet performed reaches some of `n` bytes at `pa`: a
load of them waits for the stores, which it observes (05 R131), and for the loads, which it follows (05 R130). -/
def Core.vectorAt (c : Core) (pa n : Nat) : Bool := c.cp.queue.any fun h => h.released && h.op.vectorMeets pa n

/-- The same for stores and tree updates alone. -/
def Core.vectorStoreAt (c : Core) (pa n : Nat) : Bool :=
  c.cp.queue.any fun h => h.released && h.op.writes && h.op.vectorMeets pa n

/-- The same for the scratchpad. -/
def Core.padStoreAt (c : Core) (off n : Nat) : Bool :=
  c.cp.queue.any fun h => h.released &&
    match h.op with
    | .svstore m o _ => decide (off < o + m) && decide (o < off + n)
    | _ => false

/-! ### Loads behind held operations of their own block (05 R130, R135, R146; 08 R211, R222 to R225) -/

/-- Whether two ranges of virtual addresses meet. -/
def rangesMeet (a n b m : Nat) : Bool := decide (a < b + m) && decide (b < a + n)

/-- Whether a held operation of the block keeps a later load of `n` bytes at `ea`, translated to `pa`, from being performed
before it: an acquire, a pool operation, `xlwait`, a write-back of the range, a read or an update of the same bytes, and a
load that waits itself. -/
def HOp.keepsLoad (o : HOp) (ea pa n : Nat) : Bool :=
  match o with
  | .atomic _ cw _ _ _ => bit cw 0 || o.meets 8 pa n
  | .ldio m _ => o.meets m pa n
  | .load .. | .poolShare .. | .poolDrop .. | .poolAlloc .. | .xlwait _ => true
  | .cacheRegion _ b l => rangesMeet ea n b l
  | _ => false

/-- Whether a plain load waits for the commit of its block: behind a held operation of slots 0 to 5, a drain, or a load of
the vector path that reaches the same bytes. -/
def Core.keepsLoad (c : Core) (ea pa n : Nat) : Bool :=
  (c.ctl.store.any fun h => !h.released && h.op.keepsLoad ea pa n) ||
  c.cp.queue.any fun h => !h.released && (h.op.isDrain || (h.op.isVectorLoad && h.op.vectorMeets pa n))

/-- A plain load that waits: it counts in `ld`, its result is visible as that of any load, and it is performed in program
order once its block has committed (06 R174). -/
def Core.deferLoad (c : Core) (n : Nat) (signed : Bool) (x : Xlat) : Core :=
  (c.loadResult .s2 (.rport 2 false) 8 0 false none).hold .s2 (.load n signed x) (some c.nextId)

/-- A plain scalar load. It waits for the vector accesses of earlier blocks to the same bytes (05 R130, R131). It is performed
here, before its block commits, unless a held operation of the block keeps it (log entry 96). -/
def scalarLoad (s : State) (g : Guard) (src : Src) (n : Nat) (signed : Bool) : Out :=
  triggerOr s .s2 .scalar g src Core.ldRoom fun s k c v =>
    let ea := (v.setWidth 64 + c.portW .s2 0).toNat
    if s.xlWaits k then none
    else if ea % n ≠ 0 then some (moveFault s k .s2 0x05 ea)
    else
      match translate s.ms (s.who k) ea .load with
      | (ms, .error f) => some (accessFaultAt { s with ms := ms } k .s2 f 0)
      | (ms, .ok x) =>
        if x.uncached then some (moveFault { s with ms := ms } k .s2 0x06 ea)
        else if c.vectorAt x.pa n then none
        else if c.keepsLoad ea x.pa n then some ({ s with ms := ms }.setCore k (c.deferLoad n signed x))
        else
          let (ms, got) := holeOr x (cachedLoad ms (s.who k) c.ways x x.pa n 1) ms
          let w := if x.hole then got.val else forward x.pa got.val c.ctl.store n
          let c := (c.loadResult .s2 (.rport 2 false) 8 (wordVec (extend signed n w)) false got.bad).note got.bad
          some ({ s with ms := ms }.setCore k c)

/-- A load from the scratchpad, which must land before its block commits (06 R174). -/
def scratchLoad (s : State) (g : Guard) (src : Src) (n : Nat) (signed : Bool) : Out :=
  triggerOr s .s2 .scalar g src Core.ldRoom fun s k c v =>
    let ea := (v.setWidth 64 + c.portW .s2 0).toNat
    if ea % n ≠ 0 then some (moveFault s k .s2 0x05 ea)
    else if !c.padOk ea n then some (moveFault s k .s2 0x0D ea)
    else if c.padStoreAt ea n then none
    else if c.padErr ea n then some (takePadError s k .s2)
    else
      let w := forwardPad ea (c.padBytes ea n) c.ctl.store n
      let bad := if c.padPoisoned ea then some (poisonNotice ea 0 1) else none
      some (s.setCore k ((c.loadResult .s2 (.rport 2 false) 8 (wordVec (extend signed n w)) true bad).note bad))

/-- `ls2.ldio`: a held load from any aperture. -/
def heldLoad (s : State) (g : Guard) (src : Src) (n : Nat) : Out :=
  accessTrigger s .s2 .scalar g src Core.loadRoom fun s k c v =>
    let ea := (v.setWidth 64 + c.portW .s2 0).toNat
    if ea % n ≠ 0 then moveFault s k .s2 0x05 ea
    else
      match translate s.ms (s.who k) ea .load with
      | (ms, .error f) => accessFaultAt { s with ms := ms } k .s2 f 0
      | (ms, .ok x) =>
        { s with ms := ms }.setCore k ((c.owe .s2 (.rport 2 false) .put 8 true).hold .s2 (.ldio n x) (some c.nextId))

/-! ### Stores (08 R208, 06 R176) -/

/-- What `ctl.wait` and a release do to the stores that count in `st`: they are performed at device scope (10 R271). -/
def performStores (s : State) (k : Nat) : State :=
  let c := s.core k
  let ms := (s.ms.drainMerge k).writeBack k fun l => c.stOut.contains l.line
  { s with ms := ms }.setCore k { c with stOut := [] }

/-- A store that would raise `st` to 64, or would at its release, first has the counted stores performed (log entry 21). -/
def makeStoreRoom (s : State) (k : Nat) : State :=
  if 63 ≤ (s.core k).st + (s.core k).stHeld + s.treesOut k then performStores s k else s

/-- A scalar store. -/
def scalarStore (s : State) (g : Guard) (src : Src) (n : Nat) : Out :=
  storeTrigger true s .s2 .scalar g src Core.storeRoom fun s k c v =>
    let ea := (v.setWidth 64 + c.portW .s2 0).toNat
    if ea % n ≠ 0 then kindFault s k .s2 0x05 ea 1
    else
      match translate s.ms (s.who k) ea .store with
      | (ms, .error f) => accessFaultAt { s with ms := ms } k .s2 f 1
      | (ms, .ok x) =>
        let d : BitVec 1024 := BitVec.ofNat 1024 ((c.portW .s2 1).toNat % pow2 (8 * n))
        (makeStoreRoom { s with ms := ms } k).modCore k fun c => c.hold .s2 (.store n x d) none

/-- A store to the scratchpad. -/
def scratchStore (s : State) (g : Guard) (src : Src) (n : Nat) : Out :=
  storeTrigger false s .s2 .scalar g src Core.storeRoom fun s k c v =>
    let ea := (v.setWidth 64 + c.portW .s2 0).toNat
    if ea % n ≠ 0 then kindFault s k .s2 0x05 ea 1
    else if !c.padOk ea n then kindFault s k .s2 0x0D ea 1
    else
      let d : BitVec 1024 := BitVec.ofNat 1024 ((c.portW .s2 1).toNat % pow2 (8 * n))
      (makeStoreRoom s k).modCore k fun c => c.hold .s2 (.sstore n ea d) none

/-! ### Atomics (08 R210, R211) -/

def atomicOp (s : State) (g : Guard) (src : Src) (op : AtOp) : Out :=
  triggerOr s .s2 .scalar g src Core.loadRoom fun s k c v =>
    let cw := (v.setWidth 64 : Word).toNat
    let n := if bit cw 3 then 8 else 4
    let a := (c.portW .s2 0).toNat
    if s.xlWaits k || (!bit cw 2 && s.storeFull k) then none
    else if a % n ≠ 0 then some (kindFault s k .s2 0x05 a 2)
    else
      match translate s.ms (s.who k) a .atomic with
      | (ms, .error f) => some (accessFaultAt { s with ms := ms } k .s2 f 2)
      | (ms, .ok x) =>
        if !inAperture x.pa && space x.pa != .reserved then some (kindFault { s with ms := ms } k .s2 0x06 a 2)
        else if bit cw 2 then
          some ({ s with ms := ms }.setCore k ((c.owe .s2 (.rport 2 false) .put 11 true).hold .s2
            (.atomic op cw x (c.portW .s2 1) (c.portW .s2 2)) (some c.nextId)))
        else
          some ((makeStoreRoom { s with ms := ms } k).modCore k fun c =>
            c.hold .s2 (.atomic op cw x (c.portW .s2 1) (c.portW .s2 2)) none)

/-! ### Ordering operations (08 R219 to R221, 05 R134 to R144) -/

/-- `ld.acq` and `st.rel`: 8 bytes on a coherent page. -/
def flagOp (s : State) (g : Guard) (src : Src) (kind : XKind) (act : Core → Xlat → Nat → Core) : Out :=
  accessTrigger s .s2 .scalar g src Core.loadRoom fun s k c v =>
    let a := (c.portW .s2 0).toNat
    if a % 8 ≠ 0 then kindFault s k .s2 0x05 a kind.code
    else
      match translate s.ms (s.who k) a kind with
      | (ms, .error f) => accessFaultAt { s with ms := ms } k .s2 f kind.code
      | (ms, .ok x) =>
        if !leafCoh x.leaf then kindFault { s with ms := ms } k .s2 0x11 a kind.code
        else { s with ms := ms }.setCore k (act c x (wfield (v.setWidth 64 : Word) 2 0))

/-- An operation that names a bollard (05 R139): `p` is the port that holds its address. `moor` and `unmoor` translate
as loads, `rel` as a store (log entry 110). -/
def bollardOp (s : State) (g : Guard) (src : Src) (p : Nat) (kind : XKind) (act : Core → Word → Xlat → Core) : Out :=
  accessTrigger s .s2 .scalar g src Core.loadRoom fun s k c v =>
    let a := (c.portW .s2 p).toNat
    if a % 64 ≠ 0 then kindFault s k .s2 0x11 a kind.code
    else
      match translate s.ms (s.who k) a kind with
      | (ms, .error f) => accessFaultAt { s with ms := ms } k .s2 f kind.code
      | (ms, .ok x) =>
        if !leafCoh x.leaf then kindFault { s with ms := ms } k .s2 0x11 a kind.code
        else { s with ms := ms }.setCore k (act c (v.setWidth 64) x)

/-- A result of `ls2.r` owed to later blocks. -/
def Core.oweR (c : Core) (cls : Nat) (load : Bool) (op : HOp) : Core :=
  (c.owe .s2 (.rport 2 false) .put cls load).hold .s2 op (some c.nextId)

/-! ### Pool operations (08 R222) -/

/-- A page with PL = 0 is a pool-operand fault, after every translation (08 R204, R222). -/
def poolFault (s : State) (k va : Nat) : State := accessFaultAt s k .s2 { code := 0x15, lvl := 7, addr := va } 2

/-- A pool operation on one entry. -/
def poolOp1 (s : State) (g : Guard) (src : Src) (op : Xlat → Nat → HOp) : Out :=
  accessTrigger s .s2 .scalar g src Core.storeRoom fun s k c v =>
    let a := (v.setWidth 64 : Word).toNat
    match poolEntry s.ms (s.who k) a with
    | (ms, .error f) => accessFaultAt { s with ms := ms } k .s2 f 2
    | (ms, .ok none) => poolFault { s with ms := ms } k a
    | (ms, .ok (some (x, p))) => { s with ms := ms }.setCore k (c.oweR 14 false (op x p))

/-- `pool.share`. -/
def poolOp2 (s : State) (g : Guard) (src : Src) : Out :=
  accessTrigger s .s2 .scalar g src Core.storeRoom fun s k c v =>
    let a := (v.setWidth 64 : Word).toNat
    let b := (c.portW .s2 0).toNat
    match poolEntry s.ms (s.who k) a with
    | (ms, .error f) => accessFaultAt { s with ms := ms } k .s2 f 2
    | (ms, .ok d) =>
      match poolEntry ms (s.who k) b with
      | (ms, .error f) => accessFaultAt { s with ms := ms } k .s2 f 2
      | (ms, .ok x) =>
        match d, x with
        | none, _ => poolFault { s with ms := ms } k a
        | _, none => poolFault { s with ms := ms } k b
        | some (d, dp), some (x, sp) => { s with ms := ms }.setCore k (c.oweR 14 false (.poolShare d x dp sp))

/-! ### Translation and cache maintenance (08 R223 to R225) -/

def canonical (va : Nat) : Bool := field va 56 8 == (if va.testBit 55 then 0xFF else 0)

/-- The operand limits of `xlinv`: the operand that breaks one. -/
def xlinvBad (scope : Nat) (asid base len : Word) : Option Word :=
  if decide (scope ≤ 1) && wfield asid 63 16 != 0 then some asid
  else if scope = 0 then
    if !canonical base.toNat || base.toNat % 4096 != 0 then some base
    else if len.toNat % 4096 != 0 || len.toNat = 0 || decide (pow2 56 < len.toNat) then some len
    else none
  else none

/-- The range of `icinv`. -/
def rangeOp (s : State) (g : Guard) (src : Src) (op : Nat → Nat → HOp) : Out :=
  trigger s .s2 .scalar g src Core.storeRoom fun s k c v =>
    let len := (c.portW .s2 0).toNat
    if len % 64 ≠ 0 ∨ len = 0 ∨ pow2 40 < len then moveFault s k .s2 0x04 len
    else s.setCore k (c.hold .s2 (op (v.setWidth 64 : Word).toNat len) none)

/-- The range of `cwb` and `cinv`, which count in `st`. -/
def flushOp (s : State) (g : Guard) (src : Src) (inv : Bool) : Out :=
  storeTrigger false s .s2 .scalar g src Core.storeRoom fun s k c v =>
    let len := (c.portW .s2 0).toNat
    if len % 64 ≠ 0 ∨ len = 0 ∨ pow2 40 < len then moveFault s k .s2 0x04 len
    else (makeStoreRoom s k).modCore k fun c' => c'.hold .s2 (.cacheRegion inv (v.setWidth 64 : Word).toNat len) none

/-- Address generation (08 R209). -/
def addressGen (s : State) (g : Guard) (src : Src) (i : Nat) : Out :=
  regTrigger s .s2 .scalar g src noNeed fun c v =>
    c.result .s2 true 15 (wordVec (v.setWidth 64 + (c.portW .s2 0) <<< i))

/-! ### The instructions -/

/-- LS2_LD_B (R208). -/
def execLs2LdB (g : Guard) (src : Src) (s : State) : Out := scalarLoad s g src 1 false

/-- LS2_LD_H (R208). -/
def execLs2LdH (g : Guard) (src : Src) (s : State) : Out := scalarLoad s g src 2 false

/-- LS2_LD_W (R208). -/
def execLs2LdW (g : Guard) (src : Src) (s : State) : Out := scalarLoad s g src 4 false

/-- LS2_LD_D (R208). -/
def execLs2LdD (g : Guard) (src : Src) (s : State) : Out := scalarLoad s g src 8 false

/-- LS2_LD_BS (R208). -/
def execLs2LdBs (g : Guard) (src : Src) (s : State) : Out := scalarLoad s g src 1 true

/-- LS2_LD_HS (R208). -/
def execLs2LdHs (g : Guard) (src : Src) (s : State) : Out := scalarLoad s g src 2 true

/-- LS2_LD_WS (R208). -/
def execLs2LdWs (g : Guard) (src : Src) (s : State) : Out := scalarLoad s g src 4 true

/-- LS2_SLD_B (R208). -/
def execLs2SldB (g : Guard) (src : Src) (s : State) : Out := scratchLoad s g src 1 false

/-- LS2_SLD_H (R208). -/
def execLs2SldH (g : Guard) (src : Src) (s : State) : Out := scratchLoad s g src 2 false

/-- LS2_SLD_W (R208). -/
def execLs2SldW (g : Guard) (src : Src) (s : State) : Out := scratchLoad s g src 4 false

/-- LS2_SLD_D (R208). -/
def execLs2SldD (g : Guard) (src : Src) (s : State) : Out := scratchLoad s g src 8 false

/-- LS2_SLD_BS (R208). -/
def execLs2SldBs (g : Guard) (src : Src) (s : State) : Out := scratchLoad s g src 1 true

/-- LS2_SLD_HS (R208). -/
def execLs2SldHs (g : Guard) (src : Src) (s : State) : Out := scratchLoad s g src 2 true

/-- LS2_SLD_WS (R208). -/
def execLs2SldWs (g : Guard) (src : Src) (s : State) : Out := scratchLoad s g src 4 true

/-- LS2_LDIO_B (R208). -/
def execLs2LdioB (g : Guard) (src : Src) (s : State) : Out := heldLoad s g src 1

/-- LS2_LDIO_H (R208). -/
def execLs2LdioH (g : Guard) (src : Src) (s : State) : Out := heldLoad s g src 2

/-- LS2_LDIO_W (R208). -/
def execLs2LdioW (g : Guard) (src : Src) (s : State) : Out := heldLoad s g src 4

/-- LS2_LDIO_D (R208). -/
def execLs2LdioD (g : Guard) (src : Src) (s : State) : Out := heldLoad s g src 8

/-- LS2_ST_B (R208). -/
def execLs2StB (g : Guard) (src : Src) (s : State) : Out := scalarStore s g src 1

/-- LS2_ST_H (R208). -/
def execLs2StH (g : Guard) (src : Src) (s : State) : Out := scalarStore s g src 2

/-- LS2_ST_W (R208). -/
def execLs2StW (g : Guard) (src : Src) (s : State) : Out := scalarStore s g src 4

/-- LS2_ST_D (R208). -/
def execLs2StD (g : Guard) (src : Src) (s : State) : Out := scalarStore s g src 8

/-- LS2_SST_B (R208). -/
def execLs2SstB (g : Guard) (src : Src) (s : State) : Out := scratchStore s g src 1

/-- LS2_SST_H (R208). -/
def execLs2SstH (g : Guard) (src : Src) (s : State) : Out := scratchStore s g src 2

/-- LS2_SST_W (R208). -/
def execLs2SstW (g : Guard) (src : Src) (s : State) : Out := scratchStore s g src 4

/-- LS2_SST_D (R208). -/
def execLs2SstD (g : Guard) (src : Src) (s : State) : Out := scratchStore s g src 8

/-- LS2_AT_ADD (R211). -/
def execLs2AtAdd (g : Guard) (src : Src) (s : State) : Out := atomicOp s g src .add

/-- LS2_AT_AND (R211). -/
def execLs2AtAnd (g : Guard) (src : Src) (s : State) : Out := atomicOp s g src .and

/-- LS2_AT_OR (R211). -/
def execLs2AtOr (g : Guard) (src : Src) (s : State) : Out := atomicOp s g src .or

/-- LS2_AT_XOR (R211). -/
def execLs2AtXor (g : Guard) (src : Src) (s : State) : Out := atomicOp s g src .xor

/-- LS2_AT_MIN (R211). -/
def execLs2AtMin (g : Guard) (src : Src) (s : State) : Out := atomicOp s g src .min

/-- LS2_AT_MAX (R211). -/
def execLs2AtMax (g : Guard) (src : Src) (s : State) : Out := atomicOp s g src .max

/-- LS2_AT_MINU (R211). -/
def execLs2AtMinu (g : Guard) (src : Src) (s : State) : Out := atomicOp s g src .minu

/-- LS2_AT_MAXU (R211). -/
def execLs2AtMaxu (g : Guard) (src : Src) (s : State) : Out := atomicOp s g src .maxu

/-- LS2_AT_FADD (R211). -/
def execLs2AtFadd (g : Guard) (src : Src) (s : State) : Out := atomicOp s g src .fadd

/-- LS2_AT_SWP (R211). -/
def execLs2AtSwp (g : Guard) (src : Src) (s : State) : Out := atomicOp s g src .swp

/-- LS2_AT_CAS (R211). -/
def execLs2AtCas (g : Guard) (src : Src) (s : State) : Out := atomicOp s g src .cas

/-- LS2_LD_ACQ (R220). -/
def execLs2LdAcq (g : Guard) (src : Src) (s : State) : Out := flagOp s g src .load fun c x sc => c.oweR 11 true (.ldAcq sc x)

/-- LS2_ST_REL (R220). -/
def execLs2StRel (g : Guard) (src : Src) (s : State) : Out := flagOp s g src .store fun c x sc => c.hold .s2 (.stRel sc x (c.portW .s2 1)) none

/-- LS2_ACQ (R142). -/
def execLs2Acq (g : Guard) (src : Src) (s : State) : Out := bollardOp s g src 0 .load fun c w x => c.oweR 11 true (.acq (wfield w 2 0) x)

/-- LS2_REL (R142). -/
def execLs2Rel (g : Guard) (src : Src) (s : State) : Out := bollardOp s g src 0 .store fun c w x => c.hold .s2 (.rel (wfield w 2 0) x (c.portW .s2 1)) none

/-- LS2_FENCE (R144). -/
def execLs2Fence (g : Guard) (src : Src) (s : State) : Out :=
  regTrigger s .s2 .scalar g src Core.storeRoom fun c v =>
    let w : Word := v.setWidth 64
    c.hold .s2 (.fence (wfield w 2 0) (wfield w 14 8) (wfield w 22 16)) none

/-- LS2_MOOR (R140). -/
def execLs2Moor (g : Guard) (src : Src) (s : State) : Out := bollardOp s g src 1 .load fun c w x => c.oweR 11 false (.moor w (c.portW .s2 0) x)

/-- LS2_UNMOOR (R141). -/
def execLs2Unmoor (g : Guard) (src : Src) (s : State) : Out := bollardOp s g src 1 .load fun c w x => c.oweR 11 false (.unmoor w x)

/-- LS2_POOL_SHARE (R125). -/
def execLs2PoolShare (g : Guard) (src : Src) (s : State) : Out := poolOp2 s g src

/-- LS2_POOL_DROP (R125). -/
def execLs2PoolDrop (g : Guard) (src : Src) (s : State) : Out := poolOp1 s g src fun x p => .poolDrop x p

/-- LS2_POOL_ALLOC (R125). -/
def execLs2PoolAlloc (g : Guard) (src : Src) (s : State) : Out := poolOp1 s g src fun x p => .poolAlloc x p

/-- LS2_XLINV (R223). -/
def execLs2Xlinv (g : Guard) (src : Src) (s : State) : Out :=
  trigger s .s2 .scalar g src Core.storeRoom fun s k c v =>
    let scope := wfield (v.setWidth 64 : Word) 1 0
    if !c.trap.sup then privilegeFault s k .s2
    else
      match xlinvBad scope (c.portW .s2 0) (c.portW .s2 1) (c.portW .s2 2) with
      | some w => moveFault s k .s2 0x04 w.toNat
      | none => s.setCore k (c.hold .s2
          (.xlinv scope (c.portW .s2 0).toNat (c.portW .s2 1).toNat (c.portW .s2 2).toNat) none)

/-- LS2_XLWAIT (R224). -/
def execLs2Xlwait (g : Guard) (src : Src) (s : State) : Out :=
  regTrigger s .s2 .scalar g src Core.storeRoom fun c _ => c.hold .s2 (.xlwait none) none

/-- LS2_ICINV (R225). -/
def execLs2Icinv (g : Guard) (src : Src) (s : State) : Out := rangeOp s g src fun b n => .icinv b n

/-- LS2_CWB (R225). -/
def execLs2Cwb (g : Guard) (src : Src) (s : State) : Out := flushOp s g src false

/-- LS2_CINV (R225). -/
def execLs2Cinv (g : Guard) (src : Src) (s : State) : Out := flushOp s g src true

/-- LS2_EA0 (R209). -/
def execLs2Ea0 (g : Guard) (src : Src) (s : State) : Out := addressGen s g src 0

/-- LS2_EA1 (R209). -/
def execLs2Ea1 (g : Guard) (src : Src) (s : State) : Out := addressGen s g src 1

/-- LS2_EA2 (R209). -/
def execLs2Ea2 (g : Guard) (src : Src) (s : State) : Out := addressGen s g src 2

/-- LS2_EA3 (R209). -/
def execLs2Ea3 (g : Guard) (src : Src) (s : State) : Out := addressGen s g src 3

/-- LS2_EA4 (R209). -/
def execLs2Ea4 (g : Guard) (src : Src) (s : State) : Out := addressGen s g src 4

/-- LS2_EA5 (R209). -/
def execLs2Ea5 (g : Guard) (src : Src) (s : State) : Out := addressGen s g src 5

/-- LS2_EA6 (R209). -/
def execLs2Ea6 (g : Guard) (src : Src) (s : State) : Out := addressGen s g src 6

end Sys2Proof.Machine
end

