-- ==== Sys2Proof/Machine/Ex7.lean ====
section
/-!
DEFINITION. The instructions of `ex7` as they are dispatched: vector and element accesses, tree instructions, quays,
channels and storage queues (08 R212 to R218; 15 R347 to R368). Every one is held and enters the copy engine's command
queue; what it does when it fires stands in Engine.lean.
-/

namespace Sys2Proof.Machine

/-! ### Room in the queue (15 R347) and owed results -/

def Core.exRoom (c : Core) : Bool := decide (c.cp.queue.length < 16)

def Core.exLoadRoom (c : Core) : Bool := c.ldRoom && c.exRoom

/-- A command whose result goes to `ex7.r` or `ex7.s` of later blocks. -/
def Core.oweEx (c : Core) (s : Bool) (cls : Nat) (load : Bool) (op : HOp) : Core :=
  (c.owe .s7 (.rport 7 s) .put cls load).holdEx op (some c.nextId)

/-- An operand fault of slot 7. -/
def exOperand (s : State) (k : Nat) (w : Word) : State := moveFault s k .s7 0x04 w.toNat

/-! ### Order between the block store buffer and the queue (05 R131 to R146) -/

/-- Whether a command of the queue that `p` names comes before a held operation. -/
def Core.exWaits (c : Core) (h : Held) (p : HOp → Bool) : Bool := c.cp.queue.any fun e => p e.op && e.before h

/-- Operations that are performed only after every earlier access of the vector path (05 R134 to R149, 08 R221, R222). -/
def HOp.ordersVector : HOp → Bool
  | .atomic _ cw _ _ _ => bit cw 1 && bit cw 2
  | .ldAcq .. | .stRel .. | .acq .. | .rel .. | .moor .. | .unmoor .. | .poolShare .. | .poolDrop .. | .poolAlloc .. => true
  | .xlinv .. | .cacheRegion .. | .fork .. | .spawn .. | .launch .. | .bar => true
  | .fence _ p q => p % 4 != 0 && q != 0
  | _ => false

/-- Whether a held access waits for an access of the vector path to the same bytes: for a store of an earlier block (05 R131),
and a read for a load before it (05 R130). -/
def Core.storeBehind (c : Core) (h : Held) : Bool :=
  let early : Core := { c with cp := { c.cp with queue := c.cp.queue.filter fun (e : Held) => decide (e.blk < h.blk) } }
  let loads (x : Xlat) (n : Nat) : Bool := c.cp.queue.any fun e => e.before h && e.op.isVectorLoad && e.op.vectorMeets x.pa n
  match h.op with
  | .load n _ x => loads x n
  | .ldio n x => early.vectorStoreAt x.pa n || loads x n
  | .atomic _ _ x _ _ => early.vectorStoreAt x.pa 8 || loads x 8
  | .ldAcq _ x => early.vectorStoreAt x.pa 8 || loads x 8
  | .store n x _ => early.vectorStoreAt x.pa n
  | .sstore n off _ => early.padStoreAt off n
  | _ => false

/-- The commands of the queue that a fence's producer mask names (05 R144). -/
def fenceWaits (p : Nat) (o : HOp) : Bool := (p.testBit 2 && o.isNest) || (p.testBit 5 && o.isStorage)

/-- Whether an operation of the block store buffer waits for an earlier command of the copy engine's queue: for an access that
it orders, for an uncached one before an uncached one (04 R91), or for a drain (15 R359). Of the fence's own bundle, the commands of
later slots do not precede it (log entry 135). -/
def Core.waitsEx (c : Core) (h : Held) : Bool :=
  (h.op.ordersVector && c.exWaits h HOp.isVector) || (h.op.uncached && c.exWaits h HOp.uncached) || c.exWaits h HOp.isDrain ||
  c.storeBehind h || (match h.op with | .fence _ p q => q != 0 && c.exWaits h (fenceWaits p) | _ => false)

/-- Whether a fence lets a later command of slot 7 be performed before it: its consumer mask does not name the command's
path (05 R144). -/
def HOp.passes (r : HOp) (o : HOp) : Bool :=
  match r with
  | .fence _ p q => p == 0 || (match o.exPath with | some b => !q.testBit b | none => true)
  | _ => false

/-- Whether a command of slot 7 waits for an operation of the block store buffer: for an earlier one, a store for a load of its
block, which does not observe it, and a load for a later store of its block (05 R131), but not for an uncached one, which follows it (04 R91). -/
def Held.waitsFor (h r : Held) : Bool :=
  r.released && ((r.before h && !r.op.passes h.op) ||
    (r.blk == h.blk && r.op.isLoad && h.op.writes) ||
    (r.blk == h.blk && h.op.isVectorLoad && r.op.isPlainStore && !(h.op.uncached && r.op.uncached)))

/-- The head of the command queue, released and not waiting for an operation of slots 0 to 5. An operation that waits for a
command of the queue comes behind this one, and so does all that stands behind it. -/
def Core.exHead (c : Core) : Option Held :=
  match c.cp.queue with
  | h :: _ => if h.released && !(c.ctl.store.takeWhile fun r => !c.waitsEx r).any h.waitsFor then some h else none
  | [] => none

/-! ### Vector loads and stores (08 R212) -/

def vectorLoad (s : State) (g : Guard) (src : Src) (n : Nat) : Out :=
  accessTrigger s .s7 .scalar g src Core.exLoadRoom fun s k c v =>
    let ea := (v.setWidth 64 + c.portW .s7 1).toNat
    if ea % n ≠ 0 then kindFault s k .s7 0x05 ea 0
    else
      match translate s.ms (s.who k) ea .load with
      | (ms, .error f) => accessFaultAt { s with ms := ms } k .s7 f 0
      | (ms, .ok x) => { s with ms := ms }.setCore k (c.oweEx false 9 true (.vload n x))

def vectorStore (s : State) (g : Guard) (src : Src) (n : Nat) : Out :=
  storeTrigger true s .s7 .scalar g src Core.exRoom fun s k c v =>
    let ea := (v.setWidth 64 + c.portW .s7 1).toNat
    if ea % n ≠ 0 then kindFault s k .s7 0x05 ea 1
    else
      match translate s.ms (s.who k) ea .store with
      | (ms, .error f) => accessFaultAt { s with ms := ms } k .s7 f 1
      | (ms, .ok x) => (makeStoreRoom { s with ms := ms } k).modCore k fun c' => c'.holdEx (.vstore n x (c.port .s7 0)) none

def scratchVectorLoad (s : State) (g : Guard) (src : Src) (n : Nat) : Out :=
  trigger s .s7 .scalar g src Core.exLoadRoom fun s k c v =>
    let ea := (v.setWidth 64 + c.portW .s7 1).toNat
    if ea % n ≠ 0 then kindFault s k .s7 0x05 ea 0
    else if !c.padOk ea n then kindFault s k .s7 0x0D ea 0
    else if c.padErr ea n then takePadError s k .s7
    else s.setCore k (c.oweEx false 9 true (.svload n ea))

def scratchVectorStore (s : State) (g : Guard) (src : Src) (n : Nat) : Out :=
  storeTrigger false s .s7 .scalar g src Core.exRoom fun s k c v =>
    let ea := (v.setWidth 64 + c.portW .s7 1).toNat
    if ea % n ≠ 0 then kindFault s k .s7 0x05 ea 1
    else if !c.padOk ea n then kindFault s k .s7 0x0D ea 1
    else (makeStoreRoom s k).modCore k fun c' => c'.holdEx (.svstore n ea (c.port .s7 0)) none

/-! ### Element loads and stores (08 R213, R214) -/

/-- The addresses of the blocks that elements i0 to i0 + c - 1 lie in (02 R55). -/
def elementBlocks (base i0 c cls : Nat) : List Nat :=
  (coefBlocks cls (upto i0 c)).map fun b => (base + 64 * b) % pow2 64

/-- The operand that breaks a limit of R213 or R214. -/
def elementBad (c o3 : Word) (store : Bool) : Option Word :=
  if o3.toNat % 4 = 0 ∨ (if store then field o3.toNat 16 48 ≠ 0 ∨ field o3.toNat 2 6 ≠ 0 else field o3.toNat 2 62 ≠ 0) then some o3
  else if c.toNat = 0 ∨ 32 < c.toNat then some c
  else if store && !codeInClass (o3.toNat % 4) (field o3.toNat 8 8) then some o3
  else none

def elementOp (s : State) (g : Guard) (src : Src) (store : Bool) (act : State → Core → Nat → List Xlat → State) : Out :=
  triggerOr s .s7 .scalar g src (if store then Core.exRoom else Core.exLoadRoom) fun s k c v =>
    if s.xlWaits k || (store && s.storeFull k) then none else some <|
    let base := (v.setWidth 64 : Word).toNat
    let kd : XKind := if store then .store else .load
    match elementBad (c.portW .s7 2) (c.portW .s7 3) store with
    | some w => exOperand s k w
    | none =>
      if base % 64 ≠ 0 then kindFault s k .s7 0x05 base kd.code
      else
        match translateAll (s.who k) kd
            (elementBlocks base (c.portW .s7 1).toNat (c.portW .s7 2).toNat ((c.portW .s7 3).toNat % 4)) s.ms with
        | (ms, .error f) => accessFaultAt { s with ms := ms } k .s7 f kd.code
        | (ms, .ok xs) => act { s with ms := ms } c base xs

/-! ### Tree selectors and positions (08 R215, R216; 03 R71, R77) -/

def selTd (w : Word) : Nat := wfield w 2 0
def selLvl (w : Word) : Nat := wfield w 7 4
def selSel (w : Word) : Nat := wfield w 9 8
def selGx (w : Word) : Nat := wfield w 31 16
def selGy (w : Word) : Nat := wfield w 47 32

/-- Whether a reserved bit of a selector is set. -/
def selReserved (w : Word) : Bool := wfield w 63 48 != 0 || wfield w 15 10 != 0 || w.getLsbD 3

/-- The position that a word names. -/
def posOf (t : TreeDesc) (v : Nat) : Pos :=
  if t.ar then { x := field v 0 16, y := field v 16 16 } else { x := field v 0 32, y := 0 }

/-- What a tree instruction reads (08 R216, R217). -/
inductive TreeForm where
  | average | row | detail | update
deriving DecidableEq, Repr

/-- The operand at which a tree access faults (R71, R215). -/
def treeOperandBad (form : TreeForm) (t : TreeDesc) (sel pos : Word) : Option Word :=
  let l := selLvl sel
  let p := posOf t pos.toNat
  if selReserved sel || selSel sel == 3 || (selSel sel != 0 && (!t.ar || form != .detail)) then some sel
  else if wfield pos 63 32 ≠ 0 then some pos
  else if selGx sel ≥ t.gx ∨ selGy sel ≥ t.gy ∨ l > t.depth then some sel
  else if form = .detail then
    if l = 0 then some sel else if p.x ≥ pow2 (l - 1) ∨ p.y ≥ pow2 (l - 1) then some pos else none
  else if p.x ≥ pow2 l ∨ p.y ≥ pow2 l then some pos else none

/-- The positions of the lanes of a row load, and `none` for a lane at or beyond 2^l (R216). -/
def rowLanes (l : Nat) (p : Pos) (n : Nat) : List (Option Pos) :=
  (upto p.x n).map fun x => if x < pow2 l then some { p with x := x } else none

/-- The blocks of a tree that an access reads, each once. -/
def treeBlockNums (form : TreeForm) (t : TreeDesc) (l : Nat) (p : Pos) (sel : Nat) : List Nat :=
  match form with
  | .average => pathBlocks t l p
  | .update => pathBlocks t l p
  | .row => ((rowLanes l p 32).filterMap id).foldl (fun a q => (pathBlocks t l q).foldl setInsert a) []
  | .detail => [detailIndex t l p sel / classCap t.cls]

/-- Whether the whole tree lies in one 64 KiB granule of a tree-homed page (R77). -/
def placementOk (t : TreeDesc) (base : Nat) (xs : List Xlat) : Bool :=
  decide (base % 65536 + 64 * t.nb ≤ 65536) && xs.all fun x => leafTh x.leaf

/-- The value of a tree descriptor register: bits 255 to 0 its words, bit 256 whether it is valid (03 R70). -/
def tdValid (v : Vec) : Bool := v.getLsbD 256

def tdWords (v : Vec) : BitVec 256 := v.setWidth 256

/-- A tree instruction: operands, descriptor, translation, placement, and the command. A reserved selector or position
bit faults before an invalid descriptor, and the other operands after it (log entry 107). -/
def treeOp (s : State) (g : Guard) (src : Src) (form : TreeForm) (home : Bool)
    (act : State → Nat → Core → BitVec 256 → Nat → Nat → List Xlat → State) : Out :=
  let kd : XKind := if form = .update then .atomic else .load
  triggerOr s .s7 .scalar g src (fun c => (if form = .update then c.exRoom else c.exLoadRoom) && c.isReady (.td (selTd (c.portW .s7 1))))
    fun s k c v => if s.xlWaits k || (kd == .atomic && s.storeFull k) then none else some <|
      let sel := c.portW .s7 1
      let pos : Word := v.setWidth 64
      let d := c.rd (.td (selTd sel))
      let t := treeDesc (tdWords d)
      match c.badAt (.td (selTd sel)) with
      | some b => takeNotice s k b 7 c.ctl.bidx
      | none =>
        if selReserved sel || wfield pos 63 32 != 0 then kindFault s k .s7 0x0F (if selReserved sel then sel else pos).toNat kd.code
        else if !tdValid d then kindFault s k .s7 0x0E sel.toNat kd.code
        else
          match treeOperandBad form t sel pos with
          | some w => kindFault s k .s7 0x0F w.toNat kd.code
          | none =>
            let base := t.treeBase (selGx sel) (selGy sel)
            let bs := treeBlockNums form t (selLvl sel) (posOf t pos.toNat) (selSel sel)
            match translateAll (s.who k) kd (bs.map fun b => (base + 64 * b) % pow2 64) s.ms with
            | (ms, .error f) => accessFaultAt { s with ms := ms } k .s7 f kd.code
            | (ms, .ok xs) =>
              if home && !placementOk t base xs then kindFault { s with ms := ms } k .s7 0x10 base kd.code
              else act { s with ms := ms } k c (tdWords d) sel.toNat pos.toNat xs

/-- A level load. -/
def levelLoad (s : State) (g : Guard) (src : Src) (row home : Bool) : Out :=
  treeOp s g src (if row then .row else .average) home fun s k c d sel pos xs =>
    s.setCore k (c.oweEx false (if home then 11 else 10) true (.lavg home row d sel pos xs))

/-- A detail load. -/
def detailLoad (s : State) (g : Guard) (src : Src) (home : Bool) : Out :=
  treeOp s g src .detail home fun s k c d sel pos xs =>
    s.setCore k (c.oweEx false (if home then 11 else 10) true (.ldet home d sel pos xs))

/-! ### Quays (15 R362) -/

/-- A quay instruction: `ex7.o1` names the quay; `bad` says which first operands break a limit. -/
def quayOp (s : State) (g : Guard) (src : Src) (dk : DKind) (bad : Core → Vec → Bool) (act : Core → Nat → Vec → Core) : Out :=
  trigger s .s7 dk g src Core.exRoom fun s k c v =>
    if wfield (c.portW .s7 1) 63 4 ≠ 0 then exOperand s k (c.portW .s7 1)
    else if bad c v then exOperand s k (v.setWidth 64)
    else s.setCore k (act c (wfield (c.portW .s7 1) 3 0) v)

/-- Whether a quay word breaks a limit. -/
def quayWordBad (c : Core) (v : Vec) : Bool :=
  let w : Word := v.setWidth 64
  wfield w 63 57 != 0 || wfield w 47 40 != 0 || wfield w 31 16 != 0 ||
  (if w.getLsbD 56 then w != 0x0100000000000000
   else decide (191 < wfield w 39 32) ||
    decide (32768 * c.ways < 64 * wfield w 15 0 + (wfield w 55 48 + 1) * (64 * (wfield w 39 32 + 1))))

/-! ### Channels (15 R347 to R350, R352) -/

/-- The assigned indices of the nest registers (R348). -/
def nestIndices : List Nat := [0, 1, 2, 3, 4, 5, 8, 9, 10, 11, 12, 13, 16, 17, 18, 19, 20, 21]

/-- A nest's captured registers by index. -/
def nestReg (rs : List Word) (i : Nat) : Word := rs.getD i 0

def nestMode (rs : List Word) : Nat := wfield (nestReg rs 2) 14 12
def nestDk (rs : List Word) : Nat := wfield (nestReg rs 2) 11 10
def nestSk (rs : List Word) : Nat := wfield (nestReg rs 2) 9 8
def nestSize (rs : List Word) : Nat := 64 * (wfield (nestReg rs 2) 7 0 + 1)

/-- The trip count of a level. -/
def nestTrip (rs : List Word) (l : Nat) : Nat :=
  if l < 4 then field (nestReg rs 3).toNat (16 * l) 16 + 1 else field (nestReg rs 4).toNat (16 * (l - 4)) 16 + 1

/-- Whether a mode admits the kinds (R350). -/
def kindsOk (mode sk dk : Nat) : Bool :=
  match mode with
  | 0 => decide (sk ≤ 2) && decide (dk ≤ 2)
  | 1 => decide (sk ≤ 2) && decide (dk ≤ 2)
  | 2 => sk == 0 && decide (dk ≤ 2)
  | 3 => decide (sk ≤ 2) && dk == 0
  | 4 => decide (sk ≤ 2) && dk == 3
  | 5 => sk == 0 && dk == 0
  | 6 => sk == 0 && dk == 0
  | _ => false

/-- The base or stride of one side that breaks its kind; `s0` is the index of its level-0 stride. -/
def sideBad (rs : List Word) (kind bi s0 mult : Nat) : Option Word :=
  let base := nestReg rs bi
  if kind = 2 then (if 15 < base.toNat then some base else none)
  else if base.toNat % mult ≠ 0 then some base
  else ((upto s0 6).map (nestReg rs)).find? fun w => decide (w.toNat % 64 ≠ 0)

/-- The register of a nest that breaks R349 or R350. -/
def nestBad (c : Core) (rs : List Word) : Option Word :=
  let mode := nestMode rs
  let sk := nestSk rs
  let dk := nestDk rs
  let aux := nestReg rs 5
  if wfield (nestReg rs 2) 63 15 ≠ 0 ∨ 191 < wfield (nestReg rs 2) 7 0 ∨ !kindsOk mode sk dk then some (nestReg rs 2)
  else if wfield (nestReg rs 4) 63 32 ≠ 0 then some (nestReg rs 4)
  else
    let src := if mode = 2 then none else sideBad rs sk 0 8 (if mode = 5 then 256 else 64)
    let dst := if mode = 3 then none
      else if mode = 4 then (if 95 < (nestReg rs 1).toNat then some (nestReg rs 1) else none)
      else sideBad rs dk 1 16 (if mode = 6 then 256 else 64)
    let auxBad : Bool :=
      match mode with
      | 0 => aux != 0
      | 1 => wfield aux 63 32 != 0
      | 2 => selReserved aux || selSel aux != 0
      | 3 => selReserved aux || selSel aux != 0
      | 4 => wfield aux 31 14 != 0 || wfield aux 63 32 == 0 || decide (specialCrewn c ≤ wfield aux 7 0)
      | _ => decide (aux.toNat = 0) || decide (pow2 20 < aux.toNat)
    if src.isSome then src
    else if dst.isSome then dst
    else if mode = 4 ∧ nestSize rs % 384 ≠ 0 then some (nestReg rs 2)
    else if auxBad then some aux
    else if 5 ≤ mode ∧ (nestReg rs 3).toNat ≠ 0 then some (nestReg rs 3)
    else if 5 ≤ mode ∧ (nestReg rs 4).toNat ≠ 0 then some (nestReg rs 4)
    else none
where
  /-- CREWN of the running task (07 R198). -/
  specialCrewn (c : Core) : Nat := match c.task with | some t => t.crewn | none => 0

/-- The nest registers of a channel as the current bundle sees them, by index. -/
def Core.nestRegs (c : Core) (ch : Nat) : List Word :=
  (upto 0 22).map fun i => if nestIndices.contains i then (c.rd (.nest ch i)).setWidth 64 else 0

/-- Whether every nest register of a channel, and the tree descriptor that NAUX names, can be read. -/
def Core.nestReady (c : Core) (ch : Nat) : Bool :=
  nestIndices.all (fun i => c.isReady (.nest ch i)) && c.isReady (.td (selTd ((c.rd (.nest ch 5)).setWidth 64)))

/-- Room for a nest in the queue and in `cp`. -/
def Core.nestRoom (c : Core) : Bool :=
  c.exRoom && decide (c.cpCount + (c.cp.queue.filter fun h => !h.released && h.op.isNest).length < 63)

/-- Check and capture the nest of a channel (R349, R350). -/
def captureNest (s : State) (k : Nat) (c : Core) (ch : Nat) : State :=
  let rs := c.nestRegs ch
  let td : Loc := .td (selTd (nestReg rs 5))
  let tree : Bool := nestMode rs == 2 || nestMode rs == 3
  match nestBad c rs with
  | some x => exOperand s k x
  | none =>
    match (if tree then c.badAt td else none) with
    | some b => takeNotice s k b 7 c.ctl.bidx
    | none =>
      if tree && !tdValid (c.rd td) then moveFault s k .s7 0x0E (nestReg rs 5).toNat
      else s.setCore k (c.holdEx (.cpGo ch rs (tdWords (c.rd td))) none)

/-- A port of a channel: bits [63:3] of its first operand must be zero. -/
def channelOp (s : State) (g : Guard) (src : Src) (act : Core → Nat → Core) : Out :=
  trigger s .s7 .scalar g src Core.exRoom fun s k c v =>
    let w : Word := v.setWidth 64
    if wfield w 63 3 ≠ 0 then exOperand s k w else s.setCore k (act c w.toNat)

/-! ### Storage queues (15 R365 to R367) -/

/-- The address of descriptor q. -/
def State.sqAddr (s : State) (q : Nat) : Nat := s.sto.base * 16384 + 64 * q

/-- Word i of a descriptor's 64 bytes. -/
def sqWord (x i : Nat) : Nat := field x (64 * i) 64

/-- Whether the queue may be used by a context in a mode (status 2 of R366). -/
def sqOpen (s : State) (x ctx : Nat) (sup : Bool) : Bool :=
  s.sto.en && bit (sqWord x 5) 0 && field (sqWord x 5) 36 12 == ctx && (sup || !bit (sqWord x 5) 2)

/-- The length of the data of a submission entry, for the commands that carry data (R367). -/
def sqLength (e lbas : Nat) : Nat :=
  if field e 0 8 = 0x09 then (field e 320 8 + 1) * 16 else (field e 384 16 + 1) * 512 * pow2 lbas

/-- Whether R367 refuses an entry. -/
def sqRefused (e lbas : Nat) : Bool :=
  let op := field e 0 8
  let p1 := field e 192 64
  let p2 := field e 256 64
  let off := p1 % 4096
  let len := sqLength e lbas
  !([0x00, 0x01, 0x02, 0x08, 0x09].contains op) || field e 14 2 != 0 || field e 128 64 != 0 || decide (3 < lbas) ||
  (if op = 0x01 ∨ op = 0x02 ∨ op = 0x09 then
     p1 % 4 != 0 || decide (8192 < off + len) ||
     (if off + len ≤ 4096 then p2 != 0 else p2 == 0 || p2 % 4096 != 0)
   else p1 != 0 || p2 != 0)

/-- Translate the pointer at bit `lo` of an entry: the entry, and whether R367 refuses it. A pooled or a remote page is refused
as its leaf is read, so nothing is decided for it. -/
def sqPointer (ms : MemSys) (w : Who) (kd : XKind) (lo : Nat) (e : BitVec 512) : MemSys × Except XFault (BitVec 512 × Bool) :=
  let va := field e.toNat lo 64
  if va = 0 then (ms, .ok (e, false))
  else
    match leafFor ms w va kd with
    | (ms, .error f) => (ms, .error f)
    | (ms, .ok leaf) =>
      if leafPl leaf || leafDev leaf != 0 then (ms, .ok (e, true))
      else (ms, .ok (setBits e lo 64 (leafFrame leaf * 4096 + va % pageSize (leafSize leaf)), false))

/-- The entry of a queue with TRX = 1, rewritten, and whether it is refused. -/
def sqRewrite (ms : MemSys) (w : Who) (lbas : Nat) (e : BitVec 512) : MemSys × Except XFault (BitVec 512 × Bool) :=
  if sqRefused e.toNat lbas then (ms, .ok (e, true))
  else
    let kd : XKind := if field e.toNat 0 8 = 0x02 then .store else .load
    match sqPointer ms w kd 192 e with
    | (ms, .error f) => (ms, .error f)
    | (ms, .ok (e1, r1)) =>
      match sqPointer ms w kd 256 e1 with
      | (ms, .error f) => (ms, .error f)
      | (ms, .ok (e2, r2)) => (ms, .ok (e2, r1 || r2))

/-! ### The instructions -/

/-- EX7_VLD_32 (R212). -/
def execEx7Vld32 (g : Guard) (src : Src) (s : State) : Out := vectorLoad s g src 32

/-- EX7_VLD_64 (R212). -/
def execEx7Vld64 (g : Guard) (src : Src) (s : State) : Out := vectorLoad s g src 64

/-- EX7_VLD_128 (R212). -/
def execEx7Vld128 (g : Guard) (src : Src) (s : State) : Out := vectorLoad s g src 128

/-- EX7_SVLD_32 (R212). -/
def execEx7Svld32 (g : Guard) (src : Src) (s : State) : Out := scratchVectorLoad s g src 32

/-- EX7_SVLD_64 (R212). -/
def execEx7Svld64 (g : Guard) (src : Src) (s : State) : Out := scratchVectorLoad s g src 64

/-- EX7_SVLD_128 (R212). -/
def execEx7Svld128 (g : Guard) (src : Src) (s : State) : Out := scratchVectorLoad s g src 128

/-- EX7_ELD (R213). -/
def execEx7Eld (g : Guard) (src : Src) (s : State) : Out :=
  elementOp s g src false fun s c base xs =>
    let i0 := (c.portW .s7 1).toNat
    let cls := (c.portW .s7 3).toNat % 4
    let c1 := (c.owe .s7 (.rport 7 false) .put 9 true).owe .s7 .vt .orBits 9 false
    s.setCore s.curCore (c1.holdEx (.eld base i0 (c.portW .s7 2).toNat cls xs) (some c.nextId))

/-- EX7_VST_32 (R212). -/
def execEx7Vst32 (g : Guard) (src : Src) (s : State) : Out := vectorStore s g src 32

/-- EX7_VST_64 (R212). -/
def execEx7Vst64 (g : Guard) (src : Src) (s : State) : Out := vectorStore s g src 64

/-- EX7_VST_128 (R212). -/
def execEx7Vst128 (g : Guard) (src : Src) (s : State) : Out := vectorStore s g src 128

/-- EX7_SVST_32 (R212). -/
def execEx7Svst32 (g : Guard) (src : Src) (s : State) : Out := scratchVectorStore s g src 32

/-- EX7_SVST_64 (R212). -/
def execEx7Svst64 (g : Guard) (src : Src) (s : State) : Out := scratchVectorStore s g src 64

/-- EX7_SVST_128 (R212). -/
def execEx7Svst128 (g : Guard) (src : Src) (s : State) : Out := scratchVectorStore s g src 128

/-- EX7_EST (R214). -/
def execEx7Est (g : Guard) (src : Src) (s : State) : Out :=
  elementOp s g src true fun s c base xs =>
    let i0 := (c.portW .s7 1).toNat
    let o3 := (c.portW .s7 3).toNat
    let op : HOp := .est base i0 (c.portW .s7 2).toNat (o3 % 4) (field o3 8 8) (c.port .s7 0) xs
    (makeStoreRoom s s.curCore).modCore s.curCore fun c' => (c'.owe .s7 .vt .orBits 9 false).holdEx op (some c'.nextId)

/-- EX7_LAVG (R216). -/
def execEx7Lavg (g : Guard) (src : Src) (s : State) : Out := levelLoad s g src false false

/-- EX7_LAVG_HOME (R216, R79). -/
def execEx7LavgHome (g : Guard) (src : Src) (s : State) : Out := levelLoad s g src false true

/-- EX7_LAVG_ROW (R216). -/
def execEx7LavgRow (g : Guard) (src : Src) (s : State) : Out := levelLoad s g src true false

/-- EX7_LAVG_ROW_HOME (R216, R79). -/
def execEx7LavgRowHome (g : Guard) (src : Src) (s : State) : Out := levelLoad s g src true true

/-- EX7_LDET (R216). -/
def execEx7Ldet (g : Guard) (src : Src) (s : State) : Out := detailLoad s g src false

/-- EX7_LDET_HOME (R216, R79). -/
def execEx7LdetHome (g : Guard) (src : Src) (s : State) : Out := detailLoad s g src true

/-- EX7_TRST (R217). -/
def execEx7Trst (g : Guard) (src : Src) (s : State) : Out :=
  treeOp s g src .update true fun s k c d sel pos xs =>
    (makeStoreRoom s k).modCore k fun c' => c'.holdEx (.trst d sel pos (wfield (c.portW .s7 2) 31 0) xs) none

/-- EX7_TDLD (R218). -/
def execEx7Tdld (g : Guard) (src : Src) (s : State) : Out :=
  accessTrigger s .s7 .scalar g src Core.exLoadRoom fun s k c v =>
    let a := (v.setWidth 64 : Word).toNat
    if wfield (c.portW .s7 1) 63 3 ≠ 0 then exOperand s k (c.portW .s7 1)
    else if a % 32 ≠ 0 then kindFault s k .s7 0x05 a 0
    else
      match translate s.ms (s.who k) a .load with
      | (ms, .error f) => accessFaultAt { s with ms := ms } k .s7 f 0
      | (ms, .ok x) =>
        let n := wfield (c.portW .s7 1) 2 0
        { s with ms := ms }.setCore k ((c.owe .s7 (.td n) .put 9 true).holdEx (.tdld n x) (some c.nextId))

/-- EX7_Q_SET (R362). -/
def execEx7QSet (g : Guard) (src : Src) (s : State) : Out := quayOp s g src .scalar quayWordBad fun c q v => c.holdEx (.qset q (v.setWidth 64)) none

/-- EX7_Q_PUSH (R362). -/
def execEx7QPush (g : Guard) (src : Src) (s : State) : Out := quayOp s g src .vector (fun _ _ => false) fun c q v => c.holdEx (.qpush q v) none

/-- EX7_Q_POP (R362). -/
def execEx7QPop (g : Guard) (src : Src) (s : State) : Out := quayOp s g src .scalar (fun _ _ => false) fun c q _ => c.oweEx false 13 false (.qpop q)

/-- EX7_Q_ADV (R362). -/
def execEx7QAdv (g : Guard) (src : Src) (s : State) : Out :=
  quayOp s g src .scalar
    (fun _ v =>
      let w : Word := v.setWidth 64
      wfield w 63 17 != 0 || wfield w 15 9 != 0 || wfield w 8 0 == 0 || decide (256 < wfield w 8 0))
    fun c q v => c.holdEx (.qadv q (wfield (v.setWidth 64 : Word) 8 0) (v.getLsbD 16)) none

/-- EX7_Q_STS (R362). -/
def execEx7QSts (g : Guard) (src : Src) (s : State) : Out := quayOp s g src .scalar (fun _ _ => false) fun c q _ => c.oweEx true 13 false (.qsts q)

/-- EX7_CP_REG (R348, R352). -/
def execEx7CpReg (g : Guard) (src : Src) (s : State) : Out :=
  trigger s .s7 .scalar g src Core.exRoom fun s k c v =>
    let w : Word := v.setWidth 64
    let o1 := c.portW .s7 1
    let ch := wfield o1 2 0
    let i := wfield o1 7 3
    if wfield o1 63 8 ≠ 0 ∨ !nestIndices.contains i then exOperand s k o1
    else if (i = 2 ∧ wfield w 63 15 ≠ 0) ∨ (i = 4 ∧ wfield w 63 32 ≠ 0) then exOperand s k w
    else s.setCore k ((c.oweIn .s7 (.nest ch i) .put 1 false).holdEx (.cpReg ch i w) (some c.nextId))

/-- EX7_CP_GO (R347, R349, R352). -/
def execEx7CpGo (g : Guard) (src : Src) (s : State) : Out :=
  triggerOr s .s7 .scalar g src Core.nestRoom fun s k c v =>
    let w : Word := v.setWidth 64
    let ch := wfield w 2 0
    if wfield w 63 3 ≠ 0 then some (exOperand s k w) else if c.nestReady ch then some (captureNest s k c ch) else none

/-- EX7_CP_DRAIN (R352, R359). -/
def execEx7CpDrain (g : Guard) (src : Src) (s : State) : Out := channelOp s g src fun c ch => c.oweEx true 13 false (.cpDrain ch)

/-- EX7_CP_STS (R352). -/
def execEx7CpSts (g : Guard) (src : Src) (s : State) : Out := channelOp s g src fun c ch => c.oweEx true 13 false (.cpSts ch)

/-- EX7_SQ_POST (R366, R367). -/
def execEx7SqPost (g : Guard) (src : Src) (s : State) : Out :=
  accessTrigger s .s7 .scalar g src Core.exRoom fun s k c v =>
    let w : Word := v.setWidth 64
    let q := wfield w 7 0
    let e : BitVec 512 := (c.port .s7 0).setWidth 512
    if wfield w 63 8 ≠ 0 then exOperand s k w
    else
      let (ms, x) := s.ms.hwRead (s.sqAddr q) 64
      if sqOpen s x c.ctx c.trap.sup && bit (sqWord x 5) 3 then
        match sqRewrite ms (s.who k) (field (sqWord x 5) 20 4) e with
        | (ms, .error f) => accessFaultAt { s with ms := ms } k .s7 f (if field e.toNat 0 8 = 0x02 then 1 else 0)
        | (ms, .ok (e, refuse)) => { s with ms := ms }.setCore k (c.oweEx true 13 false (.sqPost q e refuse))
      else { s with ms := ms }.setCore k (c.oweEx true 13 false (.sqPost q e false))

/-- EX7_SQ_CQACK (R366). -/
def execEx7SqCqack (g : Guard) (src : Src) (s : State) : Out :=
  trigger s .s7 .scalar g src Core.exRoom fun s k c v =>
    let w : Word := v.setWidth 64
    let o1 := c.portW .s7 1
    if wfield w 63 28 ≠ 0 ∨ wfield w 15 12 ≠ 0 ∨ wfield w 11 0 = 0 then exOperand s k w
    else if wfield o1 63 8 ≠ 0 then exOperand s k o1
    else
      let (ms, x) := s.ms.hwRead (s.sqAddr (wfield o1 7 0)) 64
      if sqOpen s x c.ctx c.trap.sup && decide (field (sqWord x 4) 32 12 < wfield w 11 0) then exOperand { s with ms := ms } k w
      else { s with ms := ms }.setCore k (c.oweEx true 13 false (.sqCqack (wfield o1 7 0) (wfield w 11 0) (wfield w 27 16)))

end Sys2Proof.Machine
end

