-- ==== Sys2Proof/Machine/Mx6.lean ====
section
/-!
DEFINITION. The instructions of `mx6` as they are dispatched (13 R302 to R320; 14 R324 to R345): operand checks, captured
operands, and the command that enters the matrix engine's queue. What a command does when it fires stands in Matrix.lean.
-/

namespace Sys2Proof.Machine

/-! ### Tile registers (13 R302) -/

/-- The number of half h of row k of tile register n. -/
def tileKey (n k h : Nat) : Nat := 192 * n + 2 * k + h

/-- `n` halves from a number, with their poison. -/
def Matrix.halves (m : Matrix) : Nat → Nat → List (Block × Bool)
  | 0, _ => []
  | n + 1, key => (SMap.get 0 m.tiles key, m.tilePoison.contains key) :: m.halves n (key + 1)

/-- Put halves from a number on; a half takes the poison of its data, and an error that it held is gone. -/
def Matrix.putHalves (m : Matrix) : List (Block × Bool) → Nat → Matrix
  | [], _ => m
  | b :: bs, key =>
    { m with tiles := SMap.set 0 m.tiles key b.1
             tilePoison := if b.2 then setInsert m.tilePoison key else m.tilePoison.filter (· != key)
             tileErr := m.tileErr.filter (· != key) }.putHalves bs (key + 1)

/-! ### Accumulator tiles -/

/-- The number of element j of row r of tile c n. -/
def accKey (n r j : Nat) : Nat := (96 * n + r) * 96 + j

def Matrix.elem (m : Matrix) (n r j : Nat) : BitVec 40 := SMap.get 0 m.acc (accKey n r j)

/-- The row r of tile c n. -/
def Matrix.accRow (m : Matrix) (n r : Nat) : List (BitVec 40) := (upto 0 96).map (m.elem n r)

/-- Elements that are overwritten are neither poisoned nor in error. -/
def Matrix.accClean (m : Matrix) (gone : Nat → Bool) : Matrix :=
  let keep (l : List Nat) : List Nat := if l = [] then [] else l.filter fun k => !gone k
  { m with accPoison := keep m.accPoison, accErr := keep m.accErr }

/-- Put elements from element j of a row on. -/
def Matrix.putElems (m : Matrix) (n r j : Nat) (xs : List (BitVec 40)) : Matrix :=
  let ks := upto (accKey n r j) xs.length
  { m.accClean ks.contains with acc := (ks.zip xs).foldl (fun a e => SMap.set 0 a e.1 e.2) m.acc }

/-- Whether one of `len` elements from j on of a row is poisoned. -/
def Matrix.elemsBad (m : Matrix) (n r j len : Nat) : Bool :=
  m.accPoison.any fun k => decide (accKey n r j ≤ k) && decide (k < accKey n r j + len)

/-- Whether an element of `rows` rows is poisoned. -/
def Matrix.rowsBad (m : Matrix) (n r rows : Nat) : Bool := m.elemsBad n r 0 (96 * rows)

/-- Elements of 40 bits as a number, the first in the low bits (02 R45). -/
def packA40 (xs : List (BitVec 40)) : Nat := xs.foldr (fun x a => x.toNat + a <<< 40) 0

/-- The 96 elements of 480 bytes. -/
def unpackA40 (x : Nat) : List (BitVec 40) := (upto 0 96).map fun j => BitVec.ofNat 40 (x >>> (40 * j))

/-- Blocks as a number, the first in the low bits. -/
def blocksNat (bs : List (Block × Bool)) : Nat := bs.foldr (fun b a => b.1.toNat + a <<< 512) 0

/-- A number as `n` blocks. -/
def natBlocks (x : Nat) : Nat → List (Block × Bool)
  | 0 => []
  | n + 1 => (BitVec.ofNat 512 x, false) :: natBlocks (x >>> 512) n

/-! ### The step (R303, R311, R312) -/

def shapeCls (w : Word) : Nat := wfield w 1 0
def shapeVr (w : Word) : Nat := wfield w 15 8
def shapeVc (w : Word) : Nat := wfield w 23 16

def stepAt (w : Word) : Nat := wfield w 10 8
def stepBt (w : Word) : Nat := wfield w 14 12

def shapeDepth (sh : Word) : Nat :=
  match shapeCls sh with
  | 1 => 32
  | 2 => 64
  | _ => 128

/-- The valid depth of a step. -/
def stepDepth (shA shB : Word) : Nat := min (min (shapeVc shA) (shapeVc shB)) (shapeDepth shA)

/-- The elements 0 to kv - 1 of a row of a tile register. -/
def Matrix.tileRow (m : Matrix) (cls h n row kv : Nat) : List Exact :=
  let lo := SMap.get 0 m.tiles (tileKey n row 0)
  let hi := SMap.get 0 m.tiles (tileKey n row 1)
  (upto 0 kv).map fun k => elementValue cls (if k < h then lo else hi) (k % h)

/-- Whether a row that a step reads has a poisoned element. -/
def Matrix.tileRowBad (m : Matrix) (h n row kv : Nat) : Bool :=
  (decide (0 < kv) && m.tilePoison.contains (tileKey n row 0)) || (decide (h < kv) && m.tilePoison.contains (tileKey n row 1))

/-- The element of a cell after a step. -/
def stepCell (a b : List Exact) (c : Exact) : BitVec 40 := BitVec.ofNat 40 (a40Sum ((a.zip b).map (fun e => e.1.mul e.2) ++ [c]))

/-- The valid cells of a step written one after another. -/
def stepCells (m : Matrix) (sw : Word) (a : List (Nat × List Exact)) (b : List (Nat × List Exact)) : List (Nat × BitVec 40) :=
  (a.map fun x => b.map fun y =>
    (accKey (wfield sw 5 0) x.1 y.1,
     stepCell x.2 y.2 (if sw.getLsbD 16 then zero else a40 (m.elem (wfield sw 5 0) x.1 y.1).toNat))).flatten

/-- Whether a step reads a poisoned element. -/
def stepBad (m : Matrix) (sw shA shB : Word) : Bool :=
  let h := shapeDepth shA / 2
  let kv := stepDepth shA shB
  decide (0 < shapeVr shA) && decide (0 < shapeVr shB) &&
  ((upto 0 (shapeVr shA)).any (fun i => m.tileRowBad h (stepAt sw) i kv) ||
   (upto 0 (shapeVr shB)).any (fun j => m.tileRowBad h (stepBt sw) j kv) ||
   (!sw.getLsbD 16 && (upto 0 (shapeVr shA)).any fun i => m.elemsBad (wfield sw 5 0) i 0 (shapeVr shB)))

/-- The tile after a step. -/
def Matrix.step (m : Matrix) (sw shA shB : Word) : Matrix :=
  let cls := shapeCls shA
  let h := shapeDepth shA / 2
  let kv := stepDepth shA shB
  let row (n i : Nat) : Nat × List Exact := (i, m.tileRow cls h n i kv)
  let cells := stepCells m sw ((upto 0 (shapeVr shA)).map (row (stepAt sw))) ((upto 0 (shapeVr shB)).map (row (stepBt sw)))
  { m.accClean fun k => cells.any fun e => e.1 == k with
    acc := cells.foldl (fun a e => SMap.set 0 a e.1 e.2) m.acc
    phase := 0, applied := [], lastStep := some (wfield sw 5 0 % 8) }

/-- The bytes of a row of a conversion's target (R316); 0 for a code that is no target. -/
def targetRow (tgt : Nat) : Nat :=
  match tgt with
  | 0x10 => 256 | 0x11 => 256
  | 0x20 => 128 | 0x21 => 128 | 0x22 => 128 | 0x40 => 128
  | 0x30 => 128 | 0x31 => 128
  | 0xF0 => 384
  | 0xF1 => 480
  | _ => 0

/-! ### Uncorrectable errors that a command would read (18 R378) -/

/-- The engine with no poison but the errors that no block has read yet. -/
def Matrix.errors (m : Matrix) : Matrix := { m with tilePoison := m.tileErr, accPoison := m.accErr }

/-- A quay, and the bytes of its entries (15 R361). -/
def Core.quay (c : Core) (q : Nat) : Quay := SMap.get {} c.cp.quays q
def Quay.bytes (q : Quay) : Nat := 64 * (q.esm1 + 1)

/-- The rows of `size` bytes that a command pushes into a quay, by the ring that the quay has as the command is dispatched;
at least one (log entry 95). -/
def Core.quayRows (c : Core) (q size : Nat) : Nat := max 1 ((c.quay q).bytes / size)

/-- Whether a command reads a tile register or accumulator tile that has such an error. -/
def MxCmd.meetsError (c : Core) (cmd : MxCmd) : Bool :=
  let e := c.mx.errors
  match cmd with
  | .tst w => (e.halves (2 * c.quayRows (field w 0 4) 128) (tileKey (field w 4 3) (field w 8 7) 0)).any Prod.snd
  | .trd w => (e.halves 2 (tileKey (field w 4 3) (field w 8 7) 0)).any Prod.snd
  | .step w a b => stepBad e (BitVec.ofNat 64 w) a b
  | .ard w => e.elemsBad (field w 0 6) (field w 8 7) (32 * field w 21 2) 32
  | .acvt w => e.rowsBad (field w 0 6) (field w 8 7) (c.quayRows (field w 16 4) (targetRow (field w 24 8)))
  | .acvts w _ rows => e.rowsBad (field w 0 6) (field w 8 7) rows
  | .bsend w => e.rowsBad (field w 4 6) 0 96
  | .bwait w => e.rowsBad (field w 4 6) 0 96
  | _ => false

/-- The errors have been delivered; the data stays poisoned. -/
def Matrix.errorsRead (m : Matrix) : Matrix := { m with tileErr := [], accErr := [] }

/-- A precise machine check for an uncorrectable error in the matrix engine's storage (18 R378). -/
def takeTileError (s : State) (k : Nat) : State :=
  takeFault (s.modCore k fun c => { c with mx := c.mx.errorsRead }) k { code := 0x71, slot := 6, bidx := (s.core k).ctl.bidx }

/-! ### Room in the queue (13 R305) and owed results -/

def Core.mxRoom (c : Core) : Bool := decide (c.mx.queue.length < 16) && decide (c.tl + (c.mx.queue.filter fun e => !e.released).length < 63)

/-- A command whose result goes to `mx6.r` of later blocks (R308). -/
def Core.oweMx (c : Core) (cmd : MxCmd) (w : Word) : Core :=
  (c.owe .s6 (.rport 6 false) .put 12 false).holdMx cmd w (some c.nextId)

/-- An operand fault of slot 6. -/
def mxOperand (s : State) (k : Nat) (w : Word) : State := moveFault s k .s6 0x04 w.toNat

/-- A shape register as the current bundle sees it (13 R303, R304). -/
def Core.shape (c : Core) (n : Nat) : Word := (c.rd (.tsh n)).setWidth 64

/-- Whether a value for a shape register breaks its layout (R303). -/
def shapeBad (w : Word) : Bool := wfield w 63 24 != 0 || wfield w 7 2 != 0 || decide (96 < shapeVr w) || decide (128 < shapeVc w)

/-- The word is the first operand. -/
def firstWord (_ : Core) (v : Vec) : Word := v.setWidth 64

/-- The word is operand port 0. -/
def portWord (c : Core) (_ : Vec) : Word := c.portW .s6 0

/-! ### Command words -/

/-- Tile word (R309); `plain` if QUAY must be zero. -/
def tileWordBad (plain : Bool) (w : Word) : Bool :=
  wfield w 63 15 != 0 || decide (95 < wfield w 14 8) || w.getLsbD 7 || (plain && wfield w 3 0 != 0)

/-- Step word (R311), reserved bits. -/
def stepWordBad (w : Word) : Bool :=
  wfield w 63 17 != 0 || w.getLsbD 15 || w.getLsbD 11 || wfield w 7 6 != 0

/-- Zero word (R314). -/
def zeroWordBad (w : Word) : Bool := wfield w 63 14 != 0 || wfield w 7 6 != 0 || decide (63 < wfield w 5 0 + wfield w 13 8)

/-- Row word (R314). -/
def rowWordBad (rz seg quay : Bool) (w : Word) : Bool :=
  wfield w 63 23 != 0 || w.getLsbD 15 || wfield w 7 6 != 0 || decide (95 < wfield w 14 8) || wfield w 22 21 == 3 ||
  (!rz && w.getLsbD 20) || (!seg && wfield w 22 21 != 0) || (!quay && wfield w 19 16 != 0)

def convTgt (w : Word) : Nat := wfield w 31 24

/-- Conversion word (R316); `plain` if QUAY must be zero. -/
def convWordBad (plain : Bool) (w : Word) : Bool :=
  wfield w 63 42 != 0 || wfield w 23 20 != 0 || w.getLsbD 15 || wfield w 7 6 != 0 || decide (95 < wfield w 14 8) ||
  targetRow (convTgt w) == 0 || (w.getLsbD 41 && convTgt w != 0xF0) || (w.getLsbD 40 && decide (0xF0 ≤ convTgt w)) ||
  (plain && wfield w 19 16 != 0)

/-- The ranks of a chain's hops (14 R325). -/
def chainRanks (w o o1 : Word) : List Nat :=
  ((upto 0 16).map fun i => if i < 8 then field o.toNat (8 * i) 8 else field o1.toNat (8 * (i - 8)) 8).take (wfield w 7 4 + 1)

/-- Chain word and ranks (R325). -/
def chainBad (crewn : Nat) (w : Word) (ranks : List Nat) : Bool :=
  wfield w 63 8 != 0 || wfield w 7 4 == 0 || (w.getLsbD 3 && decide (8 < wfield w 7 4)) ||
  ranks.any (fun r => decide (crewn ≤ r)) || !decide ranks.Nodup

/-- Send word (R328). -/
def sendWordBad (w : Word) : Bool := wfield w 63 10 != 0 || w.getLsbD 3

/-! ### A command as it is dispatched (R305) -/

/-- The shape registers that a step reads. -/
def stepShapes (w : Word) : List Loc := if stepWordBad w then [] else [.tsh (stepAt w), .tsh (stepBt w)]

/-- The shape register that `shget` reads. -/
def shgetShape (w : Word) : List Loc := if wfield w 63 3 = 0 then [.tsh w.toNat] else []

/-- Whether the command that has just entered the queue reads what has an uncorrectable error. -/
def Core.lastMeetsError (c : Core) : Bool :=
  match c.mx.queue.getLast? with
  | some e => e.cmd.meetsError c
  | none => false

/-- A command enters the queue, unless it reads what has an uncorrectable error. -/
def enterMx (s : State) (k : Nat) (c : Core) : State := if c.lastMeetsError then takeTileError s k else s.setCore k c

/-- A command of slot 6 with the word that `bad` checks; it waits for the shape registers that it names (R305). -/
def mxOp (s : State) (g : Guard) (src : Src) (dk : DKind) (word : Core → Vec → Word) (bad : Core → Word → Bool)
    (act : Core → Vec → Word → Core) (names : Word → List Loc := fun _ => []) : Out :=
  triggerOr s .s6 dk g src Core.mxRoom fun s k c v =>
    let w := word c v
    if !(names w).all c.isReady then none
    else
      match (names w).findSome? c.badAt with
      | some n => some (takeNotice s k n 6 c.ctl.bidx)
      | none => some (if bad c w then mxOperand s k w else enterMx s k (act c v w))

/-! ### The instructions -/

/-- MX6_TLD (R309, R310). -/
def execMx6Tld (g : Guard) (src : Src) (s : State) : Out := mxOp s g src .scalar firstWord (fun _ => tileWordBad false) fun c _ w => c.holdMx (.tld w.toNat) w none

/-- MX6_TLDV (R309, R310). -/
def execMx6Tldv (g : Guard) (src : Src) (s : State) : Out := mxOp s g src .vector portWord (fun _ => tileWordBad true) fun c v w => c.holdMx (.tldv v w.toNat) w none

/-- MX6_TST (R309, R310). -/
def execMx6Tst (g : Guard) (src : Src) (s : State) : Out := mxOp s g src .scalar firstWord (fun _ => tileWordBad false) fun c _ w => c.holdMx (.tst w.toNat) w none

/-- MX6_TRD (R309, R310). -/
def execMx6Trd (g : Guard) (src : Src) (s : State) : Out := mxOp s g src .scalar firstWord (fun _ => tileWordBad true) fun c _ w => c.oweMx (.trd w.toNat) w

/-- MX6_SHSET (R303, R304, R308). -/
def execMx6Shset (g : Guard) (src : Src) (s : State) : Out :=
  trigger s .s6 .scalar g src Core.mxRoom fun s k c v =>
    let w : Word := v.setWidth 64
    let o := c.portW .s6 0
    if shapeBad w then mxOperand s k w
    else if wfield o 63 3 ≠ 0 then mxOperand s k o
    else s.setCore k ((c.oweIn .s6 (.tsh o.toNat) .put 1 false).holdMx (.shset o.toNat w) w (some c.nextId))

/-- MX6_SHGET (R303, R308). -/
def execMx6Shget (g : Guard) (src : Src) (s : State) : Out :=
  mxOp (names := shgetShape) s g src .scalar firstWord (fun _ w => wfield w 63 3 != 0) fun c _ w =>
    c.oweMx (.shget w.toNat (c.shape w.toNat)) w

/-- MX6_STEP (R311, R312). -/
def execMx6Step (g : Guard) (src : Src) (s : State) : Out :=
  mxOp (names := stepShapes) s g src .scalar firstWord
    (fun c w => stepWordBad w || shapeCls (c.shape (stepAt w)) == 0 || shapeCls (c.shape (stepBt w)) == 0 ||
      shapeCls (c.shape (stepAt w)) != shapeCls (c.shape (stepBt w)))
    fun c _ w => c.holdMx (.step w.toNat (c.shape (stepAt w)) (c.shape (stepBt w))) w none

/-- MX6_AZERO (R314, R315). -/
def execMx6Azero (g : Guard) (src : Src) (s : State) : Out := mxOp s g src .scalar firstWord (fun _ => zeroWordBad) fun c _ w => c.holdMx (.azero w.toNat) w none

/-- MX6_ARD (R314, R315). -/
def execMx6Ard (g : Guard) (src : Src) (s : State) : Out := mxOp s g src .scalar firstWord (fun _ => rowWordBad true true false) fun c _ w => c.oweMx (.ard w.toNat) w

/-- MX6_AWR (R314, R315). -/
def execMx6Awr (g : Guard) (src : Src) (s : State) : Out := mxOp s g src .vector portWord (fun _ => rowWordBad false true false) fun c v w => c.holdMx (.awr v w.toNat) w none

/-- MX6_ACVT (R316, R317). -/
def execMx6Acvt (g : Guard) (src : Src) (s : State) : Out := mxOp s g src .scalar firstWord (fun _ => convWordBad false) fun c _ w => c.holdMx (.acvt w.toNat) w none

/-- MX6_ACVTS (R316, R317, R306). -/
def execMx6Acvts (g : Guard) (src : Src) (s : State) : Out :=
  trigger s .s6 .scalar g src Core.mxRoom fun s k c v =>
    let w : Word := v.setWidth 64
    let off := (c.portW .s6 0).toNat
    let rows := (c.portW .s6 1).toNat
    if convWordBad true w then mxOperand s k w
    else if rows = 0 ∨ 96 < wfield w 14 8 + rows then mxOperand s k (c.portW .s6 1)
    else if off % 64 ≠ 0 then kindFault s k .s6 0x05 off 1
    else if !c.padOk off (rows * targetRow (convTgt w)) then kindFault s k .s6 0x0D off 1
    else enterMx s k (c.holdMx (.acvts w.toNat off rows) w none)

/-- MX6_ALDQ (R314, R315). -/
def execMx6Aldq (g : Guard) (src : Src) (s : State) : Out := mxOp s g src .scalar firstWord (fun _ => rowWordBad false false true) fun c _ w => c.holdMx (.aldq w.toNat) w none

/-- MX6_BCHAIN (R325, R326). -/
def execMx6Bchain (g : Guard) (src : Src) (s : State) : Out :=
  trigger s .s6 .scalar g src Core.mxRoom fun s k c v =>
    let w : Word := v.setWidth 64
    let ranks := chainRanks w (c.portW .s6 0) (c.portW .s6 1)
    if chainBad (match c.task with | some t => t.crewn | none => 0) w ranks then mxOperand s k w
    else s.setCore k (c.oweMx (.bchain w.toNat ranks) w)

/-- MX6_BSEND (R328, R329). -/
def execMx6Bsend (g : Guard) (src : Src) (s : State) : Out := mxOp s g src .scalar firstWord (fun _ => sendWordBad) fun c _ w => c.holdMx (.bsend w.toNat) w none

/-- MX6_BWAIT (R328, R329). -/
def execMx6Bwait (g : Guard) (src : Src) (s : State) : Out := mxOp s g src .scalar firstWord (fun _ => sendWordBad) fun c _ w => c.holdMx (.bwait w.toNat) w none

/-- MX6_BFREE (R333). -/
def execMx6Bfree (g : Guard) (src : Src) (s : State) : Out := mxOp s g src .scalar firstWord (fun _ w => wfield w 63 3 != 0) fun c _ w => c.oweMx (.bfree w.toNat) w

/-- MX6_BSTS (R345). -/
def execMx6Bsts (g : Guard) (src : Src) (s : State) : Out := mxOp s g src .scalar firstWord (fun _ w => wfield w 63 1 != 0) fun c _ w => c.oweMx (.bsts (w.getLsbD 0)) w

/-- MX6_RSTS (R307, R320). -/
def execMx6Rsts (g : Guard) (src : Src) (s : State) : Out := mxOp s g src .scalar firstWord (fun _ _ => false) fun c _ w => c.oweMx .rsts w

/-- MX6_RCLR (R320). -/
def execMx6Rclr (g : Guard) (src : Src) (s : State) : Out := mxOp s g src .scalar firstWord (fun _ w => wfield w 63 11 != 0 || wfield w 7 1 != 0) fun c _ w => c.holdMx (.rclr w.toNat) w none

end Sys2Proof.Machine
end

