-- ==== Sys2Proof/Machine/Control.lean ====
section
/-!
DEFINITION. The instructions of `ctl` as they are dispatched (10 R264 to R277; 18 R381 to R392; 20 R407 to R413), and the
exit moves of `ctl`, `ix1` and `ls2` (10 R262, R263). Loop-sequencer operations act at once; the others are held, and
what they do stands in Access.lean and Block.lean.
-/

namespace Sys2Proof.Machine

/-- The first operand as a word. -/
def opWord (v : Vec) : Word := v.setWidth 64

/-- An operand fault of slot 0. -/
def ctlOperand (s : State) (k : Nat) (w : Word) : State := moveFault s k .s0 0x04 w.toNat

/-- Whether a range is active (R264). -/
def Core.ranging (c : Core) : Bool := c.seq.lv != 0

/-! ### The loop sequencer (R265, R266) -/

/-- A write of the loop sequencer: `bad` finds the operand that breaks a limit. -/
def ctlWrite (s : State) (g : Guard) (src : Src) (bad : Core → Word → Option Word) (act : Core → Word → Core) : Out :=
  trigger s .s0 .scalar g src noNeed fun s k c v =>
    match bad c (opWord v) with
    | some w => ctlOperand s k w
    | none => s.setCore k (act c (opWord v))

/-! ### Bucket select (R270) -/

/-- The bucket sizes: the bytes before the first zero byte. -/
def buckets (o : Nat) : Nat → List Nat
  | 0 => []
  | n + 1 => if o % 256 = 0 then [] else o % 256 :: buckets (o / 256) n

/-- The least bucket that holds `v`, or their number. -/
def bucketOf (v : Nat) : List Nat → Nat
  | [] => 0
  | b :: bs => if v ≤ 96 * b then 0 else bucketOf v bs + 1

/-- The valid count of the last tile. -/
def validCount (v : Nat) : Nat := if v = 0 then 0 else v - 96 * ((v - 1) / 96)

/-- Set the valid count of the shape registers of a mask. -/
def setShapes (c : Core) (mask n : Nat) (op : WriteOp) : List Nat → Core
  | [] => c
  | i :: is => setShapes (if mask.testBit i then c.write .s0 (.tsh i) op (BitVec.ofNat 1024 n) 1 else c) mask n op is

/-! ### Held operations of slot 0 (R272, 18 R382, 20 R407) -/

/-- A held operation of slot 0; `owes` if it delivers a result in `ctl.r`. -/
def Core.holdCtl (c : Core) (owes : Bool) (op : HOp) : Core :=
  if owes then (c.owe .s0 (.rport 0 false) .put 14 false).hold .s0 op (some c.nextId) else c.hold .s0 op none

/-- An operation that ends or diverts its block once it has committed. -/
def Core.finish (c : Core) (op : HOp) : Core := { c with ctl := { c.ctl with final := c.ctl.final ++ [op] } }

/-- A held operation with a check of its operands. -/
def ctlHeld (s : State) (g : Guard) (src : Src) (bad : Core → Word → Option Word) (act : Core → Word → Core) : Out :=
  trigger s .s0 .scalar g src Core.storeRoom fun s k c v =>
    match bad c (opWord v) with
    | some w => ctlOperand s k w
    | none => s.setCore k (act c (opWord v))

/-- The same for a supervisor-only operation: the mode comes first (08 R204). -/
def ctlPrivileged (s : State) (g : Guard) (src : Src) (bad : Core → Word → Option Word) (act : Core → Word → Core) : Out :=
  trigger s .s0 .scalar g src Core.storeRoom fun s k c v =>
    if !c.trap.sup then privilegeFault s k .s0
    else
      match bad c (opWord v) with
      | some w => ctlOperand s k w
      | none => s.setCore k (act c (opWord v))

def noBad (_ : Core) (_ : Word) : Option Word := none

/-- TL = 0 makes `ctl.rfe`, `ctl.park` and `ctl.abort` an operand fault (18 R382). -/
def notTrapped (c : Core) (a : Word) : Option Word := if c.trap.tl then none else some a

/-! ### Records named by an instruction (R272) -/

/-- An instruction on a record: alignment, translation with R and W, and then `more`. -/
def recordOp (s : State) (g : Guard) (src : Src) (bad : Core → Option Word) (act : State → Nat → Core → Nat → State) : Out :=
  trigger s .s0 .scalar g src Core.storeRoom fun s k c v =>
    let a := (opWord v).toNat
    match bad c with
    | some w => ctlOperand s k w
    | none =>
      if a % 64 ≠ 0 then kindFault s k .s0 0x05 a 2
      else
        match translate s.ms (s.who k) a .atomic with
        | (ms, .error f) => accessFaultAt { s with ms := ms } k .s0 f 2
        | (ms, .ok _) => act { s with ms := ms } k c a

/-- Forks of the block that have reserved a deque entry (09 R247). -/
def Core.forks (c : Core) : Nat :=
  (c.ctl.store.filter fun h => match h.op with | .fork _ => true | _ => false).length

/-- Whether a push finds the deque and the spill area full, with the forks of the block before it (09 R248). -/
def dequeFull (s : State) (k : Nat) (c : Core) : Bool :=
  decide (64 + 4096 ≤ (SMap.get [] s.sched.deque k).length + min 4096 (SMap.get 0 s.sched.spill k) + c.forks)

/-! ### System registers (18 R380, R381) -/

def sysAssigned (n : Nat) : Bool := [0x000, 0x001, 0x002, 0x010, 0x011, 0x012, 0x020, 0x030, 0x031].contains n

def sysUser (n : Nat) : Bool := n == 0x020 || n == 0x030 || n == 0x031

/-- FRAME: the software area of the frame that a pre-emption has allocated (R381, R393). -/
def frameBase (savev core f : Nat) : Nat := va56 (savev * pow2 32 + 0x1000000 * core + 0x400000 * f)

def sysRead (s : State) (k n : Nat) : State × Word :=
  let c := s.core k
  match n with
  | 0x000 => (s, c.xroot)
  | 0x001 => (s, c.xrdt)
  | 0x002 => (s, c.xpool)
  | 0x010 => (s, c.trap.fcause)
  | 0x011 => (s, c.trap.faddr)
  | 0x012 => (s, c.trap.fpc)
  | 0x020 => (s, BitVec.ofNat 64 (b2n c.trap.sup + 2 * b2n c.trap.tl))
  | 0x030 => (s, BitVec.ofNat 64 c.ctx)
  | 0x031 =>
    match c.trap.preempt with
    | .stub f _ =>
      let (s, e) := s.readCtx c.ctx
      (s, BitVec.ofNat 64 (frameBase e.savev k f + 0x37B000))
    | _ => (s, 0)
  | _ => (s, 0)

/-- Whether a value sets a reserved bit of a system register (01 R14, 04 R117, 18 R380). -/
def sysReserved (n : Nat) (v : Word) : Bool :=
  match n with
  | 0x000 => wfield v 63 52 != 0 || wfield v 19 16 != 0
  | 0x001 => wfield v 63 56 != 0 || wfield v 11 0 != 0
  | 0x002 => wfield v 63 44 != 0 || wfield v 9 0 != 0
  | 0x010 => wfield v 63 23 != 0
  | 0x012 => wfield v 63 38 != 0
  | _ => false

/-- A write of a system register, at the commit of its block (18 R382). -/
def sysWrite (c : Core) (n : Nat) (v : Word) : Core :=
  match n with
  | 0x000 => { c with xroot := v }
  | 0x001 => { c with xrdt := v }
  | 0x002 => { c with xpool := v }
  | 0x010 => { c with trap := { c.trap with fcause := v } }
  | 0x011 => { c with trap := { c.trap with faddr := v } }
  | 0x012 => { c with trap := { c.trap with fpc := v } }
  | _ => c

/-! ### Exits (R262) -/

/-- An exit that fires: its target, and its link to sa31. -/
def Core.fireExit (c : Core) (sl : Slot) (target : Word) (link : Bool) : Core :=
  let c := { c with ctl := { c.ctl with exit := some target.toNat, exitNeg := target.msb } }
  if link then c.write sl (.sreg false 31) .put (BitVec.ofNat 1024 c.ctl.cur.stop) 1 else c

/-- An exit move: of those whose guards are true, the one in the lowest slot fires (06 R172). -/
def exitMove (x : ExitSlot) (g : Guard) (src : Src) (s : State) (relative link : Bool) : Out :=
  let k := s.curCore
  if (s.core k).ctl.exit.isSome then .next (s.setCore k (s.core k).pop)
  else
    regTrigger s x.slot .scalar g src noNeed fun c v =>
      c.fireExit x.slot (if relative then BitVec.ofNat 64 c.ctl.cur.index + opWord v else opWord v) link

/-! ### The instructions -/

/-- CTL_LVL (R265). -/
def execCtlLvl (g : Guard) (src : Src) (s : State) : Out :=
  ctlWrite s g src
    (fun c a => if 5 < wfield (c.portW .s0 0) 2 0 then some (c.portW .s0 0) else if wfield a 63 16 ≠ 0 ∨ c.ranging then some a else none)
    fun c a => c.write .s0 (.trip (wfield (c.portW .s0 0) 2 0)) .put (BitVec.ofNat 1024 (wfield a 15 0 + 1)) 1

/-- CTL_CABASE (R265). -/
def execCtlCabase (g : Guard) (src : Src) (s : State) : Out :=
  ctlWrite s g src noBad fun c a => c.write .s0 (.cb (wfield (c.portW .s0 0) 2 0)) .put (wordVec a) 1

/-- CTL_CASTR (R265). -/
def execCtlCastr (g : Guard) (src : Src) (s : State) : Out :=
  ctlWrite s g src
    (fun c a => if 5 < wfield (c.portW .s0 0) 6 4 then some (c.portW .s0 0) else if c.ranging then some a else none)
    fun c a => c.write .s0 (.cs (wfield (c.portW .s0 0) 2 0) (wfield (c.portW .s0 0) 6 4)) .put (wordVec a) 1

/-- CTL_LOOP (R265, R266). -/
def execCtlLoop (g : Guard) (src : Src) (s : State) : Out :=
  ctlWrite s g src
    (fun c a => if wfield a 63 10 ≠ 0 ∨ wfield a 2 0 = 0 ∨ wfield a 2 0 = 7 ∨ c.ranging then some a else none)
    fun c a => { c with ctl := { c.ctl with loop := some (a.toNat, wfield (c.portW .s0 1) 31 0) } }

/-- CTL_BSEL (R270). -/
def execCtlBsel (g : Guard) (src : Src) (s : State) : Out :=
  ctlWrite s g src
    (fun c _ =>
      let o2 := c.portW .s0 2
      if wfield o2 63 4 ≠ 0 ∨ wfield o2 3 0 = 0 ∨ 12 < wfield o2 3 0 then some o2
      else if wfield (c.portW .s0 3) 63 9 ≠ 0 then some (c.portW .s0 3) else none)
    fun c a =>
      let j := bucketOf a.toNat (buckets (c.portW .s0 0).toNat 8)
      let o3 := c.portW .s0 3
      let c1 := c.write .s0 (.rport 0 false) .put (BitVec.ofNat 1024 j) 1
      let c2 := c1.write .s0 (.rport 0 true) .put (BitVec.ofNat 1024 (wfield (c.portW .s0 1) 31 0 + j * wfield (c.portW .s0 2) 3 0)) 1
      setShapes c2 (wfield o3 7 0) (validCount a.toNat) (if o3.getLsbD 8 then .byte2 else .byte1) (upto 0 8)

/-- CTL_WAIT (R271). -/
def execCtlWait (g : Guard) (src : Src) (s : State) : Out :=
  trigger s .s0 .scalar g src noNeed fun s k c v =>
    let a := opWord v
    if wfield a 63 24 ≠ 0 then ctlOperand s k a
    else
      let s := s.setCore k { c with ctl := { c.ctl with waiting := some a.toNat } }
      if wfield a 11 6 < 63 then performStores s k else s

/-- CTL_FORK (R272, R273, 09 R248). -/
def execCtlFork (g : Guard) (src : Src) (s : State) : Out :=
  recordOp s g src (fun _ => none) fun s k c a =>
    if dequeFull s k c then kindFault s k .s0 0x16 a 2 else s.setCore k (c.holdCtl true (.fork a))

/-- CTL_JOIN (R272, R274). -/
def execCtlJoin (g : Guard) (src : Src) (s : State) : Out := recordOp s g src (fun _ => none) fun s k c a => s.setCore k (c.finish (.join a))

/-- CTL_SPAWN (R272, R273). -/
def execCtlSpawn (g : Guard) (src : Src) (s : State) : Out := recordOp s g src (fun _ => none) fun s k c a => s.setCore k (c.holdCtl true (.spawn a))

/-- CTL_LAUNCH (R272, R276). -/
def execCtlLaunch (g : Guard) (src : Src) (s : State) : Out :=
  recordOp s g src (fun c => if wfield (c.portW .s0 0) 63 12 ≠ 0 then some (c.portW .s0 0) else none) fun s k c a =>
    s.setCore k (c.holdCtl true (.launch a (c.portW .s0 0).toNat))

/-- CTL_DONE (R272, R275). -/
def execCtlDone (g : Guard) (src : Src) (s : State) : Out := ctlHeld s g src noBad fun c _ => c.finish .done

/-- CTL_BAR (R272, R277). -/
def execCtlBar (g : Guard) (src : Src) (s : State) : Out := ctlHeld s g src noBad fun c _ => c.hold .s0 .bar none

/-- CTL_SRD (18 R381, R382). -/
def execCtlSrd (g : Guard) (src : Src) (s : State) : Out :=
  trigger s .s0 .scalar g src noNeed fun s k c v =>
    let a := opWord v
    let n := wfield a 11 0
    if !sysAssigned n then ctlOperand s k a
    else if !sysUser n && !c.trap.sup then privilegeFault s k .s0
    else if wfield a 63 12 ≠ 0 then ctlOperand s k a
    else
      let (s, w) := sysRead s k n
      s.setCore k (c.result .s0 false 14 (wordVec w))

/-- CTL_SWR (18 R381, R382). -/
def execCtlSwr (g : Guard) (src : Src) (s : State) : Out :=
  trigger s .s0 .scalar g src Core.storeRoom fun s k c v =>
    let a := opWord v
    let o := c.portW .s0 0
    let n := wfield o 11 0
    if !sysAssigned n then ctlOperand s k o
    else if !c.trap.sup then privilegeFault s k .s0
    else if sysUser n || wfield o 63 12 != 0 then ctlOperand s k o
    else if sysReserved n a then ctlOperand s k a
    else s.setCore k (c.holdCtl false (.swr n a))

/-- CTL_TRAP (18 R382, R388). -/
def execCtlTrap (g : Guard) (src : Src) (s : State) : Out := ctlHeld s g src noBad fun c a => c.finish (.trap a)

/-- CTL_RFE (18 R382, R385). -/
def execCtlRfe (g : Guard) (src : Src) (s : State) : Out := ctlPrivileged s g src notTrapped fun c _ => c.finish .rfe

/-- CTL_PARK (18 R382, R387). -/
def execCtlPark (g : Guard) (src : Src) (s : State) : Out := ctlPrivileged s g src notTrapped fun c _ => c.finish .park

/-- CTL_ABORT (18 R382, R386). -/
def execCtlAbort (g : Guard) (src : Src) (s : State) : Out := ctlPrivileged s g src notTrapped fun c _ => c.finish .abort

/-- CTL_YIELD (18 R382, R392). -/
def execCtlYield (g : Guard) (src : Src) (s : State) : Out :=
  ctlHeld s g src
    (fun c a => if wfield a 63 32 ≠ 0 then some a else match c.trap.preempt with | .stub _ _ => none | _ => some a)
    fun c a => c.finish (.yield a.toNat)

/-- CTL_UNPARK (18 R382, R387). -/
def execCtlUnpark (g : Guard) (src : Src) (s : State) : Out :=
  ctlPrivileged s g src (fun _ a => if wfield a 63 8 ≠ 0 then some a else none) fun c a => c.holdCtl true (.unpark a.toNat)

/-- CTL_CLKSET (20 R407, R408). -/
def execCtlClkset (g : Guard) (src : Src) (s : State) : Out :=
  ctlHeld s g src
    (fun _ a => if wfield a 63 10 ≠ 0 ∨ wfield a 7 5 ≠ 0 ∨ wfield a 4 0 < 2 ∨ 16 < wfield a 4 0 then some a else none)
    fun c a => c.holdCtl true (.clkset (wfield a 9 8) (wfield a 4 0))

/-- CTL_VSET (20 R407, R409). -/
def execCtlVset (g : Guard) (src : Src) (s : State) : Out :=
  ctlHeld s g src (fun _ a => if wfield a 63 7 ≠ 0 ∨ 70 < a.toNat then some a else none)
    fun c a => c.holdCtl true (.vset a.toNat)

/-- CTL_CLKRD (20 R407, R410). -/
def execCtlClkrd (g : Guard) (src : Src) (s : State) : Out :=
  ctlHeld s g src (fun _ a => if 6 < a.toNat then some a else none) fun c a => c.holdCtl true (.clkrd a.toNat)

/-- CTL_SWSEL (20 R407, R413). -/
def execCtlSwsel (g : Guard) (src : Src) (s : State) : Out :=
  ctlHeld s g src
    (fun c a =>
      if wfield a 63 32 ≠ 0 then some a
      else if wfield (c.portW .s0 0) 63 32 ≠ 0 then some (c.portW .s0 0)
      else if wfield (c.portW .s0 1) 63 32 ≠ 0 then some (c.portW .s0 1) else none)
    fun c a => c.holdCtl true (.swsel a.toNat (c.portW .s0 0).toNat (c.portW .s0 1).toNat)

/-- EXIT_BR (R262). -/
def execExitBr (x : ExitSlot) (g : Guard) (src : Src) (s : State) : Out := exitMove x g src s true false

/-- EXIT_JMP (R262). -/
def execExitJmp (x : ExitSlot) (g : Guard) (src : Src) (s : State) : Out := exitMove x g src s false false

/-- EXIT_CALL (R262). -/
def execExitCall (x : ExitSlot) (g : Guard) (src : Src) (s : State) : Out := exitMove x g src s true true

/-- EXIT_CALLA (R262). -/
def execExitCalla (x : ExitSlot) (g : Guard) (src : Src) (s : State) : Out := exitMove x g src s false true

/-- EXIT_RET (R262). -/
def execExitRet (x : ExitSlot) (g : Guard) (src : Src) (s : State) : Out := exitMove x g src s false false

end Sys2Proof.Machine
end

