-- ==== Sys2Proof/Machine/Sched.lean ====
section
/-!
DEFINITION. The hardware scheduler: records, streams, launches, crews, ready lists, deques, successors and share counters
(09 R226 to R255, R444).
-/

namespace Sys2Proof.Machine

/-! ### Record access (R226, R444) -/

/-- The status word of a completed record (R228, R229). -/
def statusWord (status aux : Nat) : Nat := status <<< 56 + (aux % pow2 32) <<< 24 + 0xF

/-- The status word of a queued or ready record: its LINK and STATE. -/
def linkWord (link state : Nat) : Nat := field link 6 50 * 64 + state

/-- Who makes a record access: the record's context, in a mode (R226, R444). -/
def State.ctxWho (s : State) (core ctx : Nat) (sup : Bool) : State × Who :=
  let e := (s.readCtx ctx).2
  ((s.readCtx ctx).1, { core := core, xroot := e.xroot, xrdt := e.xrdt, xpool := e.xpool, sup := sup, devn := s.fab.devn, sched := true })

/-- Word i of a record. -/
def recWord (r i : Nat) : Nat := field r (64 * i) 64

/-- Read a record at its home: its translation and its 64 bytes, or a fault code (R24, R441); `upd` if it is read to be
updated, which needs R and W where a read needs R (01 R22). -/
def recordRead (ms : MemSys) (w : Who) (va : Nat) (upd : Bool) : MemSys × Except Nat (Xlat × Nat) :=
  match translate ms w va (if upd then .atomic else .load) with
  | (ms, .error f) => (ms, .error f.code)
  | (ms, .ok x) =>
    if x.dev.isSome then (ms, .error 0x0B)
    else if x.hole then (ms, .ok (x, 0))
    else
      let (ms, g) := homeRead ms w x x.pa 64 2 (if upd then .atomic else .read)
      match g.bad with
      | some n => (ms, .error n.code)
      | none => (ms, .ok (x, g.val))

/-- Write the status word of a record, an update of it that needs R and W (01 R22); one that faults or is denied leaves
it. -/
def State.setStatus (s : State) (w : Who) (va v : Nat) : State :=
  match translate s.ms w va .atomic with
  | (ms, .error _) => { s with ms := ms }
  | (ms, .ok x) =>
    if x.dev.isSome then { s with ms := ms }
    else { s with ms := (homeWrite ms w x (x.pa + 8) 8 v (allOnes 8) 2 false).1 }

def recKind (r : Nat) : Nat := field (recWord r 0) 60 4
def recPrio (r : Nat) : Nat := field (recWord r 0) 57 3
def recRst (r : Nat) : Bool := bit (recWord r 0) 56
def recSup (r : Nat) : Bool := bit (recWord r 0) 55
def recSl (r : Nat) : Bool := bit (recWord r 0) 54
def recNsucc (r : Nat) : Nat := field (recWord r 0) 51 3
def recCtx (r : Nat) : Nat := field (recWord r 0) 36 12
def recPred (r : Nat) : Nat := field (recWord r 0) 0 24
def recState (r : Nat) : Nat := field (recWord r 1) 0 4

/-- A canonical multiple of 64. -/
def blockAddrOk (a : Nat) : Bool := a % 64 == 0 && canonical a

/-- Whether a record is malformed (R234). -/
def recordBad (coh : Bool) (r : Nat) : Bool :=
  let w (i : Nat) : Nat := recWord r i
  let succ : Bool :=
    if recSl r then
      recNsucc r == 0 && field (w 6) 56 8 == 0 && field (w 6) 0 6 == 0 && field (w 7) 20 44 == 0 && field (w 7) 0 20 != 0
    else
      decide (recNsucc r ≤ 4) &&
      (decide (1 ≤ recNsucc r) || field (w 6) 0 32 == 0) && (decide (2 ≤ recNsucc r) || field (w 6) 32 32 == 0) &&
      (decide (3 ≤ recNsucc r) || field (w 7) 0 32 == 0) && (decide (4 ≤ recNsucc r) || field (w 7) 32 32 == 0)
  let body : Bool :=
    match recKind r with
    | 1 => field (w 2) 56 8 == 0 && field (w 2) 0 6 == 0 && field (w 3) 0 32 == 0 && field (w 4) 48 16 == 0
    | 2 => blockAddrOk (w 2) && blockAddrOk (w 3) && field (w 4) 34 30 == 0 && decide (field (w 4) 32 2 ≤ 1) &&
        field (w 4) 0 32 != 0 && field (w 4) 0 6 == 0 && w 5 == 0
    | 3 => field (w 2) 56 8 == 0 && field (w 2) 0 6 == 0 && field (w 3) 16 4 == 0 && field (w 4) 48 16 == 0
    | _ => false
  !(coh && field (w 0) 48 3 == 0 && field (w 0) 24 12 == 0 && field (w 1) 4 2 == 0 && succ && body)

def State.schedErr (s : State) : State := { s with sched := { s.sched with schErr := (s.sched.schErr + 1) % pow2 32 } }

/-- Whether tasks start: no emergency save has begun (20 R422). -/
def State.startsTasks (s : State) : Bool := s.pwr.tripped.isNone

/-- Whether launches start: SCHCTL.EN is 1 besides (R237). -/
def State.schedOn (s : State) : Bool := s.sched.en && s.startsTasks

/-- Whether the device serves what is not management (22 R431, R438, R439). -/
def State.serves (s : State) : Bool := s.boot == .running && s.fab.devn != 0xFFFF

/-! ### Streams (R236, R240) -/

def State.streamAddr (s : State) (n : Nat) : Nat := s.sched.stab * 131072 + 32 * n

/-- Entry n of the stream table. -/
def State.streamEntry (s : State) (n : Nat) : State × Nat :=
  let r := s.ms.hwRead (s.streamAddr n) 32
  ({ s with ms := r.1 }, r.2)

def entryHead (x : Nat) : Nat := va56 (recWord x 0)
def entryTail (x : Nat) : Nat := va56 (recWord x 1)
def entryCtx (x : Nat) : Nat := field (recWord x 2) 36 12
def entryDmask (x : Nat) : Nat := field (recWord x 2) 32 4
def entryPrio (x : Nat) : Nat := field (recWord x 2) 8 3
def entryEn (x : Nat) : Bool := bit (recWord x 2) 0
def entryNdone (x : Nat) : Nat := field (recWord x 3) 0 32

/-- The dies that a DMASK allows, in ascending order. -/
def allowedDies (dmask : Nat) : List Nat := if dmask = 0 then [0, 1, 2, 3] else [0, 1, 2, 3].filter dmask.testBit

def State.stream (s : State) (n : Nat) : Stream := SMap.get {} s.sched.streams n

def State.setStream (s : State) (n : Nat) (x : Stream) : State :=
  { s with sched := { s.sched with streams := SMap.set {} s.sched.streams n x } }

def State.slotOf (s : State) (h : Nat) : Option StreamSlot := SMap.get none s.sched.slots h

def State.setSlot (s : State) (h : Nat) (x : Option StreamSlot) : State :=
  { s with sched := { s.sched with slots := SMap.set none s.sched.slots h x } }

/-- The slot that a stream is mapped to. -/
def State.mapped (s : State) (n : Nat) : Option Nat :=
  (upto 0 64).find? fun h => match s.slotOf h with | some x => x.stream == n | none => false

/-- Whether work of a stream may start: it is mapped and is not being replaced (R240). -/
def State.runnable (s : State) (n : Nat) : Bool :=
  match s.mapped n with
  | some h => match s.slotOf h with | some x => x.leaving.isNone | none => false
  | none => false

/-! ### Share counters (R252, R253) -/

def State.shareAddr (s : State) (n cluster : Nat) : Nat := s.sched.shsb * 524288 + 128 * n + 4 * cluster

/-- Raise or lower the counter of a cluster for the launch in flight of a stream: on chip while the stream is mapped,
else the saved counter at its home. -/
def State.share (s : State) (n cluster : Nat) (f : Nat → Nat) : State :=
  if (s.mapped n).isSome then
    let k := 32 * n + cluster
    { s with sched := { s.sched with share := SMap.set 0 s.sched.share k (f (SMap.get 0 s.sched.share k)) } }
  else
    let a := s.shareAddr n cluster
    let (ms, v) := s.ms.hwRead a 4
    { s with ms := ms.hwWrite a 4 (f v) }

/-- Raise or lower it for an owned task or record. -/
def State.shareOwner (s : State) (owner : Option Nat) (cluster : Nat) (f : Nat → Nat) : State :=
  match owner with
  | some n => s.share n cluster f
  | none => s

/-- Write the counters of an unmapped stream to its share record and free them. -/
def saveShares (s : State) (n : Nat) : State :=
  (upto 0 32).foldl (fun s c =>
    let k := 32 * n + c
    { s with ms := s.ms.hwWrite (s.shareAddr n c) 4 (SMap.get 0 s.sched.share k)
             sched := { s.sched with share := SMap.set 0 s.sched.share k 0 } }) s

/-- Load the counters of a stream that is mapped with a launch in flight. -/
def loadShares (s : State) (n : Nat) : State :=
  (upto 0 32).foldl (fun s c =>
    let (ms, v) := s.ms.hwRead (s.shareAddr n c) 4
    { s with ms := ms, sched := { s.sched with share := SMap.set 0 s.sched.share (32 * n + c) v } }) s

/-! ### Ready lists (R242, R246) -/

def State.readyOf (s : State) (cluster prio : Nat) : List Ready := SMap.get [] s.sched.ready (8 * cluster + prio)

def State.setReady (s : State) (cluster prio : Nat) (l : List Ready) : State :=
  { s with sched := { s.sched with ready := SMap.set [] s.sched.ready (8 * cluster + prio) l } }

/-- The records of a ready list. -/
def readyRecords (l : List Ready) : List ReadyRec :=
  l.filterMap fun e => match e with | .record r => some r | .launch _ _ => none

/-- The address of the record that follows `r`, or 0 at the tail (R228). -/
def nextRecord (r : ReadyRec) : List ReadyRec → Nat
  | [] => 0
  | a :: as => if a = r then (match as with | b :: _ => b.addr | [] => 0) else nextRecord r as

/-- Write the LINK of the records of a ready list that have another record after them than before (R228, R242). -/
def mendLinks (core : Nat) (old new : List ReadyRec) (s : State) : State :=
  new.foldl (fun s r =>
    if !old.contains r || nextRecord r old = nextRecord r new then s
    else
      let (s, w) := s.ctxWho core r.ctx r.creatorSup
      s.setStatus w r.addr (linkWord (nextRecord r new) 2)) s

/-- Change a ready list, and mend the links of its records. -/
def State.relist (s : State) (core cluster prio : Nat) (l : List Ready) : State :=
  (mendLinks core (readyRecords (s.readyOf cluster prio)) (readyRecords l) s).setReady cluster prio l

/-- Enter a record at the tail of a ready list, and link it. -/
def State.pushReady (s : State) (core cluster : Nat) (r : ReadyRec) : State :=
  s.relist core cluster r.prio (s.readyOf cluster r.prio ++ [.record r])

/-- Whether an entry is the launch entry of a stream. -/
def Ready.isLaunchOf (n : Nat) : Ready → Bool
  | .launch m _ => m == n
  | .record _ => false

/-- Insert a crew's index in ascending order. -/
def insertIndex (i : Nat) : List Nat → List Nat
  | [] => [i]
  | j :: js => if i ≤ j then i :: j :: js else j :: insertIndex i js

/-- Enter a crew of 1 again: a stream has one launch entry in a list, which yields its crews in ascending order (R242). -/
def enterCrew (n i : Nat) (l : List Ready) : List Ready :=
  if l.any (Ready.isLaunchOf n) then
    l.map fun e => match e with
      | .launch m is => if m = n then .launch m (insertIndex i is) else e
      | .record _ => e
  else l ++ [.launch n [i]]

/-! ### Deques (R247, R248) -/

def State.dequeOf (s : State) (k : Nat) : List ReadyRec := SMap.get [] s.sched.deque k

def State.setDeque (s : State) (k : Nat) (d : List ReadyRec) : State :=
  { s with sched := { s.sched with deque := SMap.set [] s.sched.deque k d } }

/-- The entries in a core's spill area. -/
def State.spilled (s : State) (k : Nat) : Nat := SMap.get 0 s.sched.spill k

def State.setSpilled (s : State) (k n : Nat) : State := { s with sched := { s.sched with spill := SMap.set 0 s.sched.spill k n } }

/-- The place of entry i of a core's spill area: 16 bytes each (R248, log entry 97). -/
def State.spillAddr (s : State) (k i : Nat) : Nat := s.sched.dqsb * 0x1000000 + 0x10000 * k + 16 * i

/-- A spilled entry as its 16 bytes (log entry 97). -/
def ReadyRec.pack (r : ReadyRec) : Nat :=
  r.addr % pow2 64 / 64 * 64 + b2n r.copy + 2 * b2n r.creatorSup + 4 * b2n r.owner.isSome + 8 * (r.prio % 8) +
    (r.ctx % 4096 + (r.owner.getD 0 % 4096) <<< 12 + (r.origin % 256) <<< 24) <<< 64

def unpackRec (x : Nat) : ReadyRec :=
  { addr := field x 6 58 * 64, ctx := field x 64 12, creatorSup := bit x 1, owner := if bit x 2 then some (field x 76 12) else none
    origin := field x 88 8, prio := field x 3 3, copy := bit x 0 }

/-- Put an entry on top of a core's spill area. -/
def State.spillPush (k : Nat) (s : State) (r : ReadyRec) : State :=
  { s with ms := s.ms.hwWrite (s.spillAddr k (s.spilled k)) 16 r.pack }.setSpilled k (s.spilled k + 1)

/-- Take up to `m` entries from the top of a core's spill area, the most recently spilled first. -/
def spillPop (k : Nat) : Nat → State → State × List ReadyRec
  | 0, s => (s, [])
  | m + 1, s =>
    if s.spilled k = 0 then (s, [])
    else
      let (ms, x) := s.ms.hwRead (s.spillAddr k (s.spilled k - 1)) 16
      let (s, rs) := spillPop k m ({ s with ms := ms }.setSpilled k (s.spilled k - 1))
      (s, unpackRec x :: rs)

/-- Push at the head; a full deque first moves the 32 entries nearest the tail to the spill area, or as many of them as it has
room for: after a kill it may hold a number of entries that 32 does not divide (log entry 128). -/
def State.dequePush (s : State) (k : Nat) (r : ReadyRec) : State :=
  let d := s.dequeOf k
  if d.length < 64 then s.setDeque k (r :: d)
  else
    let n := 64 - min 32 (4096 - s.spilled k)
    ((d.drop n).reverse.foldl (State.spillPush k) s).setDeque k (r :: d.take n)

/-- An empty deque takes back up to 32 spilled entries. -/
def State.dequeRefill (s : State) (k : Nat) : State :=
  if s.dequeOf k = [] then
    let (s, rs) := spillPop k 32 s
    s.setDeque k rs
  else s

/-- The records that a deque and its spill area hold and that `p` does not name go. -/
def State.dequeKeep (p : ReadyRec → Bool) (s : State) (k : Nat) : State :=
  let (s, rs) := spillPop k (s.spilled k) s
  (((rs.filter p).reverse.foldl (State.spillPush k) s)).setDeque k ((s.dequeOf k).filter p)

/-! ### Successors (R233, R245, R246) -/

/-- One release that is due: the releasing record's access, context, owning launch, origin, the cluster of the core that
completed it, and the successor's address. -/
structure Rel where
  who : Who
  ctx : Nat
  owner : Option Nat
  origin : Nat
  cluster : Nat
  addr : Nat
deriving DecidableEq, Repr

/-- The address that an offset names. -/
def succAddr (va off : Nat) : Nat := ofInt 64 ((va : Int) + 64 * sint 32 off)

/-- The offsets of a successor list of `n` entries; an entry that cannot be read counts as an error. -/
def succList (w : Who) (base : Nat) : Nat → Nat → State → State × List Nat
  | 0, _, s => (s, [])
  | n + 1, i, s =>
    match translate s.ms w ((base + 4 * i) % pow2 64) .load with
    | (ms, .error _) => succList w base n (i + 1) { s with ms := ms }.schedErr
    | (ms, .ok x) =>
      let (ms, g) := if x.hole then (ms, Got.ok 0) else homeRead ms w x x.pa 4 2 .read
      let s := { s with ms := ms }
      if x.dev.isSome || g.bad.isSome then succList w base n (i + 1) s.schedErr
      else
        let (s, os) := succList w base n (i + 1) s
        (s, g.val :: os)

/-- The addresses of a record's successors, in list order. -/
def successors (s : State) (w : Who) (va r : Nat) : State × List Nat :=
  if recSl r then
    let (s, os) := succList w (va56 (recWord r 6)) (field (recWord r 7) 0 20) 0 s
    (s, os.map (succAddr va))
  else
    (s, ((upto 0 (min (recNsucc r) 4)).map fun j => field (recWord r (6 + j / 2)) (32 * (j % 2)) 32).map (succAddr va))

/-- The cluster die.(k div 4) of the home slice of an address (R246). -/
def homeCluster (ms : MemSys) (x : Xlat) : Nat :=
  let sl := homeSlice ms (field x.pa 39 2) x.pa (leafTh x.leaf)
  8 * (sl / 32) + sl % 32 / 4

/-- Release one successor: the state, and the releases that follow at once from it (R245, R246). -/
def releaseOne (s : State) (r : Rel) : State × List Rel :=
  match recordRead s.ms r.who r.addr true with
  | (ms, .error _) => ({ s with ms := ms }.schedErr, [])
  | (ms, .ok (x, e)) =>
    let s := { s with ms := ms }
    let launch : Bool := recKind e == 3
    if recCtx e ≠ r.ctx ∨ (recState e ≠ 0 ∧ !(launch && recState e == 1)) ∨ recPred e = 0 ∨ recordBad (leafCoh x.leaf) e then (s.schedErr, [])
    else
      let (ms, _) := homeWrite s.ms r.who x x.pa 3 (recPred e - 1) (allOnes 3) 2 false
      let s := { s with ms := ms }
      if recPred e ≠ 1 ∨ launch then (s, [])
      else
        let s := s.setStatus r.who r.addr (linkWord 0 2)
        let rec1 (owner : Option Nat) (origin : Nat) : ReadyRec :=
          { addr := r.addr, ctx := r.ctx, creatorSup := r.who.sup, owner := owner, origin := origin
            prio := recPrio e, copy := recKind e == 2 }
        match r.owner with
        | some n => ((s.share n r.origin (· + 1)).pushReady r.who.core r.cluster (rec1 (some n) r.origin), [])
        | none =>
          if recKind e = 2 then (s.pushReady r.who.core (homeCluster s.ms x) (rec1 none (homeCluster s.ms x)), [])
          else
            let s := s.setStatus r.who r.addr (statusWord 0x0A 0)
            let w := { r.who with sup := recSup e }
            let (s, as) := successors s w r.addr e
            (s, as.map fun a => { who := w, ctx := r.ctx, owner := none, origin := r.origin, cluster := r.cluster, addr := a })

/-- Releases in order; `fuel` bounds their number. Those of an ownerless record that completes at once come after the remaining
successors of the record that released it (log entry 137). -/
def releaseAll : Nat → List Rel → State → State
  | 0, _, s => s
  | _ + 1, [], s => s
  | fuel + 1, r :: rs, s =>
    let (s, more) := releaseOne s r
    releaseAll fuel (rs ++ more) s

def releaseFuel : Nat := 0x10000000000

/-! ### Completion of records (R229, R245, R252) -/

/-- An ending of a task or record of a launch: a status that is not 0 counts in its errors (R229). -/
def State.countEnding (s : State) (owner : Option Nat) (status : Nat) : State :=
  match owner with
  | some n =>
    let st := s.stream n
    match st.flight with
    | some l => if status = 0 then s else s.setStream n { st with flight := some { l with errs := min (l.errs + 1) 0xFFFFFFFF } }
    | none => s
  | none => s

/-- Complete a task or copy record: its status word, its successors, the continuation of a join, and its share. -/
def completeRecord (s : State) (core : Nat) (q : ReadyRec) (sup : Bool) (status aux : Nat) (cont : Option Nat) : State :=
  let (s, w) := s.ctxWho core q.ctx q.creatorSup
  let (s, body) := match recordRead s.ms w q.addr false with
    | (ms, .error _) => ({ s with ms := ms }, none)
    | (ms, .ok (_, r)) => ({ s with ms := ms }, some r)
  let s := s.setStatus w q.addr (statusWord status aux)
  let w := { w with sup := sup }
  let (s, as) := match body with
    | some r => successors s w q.addr r
    | none => (s, [])
  let rel (a : Nat) : Rel := { who := w, ctx := q.ctx, owner := q.owner, origin := q.origin, cluster := core / 8, addr := a }
  let s := releaseAll releaseFuel ((as ++ cont.toList).map rel) s
  (s.countEnding q.owner status).shareOwner q.owner q.origin (· - 1)

/-- The end of a task of a launch, which has no record of its own. -/
def completeMember (s : State) (core : Nat) (t : Task) (status : Nat) (cont : Option Nat) : State :=
  let (s, w) := s.ctxWho core t.ctx t.sup
  let rel (a : Nat) : Rel := { who := w, ctx := t.ctx, owner := t.owner, origin := t.origin, cluster := core / 8, addr := a }
  let s := releaseAll releaseFuel (cont.toList.map rel) s
  (s.countEnding t.owner status).shareOwner t.owner t.origin (· - 1)

/-! ### `fork` and `spawn` (10 R273) -/

/-- Make a record ready for a fork (`push` on the deque) or a spawn; the status. -/
def makeReady (s : State) (k : Nat) (w : Who) (va : Nat) (push : Bool) : State × Nat :=
  match recordRead s.ms w va true with
  | (ms, .error _) => ({ s with ms := ms }, 4)
  | (ms, .ok (x, r)) =>
    let s := { s with ms := ms }
    if recKind r ≠ 1 ∧ recKind r ≠ 2 then (s, 3)
    else if recState r ≠ 0 then (s, 1)
    else if recPred r ≠ 0 then (s, 2)
    else
      match (s.core k).task with
      | none => (s, 4)
      | some t =>
        let w0 := recWord r 0 - recCtx r <<< 36 + t.ctx <<< 36
        let (ms, d) := homeWrite s.ms w x x.pa 8 w0 (allOnes 8) 2 false
        let s := { s with ms := ms }
        if d.isSome then (s, 4)
        else
          let s := s.setStatus w va (linkWord 0 2)
          let q : ReadyRec := { addr := va, ctx := t.ctx, creatorSup := w.sup, owner := t.owner, origin := t.origin
                                prio := recPrio r, copy := recKind r == 2 }
          let s := s.shareOwner t.owner t.origin (· + 1)
          (if push then s.dequePush k q else s.pushReady k (k / 8) q, 0)

/-! ### Appends (R238) -/

/-- Append the launch record at `va` to stream n: the status of 10 R276. `w` reads the record; `mid` and `die` are the
sender's, for the check at the entry's home. Of an address in a LAUNCH message that is no multiple of 64 the spec says
nothing: the record is read there, and the stream entry holds its bits [55:6] (log entry 105). -/
def appendLaunch (s : State) (w : Who) (va n mid die : Nat) : State × Nat :=
  match recordRead s.ms w va true with
  | (ms, .error _) => ({ s with ms := ms }, 5)
  | (ms, .ok (x, r)) =>
    let (ms, ok) := ms.check die mid (s.streamAddr n) .write false
    let s := { s with ms := ms }
    if !ok then (s, 4)
    else
      let (s, e) := s.streamEntry n
      if !entryEn e then (s, 1)
      else if recordBad (leafCoh x.leaf) r ∨ recKind r ≠ 3 then (s, 2)
      else if recState r ≠ 0 then (s, 3)
      else
        let s := s.setStatus w va (linkWord 0 1)
        let s :=
          if field (recWord e 0) 6 50 = 0 then { s with ms := s.ms.hwWrite (s.streamAddr n) 8 (linkWord va 0) }
          else
            let (s, wt) := s.ctxWho w.core (entryCtx e) w.sup
            s.setStatus wt (entryTail e) (linkWord va 1)
        let s := { s with ms := s.ms.hwWrite (s.streamAddr n + 8) 8 (linkWord va 0) }
        let st := s.stream n
        (s.setStream n { st with supQueued := if w.sup then va :: st.supQueued else st.supQueued }, 0)

/-! ### Which streams have work (R239) -/

/-- Whether the HEAD launch of a stream could start, apart from the launch in flight: one whose record cannot be read
does, and ends at once (R239, R24). -/
def headReady (s : State) (n : Nat) : State × Bool :=
  let (s, e) := s.streamEntry n
  if field (recWord e 0) 6 50 = 0 ∨ (s.ms.part ∧ (allowedDies (entryDmask e)).length ≠ 1) then (s, false)
  else
    let (s, c) := s.readCtx (entryCtx e)
    if !c.en then (s, false)
    else
      let va := entryHead e
      let (s, w) := s.ctxWho 0 (entryCtx e) ((s.stream n).supQueued.contains va)
      match recordRead s.ms w va false with
      | (ms, .error _) => ({ s with ms := ms }, true)
      | (ms, .ok (_, r)) => ({ s with ms := ms }, recPred r == 0)

/-- Whether a stream has work: a launch in flight that could go on, or a HEAD launch that could start. -/
def hasWork (s : State) (n : Nat) : State × Bool :=
  if (s.stream n).flight.isSome then (s, true) else headReady s n

/-- Begin the wait of a stream that has work and is not mapped, and end the wait of one that has none. -/
def refreshWait (s : State) (n : Nat) : State :=
  if (s.mapped n).isSome then s
  else
    let (s, w) := hasWork s n
    let st := s.stream n
    if w then (if st.waitFrom.isSome then s else s.setStream n { st with waitFrom := some s.now })
    else s.setStream n { st with waitFrom := none }

/-- The same for every stream. -/
def refreshWaits (s : State) : State := (upto 0 4096).foldl refreshWait s

/-- A quantum is 250 microseconds (R240). -/
def quantumCycles : Nat := 800000

/-- The effective priority of a waiting stream (R240). -/
def effective (now prio since : Nat) : Nat := min 7 (prio + (now - since) / quantumCycles / 8)

/-- A stream that waits: its number, its effective priority and since when. -/
structure Waiting where
  stream : Nat
  prio : Nat
  since : Nat
deriving DecidableEq, Repr

/-- Whether `a` is mapped before `b` (R240, step 1). -/
def Waiting.before (a b : Waiting) : Bool :=
  decide (b.prio < a.prio) || (a.prio == b.prio && (decide (a.since < b.since) || (a.since == b.since && decide (a.stream < b.stream))))

def insertWaiting (a : Waiting) : List Waiting → List Waiting
  | [] => [a]
  | b :: bs => if a.before b then a :: b :: bs else b :: insertWaiting a bs

/-- Enter a stream that waits; one that is to take a slot waits no more. -/
def addWaiting (taken : List Nat) (a : State × List Waiting) (n : Nat) : State × List Waiting :=
  match (a.1.stream n).waitFrom with
  | some t =>
    if taken.contains n then a
    else
      let (s, e) := a.1.streamEntry n
      (s, insertWaiting { stream := n, prio := effective s.now (entryPrio e) t, since := t } a.2)
  | none => a

/-- The streams that wait, in the order in which they are mapped. -/
def waitingStreams (s : State) : State × List Waiting :=
  (upto 0 4096).foldl (addWaiting (s.sched.slots.filterMap fun e => e.2.bind (·.leaving))) (s, [])

/-! ### Mapping (R240, R253) -/

/-- Map a stream to a slot. -/
def mapStream (s : State) (h n : Nat) : State :=
  let s := s.setSlot h (some { stream := n, mappedAt := s.now, prevBoundary := false, leaving := none })
  let st := s.stream n
  let s := s.setStream n { st with waitFrom := none }
  if st.flight.isSome then loadShares s n else s

/-- Whether a core runs a task of a stream. -/
def Core.ofStream (c : Core) (n : Nat) : Bool := match c.task with | some t => t.owner == some n | none => false

/-- Unmap the stream of slot h; the slot passes to the stream that replaces it, or is free. -/
def unmapSlot (s : State) (h : Nat) : State :=
  match s.slotOf h with
  | none => s
  | some x =>
    let s := if (s.stream x.stream).flight.isSome then saveShares s x.stream else s
    let s := s.setSlot h none
    let st := s.stream x.stream
    let (s, w) := hasWork s x.stream
    let s := if w then s.setStream x.stream { st with waitFrom := some s.now } else s
    match x.leaving with
    | some n => mapStream s h n
    | none => s

/-- Whether slot h holds a stream that leaves it and of which no core runs a task. -/
def State.emptied (s : State) (h : Nat) : Bool :=
  match s.slotOf h with
  | some x => x.leaving.isSome && s.cores.all fun e => !e.2.ofStream x.stream
  | none => false

/-- The lowest-numbered free slot. -/
def State.freeSlot (s : State) : Option Nat := (upto 0 64).find? fun h => (s.slotOf h).isNone

/-- The first of the waiting streams takes a free slot. -/
def mapFirst (s : State) (h : Nat) : State :=
  let r := waitingStreams (refreshWaits s)
  r.2.head?.elim r.1 fun w => mapStream r.1 h w.stream

/-- STREAM_MAP (R240): a slot whose replaced stream has left passes on; else a waiting stream takes the lowest free
slot; without one, the waits of the streams that have gained work begin. -/
def execStreamMap (s : State) : Out :=
  if !s.sched.en then .next s
  else
    match (upto 0 64).find? s.emptied with
    | some h => .next (unmapSlot s h)
    | none => .next (s.freeSlot.elim (refreshWaits s) (mapFirst s))

/-- Ask every core that runs a task of a stream to pre-empt it (R240, R244). -/
def preemptStream (s : State) (n : Nat) : State :=
  s.askPreempt fun c => c.ofStream n

/-- The better of the candidate found so far and the stream of slot h: its SPRIO, since when it is mapped, and its slot. -/
def betterCandidate (a : State × Option (Nat × Nat × Nat)) (h : Nat) : State × Option (Nat × Nat × Nat) :=
  match a.1.slotOf h with
  | some x =>
    if x.prevBoundary && x.leaving.isNone then
      let (s, e) := a.1.streamEntry x.stream
      let q := entryPrio e
      match a.2 with
      | none => (s, some (q, x.mappedAt, h))
      | some (bq, bm, _) => if q < bq ∨ (q = bq ∧ x.mappedAt < bm) then (s, some (q, x.mappedAt, h)) else (s, a.2)
    else a
  | none => a

/-- The candidate that a waiting stream of effective priority `p` replaces: the lowest SPRIO, then mapped longest, then
the lowest slot (R240, step 2). -/
def chooseCandidate (s : State) (p : Nat) : State × Option Nat :=
  let r := (upto 0 64).foldl betterCandidate (s, none)
  (r.1, r.2.bind fun b => if b.1 ≤ p then some b.2.2 else none)

/-- The stream of slot h makes way for a waiting stream. -/
def replaceIn (s : State) (w : Waiting) (h : Nat) : State :=
  match s.slotOf h with
  | some x => preemptStream (s.setSlot h (some { x with leaving := some w.stream })) x.stream
  | none => s

/-- A waiting stream takes a free slot, or replaces a candidate, if there is one. -/
def rotateOne (s : State) (w : Waiting) : State :=
  match s.freeSlot with
  | some h => mapStream s h w.stream
  | none =>
    let r := chooseCandidate s w.prio
    r.2.elim r.1 (replaceIn r.1 w)

/-- Waiting streams take free slots or replace candidates, in order. -/
def rotate (ws : List Waiting) (s : State) : State := ws.foldl rotateOne s

/-- In partitioned mode a stream whose DMASK does not name one die counts as an error at each boundary (R236), once it
holds launches (log entry 98). -/
def countPartitionError (s : State) (n : Nat) : State :=
  let (s, e) := s.streamEntry n
  if field (recWord e 0) 6 50 ≠ 0 ∧ (allowedDies (entryDmask e)).length ≠ 1 then s.schedErr else s

/-- The same for every stream, in partitioned mode. -/
def countPartitionErrors (s : State) : State := if s.ms.part then (upto 0 4096).foldl countPartitionError s else s

/-- The streams that were mapped before a boundary at time `t` are candidates from the next one on (R240, step 2). -/
def State.passBoundary (s : State) (t : Nat) : State :=
  { s with sched := { s.sched with slots := s.sched.slots.map fun e =>
      (e.1, e.2.map fun x => { x with prevBoundary := x.prevBoundary || decide (x.mappedAt < t) }) } }

/-- QUANTUM_BOUNDARY (R240, R236): every 250 microseconds of reference time. -/
def execQuantumBoundary (s : State) : Out :=
  if s.now < s.sched.quantum then .next s
  else
    let t := s.sched.quantum
    let s := { s with sched := { s.sched with quantum := t + quantumCycles, quanta := s.sched.quanta + 1 } }
    if !s.sched.en then .next (s.passBoundary t)
    else
      let r := waitingStreams (refreshWaits (countPartitionErrors s))
      .next ((rotate r.2 r.1).passBoundary t)

/-! ### Starting a launch (R239, R242) -/

/-- The launch that a record describes. -/
def launchOf (va n ctx : Nat) (creatorSup : Bool) (serial r : Nat) : Launch :=
  let w3 := recWord r 3
  let w4 := recWord r 4
  { addr := va, stream := n, ctx := ctx, sup := recSup r, creatorSup := creatorSup, prio := recPrio r, rst := recRst r
    code := va56 (recWord r 2), entry := field w3 32 32, csize := field w3 24 8 + 1, spw := field w3 20 4
    notify := field w3 0 16, gx := field w4 0 16 + 1, gy := field w4 16 16 + 1, gz := field w4 32 16 + 1
    dealt := 0, errs := 0, fatal := none, killed := false, forced := false, reports := [], serial := serial }

/-- Tasks of a launch. -/
def Launch.tasks (l : Launch) : Nat := l.gx * l.gy * l.gz

/-- Crews of a launch. -/
def Launch.crews (l : Launch) : Nat := (l.tasks + l.csize - 1) / l.csize

/-- The tile coordinate of linear index j (R242). -/
def Launch.coord (l : Launch) (j : Nat) : Nat × Nat × Nat := (j % l.gx, j / l.gx % l.gy, j / l.gx / l.gy)

/-- Members of crew i: the last crew may be smaller. -/
def Launch.crewSize (l : Launch) (i : Nat) : Nat := min l.csize (l.tasks - l.csize * i)

/-- The cores of the region that crew i is dealt to, for crews of 2 and more (R242). -/
def crewRegion (dies : List Nat) (csize i : Nat) : List Nat :=
  if csize ≤ 8 then
    let c := i % (8 * dies.length)
    upto (64 * dies.getD (c / 8) 0 + 8 * (c % 8)) 8
  else if csize ≤ 64 then upto (64 * dies.getD (i % dies.length) 0) 64
  else (dies.map fun d => upto (64 * d) 64).flatten

/-- Deal crew i of a launch of crews of 2 and more: it joins the dealing order, and a crew of a cluster counts in the
cluster's share (R243, R252). -/
def dealCrew (dies : List Nat) (l : Launch) (s : State) (i : Nat) : State :=
  let region := crewRegion dies l.csize i
  let c : Crew := { id := s.sched.nextCrew, stream := l.stream, index := i, size := l.crewSize i, region := region
                    held := [], members := [], admitted := false, released := 0, chains := [] }
  let s := { s with sched := { s.sched with crews := s.sched.crews ++ [c], nextCrew := s.sched.nextCrew + 1 } }
  if l.csize ≤ 8 then s.share l.stream (region.headD 0 / 8) (· + l.crewSize i) else s

/-- Deal the crews of 1 of a launch to cluster number c of the allowed ones: one launch entry (R242). -/
def dealSingles (dies : List Nat) (l : Launch) (s : State) (c : Nat) : State :=
  let m := 8 * dies.length
  let cluster := 8 * dies.getD (c / 8) 0 + c % 8
  let crews := (upto 0 ((l.tasks + m - 1 - c) / m)).map fun j => c + m * j
  if crews = [] then s
  else
    let s := s.share l.stream cluster (· + crews.length)
    s.setReady cluster l.prio (s.readyOf cluster l.prio ++ [.launch l.stream crews])

/-- Deal a launch in full. -/
def dealLaunch (s : State) (l : Launch) (dies : List Nat) : State :=
  let s := if l.csize = 1 then (upto 0 (8 * dies.length)).foldl (dealSingles dies l) s
    else (upto 0 l.crews).foldl (dealCrew dies l) s
  let st := s.stream l.stream
  s.setStream l.stream { st with flight := some { l with dealt := l.crews } }

/-! ### Completion of a launch (R254) -/

/-- Keep an access on a link until it is acknowledged. -/
def State.keepOn (s : State) (link : Nat) (u : Unacked) : State :=
  { s with fab := { s.fab with unacked := SMap.set [] s.fab.unacked link (SMap.get [] s.fab.unacked link ++ [{ u with serial := s.fab.serial }]) } }

/-- The link of the ordered traffic to a device: the one that carries ordered accesses to it, else the lowest that is up
(22 R433). -/
def State.linkTo (s : State) (dev : Nat) : Option Nat :=
  let up (l : Nat) : Bool := !s.fab.ldown.getLsbD l
  ((upto 0 32).find? fun l => up l && (SMap.get [] s.fab.unacked l).any fun u => u.dev == dev) <|> (upto 0 32).find? up

/-- The link on which a message to a device waits: ordered accesses or messages to it stand before it, or the link is paused or
down (22 R433, R435). -/
def State.holdsFor (s : State) (dev : Nat) : Option Nat :=
  match s.linkTo dev with
  | some l =>
    if SMap.get 0 s.fab.paused l ≠ 0 ∨ (SMap.get [] s.fab.unacked l).any (fun u => u.dev == dev) ∨
        s.fab.held.any (fun h => h.dev == dev) then some l
    else none
  | none => some 0

/-- Send a message. It travels in the ordered class: it leaves once what was sent before it to its device is acknowledged
(22 R433). -/
def State.send (s : State) (dev : Nat) (m : Msg) : State :=
  { s with fab := { s.fab with
    serial := s.fab.serial + 1
    outbox := s.fab.outbox ++ if (s.holdsFor dev).isSome then [] else [(dev, m)]
    held := s.fab.held ++ (s.holdsFor dev).toList.map fun l => { link := l, dev := dev, serial := s.fab.serial, msg := m } } }

/-- The place of accesses of the unordered class, which go over any link and are never lost (22 R433, R435). -/
def unorderedLink : Nat := 32

/-- Whether a message still waits: an ordered access sent before it to its device is not acknowledged, or its link is paused. -/
def State.stillHeld (s : State) (h : HeldMsg) : Bool :=
  SMap.get 0 s.fab.paused h.link != 0 ||
  s.fab.unacked.any (fun e => e.1 != unorderedLink && e.2.any fun u => u.dev == h.dev && decide (u.serial ≤ h.serial)) ||
  s.fab.ldown == BitVec.allOnes 32

/-- The messages that wait no longer leave. -/
def State.flushHeld (s : State) : State :=
  { s with fab := { s.fab with
    outbox := s.fab.outbox ++ (s.fab.held.filter fun h => !s.stillHeld h).map fun h => (h.dev, h.msg)
    held := s.fab.held.filter s.stillHeld } }

/-- A COMPLETE message (22 R434). -/
def completeMsg (devn va word n ctx : Nat) : Msg :=
  { w0 := BitVec.ofNat 64 (0x11 <<< 56 + devn <<< 16), w1 := BitVec.ofNat 64 va, w2 := BitVec.ofNat 64 word
    w3 := BitVec.ofNat 64 (n + ctx <<< 32) }

/-- Steps 2 to 5 of R254 for a launch record of stream n. Of a record that cannot be read there is no notice and no successor (log
entry 138). -/
def completeLaunchRecord (s : State) (n va ctx : Nat) (creatorSup : Bool) (status aux : Nat) : State :=
  let (s, w) := s.ctxWho 0 ctx creatorSup
  let (s, body) := match recordRead s.ms w va false with
    | (ms, .error _) => ({ s with ms := ms }, none)
    | (ms, .ok (_, r)) => ({ s with ms := ms }, some r)
  let s := s.setStatus w va (statusWord status aux)
  let s := match body with
    | some r =>
      let s := if field (recWord r 3) 0 16 = 0xFFFF then s
        else s.send (field (recWord r 3) 0 16) (completeMsg s.fab.devn va (statusWord status aux) n ctx)
      let w := { w with sup := recSup r }
      let (s, as) := successors s w va r
      releaseAll releaseFuel (as.map fun a => { who := w, ctx := ctx, owner := none, origin := 0, cluster := 0, addr := a }) s
    | none => s
  let (s, e) := s.streamEntry n
  { s with ms := s.ms.hwWrite (s.streamAddr n + 24) 4 ((entryNdone e + 1) % pow2 32) }

/-- Complete the launch in flight of a stream; with no further work it is unmapped at once (R240, step 3). -/
def finishLaunch (s : State) (l : Launch) (status aux : Nat) : State :=
  let s := completeLaunchRecord s l.stream l.addr l.ctx l.creatorSup status aux
  let st := s.stream l.stream
  let s := s.setStream l.stream { st with flight := none }
  let s := { s with sched := { s.sched with crews := s.sched.crews.filter fun c => c.stream != l.stream } }
  match s.mapped l.stream with
  | none => s
  | some h =>
    let (s, w) := hasWork s l.stream
    if w && (match s.slotOf h with | some x => x.leaving.isNone | none => false) then s else unmapSlot s h

/-- The LINK of a launch record that cannot be read: 0 at the tail, else a free value (log entry 99). -/
def lostLink (s : State) (e : Nat) : Nat :=
  if entryHead e = entryTail e then 0 else field (Config.poisonData s.fresh).toNat 6 50 * 64

/-- HEAD advances to LINK, and with it TAIL where nothing follows. -/
def advanceHead (s : State) (n link : Nat) : State :=
  let s := { s with ms := s.ms.hwWrite (s.streamAddr n) 8 link }
  if link = 0 then { s with ms := s.ms.hwWrite (s.streamAddr n + 8) 8 0 } else s

/-- A mapped stream without a launch in flight and without work is unmapped (R239). -/
def unmapIdle (s : State) (n : Nat) : State := if (s.stream n).flight.isSome then s else (s.mapped n).elim s (unmapSlot s)

/-- LAUNCH_START (R239): a mapped stream starts its HEAD launch. One whose record cannot be read completes at once (R24,
R229). -/
def execLaunchStart (n : Nat) (s : State) : Out :=
  if !s.schedOn || s.ms.l2busy || !s.runnable n || (s.stream n).flight.isSome then .next s
  else
    match headReady s n with
    | (s, false) => .next (unmapIdle s n)
    | (s, true) =>
      let (s, e) := s.streamEntry n
      let va := entryHead e
      let st := s.stream n
      let creatorSup := st.supQueued.contains va
      let (s, w) := s.ctxWho 0 (entryCtx e) creatorSup
      match recordRead s.ms w va false with
      | (ms, .error f) =>
        let s := (advanceHead { s with ms := ms } n (lostLink s e)).tick
        let l := launchOf va n (entryCtx e) creatorSup s.sched.serial 0
        .next (finishLaunch (s.setStream n { s.stream n with supQueued := st.supQueued.erase va }) l 0x07 f)
      | (ms, .ok (_, r)) =>
        let s := advanceHead { s with ms := ms } n (field (recWord r 1) 6 50 * 64)
        let s := s.setStatus w va 3
        let l := launchOf va n (entryCtx e) creatorSup s.sched.serial r
        let dies := allowedDies (entryDmask e)
        let s := { s with sched := { s.sched with serial := s.sched.serial + 1 } }
        let s := s.setStream n { s.stream n with flight := some l, supQueued := st.supQueued.erase va }
        if 12 < l.spw then .next (finishLaunch s l 0x04 l.spw)
        else if l.sup && !creatorSup then .next (finishLaunch s l 0x08 0)
        else if 64 * dies.length < l.csize then .next (finishLaunch s l 0x09 l.csize)
        else .next (dealLaunch s l dies)

/-- SHARE_REPORT (R252): a cluster whose share is complete reports. -/
def execShareReport (h cluster : Nat) (s : State) : Out :=
  match s.slotOf h with
  | none => .next s
  | some x =>
    let st := s.stream x.stream
    match st.flight with
    | none => .next s
    | some l =>
      let (s, e) := s.streamEntry x.stream
      if (allowedDies (entryDmask e)).contains (cluster / 8) && decide (cluster < 32) && !l.reports.contains cluster &&
          SMap.get 0 s.sched.share (32 * x.stream + cluster) == 0 &&
          s.sched.crews.all (fun c => c.stream != x.stream || c.admitted || !c.region.any (fun k => k / 8 == cluster)) then
        .next (s.setStream x.stream { s.stream x.stream with flight := some { l with reports := setInsert l.reports cluster } })
      else .next s

/-- The status of a launch that has completed (R229). -/
def Launch.status (l : Launch) : Nat × Nat :=
  match l.fatal with
  | some f => f
  | none => if l.errs = 0 then (0, 0) else (0x0E, l.errs)

/-- LAUNCH_COMPLETE (R254): every allowed cluster has reported. -/
def execLaunchComplete (n : Nat) (s : State) : Out :=
  match (s.stream n).flight with
  | none => .next s
  | some l =>
    let (s, e) := s.streamEntry n
    if l.killed || !((allowedDies (entryDmask e)).all fun d => (upto (8 * d) 8).all fun c => l.reports.contains c) then .next s
    else .next (finishLaunch s l l.status.1 l.status.2)

/-! ### Cores that take work (R243, R251; 04 R94 to R96) -/

/-- Whether a core has nothing to do. -/
def Core.idle (c : Core) : Bool := c.ctl.phase == .idle && c.task.isNone

/-- Whether a waiting crew holds a core. -/
def State.reserved (s : State) (k : Nat) : Bool := s.sched.crews.any fun c => !c.admitted && c.held.contains k

def frameKey (ctx core f : Nat) : Nat := 1024 * ctx + 4 * core + f

/-- The snapshot that a frame's opaque parts hold. -/
def State.frameOf (s : State) (ctx core f : Nat) : Option Core := SMap.get none s.sched.frames (frameKey ctx core f)

/-- Whether a saved task of a stream may go on: it is not parked (18 R387, R389). -/
def Core.waitsFor (c : Core) (n : Nat) : Bool := c.ctl.phase != .parked && c.ofStream n

/-- The lowest of the frames of core k that holds a task of stream n that may go on: the context, the frame and the task. -/
def State.waitingFrame (s : State) (k n ctx : Nat) : Option (Nat × Nat × Core) :=
  (upto 0 4).findSome? fun f => match s.frameOf ctx k f with
    | some c => if c.waitsFor n then some (ctx, f, c) else none
    | none => none

/-- The lowest mapped slot and frame on core k that holds a pre-empted task whose launch may go on (R251, source 1): the
context, the frame and the task. -/
def resumable (s : State) (k : Nat) : Option (Nat × Nat × Core) :=
  (upto 0 64).findSome? fun h => match s.slotOf h with
    | some x =>
      match x.leaving, (s.stream x.stream).flight with
      | none, some l => s.waitingFrame k x.stream l.ctx
      | _, _ => none
    | none => none

/-- Whether a pre-empted task of this core waits and its stream is mapped (source 1): R251 then takes that, which FRAME_RESUME
performs. -/
def frameWaits (s : State) (k : Nat) : Bool := (resumable s k).isSome

/-- Reserve idle cores for one waiting crew, the lowest numbers first. -/
def reserveFor (s : State) (c : Crew) : State :=
  if c.admitted || decide (c.size ≤ c.held.length) then s
  else
    let free := (c.region.filter fun k => (s.core k).idle && !s.reserved k && !frameWaits s k).take (c.size - c.held.length)
    { s with sched := { s.sched with crews := s.sched.crews.map fun d =>
        if d.id = c.id then { d with held := free.foldl setInsert d.held } else d } }

/-- Reserve idle cores for the waiting crews in dealing order (R243). A crew whose stream is unmapped keeps what it has and gets no
more (log entry 136). -/
def reserveAll (s : State) : State :=
  (s.sched.crews.filter fun c => !c.admitted && s.runnable c.stream).foldl (fun s c =>
    match s.sched.crews.find? fun d => d.id == c.id with
    | some d => reserveFor s d
    | none => s) s

/-- The numbers of a list as they stand after the scratchpad has grown from `old` units to `new`, or shrunk: the ways that pass
to the cache are those of the lowest offsets (04 R92, R95). -/
def shiftWays {α : Type} (old new : Nat) (l : List (Nat × α)) : List (Nat × α) :=
  l.filterMap fun e => if old ≤ e.1 + new then some (e.1 + new - old, e.2) else none

/-- The scratchpad of a core with `n` ways in place of those that it has: ways that stay scratchpad keep their contents. -/
def Core.setWays (c : Core) (n : Nat) : Core :=
  let blocks (l : List Nat) : List Nat := (shiftWays (512 * c.ways) (512 * n) (l.map fun b => (b, ()))).map Prod.fst
  { c with ways := n, scratch := shiftWays (32768 * c.ways) (32768 * n) c.scratch
           scratchPoison := blocks c.scratchPoison, scratchErr := blocks c.scratchErr, cp := { c.cp with quays := [] } }

/-- Move the way boundary for a launch's request: the quays are reset with it (04 R95, R103). -/
def moveWays (s : State) (k n : Nat) : State :=
  let c := s.core k
  if c.ways = n then s else ({ s with ms := s.ms.moveBoundary k n } : State).setCore k (c.setWays n)

/-- Place a task on an idle core. -/
def placeTask (s : State) (k : Nat) (t : Task) (entry : Nat) : State :=
  (moveWays s k t.spw).modCore k fun c =>
    { c with task := some t, ctl := { c.ctl with phase := .starting, head := entry, cameFrom := 0, negative := false } }

/-- The task of crew member r. -/
def memberTask (l : Launch) (crew rank crewn index origin : Nat) : Task :=
  { ctx := l.ctx, trec := l.addr, owner := some l.stream, crew := some crew, rank := rank, crewn := crewn
    tc := l.coord index, record := false, origin := origin, code := l.code, sup := l.sup, creatorSup := l.creatorSup
    rst := l.rst, spw := l.spw }

/-- Place the members of an admitted crew (R243, R252). -/
def placeMembers (l : Launch) (c : Crew) : List Nat → Nat → State → State
  | [], _, s => s
  | k :: ks, r, s =>
    let origin := if c.region.length = 8 then c.region.headD 0 / 8 else k / 8
    let s := if c.region.length = 8 then s else s.share l.stream origin (· + 1)
    placeMembers l c ks (r + 1) (placeTask s k (memberTask l c.id r c.size (l.csize * c.index + r) origin) l.entry)

/-- CREW_ADMISSION (R243): the first waiting crew that holds all its cores starts on them. -/
def execCrewAdmission (s : State) : Out :=
  let s := reserveAll s
  match (if s.startsTasks then s.sched.crews.find? fun c => !c.admitted && c.held.length == c.size && s.runnable c.stream else none) with
  | none => .next s
  | some c =>
    match (s.stream c.stream).flight with
    | none => .next s
    | some l =>
      let ms := (c.held.zip (upto 0 c.size)).map fun e : Nat × Nat => ({ rank := e.2, core := e.1, ended := false, arrived := 0 } : Member)
      let s := { s with sched := { s.sched with crews := s.sched.crews.map fun d =>
        if d.id = c.id then { d with admitted := true, members := ms } else d } }
      .next (placeMembers l c c.held 0 s)

/-- A task record, or a copy record, that a core takes: the record's task waits for its start; a copy goes to the record
channel. -/
def takeRecord (s : State) (k : Nat) (q : ReadyRec) : State :=
  if q.copy then
    let rc : RecordCopy := { addr := q.addr, ctx := q.ctx, sup := false, creatorSup := q.creatorSup, owner := q.owner
                             origin := q.origin, src := 0, dst := 0, len := 0, doneBytes := 0, crc := 0, mode := 4 }
    s.modCore k fun c => { c with cp := { c.cp with record := some rc } }
  else
    let spw := match q.owner.bind fun n => (s.stream n).flight with
      | some l => l.spw
      | none => (s.core k).ways
    let t : Task := { ctx := q.ctx, trec := q.addr, owner := q.owner, crew := none, rank := 0, crewn := 1, tc := (0, 0, 0)
                      record := true, origin := q.origin, code := 0, sup := false, creatorSup := q.creatorSup, rst := false, spw := spw }
    placeTask s k t 0

/-- Whether a core may take a record now. -/
def State.takable (s : State) (k : Nat) (q : ReadyRec) : Bool :=
  (match q.owner with | some n => s.runnable n | none => true) && (!q.copy || (s.core k).cp.record.isNone)

/-- Take the head of the own deque (source 3). -/
def takeOwn (s : State) (k : Nat) : Option State :=
  match (s.dequeOf k).find? (s.takable k) with
  | some q => some (takeRecord (s.setDeque k ((s.dequeOf k).erase q)) k q)
  | none => none

/-- Take the first entry of a ready list that can run (source 4). -/
def takeReady (s : State) (k cluster prio : Nat) : Option State :=
  let l := s.readyOf cluster prio
  match l.find? fun e => match e with
    | .record q => s.takable k q
    | .launch n _ => s.runnable n with
  | some (.record q) => some (takeRecord (s.relist k cluster prio (l.erase (.record q))) k q)
  | some (.launch n (i :: is)) =>
    let rest : List Ready := if is = [] then l.erase (.launch n [i]) else l.map fun e => if e = .launch n (i :: is) then .launch n is else e
    match (s.stream n).flight with
    | some ln =>
      let crew : Crew := { id := s.sched.nextCrew, stream := n, index := i, size := 1, region := [k], held := [k]
                           members := [{ rank := 0, core := k, ended := false, arrived := 0 }], admitted := true
                           released := 0, chains := [] }
      let s := { s with sched := { s.sched with crews := s.sched.crews ++ [crew], nextCrew := s.sched.nextCrew + 1 } }
      some (placeTask (s.setReady cluster prio rest) k (memberTask ln crew.id 0 1 i cluster) ln.entry)
    | none => some (s.setReady cluster prio rest)
  | some (.launch n []) => some (s.setReady cluster prio (l.erase (.launch n [])))
  | none => none

/-- The first of several sources that yields something. -/
def firstOf {α : Type} (f : α → Option State) : List α → Option State
  | [] => none
  | a :: as => match f a with | some s => some s | none => firstOf f as

/-- The deques that an idle core probes, in order (R249). -/
def stealOrder (k : Nat) : List Nat :=
  let die := k / 64
  let g := k / 8 % 8
  let p := k % 8
  (upto 1 7).map (fun i => 64 * die + 8 * g + (p + i) % 8) ++
  ((upto 1 7).map fun j => (upto 0 8).map fun i => 64 * die + 8 * ((g + j) % 8) + (p + i) % 8).flatten

/-- Steal the tail of a deque, unless the core cannot run what it holds (R249). -/
def stealFrom (s : State) (k v : Nat) : Option State :=
  match (s.dequeOf v).getLast? with
  | some q => if s.takable k q then some (takeRecord (s.setDeque v (s.dequeOf v).dropLast) k q) else none
  | none => none

/-- CORE_TAKE_WORK (R251, R249; sources 3 to 5). Crew members start by CREW_ADMISSION, pre-empted tasks by
FRAME_RESUME. -/
def execCoreTakeWork (k : Nat) (s : State) : Out :=
  let s := reserveAll s
  if !s.startsTasks || decide (256 ≤ k) || !(s.core k).idle || s.reserved k || frameWaits s k then .next s
  else
    let s := s.dequeRefill k
    match takeOwn s k with
    | some t => .next t
    | none =>
      match firstOf (fun p => takeReady s k (k / 8) p) [7, 6, 5, 4, 3, 2, 1, 0] with
      | some t => .next t
      | none =>
        match firstOf (stealFrom s k) (stealOrder k) with
        | some t => .next t
        | none => .next s

/-- The serial number of the launch that a task belongs to for 04 R96. -/
def State.launchSerial (s : State) (t : Task) : Option Nat :=
  (t.owner.bind fun n => (s.stream n).flight).map Launch.serial

/-- SCRATCHPAD_ZEROING (04 R96, R103): a core that begins a task of another launch. -/
def execScratchpadZeroing (k : Nat) (s : State) : Out :=
  let c := s.core k
  match c.task with
  | none => .next s
  | some t =>
    if c.ctl.phase ≠ .starting ∨ c.lastLaunch = s.launchSerial t then .next s
    else .next (s.setCore k { c with scratch := [], scratchPoison := [], scratchErr := [], lastLaunch := s.launchSerial t, cp := { c.cp with quays := [] } })

end Sys2Proof.Machine
end

