-- ==== Sys2Proof/Machine/Power.lean ====
section
/-!
DEFINITION. Clocks, voltage, cooling and the tide (20 R404 to R424; 21 R426; 22 R436), and the passing of time.
-/

namespace Sys2Proof.Machine

/-! ### Divisors and voltage (R404 to R406, R426) -/

/-- The cap of a power level on an engine class: control, vector, matrix, copy. -/
def capOf (plvl cls : Nat) : Nat :=
  match plvl, cls with
  | 1, 2 => 3
  | 2, 1 => 3
  | 2, 2 => 4
  | 2, 3 => 3
  | _, _ => 2

/-- The least voltage code of a divisor. -/
def vmin (d : Nat) : Nat :=
  if d ≤ 2 then 60 else if d = 3 then 40 else if d = 4 then 30 else if d ≤ 6 then 20 else if d ≤ 8 then 10 else 0

def State.clusterPwr (s : State) (cl : Nat) : ClusterPwr := SMap.get {} s.pwr.clusters cl

def State.setClusterPwr (s : State) (cl : Nat) (p : ClusterPwr) : State :=
  { s with pwr := { s.pwr with clusters := SMap.set {} s.pwr.clusters cl p } }

/-- The fused floor code of a cluster. -/
def floorOf (cl : Nat) : Nat := min (Config.floorCode cl).toNat 70

/-- The code that a cluster's voltage stands at. -/
def State.codeOf (s : State) (cl : Nat) : Nat := max (floorOf cl) (s.clusterPwr cl).code

/-- The effective divisor of an engine (R404). A core without a task counts at 16 (R426); after a trip every engine but
the copy engine does, which keeps its divisor (R422). -/
def State.deff (s : State) (k cls : Nat) : Nat :=
  let c := s.core k
  if c.task.isNone then 16
  else if s.pwr.tripped.isSome then (if cls = 3 then c.clk.run.getD 3 16 else 16)
  else max (max (c.clk.d.getD cls 2) (capOf (s.clusterPwr (clusterOf k)).plvl cls)) s.tide.ceil

/-- The target code of a cluster (R405); an engine that waits for voltage counts at the divisor it goes to. -/
def State.targetCode (s : State) (cl : Nat) : Nat :=
  (upto (8 * cl) 8).foldl (fun t k =>
    (upto 0 4).foldl (fun t e => max t (vmin (min (s.deff k e) ((s.core k).clk.run.getD e 16)))) (max t (s.core k).clk.vreq))
    (floorOf cl)

/-- Engines of a core whose divisor may change at once do so: a slower one always, a faster one when the voltage is
there (R406). -/
def State.switchCore (s : State) (k : Nat) : State :=
  let code := s.codeOf (clusterOf k)
  let run := (upto 0 4).map fun e =>
    let r := (s.core k).clk.run.getD e 16
    let d := s.deff k e
    if r ≤ d ∨ vmin d ≤ code then d else r
  if run = (s.core k).clk.run then s else s.modCore k fun c => { c with clk := { c.clk with run := run } }

/-- The clock operations of a core that have completed deliver their results: `clkset` when the engine runs at its
divisor (R408), `vset`, entered as 16 + its code, when the voltage stands at the target (R409). -/
def State.payClocks (s : State) (k : Nat) : State :=
  let cl := clusterOf k
  let done (w : Nat × Option Nat) : Bool :=
    if w.1 < 16 then (s.core k).clk.run.getD w.1 16 == s.deff k w.1
    else s.codeOf cl == s.targetCode cl && !(s.clusterPwr cl).settling && !(s.clusterPwr cl).lowering
  let val (w : Nat × Option Nat) : Nat :=
    if w.1 < 16 then s.deff k w.1 <<< 8 + b2n (decide ((s.core k).clk.d.getD w.1 2 < s.deff k w.1))
    else if w.1 - 16 < s.targetCode cl then 2 else 0
  if (s.core k).clk.waiting.any done then
    s.modCore k fun c =>
      let c1 := (c.clk.waiting.filter done).foldl (fun c w => c.pay w.2 (BitVec.ofNat 1024 (val w)) none) c
      { c1 with clk := { c1.clk with waiting := c1.clk.waiting.filter fun w => !done w } }
  else s

/-- Re-evaluate a cluster: engines switch, and the next raise or lowering begins (R406). -/
def State.applyCluster (s : State) (cl : Nat) : State :=
  let s := (upto (8 * cl) 8).foldl State.switchCore s
  let t := s.targetCode cl
  let p := s.clusterPwr cl
  let s :=
    if p.settling || p.lowering then s
    else if s.codeOf cl < t then s.setClusterPwr cl { p with target := t, settling := true }
    else if t < s.codeOf cl then s.setClusterPwr cl { p with target := t, lowering := true }
    else s
  (upto (8 * cl) 8).foldl State.payClocks s

/-- Re-evaluate the cluster of a core. -/
def State.applyCore (s : State) (k : Nat) : State := s.applyCluster (clusterOf k)

/-- Re-evaluate every cluster: PLVL or the ceiling has changed. -/
def State.applyAll (s : State) : State := (upto 0 32).foldl State.applyCluster s

/-- Whether every engine of a core runs at its effective divisor. -/
def State.clocksReady (s : State) (k : Nat) : Bool := (upto 0 4).all fun e => (s.core k).clk.run.getD e 16 == s.deff k e

/-- The clocks of a core that starts a task (R404, R405). -/
def Core.freshClocks (c : Core) : Core := { c with clk := { c.clk with d := [2, 2, 2, 2], vreq := 0, waiting := [], entering := true } }

/-- VOLTAGE_SETTLED (R406): a raise has settled. -/
def execVoltageSettled (cl : Nat) (s : State) : Out :=
  let p := s.clusterPwr cl
  if !p.settling then .next s
  else .next ((s.setClusterPwr cl { p with code := p.target, settling := false }).applyCluster cl)

/-- VOLTAGE_LOWERING_DONE (R406, R409): a lowering has reached its target, and never less than the target in force. A
target that has risen above where the lowering began is reached by a raise of its own. -/
def execVoltageLoweringDone (cl : Nat) (s : State) : Out :=
  let p := s.clusterPwr cl
  if !p.lowering then .next s
  else .next ((s.setClusterPwr cl { p with code := max p.target (min p.code (s.targetCode cl)), lowering := false }).applyCluster cl)

/-! ### Clock instructions as they are performed (R408 to R413) -/

def State.clkset (s : State) (k eng dv : Nat) (rid : Option Nat) : State :=
  (s.modCore k fun c =>
    { c with clk := { c.clk with d := setAt c.clk.d eng dv, waiting := c.clk.waiting ++ [(eng, rid)] } }).applyCore k

def State.vset (s : State) (k code : Nat) (rid : Option Nat) : State :=
  let cl := clusterOf k
  if code < floorOf cl then s.modCore k fun c => c.pay rid 1 none
  else
    let t := s.targetCode cl
    let s1 := s.modCore k fun c => { c with clk := { c.clk with vreq := code } }
    if code < s1.targetCode cl && s1.targetCode cl == t then s1.modCore k fun c => c.pay rid 2 none
    else (s1.modCore k fun c => { c with clk := { c.clk with waiting := c.clk.waiting ++ [(16 + code, rid)] } }).applyCore k

/-- The hottest junction. -/
def State.hottest (s : State) : Nat := s.pwr.zones.foldl (fun m e => max m e.2.temp) 0

def State.clkrd (s : State) (k sel : Nat) : Nat :=
  let cl := clusterOf k
  let c := s.core k
  let run (e : Nat) : Nat := c.clk.run.getD e 16
  if sel = 0 then run 0 + run 1 * pow2 8 + run 2 * pow2 16 + run 3 * pow2 24 + s.tide.ceil * pow2 32 + (s.clusterPwr cl).plvl * pow2 40
  else if sel = 1 then s.codeOf cl + s.targetCode cl * pow2 8 + floorOf cl * pow2 16 + b2n (s.clusterPwr cl).settling * pow2 31
  else if sel = 6 then (s.clusterPwr cl).duty + s.hottest * pow2 16
  else c.clk.lastBusy.getD (sel - 2) 0 + c.clk.lastStall.getD (sel - 2) 0 * pow2 32

/-- The target that `swsel` chooses. -/
def State.swsel (s : State) (k a b c : Nat) : Nat :=
  match (s.clusterPwr (clusterOf k)).plvl with
  | 0 => a
  | 1 => b
  | _ => c

/-! ### The tide: limits and the ceiling (R414 to R417, R419) -/

/-- The thermal limit of a junction temperature. -/
def thermalOf (t : Nat) : Nat := if t < 95 then 2 else if t < 100 then 4 else if t < 104 then 8 else if t < 108 then 12 else 16

def State.ownLimit (s : State) : Nat := max s.tide.limit.toNat s.pwr.thermal

/-- The device number as a member sees it. -/
def State.isSelf (s : State) (m : TideMember) : Bool := m.dev == s.fab.devn

/-- A member from which nothing has come for 500 microseconds (R416). -/
def State.silent (s : State) (m : TideMember) : Bool := !s.isSelf m && decide (m.last + 500000 ≤ s.fab.gtime)

/-- A member counts from its joining round on. -/
def State.round (s : State) : Nat := s.fab.gtime / 1000000

def State.counts (s : State) (m : TideMember) : Bool :=
  match m.joins with
  | some k => s.tide.state == .joining || decide (k ≤ s.round)
  | none => true

def TideMember.limitAt (m : TideMember) (t : Nat) : Nat :=
  m.notices.foldl (fun l n => if n.gt ≤ t ∧ m.relseq < n.seq then max l n.limit else l) m.base

/-- `ceiling` of R414 over the members. -/
def State.ceilingOf (s : State) : Nat :=
  s.tide.members.foldl (fun c m => if s.counts m then max c (if s.silent m then 16 else m.limitAt s.fab.gtime) else c) 2

/-- C as the state table of R417 gives it. -/
def State.wantCeil (s : State) : Nat :=
  match s.tide.state with
  | .out => s.ownLimit
  | .joining => if s.tide.joinRound.isSome then s.ceilingOf else s.ownLimit
  | _ => s.ceilingOf

/-- Set C; every engine follows (R404). -/
def State.recomputeCeil (s : State) : State :=
  if s.wantCeil = s.tide.ceil then s else State.applyAll { s with tide := { s.tide with ceil := s.wantCeil } }

/-- A tide or time message in the layout of R417. -/
def tideMsg (s : State) (type subj gt res limit round : Nat) : Msg :=
  { w0 := BitVec.ofNat 64 (type <<< 56 + s.tide.group <<< 32 + s.fab.devn <<< 16 + subj % pow2 16)
    w1 := BitVec.ofNat 64 gt
    w2 := BitVec.ofNat 64 ((s.tide.seq % pow2 32) <<< 32 + (res % pow2 27) <<< 5 + limit % 32)
    w3 := BitVec.ofNat 64 round }

/-- SEQ rises with each message. -/
def State.nextSeq (s : State) : State := { s with tide := { s.tide with seq := s.tide.seq + 1 } }

/-- Send to every other member. -/
def State.sendMembers (s : State) (m : Msg) : State :=
  s.tide.members.foldl (fun s x => if s.isSelf x then s else s.send x.dev m) s

/-- The first round whose boundary lies at least 200 microseconds on. -/
def State.roundOn (s : State) : Nat := (s.fab.gtime + 200000 + 999999) / 1000000

def State.modMember (s : State) (dev : Nat) (f : TideMember → TideMember) : State :=
  { s with tide := { s.tide with members := s.tide.members.map fun m => if m.dev = dev then f m else m } }

/-- A NOTICE of the own limit, effective at `gt` (R415). -/
def State.sendNotice (s : State) (limit gt : Nat) : State :=
  let s := s.nextSeq
  let s := s.sendMembers (tideMsg s 2 0 gt 0 limit 0)
  s.modMember s.fab.devn fun m => { m with notices := m.notices ++ [{ limit := limit, gt := gt, seq := s.tide.seq }] }

/-- A RELEASE of the own limit (R415). -/
def State.sendRelease (s : State) (limit : Nat) : State :=
  let s := s.nextSeq
  let k := s.roundOn
  let s := s.sendMembers (tideMsg s 3 0 s.fab.gtime 0 limit k)
  s.modMember s.fab.devn fun m => { m with release := m.release ++ [(k, limit, s.tide.seq)] }

/-- Announce a change of the own limit, and follow it. A joiner announces it when it is a member: until then its group
uses the LIMIT of its JOIN_REQ (R417). -/
def State.announce (s : State) : State :=
  let l := s.ownLimit
  if l = s.tide.own then s
  else if s.tide.state = .joining then s.recomputeCeil
  else
    let old := s.tide.own
    let s := { s with tide := { s.tide with own := l } }
    let s := match s.tide.state with
      | .member | .leaving => if old < l then s.sendNotice l (s.fab.gtime + 100000) else s.sendRelease l
      | _ => s
    s.recomputeCeil

/-- The leader, who is also the time source: the lowest device number that is not held silent (R416, 22 R436). -/
def State.leader (s : State) : Option Nat :=
  (s.tide.members.filter fun m => s.counts m && !s.silent m).foldl (fun a m => match a with
    | some d => some (min d m.dev)
    | none => some m.dev) none

def State.inGroup (s : State) : Bool := s.tide.state == .member || s.tide.state == .leaving

/-! ### Time (07 R198, 22 R436) -/

/-- The correction of GTIME that is still to be made: a member's, and never the time source's. -/
def State.slewing (s : State) : Int := if s.inGroup && s.leader != some s.fab.devn then s.fab.slew else 0

/-- `n` reference cycles pass. GTIME advances by 5 in every 16 of them, and a member corrects it by at most 1 ns in each
8 microseconds. -/
def State.advance (s : State) (n : Nat) : State :=
  let now := s.now + n
  let steps : Int := ((now / 25600 - s.now / 25600 : Nat) : Int)
  let adj : Int := if 0 < s.slewing then min s.slewing steps else max s.slewing (-steps)
  let g : Int := ((s.fab.gtime + (5 * now / 16 - 5 * s.now / 16) : Nat) : Int) + adj
  { s with now := now, fab := { s.fab with gtime := ofInt 64 g, slew := s.slewing - adj } }

/-! ### Membership (R416, R417) -/

/-- Leave the group (state OUT). -/
def State.leaveGroup (s : State) (fail : Bool) : State :=
  State.recomputeCeil { s with
    fab := { s.fab with slew := 0 }
    tide := { s.tide with
      state := .out, members := [], joinSent := none, joinRound := none, leaveRound := none, stepped := false, evicted := []
      fail := s.tide.fail || fail } }

/-- A message of a member has arrived, which ends its silence (R416). -/
def State.heard (s : State) (dev : Nat) : State :=
  if s.tide.members.any fun m => m.dev == dev then (s.modMember dev fun m => { m with last := s.fab.gtime }).recomputeCeil else s

/-- A member ignores a device that it has removed (R416), whatever its message but JOIN_REQ (log entry 132). -/
def State.ignores (s : State) (dev : Nat) : Bool :=
  s.inGroup && s.tide.evicted.contains dev && !s.tide.members.any fun m => m.dev == dev

/-- A member as it enters. -/
def newMember (dev base last : Nat) (joins : Option Nat) : TideMember :=
  { dev := dev, base := base, relseq := 0, notices := [], last := last, release := [], joins := joins, leaves := none }

/-- Begin a join or a leave after a write of EN (R417). -/
def State.tideEnable (s : State) (en : Bool) : State :=
  let s := { s with tide := { s.tide with en := en } }
  if s.tide.state = .out ∧ en = true then
    if s.tide.leader = s.fab.devn then
      State.recomputeCeil { s with tide := { s.tide with
        state := .member, members := [newMember s.fab.devn s.ownLimit s.fab.gtime none], own := s.ownLimit
        beatAt := 0, syncRound := 0 } }
    else
      let s := { s with tide := { s.tide with state := .joining, joinSent := some s.fab.gtime, joinRound := none, stepped := false, own := s.ownLimit } }
      let s := s.nextSeq
      s.send s.tide.leader (tideMsg s 4 0 s.fab.gtime 0 s.ownLimit 0)
  else if s.tide.state = .member ∧ en = false then
    let s := { s with tide := { s.tide with state := .leaving, leaveRound := some s.roundOn } }
    let s := s.nextSeq
    s.sendMembers (tideMsg s 7 0 s.fab.gtime 0 s.ownLimit s.roundOn)
  else s

/-- A write of TIDECTL (R417). -/
def State.writeTidectl (s : State) (v : Nat) : State :=
  let out : Bool := s.tide.state == .out
  let lim := field v 0 5
  let s := { s with tide := { s.tide with
    group := if out then field v 48 16 else s.tide.group
    leader := field v 32 16
    limit := if 2 ≤ lim ∧ lim ≤ 16 then BitVec.ofNat 5 lim else s.tide.limit } }
  (s.announce).tideEnable (bit v 31)

/-- TIDECTL_WRITE (R417). -/
def execTidectlWrite (v : BitVec 64) (s : State) : Out := .next (s.writeTidectl v.toNat)

/-! ### Tide events (R414 to R417, 22 R436) -/

/-- ROUND_BOUNDARY (R414, R415, R416, R417): what falls due at the boundaries that have passed. A joiner enters once it has
stepped its group time (22 R436). -/
def execRoundBoundary (s : State) : Out :=
  let k := s.round
  let due (m : TideMember) : List (Nat × Nat × Nat) := m.release.filter fun r => decide (r.1 ≤ k)
  let apply (m : TideMember) : TideMember :=
    let m1 := (due m).foldl (fun m r => { m with base := r.2.1, relseq := r.2.2 }) m
    { m1 with release := m.release.filter (fun r => !decide (r.1 ≤ k))
              joins := m.joins.bind fun j => if j ≤ k then none else some j }
  let gone (m : TideMember) : Bool := match m.leaves with | some r => decide (r ≤ k) | none => false
  let removed := (s.tide.members.filter gone).map TideMember.dev
  let s := { s with tide := { s.tide with
    members := (s.tide.members.filter fun m => !gone m).map apply
    evicted := removed.foldl setInsert s.tide.evicted } }
  let s := match s.tide.state, s.tide.joinRound with
    | .joining, some j =>
      if j ≤ k ∧ s.tide.stepped then State.announce { s with tide := { s.tide with
        state := .member, joinRound := none, joinSent := none, beatAt := 0, syncRound := 0 } }
      else s
    | _, _ => s
  match s.tide.state, s.tide.leaveRound with
  | .leaving, some r => if r ≤ k then .next (s.leaveGroup false) else .next s.recomputeCeil
  | _, _ => .next s.recomputeCeil

/-- NOTICE_EFFECT (R414). -/
def execNoticeEffect (s : State) : Out := .next s.recomputeCeil

/-- HEARTBEAT_SEND (R415): every 100 microseconds of group time. -/
def execHeartbeatSend (s : State) : Out :=
  if !s.inGroup || decide (s.fab.gtime < s.tide.beatAt) then .next s
  else
    let s := { s with tide := { s.tide with beatAt := s.fab.gtime + 100000 } }
    let s := s.nextSeq
    let base := (s.tide.members.find? s.isSelf).map TideMember.base
    .next (s.sendMembers (tideMsg s 1 0 s.fab.gtime 0 (base.getD s.ownLimit) 0))

/-- SILENCE_TIMEOUT (R416). -/
def execSilenceTimeout (dev : Nat) (s : State) : Out :=
  match s.tide.members.find? fun m => m.dev == dev with
  | some m => .next (if s.silent m then s.recomputeCeil else s)
  | none => .next s

/-- EVICT_TIMEOUT (R416): the leader evicts a member that has been silent for 5 ms. -/
def execEvictTimeout (dev : Nat) (s : State) : Out :=
  match s.tide.members.find? fun m => m.dev == dev with
  | some m =>
    if !s.inGroup || s.leader != some s.fab.devn || s.isSelf m || m.leaves.isSome || decide (s.fab.gtime < m.last + 5000000) then .next s
    else
      let s := s.nextSeq
      let k := s.roundOn
      .next ((s.sendMembers (tideMsg s 8 dev s.fab.gtime 0 s.ownLimit k)).modMember dev fun m => { m with leaves := some k })
  | none => .next s

/-- JOIN_TIMEOUT (R417): no JOIN_ACK within 2 ms. -/
def execJoinTimeout (s : State) : Out :=
  match s.tide.state, s.tide.joinSent, s.tide.joinRound with
  | .joining, some t, none => if t + 2000000 ≤ s.fab.gtime then .next (s.leaveGroup true) else .next s
  | _, _, _ => .next s

/-- Send TIME_REQ to a device. -/
def State.timeReq (s : State) (dev : Nat) : State :=
  let s := s.nextSeq
  s.send dev (tideMsg s 9 0 s.fab.gtime 0 s.ownLimit 0)

/-- TIME_SYNC_SEND (22 R436): once per round, to the time source; a member that is leaving is one until it has left (log entry 131). -/
def execTimeSyncSend (s : State) : Out :=
  if s.inGroup = false ∨ s.round ≤ s.tide.syncRound ∨
      s.fab.gtime % 1000000 < 100000 + 1000 * (s.fab.devn % 512) then .next s
  else
    let s := { s with tide := { s.tide with syncRound := s.round } }
    match s.leader with
    | some d => .next (if d = s.fab.devn then s else s.timeReq d)
    | none => .next s

/-! ### Tide messages -/

def msgType (m : Msg) : Nat := wfield m.w0 63 56
def msgSender (m : Msg) : Nat := wfield m.w0 31 16
def msgSubj (m : Msg) : Nat := wfield m.w0 15 0
def msgSeq (m : Msg) : Nat := wfield m.w2 63 32
def msgRes (m : Msg) : Nat := wfield m.w2 31 5
def msgLimit (m : Msg) : Nat := wfield m.w2 4 0

/-- A FAULT message (22 R434). -/
def faultMsg (s : State) (cause status addr : Nat) : Msg :=
  { w0 := BitVec.ofNat 64 (0x12 <<< 56 + s.fab.devn <<< 16), w1 := BitVec.ofNat 64 (cause + status <<< 8)
    w2 := BitVec.ofNat 64 addr, w3 := 0 }

/-- A tide message with a reserved field that is not zero (22 R434). -/
def tideBad (m : Msg) : Bool := wfield m.w0 55 48 != 0 || (msgType m != 0x0A && msgRes m != 0)

/-- A message of a tide type: discarded when malformed, ignored from a device that is no member; its arrival ends
silence (R416). -/
def tideArrival (s : State) (m : Msg) (type : Nat) (act : State → State) : Out :=
  if !s.serves ∨ msgType m ≠ type then .next s
  else if tideBad m then .next (s.send (msgSender m) (faultMsg s 1 0 0))
  else if !s.tide.members.any (fun x => x.dev == msgSender m) then .next s
  else .next (act (s.heard (msgSender m))).recomputeCeil

/-- HEARTBEAT (R414, R416). -/
def execHeartbeat (m : Msg) (s : State) : Out := tideArrival s m 1 id

/-- NOTICE (R415). -/
def execNotice (m : Msg) (s : State) : Out :=
  tideArrival s m 2 fun s =>
    let s := s.modMember (msgSender m) fun x =>
      { x with notices := x.notices ++ [{ limit := msgLimit m, gt := m.w1.toNat, seq := msgSeq m }] }
    if m.w1.toNat < s.fab.gtime then { s with tide := { s.tide with late := min (s.tide.late + 1) 0xFFFF } } else s

/-- RELEASE (R415). -/
def execRelease (m : Msg) (s : State) : Out :=
  tideArrival s m 3 fun s =>
    s.modMember (msgSender m) fun x => { x with release := x.release ++ [(m.w3.toNat, msgLimit m, msgSeq m)] }

/-- Words 4 to 31 of JOIN_ACK: a word for each member, its device number in bits [31:16] and its base limit in [4:0]; for each
pending notice a word with bit 63 set and its sender and limit in the same places, and a word with its GT. -/
def ackWords (s : State) : List (BitVec 64) :=
  (s.tide.members.map fun m => BitVec.ofNat 64 (m.dev <<< 16 + m.base)) ++
  (s.tide.members.map fun m => ((m.notices.filter fun n => decide (m.relseq < n.seq)).map fun n =>
    [BitVec.ofNat 64 (1 <<< 63 + m.dev <<< 16 + n.limit), BitVec.ofNat 64 n.gt]).flatten).flatten

/-- Words as the flits that carry them. -/
def flits : Nat → List (BitVec 64) → List Msg
  | 0, _ => []
  | _ + 1, [] => []
  | n + 1, ws => { w0 := ws.getD 0 0, w1 := ws.getD 1 0, w2 := ws.getD 2 0, w3 := ws.getD 3 0 } :: flits n (ws.drop 4)

/-- JOIN_REQ (R417): the leader answers it. -/
def execJoinReq (m : Msg) (s : State) : Out :=
  if !s.serves ∨ msgType m ≠ 4 then .next s
  else if tideBad m then .next (s.send (msgSender m) (faultMsg s 1 0 0))
  else if !s.inGroup || s.leader != some s.fab.devn then .next s
  else
    let dev := msgSender m
    let k := s.roundOn
    let rest := ackWords s
    let s := s.nextSeq
    let s := s.send dev (tideMsg s 5 0 s.fab.gtime 0 s.ownLimit k)
    let s := (flits 7 rest).foldl (fun s f => s.send dev f) s
    let s := s.nextSeq
    let s := s.sendMembers (tideMsg s 6 dev s.fab.gtime 0 (msgLimit m) k)
    .next (State.recomputeCeil { s with tide := { s.tide with
      members := s.tide.members.filter (fun x => x.dev != dev) ++ [newMember dev (msgLimit m) s.fab.gtime (some k)] } })

/-- Members and notices from the words of JOIN_ACK; a notice counts until the next release of its member. -/
def readAck (now : Nat) : Nat → List (BitVec 64) → List TideMember → List TideMember
  | 0, _, ms => ms
  | _ + 1, [], ms => ms
  | n + 1, w :: ws, ms =>
    let dev := wfield w 31 16
    if w.getLsbD 63 then
      let t : TideNotice := { limit := wfield w 4 0, gt := (ws.headD 0).toNat, seq := 1 }
      readAck now n (ws.drop 1) (ms.map fun m => if m.dev = dev then { m with notices := m.notices ++ [t] } else m)
    else if w = 0 then readAck now n ws ms
    else readAck now n ws (ms ++ [newMember dev (wfield w 4 0) now none])

/-- JOIN_ACK (R417, 22 R436). -/
def execJoinAck (m : Msg) (rest : List (BitVec 64)) (s : State) : Out :=
  if !s.serves ∨ msgType m ≠ 5 then .next s
  else if tideBad m then .next (s.send (msgSender m) (faultMsg s 1 0 0))
  else if s.tide.state ≠ .joining ∨ s.tide.joinRound.isSome then .next s
  else
    let ms := readAck s.fab.gtime 28 rest []
    let self := newMember s.fab.devn s.tide.own s.fab.gtime none
    let s := { s with tide := { s.tide with members := ms.filter (fun (x : TideMember) => x.dev != s.fab.devn) ++ [self], joinRound := some m.w3.toNat } }
    .next (s.timeReq (msgSender m)).recomputeCeil

/-- JOIN (R417). -/
def execJoin (m : Msg) (s : State) : Out :=
  tideArrival s m 6 fun s =>
    if msgSubj m = s.fab.devn then s
    else
      let ms := s.tide.members.filter (fun (x : TideMember) => x.dev != msgSubj m)
      { s with tide := { s.tide with members := ms ++ [newMember (msgSubj m) (msgLimit m) s.fab.gtime (some m.w3.toNat)] } }

/-- LEAVE (R417). -/
def execLeave (m : Msg) (s : State) : Out :=
  tideArrival s m 7 fun s => s.modMember (msgSender m) fun x => { x with leaves := some m.w3.toNat }

/-- EVICT (R416, R417). -/
def execEvict (m : Msg) (s : State) : Out :=
  tideArrival s m 8 fun s =>
    if msgSubj m = s.fab.devn then s.leaveGroup false
    else s.modMember (msgSubj m) fun x => { x with leaves := some m.w3.toNat }

/-- TIME_REQ (22 R436): the reply leaves when the request arrives, so its residence time is 0. -/
def execTimeReq (m : Msg) (s : State) : Out :=
  tideArrival s m 9 fun s =>
    let s := s.nextSeq
    s.send (msgSender m) (tideMsg s 0x0A 0 s.fab.gtime 0 s.ownLimit m.w1.toNat)

/-- TIME_RSP (22 R436): a member slews, and a joiner steps, the arrival times of its members with its GTIME. -/
def execTimeRsp (m : Msg) (s : State) : Out :=
  tideArrival s m 0x0A fun s =>
    let t3 : Int := (m.w1.toNat : Int)
    let t1 : Int := (m.w3.toNat : Int)
    let t4 : Int := (s.fab.gtime : Int)
    let o : Int := Int.tdiv ((t3 - (msgRes m : Int) - t1) + (t3 - t4)) 2
    match s.tide.state with
    | .member | .leaving => if s.leader = some s.fab.devn then s else { s with fab := { s.fab with slew := o } }
    | .joining => { s with
        fab := { s.fab with gtime := ofInt 64 (t4 + o) }
        tide := { s.tide with
          stepped := true, members := s.tide.members.map fun x => { x with last := ofInt 64 ((x.last : Int) + o) } } }
    | .out => s

/-! ### Cooling (R419 to R421) -/

def State.zone (s : State) (z : Nat) : Zone := SMap.get {} s.pwr.zones z

def State.setZone (s : State) (z : Nat) (x : Zone) : State := { s with pwr := { s.pwr with zones := SMap.set {} s.pwr.zones z x } }

/-- The zone of a cluster (R419). -/
def zoneOf (cl : Nat) : Nat := 2 * (cl / 8) + cl % 8 / 4

/-- THERMAL_LIMIT_CHANGE (R419): a zone's junctions have reached a temperature. A rise of the limit is announced at
once, the rise at 108 °C by the trip notice of EMERGENCY_SAVE (R415); a fall waits for the window (SAMPLE_WINDOW_BOUNDARY). -/
def execThermalLimitChange (zone celsius : Nat) (s : State) : Out :=
  let s := s.setZone (zone % 16) { s.zone (zone % 16) with temp := celsius % 256 }
  let s := { s with pwr := { s.pwr with hot := max s.pwr.hot s.hottest } }
  if s.pwr.thermal < thermalOf s.hottest ∧ s.hottest < 108 then .next (State.announce { s with pwr := { s.pwr with thermal := thermalOf s.hottest } })
  else .next s

/-- Whether a cluster is throttled (R421). -/
def State.throttled (s : State) (cl : Nat) : Bool :=
  let z := s.zone (zoneOf cl)
  let noFlow : Bool := match z.raisedAt with
    | some t =>
      decide (t + 3200000 ≤ s.now) && (match z.flowAt with | some f => decide (f < t) || decide (t + 3200000 < f) | none => true)
    | none => false
  decide (100 < z.temp) && (z.valve == 255 || noFlow || s.pwr.unresponsive)

/-- The power of a cluster after a window boundary: a level moves by at most one step (R412), the duty by an eighth
(R421). -/
def State.windowCluster (s : State) (levels : List Nat) (cl : Nat) : State :=
  let p := s.clusterPwr cl
  let want := levels.getD cl p.plvl
  let plvl := if p.plvl < want then min 2 (p.plvl + 1) else if want < p.plvl then p.plvl - 1 else p.plvl
  let duty := if s.throttled cl then max 1 (p.duty - 1)
    else if (s.zone (zoneOf cl)).temp < 97 then min 8 (p.duty + 1) else p.duty
  s.setClusterPwr cl { p with plvl := plvl, duty := duty }

/-- SAMPLE_WINDOW_BOUNDARY (R411, R412, R419, R421): the last cycle of a window ends. `levels` are the levels that the power
manager grants. -/
def execSampleWindowBoundary (levels : List Nat) (s : State) : Out :=
  if s.now + 1 < s.pwr.window then .next s
  else
    let close (c : Core) : Core := { c with clk := { c.clk with
      lastBusy := c.clk.busy, lastStall := c.clk.stall, busy := [0, 0, 0, 0], stall := [0, 0, 0, 0] } }
    let s := { s with pwr := { s.pwr with window := s.pwr.window + 32000 } }.mapCores close
    let s := (upto 0 32).foldl (fun s cl => s.windowCluster levels cl) s
    let fall := thermalOf (s.pwr.hot + 2)
    let s := { s with pwr := { s.pwr with hot := s.hottest, thermal := min s.pwr.thermal fall } }
    .next s.announce.applyAll

/-- Count the cycle of an engine in which reference cycle `now` lies, as busy or as a stall, in the window that begins at
`w` (R411). A cycle counts once, where it begins in the window; one in which the engine has both waited and gone on is
busy. -/
def Clocks.count (x : Clocks) (w now e : Nat) (busy : Bool) : Clocks :=
  let d := x.run.getD e 16
  let start := now / d * d
  let last := x.counted.getD e 0
  if now < last / 2 then
    if busy && last % 2 == 0 then
      { x with stall := modAt x.stall e (· - 1), busy := modAt x.busy e (· + 1), counted := setAt x.counted e (last + 1) }
    else x
  else if w ≤ start ∧ last / 2 ≤ start then
    { x with
      busy := if busy then modAt x.busy e (· + 1) else x.busy, stall := if busy then x.stall else modAt x.stall e (· + 1)
      counted := setAt x.counted e (2 * (start + d) + b2n busy) }
  else x

/-- A cycle of an engine of a core. -/
def State.countCycle (s : State) (k e : Nat) (busy : Bool) : State :=
  s.modCore k fun c => { c with clk := c.clk.count (s.pwr.window - 32000) s.now e busy }

/-- An engine of core `k` dispatched a move, or fired a command (R411). -/
def State.countBusy (s : State) (k e : Nat) : State := s.countCycle k e true

/-- Whether throttling pauses a cluster: at duty k/8 its slots and engines go only in the first 64 k of every 512 reference
cycles (R421). -/
def State.pausedBy (s : State) (cl : Nat) : Bool := decide (64 * (s.clusterPwr cl).duty ≤ s.now % 512)

/-- A coolant frame (R420). -/
def coolFrame (type zone value seq : Nat) : BitVec 64 :=
  let h := type + (zone % 256) <<< 8 + (value % 256) <<< 16 + (seq % 256) <<< 24
  BitVec.ofNat 64 (h + crc32c (bytesOf h 4) <<< 32)

/-- The least position of a zone's valve. -/
def State.coolMin (s : State) (z : Nat) : Nat := if z < 8 then wfield s.pwr.coolMin0 (8 * z + 7) (8 * z) else wfield s.pwr.coolMin1 (8 * (z - 8) + 7) (8 * (z - 8))

/-- Send a frame to the rack (R420). -/
def State.sendFrame (s : State) (type zone value : Nat) : State :=
  let seq := s.pwr.frameSeq
  { s with pwr := { s.pwr with
    frameSeq := (seq + 1) % 256, frames := s.pwr.frames ++ [coolFrame type zone value seq]
    awaiting := s.pwr.awaiting ++ [(seq, s.now)] } }

/-- VALVE_REFRESH (R420): the module sends the position of a zone's valve, never below its COOLMIN byte; or, for zone 0xFF,
the speed of the pump. -/
def execValveRefresh (zone value : Nat) (s : State) : Out :=
  if zone = 0xFF then .next (State.sendFrame { s with pwr := { s.pwr with pump := value % 256 } } 2 0xFF (value % 256))
  else
    let z := zone % 16
    let x := s.zone z
    let v := max (s.coolMin z) (value % 256)
    let y := { x with valve := v, sentAt := s.now, raisedAt := if x.valve < v then some s.now else x.raisedAt }
    .next ((s.setZone z y).sendFrame 1 z v)

/-- Whether no report of a zone has risen since its valve was last raised (R421). -/
def Zone.awaitsFlow (z : Zone) : Bool :=
  match z.raisedAt, z.flowAt with
  | some t, some f => decide (f < t)
  | _, _ => true

/-- FLOW (R420): the rack reports a zone's flow; the first rise after a raise answers it (R421). -/
def execFlow (zone value : Nat) (s : State) : Out :=
  let x := s.zone (zone % 16)
  .next (s.setZone (zone % 16) { x with flow := value % 256, flowAt := if x.flow < value % 256 ∧ x.awaitsFlow then some s.now else x.flowAt })

/-- ACK (R420). -/
def execAck (seq : Nat) (s : State) : Out :=
  if s.pwr.awaiting.any (fun e => e.1 == seq) then
    .next { s with pwr := { s.pwr with awaiting := s.pwr.awaiting.filter fun (e : Nat × Nat) => e.1 != seq, lostFrames := 0 } }
  else .next s

/-- ACK_TIMEOUT (R420): an ACK has been missing for 1 ms. -/
def execAckTimeout (s : State) : Out :=
  match s.pwr.awaiting with
  | (q, t) :: _ =>
    if s.now < t + 3200000 then .next s
    else .next { s with pwr := { s.pwr with
      awaiting := s.pwr.awaiting.filter fun (e : Nat × Nat) => e.1 != q, lostFrames := s.pwr.lostFrames + 1
      unresponsive := s.pwr.unresponsive || decide (3 ≤ s.pwr.lostFrames + 1) } }
  | [] => .next s

end Sys2Proof.Machine
end

