-- ==== Sys2Proof/Machine/Kill.lean ====
section
/-!
DEFINITION. Save frame headers, forced kills and kills of a context (18 R393 to R398).
-/

namespace Sys2Proof.Machine

/-! ### Frames (R393, R394) -/

def State.setFrame (s : State) (ctx core f : Nat) (c : Option Core) : State :=
  { s with sched := { s.sched with frames := SMap.set none s.sched.frames (frameKey ctx core f) c } }

/-- The base of a frame of a context. -/
def State.frameAddr (s : State) (ctx core f : Nat) : State × Nat :=
  let (s, e) := s.readCtx ctx
  (s, frameBase e.savev core f)

/-- Go on with what a step found, if it found anything. -/
def thenSome {α β : Type} (r : State × Option α) (f : State → α → State × Option β) : State × Option β :=
  match r.2 with
  | none => (r.1, none)
  | some x => f r.1 x

/-- Go on if a step succeeded. -/
def thenIf (r : State × Bool) (f : State → State × Bool) : State × Bool := if r.2 then f r.1 else r

/-- A translation that led to memory of this device. -/
def ownXlat (w : Who) : Except XFault Xlat → Option (Who × Xlat)
  | .error _ => none
  | .ok x => if x.dev.isSome then none else some (w, x)

/-- The translation of a place in a frame with the context's supervisor authority; `none` if it faults. -/
def State.frameXlat (s : State) (ctx core f off : Nat) (kind : XKind) : State × Option (Who × Xlat) :=
  let a := s.frameAddr ctx core f
  let w := a.1.ctxWho core ctx true
  let t := translate w.1.ms w.2 (a.2 + off) kind
  ({ w.1 with ms := t.1 }, ownXlat w.2 t.2)

/-- The blocks of a frame that a restart has taken from the save image and that no core has resumed (20 R424). -/
def State.keptOf (s : State) (ctx core f : Nat) : Option Kept := s.sched.kept.find? fun x => x.key == frameKey ctx core f

/-- A frame of the save image is no longer kept. -/
def State.dropKept (s : State) (ctx core f : Nat) : State :=
  { s with sched := { s.sched with kept := s.sched.kept.filter fun x => x.key != frameKey ctx core f } }

/-- Bytes within a block of a kept frame. -/
def Kept.get (x : Kept) (off n : Nat) : Nat := field (SMap.get 0 x.blocks (off / 64)).toNat (8 * (off % 64)) (8 * n)

/-- A kept frame with `n` bytes within a block written. -/
def Kept.put (x : Kept) (off n v : Nat) : Kept :=
  let b : Block := SMap.get 0 x.blocks (off / 64)
  let m := bitSpan (off % 64) n
  { x with blocks := SMap.set 0 x.blocks (off / 64) ((b &&& ~~~m) ||| (BitVec.ofNat 512 (v <<< (8 * (off % 64))) &&& m)) }

/-- Read `n` bytes of a frame, within one block; `none` if their translation faults. -/
def State.frameGet (s : State) (ctx core f off n : Nat) : State × Option Got :=
  match s.keptOf ctx core f with
  | some x => (s, some (Got.ok (x.get off n)))
  | none =>
  thenSome (s.frameXlat ctx core f off .load) fun s p =>
    let g := if p.2.hole then (s.ms, Got.ok 0) else homeRead s.ms p.1 p.2 p.2.pa n 1 .read
    ({ s with ms := g.1 }, some g.2)

/-- FST of a frame; `none` when its header cannot be read. -/
def State.fst (s : State) (ctx core f : Nat) : State × Option Nat :=
  thenSome (s.frameGet ctx core f 0 8) fun s g => (s, if g.bad.isSome then none else some (g.val % 16))

/-- Write `n` bytes at a place that a translation gave; false if the write is denied. -/
def State.placeWrite (s : State) (n v : Nat) (bad : Bool) (p : Who × Xlat) : State × Bool :=
  let d := homeWrite s.ms p.1 p.2 p.2.pa n v (allOnes n) 1 bad
  ({ s with ms := d.1 }, d.2.isNone)

/-- Write `n` bytes of a frame with the context's supervisor translation; false if the write faults or is denied. -/
def State.frameWrite (s : State) (ctx core f off n v : Nat) (bad : Bool) : State × Bool :=
  match s.keptOf ctx core f with
  | some x =>
    let kept := s.sched.kept.map fun y => if y.key = x.key then y.put off n v else y
    ({ s with sched := { s.sched with kept := kept } }, true)
  | none =>
    let r := s.frameXlat ctx core f off .store
    r.2.elim (r.1, false) (r.1.placeWrite n v bad)

/-- Write `n` bytes of a frame, block by block; `fuel` bounds the blocks. -/
def frameBytes (ctx core f : Nat) (bad : Bool) : Nat → Nat → Nat → Nat → State → State × Bool
  | 0, _, _, _, s => (s, true)
  | fuel + 1, off, n, v, s =>
    if n = 0 then (s, true)
    else
      let m := min n (64 - off % 64)
      thenIf (s.frameWrite ctx core f off m (v % pow2 (8 * m)) bad)
        (frameBytes ctx core f bad fuel (off + m) (n - m) (v / pow2 (8 * m)))

/-- Word 0 of a header with an FST. -/
def frameWord0 (fst : Nat) : Nat := 0x5A7E0C01 <<< 32 + fst

/-- Write FST; a frame that is freed is not kept any more. -/
def State.setFst (s : State) (ctx core f v : Nat) : State × Bool :=
  let r := s.frameWrite ctx core f 0 8 (frameWord0 v) false
  if v = 0 then (r.1.dropKept ctx core f, r.2) else r

/-- The lowest-numbered frame with FST = 0 (R391). -/
def freeFrame (s : State) (ctx core : Nat) : Nat → Nat → State × Option Nat
  | 0, _ => (s, none)
  | n + 1, f =>
    let r := s.fst ctx core f
    if r.2 = some 0 then (r.1, some f) else freeFrame r.1 ctx core n (f + 1)

/-! ### The end of a task's engine work (R397, items 2 to 4) -/

/-- The core's block, held operations and engine work are gone; it holds no task. -/
def Core.clear (c : Core) : Core :=
  { ({} : Core) with
    code := c.code, hdr := c.hdr, ways := c.ways, scratch := c.scratch, scratchPoison := c.scratchPoison, lastLaunch := c.lastLaunch
    scratchErr := c.scratchErr
    clk := { c.clk with d := [2, 2, 2, 2], vreq := 0, waiting := [], entering := false }
    mx := { ({} : Matrix) with arriving := c.mx.arriving, forwards := c.mx.forwards, crcr := c.mx.crcr, crcf := c.mx.crcf }
    cp := { ({} : CopyEngine) with quays := c.cp.quays, record := c.cp.record, addOn := c.cp.addOn } }

/-- Whether an access of a core still waits for its acknowledgement. -/
def State.waitsRemote (s : State) (k : Nat) : Bool := s.fab.unacked.any fun e => e.2.any fun u => u.core == k

/-- Whether engine work of the task of a core that a kill waits for has not ended: remote accesses, storage commands, and rows
of its add-on-writes (R395, R397). -/
def State.engineOut (s : State) (k : Nat) : Bool :=
  s.waitsRemote k || s.sto.outstanding.any (fun c => c.core == k) || s.cores.any fun e => e.2.cp.addOn.any fun r => r.src == k

/-- An Abort is sent for a command, unless one has been. -/
def Command.abort (now : Nat) (c : Command) : Command := if c.abortAt.isSome then c else { c with abortAt := some now }

/-- An Abort is sent for the commands that `p` names (R397, item 4). -/
def State.abortCommands (s : State) (p : Command → Bool) : State :=
  { s with sto := { s.sto with outstanding := s.sto.outstanding.map fun c => if p c then c.abort s.now else c } }

/-- Free a core: its lines are written back, and its engines count at 16 again (21 R426). -/
def State.freeCore (s : State) (k : Nat) : State :=
  ({ s with ms := s.ms.completeFlush k }.modCore k Core.clear).applyCore k

/-! ### Forced kills (R395) -/

def State.modCrew (s : State) (id : Nat) (f : Crew → Crew) : State :=
  { s with sched := { s.sched with crews := s.sched.crews.map fun c => if c.id = id then f c else c } }

def State.crew (s : State) (id : Nat) : Option Crew := s.sched.crews.find? fun c => c.id == id

/-- Free the frames on a core that hold a member of a crew. -/
def dropFrames (s : State) (ctx core : Nat) (p : Task → Bool) : State :=
  (upto 0 4).foldl (fun s f =>
    match s.frameOf ctx core f with
    | some c =>
      if (match c.task with | some t => p t | none => false) then ((s.setFst ctx core f 0).1).setFrame ctx core f none else s
    | none => s) s

/-- The launch of a stream has had a task forced to a kill (20 R423). -/
def State.markForced (s : State) (owner : Option Nat) : State :=
  match owner with
  | some n => let st := s.stream n
              s.setStream n { st with flight := st.flight.map fun l => { l with forced := true } }
  | none => s

/-- End one member: it completes with status 0x02, or, for a restart, only leaves. -/
def endMember (s : State) (t : Task) (core : Nat) (rst : Bool) : State :=
  let here : Bool := match (s.core core).task with | some u => u.crew == t.crew | none => false
  let s := if here then s.freeCore core else s
  let s := dropFrames s t.ctx core fun u => u.crew == t.crew
  if rst then s else completeMember s core t 0x02 none

/-- The clusters of a region have not reported while a crew of it waits for admission (R252). -/
def State.unreport (s : State) (n : Nat) (region : List Nat) : State :=
  let st := s.stream n
  s.setStream n { st with flight := st.flight.map fun l =>
    { l with reports := l.reports.filter fun c => !region.any fun k => k / 8 == c } }

/-- Deal a crew again from its first member: one of 1 to its cluster's ready list, a larger one into the dealing order,
where the shares of the members that had ended rise again (R252). Its flits on their way are for a crew that is gone (14 R334). -/
def redeal (s : State) (c : Crew) (l : Launch) (ended : Nat) : State :=
  let origin := c.region.headD 0 / 8
  if l.csize = 1 then
    let s := { s with sched := { s.sched with crews := s.sched.crews.filter fun d => d.id != c.id } }
    s.setReady origin l.prio (enterCrew c.stream c.index (s.readyOf origin l.prio))
  else
    let s := s.modCrew c.id fun d =>
      { d with id := s.sched.nextCrew, held := [], members := [], admitted := false, released := 0, chains := [] }
    let s := { s with sched := { s.sched with nextCrew := s.sched.nextCrew + 1 } }.unreport c.stream c.region
    if c.region.length = 8 then s.share c.stream origin (· + ended)
    else (c.members.filter fun m => !m.ended).foldl (fun s m => s.share c.stream (m.core / 8) (· - 1)) s

/-- The ready record of a task that has a record, or of a copy that the record channel performs. -/
def Task.ready (t : Task) : ReadyRec :=
  { addr := t.trec, ctx := t.ctx, creatorSup := t.creatorSup, owner := t.owner, origin := t.origin, prio := 0, copy := false }

def RecordCopy.ready (rc : RecordCopy) : ReadyRec :=
  { addr := rc.addr, ctx := rc.ctx, creatorSup := rc.creatorSup, owner := rc.owner, origin := rc.origin, prio := 0, copy := true }

/-- The cores on which the task of core k and the members of its crew that have not ended run. -/
def State.crewCores (s : State) (k : Nat) (t : Task) : List Nat :=
  match t.crew.bind s.crew with
  | some c => ((c.members.filter fun m => !m.ended).map Member.core).filter fun j =>
      match (s.core j).task with | some u => u.crew == t.crew | none => false
  | none => [k]

/-- The block and the engine work of core k end; the core keeps its task until what is outstanding has ended. -/
def State.stopTask (s : State) (k : Nat) : State :=
  let t := (s.core k).task
  (s.freeCore k).modCore k fun c => { c with task := t, ctl := { c.ctl with phase := .dying } }

/-- The end of a forced kill of the task `t` on core k and of its crew: the crew is dealt again, or its members complete. -/
def endForced (s : State) (k : Nat) (t : Task) : State :=
  match t.crew.bind s.crew, t.owner.bind fun n => (s.stream n).flight with
  | some c, some l =>
    let live := c.members.filter fun m => !m.ended
    let origin (m : Member) : Nat := if c.region.length = 8 then t.origin else m.core / 8
    let s := live.foldl (fun s m => endMember s { t with origin := origin m } m.core t.rst) s
    if t.rst then redeal s c l (c.members.filter fun m => m.ended).length
    else s.modCrew c.id fun d => { d with members := d.members.map fun m => { m with ended := true } }
  | _, _ =>
    let s := dropFrames (s.freeCore k) t.ctx k fun u => u.trec == t.trec && u.record
    if t.rst then
      let (s, w) := s.ctxWho k t.ctx t.creatorSup
      match recordRead s.ms w t.trec false with
      | (ms, .ok (_, r)) =>
        ({ s with ms := ms }.setStatus w t.trec (linkWord 0 2)).pushReady k t.origin { t.ready with prio := recPrio r }
      | (ms, .error _) => { s with ms := ms }.pushReady k t.origin t.ready
    else completeRecord s k t.ready t.sup 0x02 0 none

/-- A forced kill of the task on core k and of its crew: it ends once their engine work has (R395). -/
def forcedKill (s : State) (k : Nat) : State :=
  match (s.core k).task with
  | none => s
  | some t =>
    let s := s.markForced t.owner
    let ks := s.crewCores k t
    if ks.any s.engineOut then ks.foldl State.stopTask (s.abortCommands fun c => ks.contains c.core)
    else endForced s k t

/-! ### The kill of a context (R396 to R398) -/

/-- Complete the queued launches of a stream with status 0x02, in order (item 1). -/
def completeQueued (n x : Nat) : Nat → Nat → State → State
  | 0, _, s => s
  | fuel + 1, va, s =>
    if va = 0 then s
    else
      let sup := (s.stream n).supQueued.contains va
      let (s, w) := s.ctxWho 0 x sup
      let (ms, r) := recordRead s.ms w va false
      let next := match r with | .ok (_, r) => field (recWord r 1) 6 50 | .error _ => 0
      let s := completeLaunchRecord { s with ms := ms } n va x sup 0x02 0
      completeQueued n x fuel (if next = 0 then 0 else va56 (next * 64)) s

/-- Empty a stream of the killed context. -/
def killStream (x : Nat) (s : State) (n : Nat) : State :=
  let (s, e) := s.streamEntry n
  if entryCtx e ≠ x then s
  else
    let s := if field (recWord e 0) 6 50 = 0 then s else completeQueued n x 0x100000 (entryHead e) s
    let s := { s with ms := (s.ms.hwWrite (s.streamAddr n) 8 0).hwWrite (s.streamAddr n + 8) 8 0 }
    let st := s.stream n
    unmapIdle (s.setStream n { st with supQueued := [], flight := st.flight.map fun l => { l with killed := true } }) n

/-- Whether a stream's launch in flight is being killed. -/
def State.flightKilled (s : State) (n : Nat) : Bool := match (s.stream n).flight with | some l => l.killed | none => false

/-- Keep what `p` names of every list of a map. -/
def dropFrom {α : Type} (p : α → Bool) (m : SMap (List α)) : SMap (List α) :=
  (m.map fun e => (e.1, e.2.filter p)).filter fun e => !e.2.isEmpty

/-- The records of tasks that a kill ends complete with it (R229, R394, R397). -/
def State.abandon (s : State) (ts : List Task) : State :=
  { s with sched := { s.sched with abandoned := s.sched.abandoned ++ (ts.filter Task.record).map fun t => (t.ready, t.sup) } }

/-- A core that runs a task of context x is freed. -/
def freeIfOf (x : Nat) (s : State) (k : Nat) : State :=
  match (s.core k).task with
  | some t => if t.ctx = x then (s.freeCore k).abandon [t] else s
  | none => s

/-- A frame that reads free and still holds a parked task has been abandoned by software (R394). -/
def State.forsake (s : State) (ctx core f : Nat) : State :=
  match s.frameOf ctx core f with
  | some c => let s := s.setFrame ctx core f none
              if c.ctl.phase = .parked then s.abandon c.task.toList else s
  | none => s

/-- A frame of context x on core k is freed. -/
def freeFrameOf (x k : Nat) (s : State) (f : Nat) : State :=
  let r := s.fst x k f
  if r.2 = some 0 then r.1.forsake x k f
  else
    let held := ((r.1.frameOf x k f).bind Core.task).toList
    (((if r.2.isSome then (r.1.setFst x k f 0).1 else r.1)).setFrame x k f none).abandon held

/-- The frames of context x on core k are freed. -/
def freeFrames (x : Nat) (s : State) (k : Nat) : State := (upto 0 4).foldl (freeFrameOf x k) s

/-- The deque and ready-list entries of context x are discarded: no status is written in their records (item 2;
log entry 142). -/
def discardWork (x : Nat) (s : State) : State :=
  let other (q : ReadyRec) : Bool := q.ctx != x
  let alive (r : Ready) : Bool := match r with | .record q => other q | .launch n _ => !s.flightKilled n
  let s := (upto 0 256).foldl (State.dequeKeep other) s
  (upto 0 256).foldl (fun s i => s.relist 0 (i / 8) (i % 8) ((s.readyOf (i / 8) (i % 8)).filter alive)) s

/-- The record channels drop the copy records of context x, which complete with the kill. -/
def dropCopies (x : Nat) (s : State) : State :=
  let gone := s.cores.filterMap fun e => e.2.cp.record.filter fun r => r.ctx == x
  let drop (c : Core) : Core := { c with cp := { c.cp with record := c.cp.record.filter fun r => r.ctx != x } }
  { s with sched := { s.sched with abandoned := s.sched.abandoned ++ gone.map fun (r : RecordCopy) => (r.ready, r.sup) } }.mapCores drop

/-- Items 1 to 4 of R397. Every copy that a channel has emitted has been performed; the rest are discarded. -/
def startKill (s : State) (x : Nat) : State :=
  let (s, _) := s.readCtx x
  let (ms, w4) := s.ms.hwRead (s.ctxAddr x + 32) 8
  let s := { s with ms := ms.hwWrite (s.ctxAddr x + 32) 8 (w4 - w4 % 2) }
  let s := (upto 0 4096).foldl (killStream x) s
  let s := (s.cores.map Prod.fst).foldl (freeIfOf x) s
  let s := discardWork x s
  let s := { s with sched := { s.sched with crews := s.sched.crews.filter fun (c : Crew) => !s.flightKilled c.stream } }
  let s := dropCopies x ((upto 0 256).foldl (freeFrames x) s)
  { s with sched := { s.sched with killing := some (x, 5) } }.abortCommands fun c => c.ctx == x

/-- KILLCTL_WRITE (R396, R397): ignored while a kill is in progress. -/
def State.writeKillctl (s : State) (v : Nat) : State := if s.sched.killing.isSome then s else startKill s (v % 4096)

def execKillctlWrite (v : BitVec 64) (s : State) : Out := .next (s.writeKillctl v.toNat)

/-- 100 milliseconds. -/
def abortCycles : Nat := 320000000

/-- The root port of the drive of a storage queue: that of its doorbell (15 R365). -/
def State.drivePort (s : State) (q : Nat) : Option Nat :=
  match space (4 * field (sqWord (s.ms.hwRead (s.sqAddr q) 64).2 2) 2 42) with
  | .pcie p => some p
  | _ => none

/-- KILL_ABORT_TIMEOUT (R397, item 4): 100 ms after an Abort was sent for command `n` of those outstanding, the root port of its
drive denies the drive's requester ID, and the command has ended (log entry 129). -/
def execKillAbortTimeout (n : Nat) (s : State) : Out :=
  match s.sto.outstanding[n]? with
  | some c =>
    match c.abortAt with
    | some t =>
      if s.now < t + abortCycles then .next s
      else
        .next { s with sto := { s.sto with
          outstanding := s.sto.outstanding.eraseIdx n
          denied := (s.drivePort c.queue).elim s.sto.denied fun p => s.sto.denied ++ [(p, (Config.driveId c.queue).toNat)] } }
    | none => .next s
  | none => .next s

/-- Every unit observes an invalidation, and it completes (01 R29 to R32). -/
def MemSys.invalidateAll (ms : MemSys) (i : Inval) : MemSys :=
  let frames := ((ms.matching i).map ms.framesOf).flatten
  ((upto 0 516).foldl (fun m u => m.observe i u) ms).finishInval frames

/-- The share counters of a stream's launch read 0 (09 R252). -/
def zeroShares (s : State) (n : Nat) : State := (upto 0 32).foldl (fun s c => s.share n c fun _ => 0) s

/-- A launch that a kill has ended completes, and leaves no share behind (item 8). -/
def finishKilled (s : State) (n : Nat) : State :=
  match (s.stream n).flight with
  | some l => if l.killed then finishLaunch (zeroShares s n) l 0x02 0 else s
  | none => s

/-- Whether something of context x that a kill waits for is outstanding: a storage command, a remote access that is not
acknowledged, a row of the accumulate network, an add-on-write that it sent (R397, 05 R156). -/
def killWaits (s : State) (x : Nat) : Bool :=
  s.sto.outstanding.any (fun c => c.ctx == x) || s.fab.unacked.any (fun e => e.2.any fun u => u.ctx == x) ||
    s.cores.any fun e => e.2.mx.arriving.any (fun r => (s.crew r.crew).isNone) || e.2.cp.addOn.any fun r => r.ctx == x

/-- The rows of a core on their way for a crew that is gone are discarded (14 R342). -/
def Core.dropRows (s : State) (c : Core) : Core :=
  { c with mx := { c.mx with
    arriving := c.mx.arriving.filter fun r => (s.crew r.crew).isSome
    forwards := c.mx.forwards.filter fun r => (s.crew r.flit.crew).isSome } }

/-- A record of context x whose task or copy the kill has ended completes with it (R229, R394). -/
def completeAbandoned (x : Nat) (s : State) (e : ReadyRec × Bool) : State :=
  if e.1.ctx = x then completeRecord s 0 e.1 e.2 0x02 0 none else s

/-- Items 5 to 9 of R397, once nothing of the context is outstanding. -/
def execKillComplete (s : State) : Out :=
  match s.sched.killing with
  | none => .next s
  | some (x, _) =>
    if killWaits s x then .next (s.mapCores (Core.dropRows s))
    else
      let (s, e) := s.readCtx x
      let asid := wfield e.xroot 15 0
      let s := { s with ms := { s.ms with moors := dropFrom (fun (y : Mooring) => y.asid != asid) s.ms.moors } }
      let i : Inval := { id := s.ms.nextInval, core := 0, ctx := x, scope := 1, asid := asid, base := 0, len := 0, seen := [] }
      let s := { s with ms := s.ms.invalidateAll i }
      let s := s.sched.abandoned.foldl (completeAbandoned x) s
      let s := { s with sched := { s.sched with abandoned := s.sched.abandoned.filter fun e => e.1.ctx != x } }
      let s := discardWork x ((upto 0 4096).foldl finishKilled s)
      .next { s with ms := s.ms.hwWrite (s.ctxAddr x + 40) 4 ((e.kseq + 1) % pow2 32), sched := { s.sched with killing := none } }

end Sys2Proof.Machine
end

