-- ==== Sys2Proof/Machine/Basin.lean ====
section
/-!
DEFINITION. Chains and receive slots of the accumulate network (14 R322 to R342): where they stand, and which rows a core
has sent that are not yet consumed.
-/

namespace Sys2Proof.Machine

/-! ### Chains (R323) -/

def Chain.hops (c : Chain) : Nat := c.ranks.length

/-- The hop that a rank is. -/
def Chain.hopOf (c : Chain) (rank : Nat) : Option Nat := c.ranks.findIdx? (· == rank)

/-- The roles of R323. -/
inductive Role where
  | first | middle | last | source | destination
deriving DecidableEq, Repr

def Chain.role (c : Chain) (i : Nat) : Role :=
  if c.fan then (if i + 1 = c.hops then .destination else .source)
  else if i = 0 then .first else if i + 1 = c.hops then .last else .middle

/-- The rank that hop i sends to. -/
def Chain.next (c : Chain) (i : Nat) : Option Nat :=
  if i + 1 < c.hops then (if c.fan then c.ranks.getLast? else c.ranks[i + 1]?) else none

/-- The ranks that receive, with their hops. -/
def Chain.receivers (c : Chain) : List (Nat × Nat) :=
  ((upto 0 c.hops).zip c.ranks).filter fun e => if c.fan then e.1 + 1 == c.hops else decide (0 < e.1)

/-- Chain ch of a crew, if it is set up. -/
def State.chain (s : State) (crew ch : Nat) : Option Chain := (s.crew crew).bind fun c => SMap.get none c.chains ch

def State.setChain (s : State) (crew ch : Nat) (x : Option Chain) : State :=
  s.modCrew crew fun c => { c with chains := SMap.set none c.chains ch x }

/-- Mark a chain broken. -/
def State.breakChain (s : State) (crew ch : Nat) : State :=
  match s.chain crew ch with
  | some x => s.setChain crew ch (some { x with broken := true })
  | none => s

/-- The core of a member that has not ended. -/
def State.memberCore (s : State) (crew rank : Nat) : Option Nat :=
  (s.crew crew).bind fun c => (c.members.find? fun m => m.rank == rank && !m.ended).map Member.core

/-! ### Receive slots (R322, R339) -/

def Core.inCrew (c : Core) (crew : Nat) : Bool := match c.task with | some t => t.crew == some crew | none => false

/-- The save frame on core k of a member of a crew: its key and what it holds. -/
def State.snapAt (s : State) (k crew : Nat) : Option (Nat × Core) :=
  s.sched.frames.findSome? fun (e : Nat × Option Core) =>
    if e.1 % 1024 / 4 = k then
      match e.2 with
      | some c => if c.inCrew crew then some (e.1, c) else none
      | none => none
    else none

def RecvSlot.isOf (x : RecvSlot) (crew ch : Nat) : Bool := x.crew == crew && x.ch == ch

/-- The slot of a list that is reserved for a chain. -/
def slotOfChain (l : List (Option RecvSlot)) (crew ch : Nat) : Option (Nat × RecvSlot) :=
  ((upto 0 4).zip l).findSome? fun (e : Nat × Option RecvSlot) =>
    match e.2 with
    | some x => if x.isOf crew ch then some (e.1, x) else none
    | none => none

/-- The receive slots of the member of a crew on core k: on the core, or in its frame while it is pre-empted. -/
def State.recvOf (s : State) (k crew : Nat) : List (Option RecvSlot) :=
  if (s.core k).inCrew crew then (s.core k).mx.recv
  else match s.snapAt k crew with | some (_, c) => c.mx.recv | none => []

def State.setRecv (s : State) (k crew : Nat) (l : List (Option RecvSlot)) : State :=
  let put (c : Core) : Core := { c with mx := { c.mx with recv := l } }
  if (s.core k).inCrew crew then s.modCore k put
  else
    match s.snapAt k crew with
    | some (key, c) => { s with sched := { s.sched with frames := SMap.set none s.sched.frames key (some (put c)) } }
    | none => s

/-- Release the slots that a core holds for a chain. -/
def State.releaseSlot (s : State) (k crew ch : Nat) : State :=
  s.setRecv k crew ((s.recvOf k crew).map fun o => o.filter fun x => !x.isOf crew ch)

/-- Release the reservations of a chain at the cores of some ranks. -/
def State.releaseSlots (s : State) (crew ch : Nat) : List Nat → State
  | [] => s
  | r :: rs =>
    (match s.memberCore crew r with | some k => s.releaseSlot k crew ch | none => s).releaseSlots crew ch rs

/-! ### Rows that are not yet consumed (R330, R341, R346) -/

def RecvSlot.empty (x : RecvSlot) : Bool := x.rows.isEmpty

/-- The crew and the rank of the task of a core. -/
def Core.crewRank (c : Core) : Option (Nat × Nat) := c.task.bind fun t => t.crew.map fun n => (n, t.rank)

/-- Whether a slot holds rows that core k has sent. -/
def RecvSlot.holdsOf (x : RecvSlot) (k : Nat) : Bool :=
  x.rows.any fun e => match e.2 with | some h => h.srcs.testBit k | none => false

/-- Rows that the task of core k has sent, or is to forward, and that no receiving hop has consumed or written into a spill
frame (R346). -/
def State.rowsOutstanding (s : State) (k : Nat) : Bool :=
  match (s.core k).crewRank with
  | none => false
  | some (crew, _) =>
    (s.core k).mx.forwards.any (fun f => f.flit.crew == crew) ||
    s.cores.any fun (e : Nat × Core) =>
      e.2.mx.arriving.any (fun r => r.crew == crew && r.src == k) ||
      e.2.mx.recv.any fun (o : Option RecvSlot) => match o with | some x => x.crew == crew && x.holdsOf k | none => false

/-- Discard the halves of rows that a slot holds of the passes up to `n`. -/
def RecvSlot.drop (x : RecvSlot) (n : Nat) : RecvSlot :=
  { x with rows := x.rows.filter fun e => match e.2 with | some h => decide (n < h.pass) | none => false }

/-- Discard what the slot of the hop on core k holds of the passes of a chain up to `n`. -/
def State.dropPass (s : State) (k crew ch n : Nat) : State :=
  s.setRecv k crew ((s.recvOf k crew).map fun o => o.map fun x => if x.isOf crew ch then x.drop n else x)

/-- The hop of a chain that a member's core is. -/
def State.hopAt (s : State) (crew : Nat) (x : Chain) (k : Nat) : Option Nat :=
  (s.crew crew).bind fun c => (c.members.find? fun m => m.core == k).bind fun m => x.hopOf m.rank

/-! ### Passes (R327, R333) -/

/-- The list with one more at index i, of the length of the hops. -/
def raiseAt (n i : Nat) (l : List Nat) : List Nat := (upto 0 n).map fun j => l.getD j 0 + if j = i then 1 else 0

def Chain.begin (c : Chain) (i : Nat) : Chain := { c with begun := raiseAt c.hops i c.begun }

def Chain.finish (c : Chain) (i : Nat) : Chain := { c with ended := raiseAt c.hops i c.ended }

/-- Whether a pass is in progress at any hop: of a broken chain, one whose command has fired. -/
def Chain.inProgress (c : Chain) : Bool :=
  let goal (i : Nat) : Nat := if c.broken then c.begun.getD i 0 else c.begun.foldl max 0
  (upto 0 c.hops).any fun i => decide (c.ended.getD i 0 < goal i)

/-- No command of hop i is in progress any more. -/
def Chain.quit (c : Chain) (i : Nat) : Chain :=
  { c with ended := (upto 0 c.hops).map fun j => if j = i then c.begun.getD i 0 else c.ended.getD j 0 }

/-- A hop of a crew ends: the chains that name it are broken (R334). -/
def State.leaveChains (s : State) (t : Task) : State :=
  match t.crew.bind s.crew with
  | some c =>
    s.modCrew c.id fun d => { d with chains := d.chains.map fun (e : Nat × Option Chain) =>
      (e.1, e.2.map fun x => match x.hopOf t.rank with | some i => { x.quit i with broken := true } | none => x) }
  | none => s

end Sys2Proof.Machine
end

