-- ==== Sys2Proof/Machine/Sign.lean ====
section
/-!
DEFINITION. The signature of an attestation report (22 R437): SHA-512 (FIPS 180-4) and Ed25519 (RFC 8032), from outside the
spec, which names them (log entry 7).
-/

namespace Sys2Proof.Machine

/-! ### SHA-512 -/

/-- The first 80 primes, whose roots the constants of SHA-512 come from. -/
def primes : List Nat :=
  [2, 3, 5, 7, 11, 13, 17, 19, 23, 29, 31, 37, 41, 43, 47, 53, 59, 61, 67, 71] ++
  [73, 79, 83, 89, 97, 101, 103, 107, 109, 113, 127, 131, 137, 139, 149, 151, 157, 163, 167, 173] ++
  [179, 181, 191, 193, 197, 199, 211, 223, 227, 229, 233, 239, 241, 251, 257, 263, 269, 271, 277, 281] ++
  [283, 293, 307, 311, 313, 317, 331, 337, 347, 349, 353, 359, 367, 373, 379, 383, 389, 397, 401, 409]

/-- The largest number whose `k`-th power is at most `n`, from its bit `i` down. -/
def rootFrom (k n : Nat) : Nat → Nat → Nat
  | 0, r => r
  | i + 1, r => rootFrom k n i (if (r + 2 ^ i) ^ k ≤ n then r + 2 ^ i else r)

/-- The first 64 bits of the fraction of a `k`-th root. -/
def rootFraction (k p : Nat) : Word := BitVec.ofNat 64 (rootFrom k (p <<< (64 * k)) 72 0)

/-- The eight variables of the compression. -/
structure Sha where
  a : Word
  b : Word
  c : Word
  d : Word
  e : Word
  f : Word
  g : Word
  h : Word
deriving DecidableEq, Repr

def Sha.start : Sha :=
  let r (i : Nat) : Word := rootFraction 2 (primes.getD i 0)
  { a := r 0, b := r 1, c := r 2, d := r 3, e := r 4, f := r 5, g := r 6, h := r 7 }

def Sha.plus (x y : Sha) : Sha :=
  { a := x.a + y.a, b := x.b + y.b, c := x.c + y.c, d := x.d + y.d, e := x.e + y.e, f := x.f + y.f, g := x.g + y.g, h := x.h + y.h }

/-- One round, with its constant and its word of the schedule. -/
def Sha.round (x : Sha) (k w : Word) : Sha :=
  let s1 := x.e.rotateRight 14 ^^^ x.e.rotateRight 18 ^^^ x.e.rotateRight 41
  let ch := (x.e &&& x.f) ^^^ (~~~x.e &&& x.g)
  let t1 := x.h + s1 + ch + k + w
  let s0 := x.a.rotateRight 28 ^^^ x.a.rotateRight 34 ^^^ x.a.rotateRight 39
  let maj := (x.a &&& x.b) ^^^ (x.a &&& x.c) ^^^ (x.b &&& x.c)
  { a := t1 + s0 + maj, b := x.a, c := x.b, d := x.c, e := x.d + t1, f := x.e, g := x.f, h := x.g }

/-- The rounds, over the last 16 words of the schedule. -/
def shaRounds : List Word → List Word → Sha → Sha
  | [], _, x => x
  | k :: ks, ws, x =>
    let v := ws.getD 14 0
    let u := ws.getD 1 0
    let s1 := v.rotateRight 19 ^^^ v.rotateRight 61 ^^^ (v >>> 6)
    let s0 := u.rotateRight 1 ^^^ u.rotateRight 8 ^^^ (u >>> 7)
    shaRounds ks (ws.drop 1 ++ [s1 + ws.getD 9 0 + s0 + ws.getD 0 0]) (x.round k (ws.getD 0 0))

/-- The round constants. -/
def shaConstants : List Word := primes.map (rootFraction 3)

/-- The 128-byte blocks of a padded message, folded into the digest. -/
def shaBlocks (ks : List Word) : Nat → List (BitVec 8) → Sha → Sha
  | 0, _, x => x
  | n + 1, bs, x =>
    let ws := (upto 0 16).map fun i => BitVec.ofNat 64 (ofBytes ((bs.drop (8 * i)).take 8).reverse)
    shaBlocks ks n (bs.drop 128) (x.plus (shaRounds ks ws x))

/-- The bytes of a number, the high byte first. -/
def bigBytes (x n : Nat) : List (BitVec 8) := (bytesOf x n).reverse

/-- SHA-512 of a message. -/
def sha512 (m : List (BitVec 8)) : List (BitVec 8) :=
  let n := (m.length + 17 + 127) / 128
  let pad := List.replicate (128 * n - m.length - 17) (0 : BitVec 8)
  let x := shaBlocks shaConstants n (m ++ [0x80] ++ pad ++ bigBytes (8 * m.length) 16) Sha.start
  [x.a, x.b, x.c, x.d, x.e, x.f, x.g, x.h].flatMap fun w => bigBytes w.toNat 8

/-! ### Ed25519 -/

/-- The prime of the field. -/
def edPrime : Nat := 2 ^ 255 - 19

/-- The order of the base point. -/
def edOrder : Nat := 2 ^ 252 + 27742317777372353535851937790883648493

/-- `b ^ e` modulo `m`, over `n` bits of `e`. -/
def powMod (m : Nat) : Nat → Nat → Nat → Nat
  | 0, _, _ => 1
  | n + 1, b, e => (if e % 2 = 1 then b else 1) * powMod m n (b * b % m) (e / 2) % m

def edInverse (x : Nat) : Nat := powMod edPrime 255 x (edPrime - 2)

/-- The constant of the curve. -/
def edD : Nat := (edPrime - 121665) * edInverse 121666 % edPrime

/-- A point in extended coordinates. -/
structure EdPoint where
  x : Nat
  y : Nat
  z : Nat
  t : Nat
deriving DecidableEq, Repr

def EdPoint.zero : EdPoint := { x := 0, y := 1, z := 1, t := 0 }

/-- The sum of two points (RFC 8032, 5.1.4). -/
def EdPoint.add (p q : EdPoint) : EdPoint :=
  let a := (p.y + edPrime - p.x) * (q.y + edPrime - q.x) % edPrime
  let b := (p.y + p.x) * (q.y + q.x) % edPrime
  let c := p.t * 2 * edD * q.t % edPrime
  let d := p.z * 2 * q.z % edPrime
  let e := b + edPrime - a
  let f := d + edPrime - c
  let g := d + c
  let h := b + a
  { x := e * f % edPrime, y := g * h % edPrime, t := e * h % edPrime, z := f * g % edPrime }

/-- `n` bits of a multiple of a point. -/
def EdPoint.times : Nat → Nat → EdPoint → EdPoint
  | 0, _, _ => EdPoint.zero
  | n + 1, k, p => let q := EdPoint.times n (k / 2) (p.add p); if k % 2 = 1 then q.add p else q

/-- The base point. -/
def edBase : EdPoint :=
  let x := 15112221349535400772501151409588531511454012693041857206046113283949847762202
  let y := 4 * edInverse 5 % edPrime
  { x := x, y := y, z := 1, t := x * y % edPrime }

/-- The 32 bytes of a point: y, and the sign of x in the top bit. -/
def EdPoint.encode (p : EdPoint) : List (BitVec 8) :=
  let i := edInverse p.z
  bytesOf (p.y * i % edPrime + (p.x * i % edPrime % 2) * 2 ^ 255) 32

/-- The two halves of a private key: the secret number, and the prefix of what is hashed. -/
def edSecret (seed : BitVec 256) : Nat × List (BitVec 8) :=
  let h := sha512 (bytesOf seed.toNat 32)
  (ofBytes (h.take 32) / 8 * 8 % 2 ^ 254 + 2 ^ 254, h.drop 32)

/-- The public key of a seed. -/
def edPublic (seed : BitVec 256) : List (BitVec 8) := (EdPoint.times 256 (edSecret seed).1 edBase).encode

/-- The signature of a message under a seed (RFC 8032, 5.1.6). -/
def edSign (seed : BitVec 256) (m : List (BitVec 8)) : List (BitVec 8) :=
  let (a, front) := edSecret seed
  let key := edPublic seed
  let r := ofBytes (sha512 (front ++ m)) % edOrder
  let big := (EdPoint.times 256 r edBase).encode
  let k := ofBytes (sha512 (big ++ key ++ m)) % edOrder
  big ++ bytesOf ((r + k * a) % edOrder) 32

/-- The public identity key, which IDKEY holds (22 R437). -/
def identityKey : BitVec 256 := BitVec.ofNat 256 (ofBytes (edPublic Config.identitySeed))

/-- The signature of a report: of the SHA-512 digest of its bytes 0 to 127, with the identity key (22 R437). -/
def reportSignature (body : BitVec 1024) : BitVec 512 :=
  BitVec.ofNat 512 (ofBytes (edSign Config.identitySeed (sha512 (bytesOf body.toNat 128))))

end Sys2Proof.Machine
end

