-- ==== Sys2Proof/Machine/Regs.lean ====
section
/-!
DEFINITION. Register space (22 R430, R431, R446) and the registers whose writes act: access tables (01 R40, R41), the
level-2 mode and the range registers (04 R108 to R111), the scheduler, storage, tide and fabric control blocks.
-/

namespace Sys2Proof.Machine

/-! ### Access tables (01 R40, R41) -/

def State.target (s : State) (n : Nat) : Target := SMap.get {} s.ms.targets n

def State.setTarget (s : State) (n : Nat) (t : Target) : State :=
  { s with ms := { s.ms with targets := SMap.set {} s.ms.targets n t } }

/-- A write of ATINV starts an invalidation; one that is in progress widens to every MID. -/
def State.writeAtinv (s : State) (n v : Nat) : State :=
  let t := s.target n
  s.setTarget n { t with busy := true, invAll := t.busy || bit v 12, invMid := v % 4096 }

/-- ATINV_WRITE (01 R41). -/
def execAtinvWrite (n : Nat) (v : BitVec 64) (s : State) : Out := .next (s.writeAtinv n v.toNat)

/-- ATINV_COMPLETE (01 R40, R41). -/
def execAtinvComplete (n : Nat) (s : State) : Out :=
  let t := s.target n
  if !t.busy then .next s
  else
    let cache := t.cache.filter fun e => !(t.invAll || e.1 / 32 == t.invMid)
    .next (s.setTarget n { t with busy := false, invAll := false, invMid := 0, cache := cache })

/-! ### The level-2 mode (04 R108) -/

/-- Every mooring of the four tables, identical ones once. -/
def mergedMoors (m : SMap (List Mooring)) : List Mooring := ((m.map Prod.snd).flatten).eraseDups

def Mooring.overlaps (a b : Mooring) : Bool := decide (a.base < b.base + b.len) && decide (b.base < a.base + a.len)

/-- Whether the merged table would be too full, or would hold two moorings of one byte. -/
def moorsClash (l : List Mooring) : Bool :=
  decide (4096 < l.length) || l.any fun a => l.any fun b => a.asid == b.asid && a.overlaps b && a.bol != b.bol

def State.resident (s : State) : Bool := s.cores.any fun e => e.2.task.isSome

/-- A write of L2MODE (04 R108). While a switch is in progress the write of MODE does nothing (log entry 100). -/
def State.writeL2mode (s : State) (v : Nat) : State :=
  let ms := { s.ms with l2ref := s.ms.l2ref && !bit v 6, l2mfull := s.ms.l2mfull && !bit v 5 }
  let ms :=
    if bit v 0 = ms.part ∨ ms.l2busy = true then ms
    else if s.resident then { ms with l2ref := true }
    else if !bit v 0 && moorsClash (mergedMoors ms.moors) then { ms with l2mfull := true }
    else { ms with l2busy := true }
  { s with ms := ms }

/-- L2MODE_WRITE (04 R108). -/
def execL2modeWrite (v : BitVec 64) (s : State) : Out := .next (s.writeL2mode v.toNat)

/-- L2MODE_SWITCH_END (04 R108): everything is written back and invalidated, and the moorings are carried over. -/
def execL2modeSwitchEnd (s : State) : Out :=
  if !s.ms.l2busy then .next s
  else
    let ms := (s.ms.wc.map Prod.fst).foldl MemSys.drainWc s.ms
    let ms := ms.l1Cores.foldl (fun m c => m.flushWhere c (fun _ => true) true) ms
    let ms := (ms.dirtyPacks.map Prod.fst).foldl MemSys.packWrite ms
    let l := mergedMoors ms.moors
    let moors : SMap (List Mooring) := if l = [] then [] else if ms.part then [(0, l)] else [(0, l), (1, l), (2, l), (3, l)]
    .next { s with ms := { ms with moors := moors, part := !ms.part, l2busy := false, l2 := [] } }

/-! ### Range registers (04 R109 to R111) -/

def State.rangeReg (s : State) (n : Nat) : RangeReg := SMap.get {} s.ms.rr n

/-- Put a range register; a change of EN makes every retained line ordinary, and setting EN zeroes the counters. -/
def State.setRange (s : State) (n : Nat) (r : RangeReg) : State :=
  let ms := { s.ms with rr := SMap.set {} s.ms.rr n r }
  if r.en = (s.rangeReg n).en then { s with ms := ms }
  else { s with ms := { ms with
    l2 := SMap.mapVals [] (fun ls => ls.map fun l => { l with kept := none }) ms.l2
    rrCount := if r.en then ms.rrCount.filter (fun (e : Nat × Nat) => e.1 % 8 != n) else ms.rrCount } }

/-- A write of RRCTL (04 R110). A refused one stores WAYS and RATIO too (log entry 101). -/
def State.writeRrctl (s : State) (n v : Nat) : State :=
  let r := s.rangeReg n
  let ways := if r.en then r.ways else field v 8 4
  let ratio := field v 4 4
  let others := ((upto 0 8).filter (· != n)).foldl (fun a k => a + if (s.rangeReg k).en then (s.rangeReg k).ways else 0) 0
  if !bit v 0 then s.setRange n { r with ways := ways, ratio := ratio, en := false }
  else if 9 ≤ ratio ∨ 15 < others + ways then s.setRange n { r with ways := ways, ratio := ratio, en := false, err := true }
  else s.setRange n { r with ways := ways, ratio := ratio, en := true, err := false }

/-- RRCTL_WRITE (04 R110). -/
def execRrctlWrite (n : Nat) (v : BitVec 64) (s : State) : Out := .next (if n < 8 then s.writeRrctl n v.toNat else s)

/-! ### The map of register space (22 R430) -/

/-- What an offset of a die's register space names. -/
inductive RegBlock where
  | target (n off : Nat)
  | memory (off : Nat)
  | sched (off : Nat)
  | storage (off : Nat)
  | tide (off : Nat)
  | fabric (off : Nat)
  | none
deriving DecidableEq, Repr

def regBlock (pa : Nat) : RegBlock :=
  let die := pa / 0x400000000 - 1020
  let off := pa % 0x400000000
  let page := off / 0x1000
  if 3 < die then .none
  else if page = 0 then .target die off
  else if page < 5 then .target (4 + 4 * die + (page - 1)) (off % 0x1000)
  else if 0x100 ≤ page ∧ page < 0x120 then .target (20 + 32 * die + (page - 0x100)) (off % 0x1000)
  else if page = 0x200 then .target (148 + die) (off % 0x1000)
  else if 0x300 ≤ page ∧ page < 0x308 then .target (152 + 8 * die + (page - 0x300)) (off % 0x1000)
  else if die ≠ 0 then .none
  else if page = 0x1000 then .memory (off % 0x1000)
  else if page = 0x2000 then .sched (off % 0x1000)
  else if page = 0x3000 then .storage (off % 0x1000)
  else if page = 0x4000 then .tide (off % 0x1000)
  else if page = 0x5000 then .fabric (off % 0x1000)
  else .none

def State.ingress (s : State) (link i : Nat) : Ingress := SMap.get {} s.fab.ingress (64 * link + i)

def tideStateCode : TideState → Nat
  | .out => 0 | .joining => 1 | .member => 2 | .leaving => 3

/-- The registers of an access table. -/
def State.targetRead (s : State) (n off : Nat) : Nat :=
  let t := s.target n
  if off = 0 then t.base * pow2 21 + b2n t.en
  else if off = 8 then b2n t.busy * pow2 31
  else if 152 ≤ n ∧ 0x100 ≤ off ∧ off < 0x300 then
    let e := s.ingress (n - 152) ((off - 0x100) / 8)
    b2n e.v * pow2 63 + e.dev * pow2 32 + b2n e.sup * pow2 12 + e.mid
  else 0

/-- The registers of a range, by their offset. -/
def RangeReg.read (r : RangeReg) (off : Nat) : Nat :=
  if off = 0 then r.base * pow2 12
  else if off = 8 then r.last * pow2 12
  else if off = 16 then r.ways * pow2 8 + r.ratio * pow2 4 + b2n r.err * 2 + b2n r.en
  else 0

/-- The memory block. -/
def State.memoryRead (s : State) (off : Nat) : Nat :=
  if off = 0 then b2n s.ms.l2busy * pow2 7 + b2n s.ms.l2ref * pow2 6 + b2n s.ms.l2mfull * pow2 5 + b2n s.ms.part
  else if 0x100 ≤ off ∧ off < 0x200 then (s.rangeReg ((off - 0x100) / 0x20)).read ((off - 0x100) % 0x20)
  else if off = 0x200 then s.ms.psub
  else 0

/-- The scheduler block. -/
def State.schedRead (s : State) (off : Nat) : Nat :=
  if off = 0 then b2n s.sched.en
  else if off = 0x08 then s.sched.stab * pow2 17
  else if off = 0x10 then s.sched.dqsb * pow2 24
  else if off = 0x18 then s.sched.schErr
  else if off = 0x20 then s.sched.ctxb * pow2 18
  else if off = 0x28 then b2n s.sched.killing.isSome * pow2 63
  else if off = 0x30 then s.sched.shsb * pow2 19
  else 0

/-- The tide and power block. -/
def State.tideRead (s : State) (off : Nat) : Nat :=
  if off = 0 then s.tide.group * pow2 48 + s.tide.leader * pow2 32 + b2n s.tide.en * pow2 31 + s.tide.limit.toNat
  else if off = 0x08 then
    s.tide.late * pow2 48 + ((s.tide.members.filter s.counts).length % 256) * pow2 40 + b2n s.tide.fail * pow2 39 +
      tideStateCode s.tide.state * pow2 37 + s.tide.ceil * pow2 32 + s.round % pow2 32
  else if off = 0x10 then s.pwr.coolMin0.toNat
  else if off = 0x18 then s.pwr.coolMin1.toNat
  else if off = 0x20 then s.pwr.esw0.toNat
  else if off = 0x28 then s.pwr.esw1.toNat
  else 0

/-- The lanes a link runs: 8 until it sheds (00 R1, 22 R435). -/
def Fabric.lanes (f : Fabric) (link : Nat) : Nat := 8 >>> (SMap.get 0 f.sheds link : Nat)

/-- LSHED: a bit for every link that has shed lanes. -/
def Fabric.lshed (f : Fabric) : Nat := (upto 0 32).foldl (fun n l => n + b2n (decide (f.lanes l < 8)) * pow2 l) 0

/-- The fabric block. -/
def State.fabricRead (s : State) (off : Nat) : Nat :=
  if off = 0 then s.fab.devn
  else if off = 0x08 then s.fab.gtime
  else if off = 0x10 then s.fab.ldown.toNat * pow2 32 + s.fab.lshed
  else if off = 0x18 then s.fab.crbase * pow2 8 + b2n s.fab.cren
  else if off = 0x20 then s.fab.crlost * pow2 32 + s.fab.crpc * pow2 16 + s.fab.crcc
  else if off = 0x40 then field identityKey.toNat 0 64
  else if off = 0x48 then field identityKey.toNat 64 64
  else if off = 0x50 then field identityKey.toNat 128 64
  else if off = 0x58 then field identityKey.toNat 192 64
  else 0

/-- The value of what an offset names. -/
def State.blockRead (s : State) : RegBlock → Nat
  | .target n off => s.targetRead n off
  | .memory off => s.memoryRead off
  | .sched off => s.schedRead off
  | .storage off => if off = 0 then s.sto.base * pow2 14 + b2n s.sto.en else 0
  | .tide off => s.tideRead off
  | .fabric off => s.fabricRead off
  | .none => 0

/-- The value of a register. -/
def State.regRead (s : State) (pa : Nat) : Nat := s.blockRead (regBlock pa)

/-- A write of an access target's registers (01 R40, R41). A write of ATB leaves the windows that the target has cached in force
until ATINV drops them (log entry 134). -/
def State.targetWrite (s : State) (n off v : Nat) : State :=
  if off = 0 then s.setTarget n { s.target n with base := field v 21 23, en := bit v 0 }
  else if off = 8 then s.writeAtinv n v
  else if 152 ≤ n ∧ 0x100 ≤ off ∧ off < 0x300 ∧ off % 8 = 0 then
    let e : Ingress := { v := bit v 63, dev := field v 32 16, sup := bit v 12, mid := field v 0 12 }
    { s with fab := { s.fab with ingress := SMap.set {} s.fab.ingress (64 * (n - 152) + (off - 0x100) / 8) e } }
  else s

/-- A write of a register of range n: BASE and LIMIT are read-only while it is enabled (04 R109). -/
def State.rangeWrite (s : State) (n off v : Nat) : State :=
  if off = 0 then if (s.rangeReg n).en then s else s.setRange n { s.rangeReg n with base := field v 12 32 }
  else if off = 8 then if (s.rangeReg n).en then s else s.setRange n { s.rangeReg n with last := field v 12 32 }
  else if off = 16 then s.writeRrctl n v
  else s

def State.memoryWrite (s : State) (off v : Nat) : State :=
  if off = 0 then s.writeL2mode v
  else if 0x100 ≤ off ∧ off < 0x200 then s.rangeWrite ((off - 0x100) / 0x20) ((off - 0x100) % 0x20) v
  else if off = 0x200 then { s with ms := { s.ms with psub := field v 0 32 } }
  else s

def State.schedWrite (s : State) (off v : Nat) : State :=
  if off = 0 then { s with sched := { s.sched with en := bit v 0 } }
  else if off = 0x08 then { s with sched := { s.sched with stab := field v 17 27 } }
  else if off = 0x10 then { s with sched := { s.sched with dqsb := field v 24 20 } }
  else if off = 0x18 then { s with sched := { s.sched with schErr := field v 0 32 } }
  else if off = 0x20 then { s with sched := { s.sched with ctxb := field v 18 26 } }
  else if off = 0x28 then s.writeKillctl v
  else if off = 0x30 then { s with sched := { s.sched with shsb := field v 19 25 } }
  else s

def State.storageWrite (s : State) (off v : Nat) : State :=
  if off = 0 then { s with sto := { s.sto with base := field v 14 30, en := bit v 0 } } else s

def State.tideWrite (s : State) (off v : Nat) : State :=
  if off = 0 then s.writeTidectl v
  else if off = 0x08 then if bit v 39 then { s with tide := { s.tide with fail := false } } else s
  else if off = 0x10 then { s with pwr := { s.pwr with coolMin0 := BitVec.ofNat 64 v } }
  else if off = 0x18 then { s with pwr := { s.pwr with coolMin1 := BitVec.ofNat 64 v } }
  else if off = 0x20 then { s with pwr := { s.pwr with esw0 := BitVec.ofNat 64 (v - field v 1 11 * 2 - field v 44 4 * pow2 44) } }
  else if off = 0x28 then { s with pwr := { s.pwr with esw1 := BitVec.ofNat 64 (field v 12 32 * pow2 12) } }
  else s

def State.fabricWrite (s : State) (off v : Nat) : State :=
  if off = 0 then { s with fab := { s.fab with devn := field v 0 16 } }
  else if off = 0x18 then { s with fab := { s.fab with crbase := field v 8 36, cren := bit v 0 } }
  else if off = 0x20 then { s with fab := { s.fab with crcc := field v 0 16 } }
  else s

def State.blockWrite (s : State) (v : Nat) : RegBlock → State
  | .target n off => s.targetWrite n off v
  | .memory off => s.memoryWrite off v
  | .sched off => s.schedWrite off v
  | .storage off => s.storageWrite off v
  | .tide off => s.tideWrite off v
  | .fabric off => s.fabricWrite off v
  | .none => s

/-- A write of a whole register. Fields that are RO or reserved keep their values. -/
def State.regWrite (s : State) (pa v : Nat) : State := s.blockWrite v (regBlock pa)

/-- REGISTER_WRITE (22 R446): a write that reaches a register. -/
def execRegisterWrite (pa : Nat) (v : BitVec 64) (s : State) : Out :=
  match space pa with
  | .regs _ => .next (if pa % 8 = 0 then s.regWrite pa v.toNat else s)
  | _ => .next s

/-! ### Accesses to register space (22 R446) -/

/-- Consecutive 8-byte reads. -/
def State.regReads (s : State) (pa : Nat) : Nat → Nat
  | 0 => 0
  | n + 1 => s.regRead pa + s.regReads (pa + 8) n * pow2 64

/-- Consecutive 8-byte writes. -/
def State.regWrites : Nat → State → Nat → Nat → State
  | 0, s, _, _ => s
  | n + 1, s, pa, v => State.regWrites n (s.regWrite pa (v % pow2 64)) (pa + 8) (v / pow2 64)

/-- `n` bytes at `pa`: the register whole for up to 8, else registers one by one. -/
def State.regBytes (s : State) (pa n : Nat) : Nat :=
  if n ≤ 8 then field (s.regRead (pa / 8 * 8)) (8 * (pa % 8)) (8 * n) else s.regReads pa (n / 8)

end Sys2Proof.Machine
end

