-- ==== Sys2Proof/Machine/Path.lean ====
section
/-!
DEFINITION. Accesses that may reach any place: HBM, PCIe apertures, register space and remote devices (04 R91, 05 R157,
22 R433, R435, R446), and the stores of a core (06 R176).
-/

namespace Sys2Proof.Machine

/-! ### Accesses of a core at a home (04 R99 to R101) -/

/-- What a core has stored into the bits `need` of a line and not yet sent reaches the home, and its copy stays: entries of
the write-combining buffer that hold a byte of them leave (04 R100), and what the core's level-1 line has pending. -/
def MemSys.ownHome (ms : MemSys) (core line : Nat) (need : Block) : MemSys :=
  (ms.drainWhere core fun e => e.line == line && e.mask &&& need != 0).flushWhere core (fun l => l.line == line && l.pending) false

/-- The bits of `n` bytes at an address within their block. -/
def spanOf (pa n : Nat) : Block := bitSpan (pa % 64) n

/-! ### Local places -/

/-- A read at its target that uses no level-1 line; at HBM the bytes lie within one block. -/
def State.homeLoad (s : State) (w : Who) (x : Xlat) (pa n path : Nat) (kind : AccessKind) : State × Got :=
  if x.hole then (s, .ok 0)
  else
    match space pa with
    | .pcie _ =>
      let (ms, ok) := s.ms.check w.die w.mid pa kind false
      let s := { s with ms := ms }
      if ok then (s.tick, .ok (freeBytes (Config.pcieRead s.fresh) pa n)) else (s, { val := 0, bad := some (denied pa (kindCode kind) path) })
    | .regs _ =>
      let (ms, ok) := s.ms.check w.die w.mid pa kind false
      let s := { s with ms := ms }
      if ok then (s, .ok (s.regBytes pa n)) else (s, { val := 0, bad := some (denied pa (kindCode kind) path) })
    | _ =>
      let (ms, g) := homeRead s.ms w x pa n path kind
      ({ s with ms := ms }, g)

/-- A write at its target that uses no level-1 line; what the writer's own copy has pending is there first. A store narrower than a register is denied (22 R446). -/
def State.homeStore (s : State) (w : Who) (x : Xlat) (pa n v path : Nat) (bad : Bool) : State × Option Notice :=
  match space pa with
  | .pcie _ =>
    let (ms, ok) := s.ms.check w.die w.mid pa .write false
    ({ s with ms := ms }, if ok then none else some (denied pa 1 path))
  | .regs d =>
    let (ms, ok) := s.ms.check w.die w.mid pa .write false
    let s := { s with ms := ms }
    if !ok then (s, some (denied pa 1 path))
    else if n < 8 then ({ s with ms := s.ms.deny d w.mid pa .write false }, some (denied pa 1 path))
    else (State.regWrites (n / 8) s pa v, none)
  | _ =>
    let ms := if (writerOf w path).isSome && inAperture pa then s.ms.ownHome w.core (pa / 64) (spanOf pa n) else s.ms
    let (ms, d) := homeWrite ms w x pa n v (allOnes n) path bad
    ({ s with ms := ms }, d)

/-! ### Remote devices (05 R157, 22 R433, R435) -/

/-- The value of a result that has not arrived, and whether it is poisoned. -/
def RegFile.promise (r : RegFile) (id : Nat) (v : Vec) (bad : Option Notice) : RegFile :=
  { r with pend := r.pend.map fun p => if p.id = id then { p with val := v, bad := bad } else p }

def Core.promise (c : Core) (rid : Option Nat) (v : Vec) (bad : Option Notice) : Core :=
  match rid with
  | some id => { c with regs := c.regs.promise id v bad }
  | none => c

/-- A link has gone down with an ordered access on it: loads and atomics are delivered as denials, stores are counted
(22 R435). -/
def State.linkLost (s : State) (link : Nat) (u : Unacked) : State :=
  if u.store then { s with ms := s.ms.deny (152 + link) u.mid u.pa .write false }
  else
    let n := denied u.pa u.kind u.path
    s.modCore u.core fun c => (c.pay u.rid ((Config.poisonData 0).setWidth 1024) (some n)).note (some n)

/-- Send an ordered access over the link to its device; with none up it faults at once. -/
def State.sendOrdered (s : State) (u : Unacked) (v : Vec) (bad : Option Notice) : State :=
  match s.linkTo u.dev with
  | some l => (s.modCore u.core fun c => c.promise u.rid v bad).keepOn l u
  | none => s.linkLost 0 u

/-- An access of a core to a remote device. -/
def State.unackedOf (s : State) (w : Who) (dev pa path : Nat) (store : Bool) (rid : Option Nat) : Unacked :=
  { core := w.core, mid := w.mid, dev := dev, pa := pa, store := store, path := path, rid := rid, kind := if store then 1 else 0
    ctx := (s.core w.core).ctx }

/-- The `n` bytes that a remote device returns, free values, and their poison, a free value too (04 R116): a page with PSN = 1
replaces poisoned data by zeros and counts it (R442). -/
def State.remoteData (s : State) (x : Xlat) (pa n path : Nat) : State × Got :=
  if !Config.freeBit s.fresh then (s.tick, .ok (freeBytes (Config.remoteRead s.fresh) pa n))
  else if leafPsn x.leaf = 1 then ({ s with ms := s.ms.substitute }.tick, .ok 0)
  else (s.tick, { val := freeBytes (Config.remoteRead s.fresh) pa n, bad := some (poisonNotice x.va 0 path) })

/-- An ordered read of a core of a remote device, whose result is a function of the `n` bytes that it returns. -/
def State.remoteRead (s : State) (w : Who) (dev : Nat) (x : Xlat) (n path kind : Nat) (rid : Option Nat)
    (f : Nat → Vec := BitVec.ofNat 1024) : State :=
  let (s, g) := s.remoteData x x.pa n path
  s.sendOrdered { s.unackedOf w dev x.pa path false rid with kind := kind } (f g.val) g.bad

/-- An ordered write of a core to a remote device. -/
def State.remoteWrite (s : State) (w : Who) (dev : Nat) (x : Xlat) (path : Nat) : State :=
  s.sendOrdered (s.unackedOf w dev x.pa path true none) 0 none

/-- An unordered write of a core to a remote device. -/
def State.sendUnordered (s : State) (w : Who) (dev pa path : Nat) (bad : Bool) (ch : Option Nat) : State :=
  let copy : Nat := match ch with | some c => ((SMap.get {} (s.core w.core).cp.chans c).nests.head?.map fun (n : Nest) => n.iter).getD 0 | none => 0
  s.keepOn unorderedLink { s.unackedOf w dev pa path true none with bad := bad, ch := ch, copy := copy }

/-! ### Stores of a core (06 R176, 05 R133) -/

/-- A store counts in `st` until its line has left the write-combining buffer and is not dirty on an entry page, an update
until its line has merged (05 R133). -/
def State.settleStores (s : State) (k : Nat) : State :=
  let held (line : Nat) : Bool := (s.ms.wcOf k).any (fun e => e.line == line) ||
    (s.ms.lines k).any (fun l => l.line == line && (l.isUpdate || (l.st == .dirty && !l.coh)))
  s.modCore k fun c => if c.stOut = [] then c else { c with stOut := c.stOut.filter held }

/-- The bytes of a store within each block it touches, as the level-1 cache takes them; the first denial. -/
def cachedStores (w : Who) (ways : Nat) (x : Xlat) (path : Nat) : Nat → Nat → Nat → Nat → MemSys → MemSys × Option Notice
  | 0, _, _, _, ms => (ms, none)
  | fuel + 1, pa, n, v, ms =>
    if n = 0 then (ms, none)
    else
      let m := min n (64 - pa % 64)
      let (ms, d) := cachedStore ms w ways x pa m (v % pow2 (8 * m)) path
      let (ms, e) := cachedStores w ways x path fuel (pa + m) (n - m) (v / pow2 (8 * m)) ms
      (ms, d <|> e)

/-- A store that was decided through a write right since removed is visible at its home as it is made (04 R121, R126). -/
def MemSys.showThru (ms : MemSys) (core : Nat) (x : Xlat) (n : Nat) : MemSys :=
  if x.thru then
    (upto (x.pa / 64) ((x.pa + n - 1) / 64 + 1 - x.pa / 64)).foldl (fun (m : MemSys) l => m.ownHome core l (BitVec.allOnes 512)) ms
  else ms

/-- Perform a store of the scalar or the vector path. -/
def State.storeAt (s : State) (w : Who) (n : Nat) (x : Xlat) (v path : Nat) : State :=
  let k := w.core
  match x.dev with
  | some d => s.remoteWrite w d x path
  | none =>
    if inAperture x.pa then
      let (ms, d) := cachedStores w (s.core k).ways x path 4 x.pa n v s.ms
      let s := { s with ms := ms.showThru k x n }
      let s := s.modCore k fun c => (c.note d)
      if d.isSome then s
      else (s.modCore k fun c => { c with stOut := c.stOut ++ [x.pa / 64] }).settleStores k
    else
      let (s, d) := s.homeStore w x x.pa n v path false
      s.modCore k fun c => c.note d

/-- The loads of each block of a read of up to 128 bytes through the level-1 cache, the first notice. -/
def cachedLoads (w : Who) (ways : Nat) (x : Xlat) (path : Nat) : Nat → Nat → Nat → MemSys → MemSys × Got
  | 0, _, _, ms => (ms, .ok 0)
  | fuel + 1, pa, n, ms =>
    if n = 0 then (ms, .ok 0)
    else
      let m := min n (64 - pa % 64)
      let (ms, g) := cachedLoad ms w ways x pa m path
      let (ms, h) := cachedLoads w ways x path fuel (pa + m) (n - m) ms
      (ms, { val := g.val + h.val <<< (8 * m), bad := g.bad <|> h.bad })

/-- Perform a held load of the scalar or the vector path that owes a result, and pay it. -/
def State.loadFor (s : State) (w : Who) (n : Nat) (x : Xlat) (path : Nat) (rid : Option Nat) (f : Nat → Vec) : State :=
  match x.dev with
  | some d => s.remoteRead w d x n path 0 rid f
  | none =>
    let (s, g) :=
      if x.hole then (s, Got.ok 0)
      else if inAperture x.pa then
        let (ms, g) := cachedLoads w (s.core w.core).ways x path 4 x.pa n s.ms
        ({ s with ms := ms }, g)
      else s.homeLoad w x x.pa n path .read
    s.modCore w.core fun c => (c.pay rid (f g.val) g.bad).note g.bad

/-! ### The copy path (15 R351, R353) -/

/-- What a copy meets: the code that its channel records (15 R358), the detailed code and the address (18 R378). -/
structure CopyFault where
  fc : Nat
  addr : Nat
  kind : Nat
  lvl : Nat
  code : Nat
deriving DecidableEq, Repr

/-- The cause of a translation fault (15 R358). -/
def xfaultCause (code : Nat) : Nat :=
  if code = 0x0C then 0x02 else if code = 0x70 then 0x09
  else if code = 0x12 ∨ code = 0x13 ∨ code = 0x14 then 0x03 else 0x01

def XFault.copy (f : XFault) (kind : Nat) : CopyFault := { fc := xfaultCause f.code, addr := f.addr, kind := kind, lvl := f.lvl, code := f.code }

/-- Read one 64-byte block at a virtual address on the copy path: the block and whether it is poisoned. What a remote device
returns is free, its poison included, and arrives with the copy (log entry 102). -/
def State.copyRead (s : State) (w : Who) (va : Nat) : State × Except CopyFault (Block × Bool) :=
  match translate s.ms w va .load with
  | (ms, .error f) => ({ s with ms := ms }, .error (f.copy 0))
  | (ms, .ok x) =>
    let s := { s with ms := ms }
    match x.dev with
    | some _ =>
      let (s, g) := s.remoteData x x.pa 64 4
      (s, .ok (BitVec.ofNat 512 g.val, g.bad.isSome))
    | none =>
      let (s, g) := s.homeLoad w x x.pa 64 4 .read
      match g.bad with
      | none => (s, .ok (BitVec.ofNat 512 g.val, false))
      | some n => if n.code = 0x70 then (s, .ok (BitVec.ofNat 512 g.val, true)) else (s, .error { fc := 0x02, addr := n.addr, kind := 0, lvl := 7, code := n.code })

/-- Write one 64-byte block at a virtual address on the copy path, for channel `ch` (8: the record channel). -/
def State.copyWrite (s : State) (w : Who) (ch va : Nat) (b : Block) (bad : Bool) : State × Option CopyFault :=
  match translate s.ms w va .store with
  | (ms, .error f) => ({ s with ms := ms }, some (f.copy 1))
  | (ms, .ok x) =>
    let s := { s with ms := ms }
    match x.dev with
    | some d => (s.sendUnordered w d x.pa 4 bad (some ch), none)
    | none =>
      let (s, d) := s.homeStore w x x.pa 64 b.toNat 4 bad
      (s, d.map fun n => { fc := 0x02, addr := n.addr, kind := 1, lvl := 7, code := n.code })

/-- Read `n` blocks from `va` in ascending order; the first fault ends it. -/
def State.copyReads (w : Who) : Nat → Nat → State → State × Except CopyFault (List (Block × Bool))
  | 0, _, s => (s, .ok [])
  | n + 1, va, s =>
    match s.copyRead w va with
    | (s, .error f) => (s, .error f)
    | (s, .ok b) =>
      match State.copyReads w n ((va + 64) % pow2 64) s with
      | (s, .error f) => (s, .error f)
      | (s, .ok bs) => (s, .ok (b :: bs))

/-- Write blocks from `va` in ascending order; the first fault ends it. -/
def State.copyWrites (w : Who) (ch : Nat) : List (Block × Bool) → Nat → State → State × Option CopyFault
  | [], _, s => (s, none)
  | b :: bs, va, s =>
    match s.copyWrite w ch va b.1 b.2 with
    | (s, some f) => (s, some f)
    | (s, none) => State.copyWrites w ch bs ((va + 64) % pow2 64) s

/-! ### Blocks of the scratchpad -/

/-- Blocks of the scratchpad from an offset, with their poison. -/
def Core.padBlocks (c : Core) : Nat → Nat → List (Block × Bool)
  | 0, _ => []
  | n + 1, o => (BitVec.ofNat 512 (c.padBytes o 64), c.padPoisoned o) :: c.padBlocks n (o + 64)

/-- Bytes put into the scratchpad; a whole block takes the poison of the data (04 R440), and an error that it held is gone. -/
def Core.padPut (c : Core) (o n v : Nat) (bad : Bool) : Core :=
  let whole : Bool := o % 64 == 0 && n == 64
  { c with scratch := padWrite n c.scratch o v
           scratchErr := if whole then c.scratchErr.filter (· != o / 64) else c.scratchErr
           scratchPoison := if bad then setInsert c.scratchPoison (o / 64)
             else if whole then c.scratchPoison.filter (· != o / 64) else c.scratchPoison }

/-- Blocks put into the scratchpad from an offset. -/
def Core.padPutBlocks (c : Core) : List (Block × Bool) → Nat → Core
  | [], _ => c
  | b :: bs, o => (c.padPut o 64 b.1.toNat b.2).padPutBlocks bs (o + 64)

end Sys2Proof.Machine
end

