-- ==== Sys2Proof/Machine/Access.lean ====
section
/-!
DEFINITION. What the held operations of slots 0 to 2 do once their block has committed (05 R134 to R150; 08 R208 to
R225; 10 R272 to R276; 18 R381, R387; 20 R407 to R413), and the events that perform them. The operations of a core
are performed one at a time, in program order (log entry 5).
-/

namespace Sys2Proof.Machine

/-! ### What an operation waits for -/

/-- Commands of the matrix engine on the accumulate path (05 R128). -/
def MxCmd.isBasin : MxCmd → Bool
  | .bchain .. | .bsend .. | .bwait .. | .bfree .. | .bsts .. => true
  | _ => false

/-- Whether an operation comes before a command of the matrix engine in program order. -/
def MxEntry.after (e : MxEntry) (h : Held) : Bool :=
  decide (h.blk < e.blk) || (h.blk == e.blk && (decide (h.bundle < e.bundle) || (h.bundle == e.bundle && decide (h.slot < 6))))

/-- Whether a path of a producer mask still has an earlier access to perform (R144). What stands before the fence in the copy
engine's queue counts in `Core.waitsEx`. -/
def producerWaits (s : State) (k : Nat) (h : Held) (p : Nat) : Bool :=
  let c := s.core k
  let queued (basin : Bool) : Bool := c.mx.queue.any fun e => e.released && e.cmd.isBasin == basin && !e.after h
  (p.testBit 2 && c.cp.chans.any fun e => !e.2.nests.isEmpty) || (p.testBit 3 && queued false) ||
  (p.testBit 4 && (queued true || s.rowsOutstanding k))

/-- Whether a release at a scope must wait for remote homes (05 R157): for the accesses of the core, and, since a release is
cumulative (R137), for the writes of every other, any of which may have reached the task (log entry 125). -/
def remoteWaits (s : State) (k scope : Nat) : Bool :=
  decide (4 ≤ scope) && s.fab.unacked.any fun e => e.2.any fun u => u.core == k || u.store

/-! ### Releases (R134, R142, R144, R149) -/

/-- Write the stores of a core to their homes, as a release at a scope does. -/
def State.releaseAt (s : State) (k scope : Nat) (all : Bool) : State :=
  { s with ms := s.ms.release k scope all }.settleStores k

/-- The mooring table of a core's partition (R140). -/
def State.moorTable (s : State) (k : Nat) : Nat := if s.ms.part then k / 64 else 0

def State.moorsOf (s : State) (k : Nat) : List Mooring := SMap.get [] s.ms.moors (s.moorTable k)

/-- The regions that a context has moored to a bollard. -/
def State.mooredTo (s : State) (w : Who) (bol : Nat) : List Mooring :=
  (s.moorsOf w.core).filter fun m => m.asid == w.asid && m.bol == bol

def regionOk (base len bol : Nat) : Bool :=
  base % 64 == 0 && len % 64 == 0 && decide (64 ≤ len) && decide (len ≤ pow2 40) && !(decide (base ≤ bol) && decide (bol < base + len))

/-- `moor` (R140). -/
def State.moor (s : State) (w : Who) (base len bol : Nat) : State × Nat :=
  let m : Mooring := { asid := w.asid, base := base, len := len, bol := bol }
  let l := s.moorsOf w.core
  if !regionOk base len bol then (s, 3)
  else if l.contains m then (s, 0)
  else if l.any fun x => x.asid == m.asid && x.overlaps m && x.bol != bol then (s, 2)
  else if 4096 ≤ l.length then (s, 1)
  else ({ s with ms := { s.ms with moors := SMap.set [] s.ms.moors (s.moorTable w.core) (l ++ [m]) } }, 0)

/-- `unmoor` (R141). -/
def State.unmoor (s : State) (w : Who) (base bol : Nat) : State × Nat :=
  let l := s.moorsOf w.core
  let keep := l.filter fun x => !(x.asid == w.asid && x.base == base && x.bol == bol)
  if keep.length = l.length then (s, 1)
  else ({ s with ms := { s.ms with moors := SMap.set [] s.ms.moors (s.moorTable w.core) keep } }, 0)

/-! ### Atomics (08 R210, R211) -/

/-- Perform a returning atomic at the home, indivisibly: what the core has stored into the line is there first, and its copy
of the line follows (log entry 103). -/
def State.atomicAt (s : State) (w : Who) (op : AtOp) (w8 : Bool) (x : Xlat) (a c : Nat) (rid : Option Nat) : State :=
  let n := if w8 then 8 else 4
  match x.dev with
  | some d => s.remoteRead w d x n 1 2 rid
  | none =>
    let (ms, g) := homeRead (s.ms.ownHome w.core (x.pa / 64) (spanOf x.pa n)) w x x.pa n 1 .atomic
    let s := { s with ms := ms }
    match g.bad with
    | some b => s.modCore w.core fun c => (c.pay rid ((Config.poisonData 0).setWidth 1024) (some b)).note (some b)
    | none =>
      let write : Bool := !(op == .cas && g.val != c % pow2 (8 * n))
      let new := atApply op n g.val (a % pow2 (8 * n)) (c % pow2 (8 * n))
      let ms := if write then (s.ms.claimHome w.die x.pa (leafTh x.leaf) (some w.core)).putHome x.pa n new (allOnes n) (leafPk x.leaf) false
        else s.ms
      { s with ms := ms.refresh w.core (x.pa / 64) }.modCore w.core fun c => c.pay rid (BitVec.ofNat 1024 g.val) none

/-- A non-returning atomic: an update-only line, which counts in `st` until it has merged, or an update combined at a remote
home (06 R176, 22 R433). -/
def State.atomicUpdate (s : State) (w : Who) (op : AtOp) (w8 : Bool) (x : Xlat) (a : Nat) : State :=
  match x.dev with
  | some d => s.sendUnordered w d x.pa 1 false none
  | none =>
    let n := if w8 then 8 else 4
    let (ms, d) := updateOnly s.ms w (s.core w.core).ways x op w8 (a % pow2 (8 * n))
    let s := { s with ms := ms.showThru w.core x n }
    if d.isSome then s.modCore w.core fun c => c.note d
    else (s.modCore w.core fun c => { c with stOut := c.stOut ++ [x.pa / 64] }).settleStores w.core

/-! ### `unpark` (18 R387) -/

/-- STATE of the record of a task that has one (09 R228). -/
def State.markRecord (s : State) (core : Nat) (t : Option Task) (st : Nat) : State :=
  match t with
  | some t =>
    if t.record then
      let (s, w) := s.ctxWho core t.ctx t.creatorSup
      s.setStatus w t.trec (linkWord 0 st)
    else s
  | none => s

/-- A parked task in frame f becomes ready. -/
def unparkFrame (ctx a : Nat) (r : State × Nat) (f : Nat) : State × Nat :=
  let x := r.1.fst ctx a f
  let ready (c : Core) : Core := { c with ctl := { c.ctl with phase := .unparked } }
  if x.2 = some 2 then ((((x.1.setFst ctx a f 1).1).setFrame ctx a f ((x.1.frameOf ctx a f).map ready)).markRecord a ((x.1.frameOf ctx a f).bind Core.task) 3, r.2 + 1) else (x.1, r.2)

/-- Parked tasks of a context on core a re-enter; their number. -/
def State.unpark (s : State) (ctx a : Nat) : State × Nat :=
  let c := s.core a
  let here : Bool := c.ctl.phase == .parked && (match c.task with | some t => t.ctx == ctx | none => false)
  let s := if here then (s.setCore a c.rfe).markRecord a c.task 3 else s
  (upto 0 4).foldl (unparkFrame ctx a) (s, b2n here)

/-! ### Performing a held operation -/

/-- Pay a status. -/
def State.payStatus (s : State) (k : Nat) (rid : Option Nat) (v : Nat) : State := s.modCore k fun c => c.pay rid (BitVec.ofNat 1024 v) none

/-- A status that an operation on the state returns. -/
def payOf (k : Nat) (rid : Option Nat) (r : State × Nat) : State := r.1.payStatus k rid r.2

/-- A pool operation: every earlier access first, then the operation at the entries' homes (08 R222). -/
def State.poolOp (s : State) (k : Nat) (rid : Option Nat) (op : MemSys → MemSys × Nat) : State :=
  let s := s.releaseAt k 3 true
  let (ms, st) := op s.ms
  { s with ms := ms }.payStatus k rid st

/-- Perform a load at its target that fills no line, and pay its result: `ldio` and the reads of acquires (05 R135, 08
R208). The core's own copy of the line follows what it has seen (05 R130). -/
def State.homeLoadFor (s : State) (w : Who) (n : Nat) (x : Xlat) (rid : Option Nat) : State :=
  match x.dev with
  | some d => s.remoteRead w d x n 1 0 rid
  | none =>
    let here : Bool := !x.hole && inAperture x.pa
    let s := if here then { s with ms := s.ms.ownHome w.core (x.pa / 64) (spanOf x.pa n) } else s
    let (s, g) := s.homeLoad w x x.pa n 1 .read
    let s := if here then { s with ms := s.ms.refresh w.core (x.pa / 64) } else s
    s.modCore w.core fun c => (c.pay rid (BitVec.ofNat 1024 g.val) g.bad).note g.bad

/-- An ordering operation that has been sent to a remote home completes with its acknowledgement: nothing after it is
performed before (05 R135, R138). -/
def State.awaitRemote (s : State) (k : Nat) (h : Held) (pa : Nat) : State :=
  s.modCore k fun c => { c with ctl := { c.ctl with store := { h with op := .await pa } :: c.ctl.store } }

/-- Whether the operation of a placeholder is not acknowledged. -/
def State.awaits (s : State) (k : Nat) (h : Held) (pa : Nat) : Bool :=
  s.fab.unacked.any fun e => e.1 != unorderedLink && e.2.any fun u => u.core == k && u.pa == pa && u.rid == h.rid

/-- Leave a placeholder for an operation on a remote page. -/
def State.sent (s : State) (k : Nat) (h : Held) (x : Xlat) : State := if x.dev.isSome then s.awaitRemote k h x.pa else s

/-! ### Stores that a pool operation meets (04 R121, R126) -/

/-- The block that an entry names, in bytes: its address and its size. -/
def State.poolFrame (s : State) (w : Who) (x : Xlat) (dp : Nat) : Option (Nat × Nat) :=
  let a := wfield w.xpool 43 10 * 1024 + 64 * dp
  let p := poolDesc a (s.ms.placeN a 64)
  let e := s.ms.placeN (entryOf p x) 4
  if bit e 31 then some (blockAddr p (field e 0 24), p.bytes) else none

/-- Whether a translation that decided a write lies in a frame. -/
def Xlat.inFrame (x : Xlat) (a n : Nat) : Bool := x.dev.isNone && leafPl x.leaf && Sys2Proof.Machine.inFrame a n (x.pa / 64)

/-- Whether a core holds a committed write to a frame that no pool operation of its own stands before. -/
def Core.storesInto (c : Core) (a n : Nat) : Bool :=
  (c.ctl.store ++ c.cp.queue).any fun h => h.released && h.op.writes && h.op.xlats.any (fun x => x.inFrame a n) &&
    !c.ctl.store.any fun p => p.released && p.op.isPool && p.before h

/-- Whether a write made through a write right of the entry is still on its way to its home (04 R121). -/
def State.rightPending (s : State) (k : Nat) (f : Option (Nat × Nat)) : Bool :=
  match f with
  | some (a, n) => s.cores.any fun e => e.1 != k && e.2.storesInto a n
  | none => false

/-- A held write to a frame is to be made at the home. -/
def Held.throughHome (a n : Nat) (h : Held) : Held :=
  if h.op.writes then { h with op := h.op.mapX fun x => if x.inFrame a n then { x with thru := true } else x } else h

/-- The writes to a frame that a core holds, those of a pre-empted task among them, are to be made at the home. -/
def Core.throughHome (a n : Nat) (c : Core) : Core :=
  let all (l : List Held) : List Held := l.map (Held.throughHome a n)
  { c with ctl := { c.ctl with store := all c.ctl.store
                               behind := { c.ctl.behind with store := all c.ctl.behind.store, ex := all c.ctl.behind.ex } }
           cp := { c.cp with queue := all c.cp.queue } }

/-- Every write that is held anywhere and was decided through the write right of an entry is to be made at the home, where
every sharer sees it (04 R126). -/
def State.throughHome (s : State) (f : Option (Nat × Nat)) : State :=
  match f with
  | some (a, n) =>
    let s := s.mapCores (Core.throughHome a n)
    { s with sched := { s.sched with frames := s.sched.frames.map fun e => (e.1, e.2.map (Core.throughHome a n)) } }
  | none => s

/-- Perform an operation of the block store buffer; `none` while it waits. What it waits for in the copy engine's queue stands
in `Core.waitsEx`. -/
def performHeld (s : State) (k : Nat) (h : Held) : Option State :=
  let c := s.core k
  let w : Who := { s.who k with sup := h.sup }
  match h.op with
  | .load n signed x => some (s.loadFor w n x 1 h.rid fun v => wordVec (extend signed n v))
  | .await pa => if s.awaits k h pa then none else some s
  | .store n x v => some (s.storeAt w n x v.toNat 1)
  | .sstore n off v => some (s.modCore k fun c => c.padPut off n v.toNat false)
  | .ldio n x => some (s.homeLoadFor w n x h.rid)
  | .atomic op cw x a y =>
    if bit cw 2 then
      let rel := bit cw 1
      let scope := field cw 4 3
      if rel && remoteWaits s k scope then none
      else
        let s := if rel then s.releaseAt k scope true else s
        let s := s.atomicAt w op (bit cw 3) x a.toNat y.toNat h.rid
        some (if bit cw 0 then s.sent k h x else s)
    else some (s.atomicUpdate w op (bit cw 3) x a.toNat)
  | .ldAcq _ x =>
    some ((s.homeLoadFor w 8 x h.rid).sent k h x)
  | .stRel scope x v =>
    if remoteWaits s k scope then none
    else
      let s := s.releaseAt k scope true
      match x.dev with
      | some d => some ((s.remoteWrite w d x 1).sent k h x)
      | none =>
        let (s, d) := s.homeStore w x x.pa 8 v.toNat 1 false
        some (s.modCore k fun c => c.note d)
  | .acq _ x =>
    let s := s.homeLoadFor w 8 x h.rid
    let ms := (s.mooredTo w x.va).foldl (fun (m : MemSys) (r : Mooring) => m.evictRegion w r.base r.len) s.ms
    some (({ s with ms := ms }.settleStores k).sent k h x)
  | .rel scope x v =>
    if remoteWaits s k scope then none
    else
      let s := s.releaseAt k scope false
      let ms := (s.mooredTo w x.va).foldl (fun (m : MemSys) (r : Mooring) => m.writeBackRegion w r.base r.len) s.ms
      let s := { s with ms := ms }.settleStores k
      match x.dev with
      | some d => some ((s.remoteWrite w d x 1).sent k h x)
      | none =>
        let n := (s.ms.recall (x.pa / 64)).readN (x.pa + 8) 4
        let (s, d) := s.homeStore w x x.pa 12 (v.toNat + ((n + 1) % pow2 32) <<< 64) 1 false
        some (s.modCore k fun c => c.note d)
  | .fence scope p q =>
    if p = 0 ∨ q = 0 then some s
    else if producerWaits s k h p || remoteWaits s k scope then none
    else if p % 4 ≠ 0 then some (s.releaseAt k scope true)
    else some (if q % 4 ≠ 0 then { s with ms := s.ms.drainWc k }.settleStores k else s)
  | .moor base len x => some (payOf k h.rid (s.moor w base.toNat len.toNat x.va))
  | .unmoor base x => some (payOf k h.rid (s.unmoor w base.toNat x.va))
  | .poolShare d x dp sp =>
    let f := s.poolFrame w x sp
    if s.rightPending k f then none
    else some ((s.throughHome f).poolOp k h.rid fun ms => poolShare ms w d x dp sp)
  | .poolDrop d dp =>
    let f := s.poolFrame w d dp
    if s.rightPending k f then none
    else some ((s.throughHome f).poolOp k h.rid fun ms => poolDrop ms w d dp)
  | .poolAlloc d dp => some (s.poolOp k h.rid fun ms => poolAlloc ms w d dp)
  | .xlinv scope asid base len =>
    if 16 ≤ (s.ms.invals.filter fun i => i.ctx == c.ctx).length then none
    else
      let s := s.releaseAt k 3 true
      let i : Inval := { id := s.ms.nextInval, core := k, ctx := c.ctx, scope := scope, asid := asid % 65536, base := base, len := len, seen := [] }
      some { s with ms := { s.ms with invals := s.ms.invals ++ [i], nextInval := s.ms.nextInval + 1 } }
  | .xlwait upTo =>
    let before (i : Inval) : Bool := match upTo with | some n => decide (i.id < n) | none => true
    if s.ms.invals.any (fun i => i.ctx == c.ctx && before i) then none else some s
  | .icinv _ _ => none
  | .cacheRegion inv base len =>
    let ms := s.ms.writeBackRegion w base len
    some ({ s with ms := if inv then ms.evictRegion w base len else ms }.settleStores k)
  | .fork a =>
    some (payOf k h.rid (makeReady { s with ms := s.ms.drainMerge k } k w a true))
  | .spawn a =>
    some (payOf k h.rid (makeReady { s with ms := s.ms.drainMerge k } k w a false))
  | .launch a n =>
    some (payOf k h.rid (appendLaunch { s with ms := s.ms.drainMerge k } w a n w.mid w.die))
  | .swr n v => some (s.modCore k fun c => sysWrite c n v)
  | .unpark a => some (payOf k h.rid (s.unpark c.ctx a))
  | .clkset e d => some (s.clkset k e d h.rid)
  | .vset v => some (s.vset k v h.rid)
  | .clkrd i => some (s.payStatus k h.rid (s.clkrd k i))
  | .swsel a b d => some (s.payStatus k h.rid (s.swsel k a b d))
  | _ => some s

end Sys2Proof.Machine
end

