-- ==== Sys2Proof/Machine/Engine.lean ====
section
/-!
DEFINITION. The copy engine: `ex7` commands as they fire, quays, channels and their copies, add-on-write rows, the record
channel and storage queues (08 R212 to R218; 09 R231; 15 R347 to R368; 03 R73 to R81).
-/

namespace Sys2Proof.Machine

/-! ### Blocks that a vector access reads (08 R213, R216) -/

/-- Read the block of each translation, through the level-1 cache or at its home; the first notice. What a remote device
returns is a free value. After a read at the home the core's own copy follows what it has seen (05 R130, 03 R81). -/
def vectorBlocks (w : Who) (home : Bool) (kind : AccessKind) (path : Nat) : List Xlat → State → State × List Block × Option Notice
  | [], s => (s, [], none)
  | x :: xs, s =>
    let a := x.pa / 64 * 64
    let (s, g) :=
      match x.dev with
      | some _ => s.remoteData x a 64 path
      | none =>
        if x.hole then (s, Got.ok 0)
        else if !inAperture x.pa then s.homeLoad w x a 64 path kind
        else if home then
          let (ms, g) := homeRead (s.ms.ownHome w.core (x.pa / 64) (BitVec.allOnes 512)) w x a 64 path kind
          ({ s with ms := ms.refresh w.core (x.pa / 64) }, g)
        else
          let (ms, g) := cachedLoad s.ms w (s.core w.core).ways x a 64 path
          ({ s with ms := ms }, g)
    let (s, bs, n) := vectorBlocks w home kind path xs s
    (s, BitVec.ofNat 512 g.val :: bs, g.bad <|> n)

/-- Lanes as a vector. -/
def laneVec (l : List Nat) : Vec := BitVec.ofNat 1024 (l.foldr (fun v a => v % pow2 32 + a <<< 32) 0)

/-- The remote device that an access touches, and the address there. -/
def anyRemote (xs : List Xlat) : Option (Nat × Nat) := xs.findSome? fun x => x.dev.map fun d => (d, x.pa)

/-- The result of an access over several blocks: it lands at once, or, where a remote device has returned one, with its
acknowledgement (05 R157). -/
def State.deliver (s : State) (w : Who) (xs : List Xlat) (rid : Option Nat) (v : Vec) (n : Option Notice) : State :=
  match anyRemote xs with
  | some (dev, pa) => s.sendOrdered (s.unackedOf w dev pa 2 false rid) v n
  | none => s.modCore w.core fun c => (c.pay rid v n).note n

/-- The value that tree lanes read. -/
def treeLane (t : TreeDesc) (bs : TreeBlocks) (l : Nat) : Option Pos → Nat
  | some p => treeAvg t bs l p
  | none => 0

/-- The result of a level or a detail load over the blocks it has read. -/
def treeResult (row : Bool) (d : BitVec 256) (sel pos : Nat) (detail : Bool) (blocks : List Block) : Vec :=
  let t := treeDesc d
  let sw : Word := BitVec.ofNat 64 sel
  let l := selLvl sw
  let p := posOf t pos
  let form : TreeForm := if detail then .detail else if row then .row else .average
  let bs : TreeBlocks := (treeBlockNums form t l p (selSel sw)).zip blocks
  if detail then BitVec.ofNat 1024 (coef t.cls bs (detailIndex t l p (selSel sw)))
  else if row then laneVec ((rowLanes l p 32).map (treeLane t bs l))
  else BitVec.ofNat 1024 (treeAvg t bs l p)

/-- Perform a level or a detail load. -/
def treeLoad (s : State) (w : Who) (rid : Option Nat) (home row detail : Bool) (d : BitVec 256) (sel pos : Nat) (xs : List Xlat) : State :=
  let (s, bs, n) := vectorBlocks w home .read 2 xs s
  s.deliver w xs rid (treeResult row d sel pos detail bs) n

/-! ### Element loads and stores (08 R213, R214; 02 R53 to R58) -/

/-- Lanes of an element load, with their events. -/
def elementLanes (cls i0 c : Nat) (bs : TreeBlocks) : List Nat × Ev :=
  (upto 0 32).foldl (fun (a : List Nat × Ev) j =>
    if j < c then
      let i := i0 + j
      let r := elementFp32 cls (SMap.get 0 bs (i / classCap cls)) (i % classCap cls)
      (a.1 ++ [r.1], a.2.or r.2)
    else (a.1 ++ [0], a.2)) ([], {})

/-- Bytes in which two blocks differ. -/
def diffMask (a b : Block) : Nat := (upto 0 64).foldl (fun m i => m + (if byteOf a.toNat i = byteOf b.toNat i then 0 else 1 <<< i)) 0

/-- The lanes whose elements lie in block b, in order. -/
def lanesIn (cls i0 c b : Nat) : List Nat := (upto 0 c).filter fun j => (i0 + j) / classCap cls == b

/-- Store the lanes that lie in block b. -/
def storeLanes (cls dfmt i0 : Nat) (v : BitVec 1024) (lanes : List Nat) (blk : Block) : Block × Ev :=
  lanes.foldl (fun (a : Block × Ev) j =>
    let r := storeElem cls dfmt a.1 ((i0 + j) % classCap cls) (fp32 (field v.toNat (32 * j) 32)) .fp32
    (r.1, a.2.or r.2)) (blk, {})

/-- The bits of the elements that lanes store, with the spare bits of the 6-bit class (02 R51, R58). -/
def storedBits (cls i0 : Nat) (lanes : List Nat) : Block :=
  lanes.foldl (fun m j => setCode cls m ((i0 + j) % classCap cls) (allOnes (classBits cls))) (if cls = 3 then setBits 0 508 4 15 else 0)

/-- The block of a line as the core sees it, for an element store: its header bytes, if the core has stored any, are at the
home. Also whether this read has reached the home: on a coherent page the store's own fill does. -/
def elemBlock (ms : MemSys) (w : Who) (x : Xlat) : MemSys × Block × Bool :=
  let line := x.pa / 64
  let ms := ms.drainWhere w.core fun e => e.line == line && (e.mask &&& bitSpan 0 2) != 0
  let ms := ms.flushWhere w.core (fun l => l.line == line && l.isUpdate) true
  match (ms.lines w.core).find? fun l => l.line == line with
  | some l => if l.poison && leafPsn x.leaf == 1 then (ms.substitute, 0, false) else (ms, l.data, false)
  | none =>
    let ms := ms.recall line
    let ms := if leafCoh x.leaf then ms else ms.visit w.die x.pa (leafTh x.leaf) false
    if ms.poisoned x.pa && leafPsn x.leaf == 1 then (ms.substitute, 0, !leafCoh x.leaf) else (ms, ms.block x.pa, !leafCoh x.leaf)

/-- The bits that an element store needs at the home before it rewrites a header: all, where the block is materialised, whose
other elements it writes too (02 R57); else its elements and the header. -/
def rewriteBits (cls i0 : Nat) (lanes : List Nat) (old : Block) : Block :=
  if (blockFmt cls old).isNone then BitVec.allOnes 512 else storedBits cls i0 lanes ||| bitSpan 0 2

/-- An element store that changes its block's header: one rewrite at the home of what the home holds (02 R57, R58). Where
another party has written the header meanwhile, the elements alone are stored. It keeps the poison that it is computed from,
unless the block is materialised. `seen` if the store has reached the home already. -/
def rewriteBlock (s : State) (w : Who) (cls dfmt i0 : Nat) (v : BitVec 1024) (lanes : List Nat) (x : Xlat) (view : Block) (seen : Bool) :
    State × Ev × Option Notice :=
  let line := x.pa / 64
  let ms := s.ms.ownHome w.core line (rewriteBits cls i0 lanes view)
  let ms := ms.ownHome w.core line (rewriteBits cls i0 lanes (ms.block x.pa))
  let (ms, ok) := ms.check w.die w.mid x.pa .write (leafTh x.leaf)
  let poisoned := ms.poisoned x.pa
  let old := if poisoned && leafPsn x.leaf == 1 then 0 else ms.block x.pa
  let (new, ev) := storeLanes cls dfmt i0 v lanes old
  if !ok then ({ s with ms := ms }, ev, some (denied x.pa 1 2))
  else
    let bits := rewriteBits cls i0 lanes old
    let ms := if seen then ms.claimHome w.die x.pa (leafTh x.leaf) (some w.core) else ms.openHome w.die x.pa (leafTh x.leaf) (some w.core)
    let ms := ms.merge line new bits (leafPk x.leaf) false
    let ms := if leafPk x.leaf then ms else ms.fillPack (line / 4)
    ({ s with ms := ms.refresh w.core line }, ev, none)

/-- The part of an element store that falls on one local block of HBM: one that leaves the header goes the way of a store
(04 R99). -/
def storeElemsAt (s : State) (w : Who) (cls dfmt i0 : Nat) (v : BitVec 1024) (lanes : List Nat) (x : Xlat) : State × Ev × Option Notice :=
  let (ms, old, seen) := elemBlock s.ms w x
  let s := { s with ms := ms }
  let (new, ev) := storeLanes cls dfmt i0 v lanes old
  if field new.toNat 0 16 = field old.toNat 0 16 then
    let (ms, d) := cachedStoreBits s.ms w (s.core w.core).ways x x.pa new (storedBits cls i0 lanes) 2
    let s := { s with ms := ms.showThru w.core x 64 }
    if d.isSome then (s, ev, d)
    else ((s.modCore w.core fun c => { c with stOut := c.stOut ++ [x.pa / 64] }).settleStores w.core, ev, none)
  else rewriteBlock s w cls dfmt i0 v lanes x old seen

/-- An element store, block by block. At a remote device the block that it meets is a free value. -/
def storeElems (w : Who) (cls dfmt i0 c : Nat) (v : BitVec 1024) : List (Nat × Xlat) → State → State × Ev × Option Notice
  | [], s => (s, {}, none)
  | (b, x) :: bs, s =>
    let lanes := lanesIn cls i0 c b
    let (s, ev, n) : State × Ev × Option Notice :=
      match x.dev with
      | some d =>
        let (s, g) := s.remoteData x (x.pa / 64 * 64) 64 2
        (s.remoteWrite w d x 2, (storeLanes cls dfmt i0 v lanes (BitVec.ofNat 512 g.val)).2, none)
      | none =>
        if inAperture x.pa then storeElemsAt s w cls dfmt i0 v lanes x
        else
          let (s, g) := s.homeLoad w x (x.pa / 64 * 64) 64 2 .write
          let (new, ev) := storeLanes cls dfmt i0 v lanes (BitVec.ofNat 512 g.val)
          let (s, n) := s.homeStore w x (x.pa / 64 * 64) 64 new.toNat 2 false
          (s, ev, n)
    let (s, ev2, n2) := storeElems w cls dfmt i0 c v bs s
    (s, ev.or ev2, n <|> n2)

/-! ### Tree updates (03 R73 to R78) -/

/-- Write the blocks of an update, those that it has changed; the issuing core's own copies of all of them go (R78). A block
outside the HBM apertures is written at its target (log entry 126). -/
def writeTree (w : Who) (cls : Nat) (old new : TreeBlocks) : List (Nat × Xlat) → State → State
  | [], s => s
  | (b, x) :: bs, s =>
    let a := SMap.get 0 old b
    let n := SMap.get 0 new b
    let mask := if (blockFmt cls a).isNone then allOnes 64 else diffMask a n
    let line := x.pa / 64
    let ms := s.ms.setLines w.core ((s.ms.lines w.core).filter fun l => l.line != line)
    let s := { s with ms := ms }
    let s := if a = n then s
      else if !inAperture x.pa then (s.homeStore w x (line * 64) 64 n.toNat 2 false).1
      else { s with ms := (ms.claimHome w.die x.pa (leafTh x.leaf) none).putHome (line * 64) 64 n.toNat mask (leafPk x.leaf) false }
    writeTree w cls old new bs s

/-- Averages to be stored, one after another, as one update of a tree: positions and binary32 codes. -/
def updates (t : TreeDesc) (l : Nat) (bs : TreeBlocks) (vs : List (Option Pos × Nat)) : TreeBlocks :=
  vs.foldl (fun b e => match e.1 with | some p => treeUpdate t b l p e.2 | none => b) bs

/-- Perform a tree update at its home over the blocks it touches; a denial or poison leaves it not performed (R75). -/
def treeUpdateAt (s : State) (w : Who) (d : BitVec 256) (l path : Nat) (nums : List Nat) (xs : List Xlat) (vs : List (Option Pos × Nat)) :
    State × Option Notice :=
  let t := treeDesc d
  let (s, blocks, n) := vectorBlocks w true .atomic path xs s
  match n with
  | some n => (s, some n)
  | none =>
    let bs : TreeBlocks := nums.zip blocks
    (writeTree w t.cls bs (updates t l bs vs) (nums.zip xs) s, none)

/-! ### Quays (15 R361 to R363) -/

def Core.setQuay (c : Core) (q : Nat) (x : Quay) : Core := { c with cp := { c.cp with quays := SMap.set {} c.cp.quays q x } }

def Quay.entries (q : Quay) : Nat := q.dm1 + 1
def Quay.occupancy (q : Quay) : Nat := (q.pc + 65536 - q.cc) % 65536

/-- Whether a quay has an entry to pop, and room for one: an entry that is being taken, and entries that are still being
written, come first (R361). -/
def Quay.canPop (q : Quay) : Bool := q.taking.isNone && q.occupancy != 0
def Quay.canPush (q : Quay) : Bool := q.coming.isEmpty && decide (q.occupancy < q.entries)

/-- The offset of the entry of a count. -/
def Quay.slotAt (q : Quay) (n : Nat) : Nat := 64 * q.base + q.bytes * (n % q.entries)

def Core.channel (c : Core) (ch : Nat) : Channel := SMap.get {} c.cp.chans ch

def Core.setChannel (c : Core) (ch : Nat) (x : Channel) : Core := { c with cp := { c.cp with chans := SMap.set {} c.cp.chans ch x } }

/-- Whether the feeding channel of an empty quay has a recorded fault: a pop of it is a feed pop. -/
def Core.feedFault (c : Core) (q : Nat) : Bool :=
  (c.quay q).occupancy == 0 && decide ((c.quay q).feed < 8) && (c.channel (c.quay q).feed).fp

/-- The next entry, and the quay with the entry popped. -/
def Core.popEntry (c : Core) (q : Nat) : List (Block × Bool) × Core :=
  let x := c.quay q
  (c.padBlocks (x.esm1 + 1) (x.slotAt x.cc), c.setQuay q { x with cc := (x.cc + 1) % 65536 })

/-- Push an entry. -/
def Core.pushEntry (c : Core) (q : Nat) (bs : List (Block × Bool)) : Core :=
  let x := c.quay q
  (c.padPutBlocks bs (x.slotAt x.pc)).setQuay q { x with pc := (x.pc + 1) % 65536 }

/-- Record a quay fault, and of a feed pop the channel that caused it; one that is recorded stays (R363). -/
def Core.quayFault (c : Core) (q : Nat) (feed : Bool) : Core :=
  if c.cp.qflt.getLsbD 7 then c
  else { c with cp := { c.cp with qflt := BitVec.ofNat 64 (q + 128 + 5 <<< 8 + b2n feed <<< 15)
                                  qfeed := if feed then some (c.quay q).feed else none } }

def quayState (x : Quay) : Nat :=
  x.pc <<< 48 + x.cc <<< 32 + b2n x.v <<< 31 + x.feed <<< 27 + x.dm1 <<< 16 + x.esm1 <<< 8

/-- The quay that a command of the matrix engine pops or pushes. -/
def MxCmd.quay : MxCmd → Option Nat
  | .tld w => some (field w 0 4)
  | .tst w => some (field w 0 4)
  | .acvt w => some (field w 16 4)
  | .aldq w => some (field w 16 4)
  | _ => none

/-- The value of LI l after `iter` copies (R351). -/
def nestLi (rs : List Word) (iter l : Nat) : Nat :=
  iter / ((upto 0 l).foldl (fun a m => a * nestTrip rs m) 1) % nestTrip rs l

/-- The copies of a nest. -/
def nestTotal (rs : List Word) : Nat := (upto 0 6).foldl (fun a l => a * nestTrip rs l) 1

/-- Base plus strides, modulo 2^64. -/
def nestAddr (rs : List Word) (iter bi s0 : Nat) : Nat :=
  (upto 0 6).foldl (fun a l => (a + nestLi rs iter l * (nestReg rs (s0 + l)).toNat) % pow2 64) (nestReg rs bi).toNat

/-- The source and the destination of the next copy of a nest; of a quay the base alone (R350, R351). -/
def Nest.src (n : Nest) : Nat := if nestSk n.regs = 2 then (nestReg n.regs 0).toNat else nestAddr n.regs n.iter 0 8
def Nest.dst (n : Nest) : Nat := if nestDk n.regs = 2 then (nestReg n.regs 1).toNat else nestAddr n.regs n.iter 1 16

/-- Whether a quay keeps a copy of `n` waiting: it is empty for a pop, or full for a push. -/
def Quay.keeps (x : Quay) (q : Nat) (n : Nest) : Bool :=
  x.v && x.bytes == nestSize n.regs &&
  ((nestSk n.regs == 2 && n.src == q && x.occupancy == 0) || (nestDk n.regs == 2 && n.dst == q && decide (x.entries ≤ x.occupancy)))

/-- The firings that wait for a quay are cleared: the first command of the matrix engine's queue, and the copies that their
channels would make next (04 R103; log entry 104). -/
def Core.clearFirings (c : Core) (q : Nat) : Core :=
  let x := c.quay q
  let skip (y : Channel) : Channel :=
    match y.nests with
    | n :: ns => if !n.dead && x.keeps q n then { y with nests := { n with iter := n.iter + 1 } :: ns } else y
    | [] => y
  let queue := match c.mx.queue.find? fun e => e.released && e.cmd.quay.isSome with
    | some e => if e.cmd.quay = some q then c.mx.queue.erase e else c.mx.queue
    | none => c.mx.queue
  { c with cp := { c.cp with chans := SMap.mapVals {} skip c.cp.chans }, mx := { c.mx with queue := queue } }

/-- `ex7.q.set`: a reset, or a set-up, which keeps the feed. -/
def Core.quaySet (c : Core) (q : Nat) (w : Word) : Core :=
  if w.getLsbD 56 then (c.clearFirings q).setQuay q {}
  else c.setQuay q { v := true, base := wfield w 15 0, dm1 := wfield w 55 48, esm1 := wfield w 39 32, pc := 0, cc := 0
                     feed := (c.quay q).feed }

/-- The two blocks, or the one block, of a vector. -/
def vecBlocks (v : BitVec 1024) (n : Nat) : List (Block × Bool) :=
  (upto 0 n).map fun i => (BitVec.ofNat 512 (field v.toNat (512 * i) 512), false)

/-- Whether the entry size is one that `ex7.q.push` and `ex7.q.pop` take. -/
def Quay.vectorSized (x : Quay) : Bool := x.v && decide (x.esm1 ≤ 1)

/-! ### Storage queues (15 R366 to R368) -/

/-- Write a field of a descriptor at its home. -/
def State.sqPut (s : State) (q off n v : Nat) : State := { s with ms := s.ms.hwWrite (s.sqAddr q + off) n v }

/-- A write of the storage path to a physical address, under the task's MID (01 R35, 05 R128). -/
def State.queueWrite (s : State) (w : Who) (a n v : Nat) : State :=
  let (s, d) := s.homeStore w { va := a, pa := a, leaf := 0, dev := none, hole := false } a n v 32 false
  s.modCore w.core fun c => c.note d

/-- `ex7.sq.post`: the status. -/
def State.sqPost (s : State) (w : Who) (q : Nat) (e : BitVec 512) (refuse : Bool) : State × Nat :=
  let k := w.core
  let (ms, x) := s.ms.hwRead (s.sqAddr q) 64
  let s := { s with ms := ms }
  let w4 := sqWord x 4
  let size := field w4 48 12 + 1
  let tail := field w4 16 12
  let next := (tail + 1) % size
  if !sqOpen s x (s.core k).ctx w.sup then (s, 2)
  else if bit (sqWord x 5) 3 && refuse then (s, 3)
  else if next = field w4 0 12 then (s, 1)
  else
    let s := s.queueWrite w (field (sqWord x 0) 6 38 * 64 + 64 * tail) 64 e.toNat
    let s := s.sqPut q 34 2 (next + field w4 28 4 <<< 12)
    let s := s.queueWrite w (4 * field (sqWord x 2) 2 42) 4 next
    ({ s with sto := { s.sto with outstanding := s.sto.outstanding ++
                [{ ctx := (s.core k).ctx, queue := q, cid := field e.toNat 16 16, core := k }] } }, 0)

/-- `ex7.sq.cqack`. -/
def State.sqCqack (s : State) (w : Who) (q n sqhd : Nat) : State × Nat :=
  let (ms, x) := s.ms.hwRead (s.sqAddr q) 64
  let s := { s with ms := ms }
  let w4 := sqWord x 4
  let w5 := sqWord x 5
  let head := (field w5 8 12 + n) % (field w4 32 12 + 1)
  if !sqOpen s x (s.core w.core).ctx w.sup then (s, 2)
  else if field w4 48 12 < sqhd then (s, 3)
  else
    let s := s.sqPut q 32 2 (sqhd + field w4 12 4 <<< 12)
    let s := s.sqPut q 40 3 (field w5 0 8 + head <<< 8 + field w5 20 4 <<< 20)
    (s.queueWrite w (4 * field (sqWord x 3) 2 42) 4 head, 0)

/-! ### A command that fires (15 R347, R361) -/

def Core.popEx (c : Core) : Core := { c with cp := { c.cp with queue := c.cp.queue.drop 1 } }

/-- CSTS (R358). -/
def csts (x : Channel) : Nat :=
  x.iter <<< 32 + (min x.nests.length 8) <<< 12 + b2n (!x.nests.isEmpty) <<< 11 + b2n x.fp <<< 7 + x.fc

/-- Perform an `ex7` command other than a drain and a tree update; `none` while it waits. A nest that reaches a channel whose
fault is not delivered is discarded (R358). An element load whose data is denied or poisoned writes no event into VT (log entry
141). -/
def fireEx (s : State) (k : Nat) (h : Held) : Option State :=
  let c := s.core k
  let w : Who := { s.who k with sup := h.sup }
  match h.op with
  | .vload n x => some (s.loadFor w n x 2 h.rid fun v => BitVec.ofNat 1024 v)
  | .vstore n x v => some (s.storeAt w n x (v.toNat % pow2 (8 * n)) 2)
  | .svload n off =>
    let bad := if c.padPoisoned off || c.padPoisoned (off + n - 1) then some (poisonNotice off 0 2) else none
    some (s.setCore k ((c.pay h.rid (BitVec.ofNat 1024 (c.padBytes off n)) bad).note bad))
  | .svstore n off v =>
    if off % 64 = 0 ∧ 64 ≤ n then some (s.setCore k (c.padPutBlocks (vecBlocks v (n / 64)) off))
    else some (s.setCore k (c.padPut off n (v.toNat % pow2 (8 * n)) false))
  | .eld _ i0 cnt cls xs =>
    let (s, bs, n) := vectorBlocks w false .read 2 xs s
    let (lanes, ev) := elementLanes cls i0 cnt ((coefBlocks cls (upto i0 cnt)).zip bs)
    some ((s.deliver w xs h.rid (laneVec lanes) n).modCore k fun c => c.pay (h.rid.map (· + 1)) (if n.isSome then 0 else ev.bits.setWidth 1024) none)
  | .est _ i0 cnt cls dfmt v xs =>
    let (s, ev, n) := storeElems w cls dfmt i0 cnt v ((coefBlocks cls (upto i0 cnt)).zip xs) s
    some (s.modCore k fun c => (c.pay h.rid (ev.bits.setWidth 1024) none).note n)
  | .lavg home row d sel pos xs => some (treeLoad s w h.rid home row false d sel pos xs)
  | .ldet home d sel pos xs => some (treeLoad s w h.rid home false true d sel pos xs)
  | .tdld _ x =>
    some (s.loadFor w 32 x 2 h.rid fun v =>
      BitVec.ofNat 1024 (v % pow2 256 + b2n (treeDescOk (BitVec.ofNat 256 v)) <<< 256))
  | .qset q v => some (s.setCore k (c.quaySet q v))
  | .qpush q v =>
    let x := c.quay q
    if !x.vectorSized then some (s.setCore k (c.quayFault q false))
    else if x.canPush then some (s.setCore k (c.pushEntry q (vecBlocks v (x.esm1 + 1)))) else none
  | .qpop q =>
    let x := c.quay q
    if !x.vectorSized then some (s.setCore k ((c.quayFault q false).pay h.rid 0 none))
    else if c.feedFault q then some (s.setCore k ((c.quayFault q true).pay h.rid 0 none))
    else if !x.canPop then none
    else
      let (bs, c) := c.popEntry q
      let v := bs.foldr (fun b a => b.1.toNat + a <<< 512) 0
      let bad := if bs.any Prod.snd then some (poisonNotice (x.slotAt x.cc) 0 2) else none
      some (s.setCore k ((c.pay h.rid (BitVec.ofNat 1024 v) bad).note bad))
  | .qadv q n consumer =>
    let x := c.quay q
    if !x.v || decide (x.entries < n) then some (s.setCore k (c.quayFault q false))
    else if consumer then
      if x.taking.isNone && decide (n ≤ x.occupancy) then some (s.setCore k (c.setQuay q { x with cc := (x.cc + n) % 65536 })) else none
    else if x.coming.isEmpty && decide (x.occupancy + n ≤ x.entries) then some (s.setCore k (c.setQuay q { x with pc := (x.pc + n) % 65536 })) else none
  | .qsts q => some (s.payStatus k h.rid (quayState (c.quay q)))
  | .cpReg _ _ v => some (s.setCore k (c.pay h.rid (wordVec v) none))
  | .cpGo ch rs td =>
    let x := c.channel ch
    if x.fp then some s
    else if 8 ≤ x.nests.length then none
    else
      let crc := if nestMode rs = 1 then (wfield (nestReg rs 5) 31 0) ^^^ 0xFFFFFFFF else 0
      let nest : Nest := { regs := rs, td := td, sup := h.sup, iter := 0, crc := crc, dead := false }
      some (s.setCore k (c.setChannel ch { x with nests := x.nests ++ [nest] }))
  | .cpSts ch => some (s.payStatus k h.rid (csts (c.channel ch)))
  | .sqPost q e refuse => some (payOf k h.rid (s.sqPost w q e refuse))
  | .sqCqack q n sqhd => some (payOf k h.rid (s.sqCqack w q n sqhd))
  | _ => none

/-- An operation that follows a pool operation or `xlwait` of its block is translated once more, as they have left its page
(08 R222, R224). One that no longer translates keeps the translation that it was checked with (log entry 96). -/
def State.retranslate (s : State) (k : Nat) (h : Held) : State × Held :=
  if !h.again then (s, h)
  else
    let w : Who := { s.who k with sup := h.sup }
    let ms := h.op.xlats.foldl (fun (m : MemSys) x => (translate m w x.va h.op.xkind).1) s.ms
    let now (x : Xlat) : Xlat := match (translate ms w x.va h.op.xkind).2 with | .ok y => y | .error _ => x
    ({ s with ms := ms }, { h with op := h.op.mapX now, again := false })

/-- EX7_COMMAND_FIRE (15 R361). Throttling holds it (20 R421). -/
def execEx7CommandFire (k : Nat) (s : State) : Out :=
  match (s.core k).exHead with
  | none => .next s
  | some h =>
    if s.pausedBy (clusterOf k) then .next s
    else
      let (t, h) := s.retranslate k h
      match fireEx (t.setCore k (t.core k).popEx) k h with
      | some t => .next (t.countBusy k 3)
      | none => .next s

/-- A tree update, performed at its home. -/
def treeFire (s : State) (k : Nat) (h : Held) : Option State :=
  match h.op with
  | .trst d sel pos new xs =>
    let w : Who := { s.who k with sup := h.sup }
    let t := treeDesc d
    let l := selLvl (BitVec.ofNat 64 sel)
    let p := posOf t pos
    match anyRemote xs with
    | some (dev, pa) => some (s.sendOrdered { s.unackedOf w dev pa 2 true none with tree := true } 0 none)
    | none =>
      let (s, n) := treeUpdateAt s w d l 2 (pathBlocks t l p) xs [(some p, new)]
      some (s.modCore k fun c => c.note n)
  | _ => none

/-- TREE_UPDATE (03 R73, R78): the head of the queue is a tree update. Throttling holds it (20 R421). -/
def execTreeUpdate (k : Nat) (s : State) : Out :=
  match (s.core k).exHead with
  | none => .next s
  | some h =>
    if s.pausedBy (clusterOf k) then .next s
    else
      let (t, h) := s.retranslate k h
      match treeFire (t.setCore k (t.core k).popEx) k h with
      | some t => .next (t.countBusy k 3)
      | none => .next s

/-- The faults that a drain of a channel delivers: its own, and a quay's, where they are recorded when it completes (R359,
R363). -/
def Core.drainFaults (c : Core) (ch : Nat) : List Nat :=
  (if (c.channel ch).fp then [ch] else []) ++ if c.cp.qflt.getLsbD 7 then [8] else []

/-- DRAIN_COMPLETE (15 R359): every earlier nest of the channel is drained. -/
def execDrainComplete (k : Nat) (s : State) : Out :=
  let c := s.core k
  match c.exHead with
  | none => .next s
  | some h =>
    match h.op with
    | .cpDrain ch =>
      if (c.channel ch).nests ≠ [] then .next s
      else
        let c := c.popEx.pay h.rid (wordVec (c.channel ch).cres) none
        .next (s.setCore k { c with cp := { c.cp with drained := c.cp.drained ++ c.drainFaults ch } })
    | _ => .next s

/-! ### Copies (15 R351 to R357) -/

/-- What a copy does: it waits, it faults, or it has been emitted. -/
inductive Emit where
  | wait
  | fault (s : State) (f : CopyFault)
  | done (s : State)

/-- A fault of a copy with no page level. -/
def plainFault (fc addr kind : Nat) : CopyFault := { fc := fc, addr := addr, kind := kind, lvl := 7, code := 0 }

/-- Read the source of a copy of `n` blocks: `none` while a quay is empty. A quay is not popped yet. -/
def copySource (s : State) (w : Who) (kind a n : Nat) : Option (State × Except CopyFault (List (Block × Bool))) :=
  let c := s.core w.core
  match kind with
  | 0 => some (State.copyReads w n a s)
  | 1 => some (s, if c.padOk a (64 * n) then .ok (c.padBlocks n a) else .error (plainFault 0x04 a 0))
  | _ =>
    let x := c.quay (a % 16)
    if !x.v || x.bytes != 64 * n then some (s.tick, .error (plainFault 0x05 (Config.faultAddr s.fresh).toNat 0))
    else if !x.canPop then none
    else some (s, .ok (c.padBlocks n (x.slotAt x.cc)))

/-- Pop the quay of a source. -/
def popSource (s : State) (k kind a : Nat) : State :=
  if kind = 2 then s.modCore k fun c => (c.popEntry (a % 16)).2 else s

/-- Whether a destination takes a copy now: `none` while a quay is full. -/
def destReady (s : State) (k kind a n : Nat) : Option (Option CopyFault) :=
  let c := s.core k
  match kind with
  | 1 => some (if c.padOk a (64 * n) then none else some (plainFault 0x04 a 1))
  | 2 =>
    let x := c.quay (a % 16)
    if !x.v || x.bytes != 64 * n then some (some (plainFault 0x05 (Config.faultAddr s.fresh).toNat 1))
    else if x.occupancy + x.coming.length < x.entries then some none else none
  | _ => some none

/-- The entry that a copy pushes takes its place in the quay; it is written and counted when it lands (R361). -/
def Core.beginPush (c : Core) (q ch : Nat) (bs : List (Block × Bool)) : Core :=
  c.setQuay q { c.quay q with coming := (c.quay q).coming ++ [(ch, bs)] }

/-- The oldest entry that is being written to a quay lands. -/
def Core.land (c : Core) (q : Nat) : Core :=
  match (c.quay q).coming with
  | [] => c
  | e :: es => (c.setQuay q { c.quay q with coming := es }).pushEntry q e.2

/-- Write the destination of a copy. -/
def copyDest (s : State) (w : Who) (ch kind a : Nat) (bs : List (Block × Bool)) : State × Option CopyFault :=
  match kind with
  | 0 => State.copyWrites w ch bs a s
  | 1 => (s.modCore w.core fun c => c.padPutBlocks bs a, none)
  | _ => (s.modCore w.core fun c => c.beginPush (a % 16) ch bs, none)

/-- The bytes of blocks in ascending order. -/
def blockBytes (bs : List (Block × Bool)) : List (BitVec 8) := (bs.map fun b => bytesOf b.1.toNat 64).flatten

/-- The FP32 codes of blocks in ascending order. -/
def blockWords (bs : List (Block × Bool)) : List Nat := (bs.map fun b => (upto 0 16).map fun i => field b.1.toNat (32 * i) 32).flatten

/-- Codes as blocks of 16. -/
def wordBlocks : Nat → List Nat → List (Block × Bool)
  | 0, _ => []
  | n + 1, l => (BitVec.ofNat 512 ((l.take 16).foldr (fun v a => v + a <<< 32) 0), false) :: wordBlocks n (l.drop 16)

/-- The poisoned block of a source that a copy consumes: its fault names the block's address (R358). -/
def poisonFault (s : State) (k sk sa : Nat) (bs : List (Block × Bool)) : Option CopyFault :=
  (bs.findIdx? Prod.snd).map fun i =>
    let a := if sk = 2 then ((s.core k).quay (sa % 16)).slotAt ((s.core k).quay (sa % 16)).cc else sa
    plainFault 0x09 ((a + 64 * i) % pow2 64) 0

/-- Deliver blocks to the destination of a copy, with the source's pop. -/
def finishCopy (s : State) (w : Who) (ch sk sa dk da : Nat) (bs : List (Block × Bool)) (more : State → State) : Emit :=
  match destReady s w.core dk da bs.length with
  | none => .wait
  | some (some f) => .fault s.tick f
  | some none =>
    match copyDest s w ch dk da bs with
    | (s, some f) => .fault s f
    | (s, none) => .done (more (popSource s w.core sk sa))

/-- The positions of the values of a tree copy from the word `a` on, and `none` for one at or beyond 2^l; nothing when the
word sets a reserved bit of R215. -/
def treeRow (t : TreeDesc) (l a n : Nat) : Option (List (Option Pos)) :=
  if !t.ar then some (rowLanes l { x := a, y := 0 } n)
  else if field a 32 32 ≠ 0 then none
  else if pow2 l ≤ field a 16 16 then some (List.replicate n none)
  else some (rowLanes l (posOf t a) n)

/-- The blocks of the paths of positions, each once. -/
def rowBlocks (t : TreeDesc) (l : Nat) (lanes : List (Option Pos)) : List Nat :=
  (lanes.filterMap id).foldl (fun a q => (pathBlocks t l q).foldl setInsert a) []

/-- Translate the blocks of a tree for a copy, with the placement rule for an update. -/
def treeXlats (s : State) (w : Who) (t : TreeDesc) (sel : Word) (nums : List Nat) (update : Bool) : State × Except CopyFault (List Xlat) :=
  let base := t.treeBase (selGx sel) (selGy sel)
  if (treeOperandBad .average t sel 0).isSome then (s, .error (plainFault 0x06 base (if update then 2 else 0)))
  else match translateAll w (if update then .atomic else .load) (nums.map fun b => (base + 64 * b) % pow2 64) s.ms with
  | (ms, .error f) => ({ s with ms := ms }, .error (f.copy (if update then 2 else 0)))
  | (ms, .ok xs) =>
    if update && !placementOk t base xs then ({ s with ms := ms }, .error (plainFault 0x06 base 2)) else ({ s with ms := ms }, .ok xs)

/-- The fault that a notice on the copy path stands for. -/
def Notice.copy (n : Notice) : CopyFault := { fc := if n.code = 0x70 then 0x09 else 0x02, addr := n.addr, kind := n.kind, lvl := 7, code := n.code }

/-- Mode 2, synthesis (R354). -/
def emitSynthesis (s : State) (w : Who) (ch : Nat) (n : Nest) : Emit :=
  let t := treeDesc n.td
  let sel := nestReg n.regs 5
  let l := selLvl sel
  let size := nestSize n.regs
  match treeRow t l n.src (size / 4) with
  | none => .fault s (plainFault 0x06 n.src 0)
  | some lanes =>
    let nums := rowBlocks t l lanes
    match treeXlats s w t sel nums false with
    | (s, .error f) => .fault s f
    | (s, .ok xs) =>
      let (s, blocks, bad) := vectorBlocks w true .read 4 xs s
      match bad with
      | some b => .fault s b.copy
      | none =>
        let bs : TreeBlocks := nums.zip blocks
        finishCopy s w ch 0 0 (nestDk n.regs) n.dst (wordBlocks (size / 64) (lanes.map (treeLane t bs l))) id

/-- Store averages into a tree as one update: at its home, or at the remote device that holds it. -/
def analyse (s : State) (w : Who) (ch : Nat) (td : BitVec 256) (l : Nat) (nums : List Nat) (xs : List Xlat) (vs : List (Option Pos × Nat)) :
    State × Option Notice :=
  match anyRemote xs with
  | some (dev, pa) => (s.sendUnordered w dev pa 4 false (some ch), none)
  | none => treeUpdateAt s w td l 4 nums xs vs

/-- Mode 3, analysis (R354). -/
def emitAnalysis (s : State) (w : Who) (ch : Nat) (n : Nest) : Emit :=
  let t := treeDesc n.td
  let sel := nestReg n.regs 5
  let l := selLvl sel
  let sk := nestSk n.regs
  let size := nestSize n.regs
  match copySource s w sk n.src (size / 64) with
  | none => .wait
  | some (s, .error f) => .fault s f
  | some (s, .ok src) =>
    match poisonFault s w.core sk n.src src, treeRow t l n.dst (size / 4) with
    | some f, _ => .fault s f
    | none, none => .fault s (plainFault 0x06 n.dst 2)
    | none, some lanes =>
      let nums := rowBlocks t l lanes
      match treeXlats s w t sel nums true with
      | (s, .error f) => .fault s f
      | (s, .ok xs) =>
        match analyse s w ch n.td l nums xs (lanes.zip (blockWords src)) with
        | (s, some b) => .fault s b.copy
        | (s, none) => .done (popSource s w.core sk n.src)

/-- The core on which the crew member of a rank runs; `none` when it has ended or yielded. -/
def crewCore (s : State) (k rank : Nat) : Option Nat :=
  match (s.core k).task with
  | some t =>
    match t.crew.bind s.crew with
    | some cr =>
      match cr.members.find? fun m => m.rank == rank && !m.ended with
      | some m => match (s.core m.core).task with
        | some u => if u.crew = t.crew ∧ u.rank = rank then some m.core else none
        | none => none
      | none => none
    | none => none
  | none => none

/-- A channel has read the next entry of a quay and does not pop it yet. -/
def Core.take (c : Core) (quay : Option Nat) (ch : Nat) : Core :=
  match quay with
  | some q => c.setQuay q { c.quay q with taking := some ch }
  | none => c

/-- Mode 4, add-on-write (R355): rows travel to their core. An entry of a quay is popped once they are applied, since a
copy of which a row faults performs no pop (R358). -/
def emitAddOn (s : State) (w : Who) (ch : Nat) (n : Nest) : Emit :=
  let aux := nestReg n.regs 5
  let sk := nestSk n.regs
  let da := n.dst
  match copySource s w sk n.src (nestSize n.regs / 64) with
  | none => .wait
  | some (s, .error f) => .fault s f
  | some (s, .ok src) =>
    let rows := nestSize n.regs / 384
    match crewCore s w.core (wfield aux 7 0), poisonFault s w.core sk n.src src with
    | none, _ => .fault s (plainFault 0x08 da 1)
    | _, some f => .fault s f
    | some dst, none =>
      if 96 < da + rows then .fault s (plainFault 0x08 da 1)
      else
        let ws := blockWords src
        let quay := if sk = 2 then some (n.src % 16) else none
        let row (i : Nat) : AddOnRow :=
          { src := w.core, ctx := (s.core w.core).ctx, ch := ch, copy := n.iter, quay := quay, tile := wfield aux 13 8, row := da + i, mask := wfield aux 63 32
            data := ((ws.drop (96 * i)).take 96).map (BitVec.ofNat 32) }
        let s := s.modCore dst fun c => { c with cp := { c.cp with addOn := c.cp.addOn ++ (upto 0 rows).map row } }
        .done (s.modCore w.core fun c => c.take quay ch)

/-- Tags as bytes, two in each. -/
def tagBytes : Nat → List Nat → List (BitVec 8)
  | 0, _ => []
  | n + 1, l => BitVec.ofNat 8 (l.getD 0 0 + 16 * l.getD 1 0) :: tagBytes n (l.drop 2)

/-- Bytes as blocks. -/
def bytesBlocks : Nat → List (BitVec 8) → List (Block × Bool)
  | 0, _ => []
  | n + 1, l => (BitVec.ofNat 512 (ofBytes (l.take 64)), false) :: bytesBlocks n (l.drop 64)

/-- Groups of four blocks. -/
def packsOf : Nat → List Block → List (List Block)
  | 0, _ => []
  | n + 1, l => l.take 4 :: packsOf n (l.drop 4)

def tagBlocks (n : Nat) : Nat := ((n + 1) / 2 + 63) / 64

/-- Change the nest at the head of a channel. -/
def Channel.modHead (x : Channel) (f : Nest → Nest) : Channel :=
  match x.nests with
  | n :: ns => { x with nests := f n :: ns }
  | [] => x

/-- Mode 5, pack-out (R357): the image's length waits for CRES until the nest is drained. -/
def emitPackOut (s : State) (w : Who) (ch : Nat) (n : Nest) : Emit :=
  let packs := (nestReg n.regs 5).toNat
  match State.copyReads w (4 * packs) n.src s with
  | (s, .error f) => .fault s f
  | (s, .ok src) =>
    match poisonFault s w.core 0 n.src src with
    | some f => .fault s f
    | none =>
      let bs := src.map Prod.fst
      let payload := bs.filter blockPresent
      let tags := (packsOf packs bs).map fun p => packTag p 0
      let head : Block := BitVec.ofNat 512 (packs + (64 * payload.length) <<< 32)
      let image := (head, false) :: bytesBlocks (tagBlocks packs) (tagBytes ((packs + 1) / 2) tags) ++ payload.map fun b => (b, false)
      match State.copyWrites w ch image n.dst s with
      | (s, some f) => .fault s f
      | (s, none) => .done (s.modCore w.core fun c => c.setChannel ch ((c.channel ch).modHead fun m => { m with crc := 64 * image.length }))

/-- The tag of pack i in the tag area. -/
def imageTag (area : List (Block × Bool)) (i : Nat) : Nat := field (area.getD (i / 128) (0, false)).1.toNat (4 * (i % 128)) 4

/-- The blocks of the packs of an image. -/
def unpackImage (area : List (Block × Bool)) : Nat → Nat → List (Block × Bool) → List (Block × Bool)
  | 0, _, _ => []
  | n + 1, i, payload =>
    let tag := imageTag area (i / 4)
    if tag.testBit (i % 4) then payload.headD (0, false) :: unpackImage area n (i + 1) (payload.drop 1)
    else (0, false) :: unpackImage area n (i + 1) payload

/-- Mode 6, pack-in (R357). -/
def emitPackIn (s : State) (w : Who) (ch : Nat) (n : Nest) : Emit :=
  let sa := n.src
  let packs := (nestReg n.regs 5).toNat
  match State.copyReads w (1 + tagBlocks packs) sa s with
  | (s, .error f) => .fault s f
  | (s, .ok hd) =>
    let head := (hd.headD (0, false)).1.toNat
    let area := hd.drop 1
    let present := (upto 0 packs).foldl (fun a i => a + popcount (imageTag area i) 4) 0
    if field head 0 32 ≠ packs ∨ field head 32 32 ≠ 64 * present then .fault s (plainFault 0x0A sa 0)
    else
      match State.copyReads w present ((sa + 64 * (1 + tagBlocks packs)) % pow2 64) s with
      | (s, .error f) => .fault s f
      | (s, .ok payload) =>
        match State.copyWrites w ch (unpackImage area (4 * packs) 0 payload) n.dst s with
        | (s, some f) => .fault s f
        | (s, none) => .done s

/-- The bytes of a CRC-32C copy are folded into the running nest (R353). -/
def Channel.fold (x : Channel) (bs : List (Block × Bool)) : Channel :=
  x.modHead fun n => { n with crc := crcRun n.crc (blockBytes bs), marks := n.marks ++ [(n.iter, n.crc)] }

/-- The next copy of a nest. -/
def emitCopy (s : State) (w : Who) (ch : Nat) (n : Nest) : Emit :=
  match nestMode n.regs with
  | 2 => emitSynthesis s w ch n
  | 3 => emitAnalysis s w ch n
  | 4 => emitAddOn s w ch n
  | 5 => emitPackOut s w ch n
  | 6 => emitPackIn s w ch n
  | m =>
    let sk := nestSk n.regs
    match copySource s w sk n.src (nestSize n.regs / 64) with
    | none => .wait
    | some (s, .error f) => .fault s f
    | some (s, .ok bs) =>
      match (if m = 1 then poisonFault s w.core sk n.src bs else none) with
      | some f => .fault s f
      | none =>
        finishCopy s w ch sk n.src (nestDk n.regs) n.dst bs fun s =>
          if m = 1 then s.modCore w.core fun c => c.setChannel ch ((c.channel ch).fold bs) else s

/-- Whether an entry that the channel pushes is still being written. -/
def Core.pushing (c : Core) (ch : Nat) : Bool := c.cp.quays.any fun e => e.2.coming.any fun p => p.1 == ch

/-- Whether copies that a channel has emitted are not yet performed: rows on their way, entries that are being written, and
writes that a remote home has not acknowledged (05 R146). -/
def rowsOut (s : State) (k ch : Nat) : Bool :=
  (s.core k).pushing ch ||
  s.cores.any (fun e => e.2.cp.addOn.any fun r => r.src == k && r.ch == ch) ||
  s.fab.unacked.any fun e => e.2.any fun u => u.core == k && u.ch == some ch

/-- What a drained nest leaves in CRES: its CRC, or the length of the image of a pack-out that has not faulted (R353, R357). -/
def Nest.result (n : Nest) : Option Word :=
  match nestMode n.regs with
  | 1 => some (BitVec.ofNat 64 (n.crc ^^^ 0xFFFFFFFF))
  | 5 => if n.dead then none else some (BitVec.ofNat 64 n.crc)
  | _ => none

/-- A drained nest leaves its channel, and gives CRES (R353). -/
def Channel.drainHead (x : Channel) : Channel :=
  match x.nests with
  | n :: ns => { x with nests := ns, cres := n.result.getD x.cres }
  | [] => x

/-- A nest faults at copy `i`: its CRC is that of the copies before it (R353). -/
def Nest.kill (n : Nest) (i : Nat) : Nest :=
  { n with dead := true, crc := ((n.marks.find? fun m => m.1 == i).map Prod.snd).getD n.crc }

/-- Record a fault of copy `i` of the running nest (R358): the rest of the nest and the nests behind it are discarded. A
fault that is recorded stays. -/
def Channel.fault (x : Channel) (f : CopyFault) (i : Nat) : Channel :=
  if x.fp then { x with nests := (x.nests.take 1).map fun n => { n with dead := true } }
  else { x with nests := (x.nests.take 1).map fun n => n.kill i, fp := true, fc := f.fc, faddr := f.addr, fkind := f.kind, flvl := f.lvl, iter := i }

/-- The running nest is drained once all its copies are emitted, or it has faulted, and they are performed (R347). -/
def State.drainNest (s : State) (k ch : Nat) : State :=
  if rowsOut s k ch then s else s.modCore k fun c => c.setChannel ch (c.channel ch).drainHead

/-- The oldest entry that a channel pushes lands, where it is the next of its quay. -/
def Core.landOf (c : Core) (ch : Nat) : Option Core :=
  ((upto 0 16).find? fun q => (c.quay q).coming.head?.any fun p => p.1 == ch).map c.land

/-- An entry of the channel lands. -/
def State.landPush (s : State) (k ch : Nat) : State :=
  match (s.core k).landOf ch with
  | some c => s.setCore k c
  | none => s

/-- NEST_COPY_EMIT (15 R351, R358): a copy is emitted, or an entry that a copy has pushed lands. Which comes first is free
(R361; log entry 127). Throttling holds the copies (20 R421). -/
def execNestCopyEmit (k ch : Nat) (s : State) : Out :=
  match ((s.core k).channel ch).nests with
  | [] => .next (s.landPush k ch)
  | n :: _ =>
    let done : Bool := n.dead || decide (nestTotal n.regs ≤ n.iter)
    if (s.core k).pushing ch && (done || Config.freeBit s.fresh) then .next (s.tick.landPush k ch)
    else if done then .next (s.drainNest k ch)
    else if s.pausedBy (clusterOf k) then .next (s.landPush k ch)
    else
      match emitCopy s { s.who k with sup := n.sup } ch n with
      | .wait => .next (s.landPush k ch)
      | .fault s f => .next ((s.modCore k fun c => c.setChannel ch ((c.channel ch).fault f n.iter)).drainNest k ch)
      | .done s =>
        let out := rowsOut s k ch
        let next (m : Nest) : Nest := { m with iter := m.iter + 1, marks := if out then m.marks else [] }
        let s := (s.modCore k fun c => c.setChannel ch ((c.channel ch).modHead next)).countBusy k 3
        .next (if nestTotal n.regs ≤ n.iter + 1 then s.drainNest k ch else s)

/-! ### Add-on-write rows at their destination (15 R355) -/

/-- Add a row into an accumulator tile. -/
def addRow (m : Matrix) (tile row : Nat) (xs : List (BitVec 32)) : Matrix :=
  let base := (96 * tile + row) * 96
  { m with acc := (xs.zip (upto base 96)).foldl (fun a e =>
      SMap.set 0 a e.2 (BitVec.ofNat 40 (a40Add (SMap.get 0 a e.2).toNat (widenA40 e.1.toNat)))) m.acc }

/-- Whether the task that a row was sent to still runs on core k: it is in the crew of the row's sender. -/
def rowWanted (s : State) (k : Nat) (r : AddOnRow) : Bool :=
  match (s.core k).task, (s.core r.src).task with
  | some t, some u => t.crew == u.crew && t.crew.isSome
  | _, _ => false

/-- The entry that the copy of a row takes is released, and with `pop` popped, if its channel still holds it. -/
def Core.untake (c : Core) (r : AddOnRow) (pop : Bool) : Core :=
  match r.quay with
  | none => c
  | some q =>
    if (c.quay q).taking ≠ some r.ch then c
    else
      let d := c.setQuay q { c.quay q with taking := none }
      if pop then (d.popEntry q).2 else d

/-- Whether `q` is a row of the copy of `r`. -/
def AddOnRow.mate (r q : AddOnRow) : Bool := q.src == r.src && q.ch == r.ch && q.copy == r.copy

/-- The copy of a row that has been applied pops its quay with its last row (R358). -/
def rowDone (s : State) (k : Nat) (r : AddOnRow) : State :=
  if (s.core k).cp.addOn.any r.mate then s else s.modCore r.src fun d => d.untake r true

/-- The rows on their way to a core without those that a fault of row `r` discards: the rest of its copy, and the copies
behind it (R358). -/
def Core.discardRows (c : Core) (r : AddOnRow) : Core :=
  { c with cp := { c.cp with addOn := c.cp.addOn.filter fun q => !(q.src == r.src && q.ch == r.ch && decide (r.copy ≤ q.copy)) } }

/-- A fault of a row of core k at the channel that sent it, if its task is there still. -/
def rowFault (s : State) (k : Nat) (r : AddOnRow) (fc : Nat) : State :=
  let s := s.modCore k fun d => d.discardRows r
  if (s.core r.src).task.isSome then
    s.modCore r.src fun d => (d.setChannel r.ch ((d.channel r.ch).fault (plainFault fc r.row 1) r.copy)).untake r false
  else s

/-- Whether a row is due in a matrix cycle: its mask has the bit, and no row has been applied to its bank group in it. -/
def Matrix.due (m : Matrix) (phase : Nat) (r : AddOnRow) : Bool :=
  r.mask.testBit (phase % 32) && !(phase == m.phase && m.applied.contains (r.tile % 8))

/-- A row uses the port of its bank group in a matrix cycle. -/
def Matrix.slotUsed (m : Matrix) (phase : Nat) (r : AddOnRow) : Matrix :=
  { m with phase := phase, applied := (if phase = m.phase then m.applied else []) ++ [r.tile % 8] }

/-- ADD_ON_ROW_APPLY (15 R355): a row whose destination has ended faults; else the first row that is due in the matrix cycle
`phase`, counted since the last step fired, is applied, one for a bank group. -/
def execAddOnRowApply (k phase : Nat) (s : State) : Out :=
  let c := s.core k
  let gone (r : AddOnRow) (m : Matrix) : Core := { c with cp := { c.cp with addOn := c.cp.addOn.erase r }, mx := m }
  match c.cp.addOn.find? fun r => !rowWanted s k r with
  | some r => .next (rowFault (s.setCore k (gone r c.mx)) k r 0x08)
  | none =>
    if phase < c.mx.phase then .next s
    else
      match c.cp.addOn.find? (c.mx.due phase) with
      | none => .next s
      | some r =>
        let clash : Bool := decide (20 ≤ phase) && decide (phase < 32) && c.mx.lastStep == some (r.tile % 8)
        let s := s.setCore k (gone r ((if clash then c.mx else addRow c.mx r.tile r.row r.data).slotUsed phase r))
        .next (if clash then rowFault s k r 0x07 else rowDone s k r)

/-- The first phase from now on in which a row that has arrived is due: every mask comes round within 32 cycles. -/
def Core.rowPhase (c : Core) : Nat :=
  ((upto c.mx.phase 33).find? fun p => c.cp.addOn.any (c.mx.due p)).getD c.mx.phase

/-- Whether a part of a core has work, be the core idle or not: its copy and record channels, and rows on their way. -/
def Core.partsBusy (c : Core) : Bool :=
  !c.cp.queue.isEmpty || c.cp.record.isSome || !c.cp.addOn.isEmpty || !c.mx.arriving.isEmpty || !c.mx.forwards.isEmpty

/-! ### The record channel (09 R231) -/

/-- Copy blocks one after another; `old` is the machine before the record, from which an overlapping block may still be
read. With a CRC a poisoned block faults (15 R353). -/
def recordBlocks (w : Who) (old : State) (overlap fold : Bool) : Nat → Nat → Nat → Nat → State → State × Except Nat Nat
  | 0, _, _, crc, s => (s, .ok crc)
  | n + 1, src, dst, crc, s =>
    match s.copyRead w src with
    | (s, .error f) => (s, .error f.code)
    | (s, .ok b) =>
      let b := if overlap && Config.overlapOld s.fresh then
          match old.copyRead w src with | (_, .ok o) => o | _ => b
        else b
      if fold && b.2 then (s, .error 0x70)
      else
        match s.tick.copyWrite w 8 dst b.1 b.2 with
        | (s, some f) => (s, .error f.code)
        | (s, none) => recordBlocks w old overlap fold n (src + 64) (dst + 64) (crcRun crc (bytesOf b.1.toNat 64)) s

/-- The record channel of core k completes its record with a status. -/
def State.endCopy (s : State) (k : Nat) (rc : RecordCopy) (sup : Bool) (status aux : Nat) : State :=
  completeRecord (s.modCore k fun c => { c with cp := { c.cp with record := none } }) k rc.ready sup status aux none

/-- Every block has been copied: the record completes once they are performed at device scope. -/
def State.settleCopy (s : State) (k : Nat) (rc : RecordCopy) : State :=
  if rowsOut s k 8 then s.modCore k fun c => { c with cp := { c.cp with record := some rc } }
  else s.endCopy k rc rc.sup 0 (if rc.mode = 1 then rc.crc else 0)

/-- COPY_RECORD_RUN (09 R231, R229): the record is read, performed and completed. -/
def execCopyRecordRun (k : Nat) (s : State) : Out :=
  match (s.core k).cp.record with
  | none => .next s
  | some rc =>
    if 0 < rc.doneBytes then .next (s.settleCopy k rc)
    else if s.pausedBy (clusterOf k) then .next s
    else
      let (s, w) := s.ctxWho k rc.ctx rc.creatorSup
      match recordRead s.ms w rc.addr false with
      | (ms, .error e) => .next ({ s with ms := ms }.endCopy k rc false 0x07 e)
      | (ms, .ok (x, r)) =>
        let s := { s with ms := ms }
        let sup := recSup r
        if recordBad (leafCoh x.leaf) r then .next (s.endCopy k rc sup 0x06 0)
        else if sup && !rc.creatorSup then .next (s.endCopy k rc sup 0x08 0)
        else
          let s := s.setStatus w rc.addr (linkWord 0 3)
          let src := recWord r 2
          let dst := recWord r 3
          let len := field (recWord r 4) 0 32
          let mode := field (recWord r 4) 32 2
          let overlap : Bool := decide (src < dst + len) && decide (dst < src + len)
          match recordBlocks { w with sup := sup, sched := false } s overlap (mode == 1) (len / 64) src dst 0xFFFFFFFF s with
          | (s, .error e) => .next (s.endCopy k rc sup 0x0B e)
          | (s, .ok v) =>
            .next (s.settleCopy k { rc with sup := sup, src := src, dst := dst, len := len, doneBytes := len, crc := v ^^^ 0xFFFFFFFF, mode := mode })

end Sys2Proof.Machine
end

