-- ==== Sys2Proof/Machine/Matrix.lean ====
section
/-!
DEFINITION. What the commands of the matrix engine do when they fire (13 R302 to R320), and the accumulate network
(14 R321 to R346).
-/

namespace Sys2Proof.Machine

/-! ### Conversions (R315 to R317) -/

/-- The elements of a segment of a row as FP32 codes, with their events. -/
def segmentFp32 (m : Matrix) (n r seg : Nat) (rtz : Bool) : List Nat × Ev :=
  (upto 0 32).foldl (fun (a : List Nat × Ev) j =>
    let x := roundTo (a40 (m.elem n r (32 * seg + j)).toNat) .fp32 rtz false
    (a.1 ++ [x.1], a.2.or x.2)) ([], {})

/-- The sticky events of MXST (R307). -/
def Matrix.raise (m : Matrix) (e : Ev) : Matrix :=
  { m with ev := { m.ev with nv := m.ev.nv || e.nv, sat := m.ev.sat || e.sat, ix := m.ev.ix || e.ix } }

/-- The scale of a block of a conversion (R317). -/
def convScale (f : Fmt) (auto : Bool) (sc : Nat) (vs : List Exact) : Nat :=
  if auto then
    let fs := vs.filter fun v => v.isFin && !v.isZero
    if fs = [] then 0x80 else fs.foldl (fun s v => max s (fitScale f v 255 1)) 1
  else if sc = 0 ∨ sc = 0xFF then 0x80 else sc

/-- A block of a conversion's row image, with its events. -/
def convBlock (tgt : Nat) (f : Fmt) (cls : Nat) (auto : Bool) (sc : Nat) (vs : List Exact) : Nat × Ev :=
  let s := convScale f auto sc vs
  (vs.zip (upto 0 vs.length)).foldl (fun (a : Nat × Ev) e =>
    let x := roundTo (e.1.shift (128 - (s : Int))) f false (widening .a40 f)
    (a.1 + x.1 <<< (16 + classBits cls * e.2), a.2.or x.2)) (tgt + s <<< 8, {})

/-- The blocks of a row image, one after another. -/
def convBlocks (tgt : Nat) (f : Fmt) (cls : Nat) (auto : Bool) (sc : Nat) : Nat → List Exact → Nat × Ev
  | 0, _ => (0, {})
  | n + 1, vs =>
    let x := convBlock tgt f cls auto sc (vs.take (classCap cls))
    let y := convBlocks tgt f cls auto sc n (vs.drop (classCap cls))
    (x.1 + y.1 * pow2 512, x.2.or y.2)

/-- A row image of a conversion, as a number of `targetRow` bytes (R316). -/
def rowImage (w : Word) (xs : List (BitVec 40)) : Nat × Ev :=
  let tgt := convTgt w
  if tgt = 0xF1 then (packA40 xs, {})
  else if tgt = 0xF0 then
    xs.foldr (fun x (a : Nat × Ev) =>
      let y := roundTo (a40 x.toNat) .fp32 (w.getLsbD 41) false
      (y.1 + a.1 <<< 32, a.2.or y.2)) (0, {})
  else
    match formatOf tgt with
    | some (f, cls) => convBlocks tgt f cls (w.getLsbD 40) (wfield w 39 32) (targetRow tgt / 64) (xs.map fun x => a40 x.toNat)
    | none => (0, {})

/-- The images of `rows` rows from row r on. -/
def rowImages (m : Matrix) (w : Word) : Nat → Nat → Nat × Ev
  | 0, _ => (0, {})
  | n + 1, r =>
    let x := rowImage w (m.accRow (wfield w 5 0) r)
    let y := rowImages m w n (r + 1)
    (x.1 + y.1 <<< (8 * targetRow (convTgt w)), x.2.or y.2)

/-! ### What a command does -/

/-- A command that is tried: it waits; it takes a tile fault; it goes on from another row or try; it is finished. -/
inductive MxTry where
  | wait
  | fault (s : State) (fc : Nat)
  | keep (s : State) (e : MxEntry)
  | done (s : State)

/-- Change the matrix engine of a core. -/
def State.modMx (s : State) (k : Nat) (f : Matrix → Matrix) : State := s.modCore k fun c => { c with mx := f c.mx }

/-- Deliver a result. -/
def State.payMx (s : State) (k : Nat) (e : MxEntry) (v : Vec) (bad : Bool) : State :=
  let n := if bad then some (poisonNotice e.word.toNat 0 8) else none
  s.modCore k fun c => (c.pay e.rid v n).note n

/-- MXST (R307). -/
def mxst (m : Matrix) : Nat :=
  m.rcor <<< 48 + m.runc <<< 32 + b2n m.ev.nv <<< 10 + b2n m.ev.sat <<< 9 + b2n m.ev.ix <<< 8 + b2n m.fp <<< 7 + m.fc % 128

/-- `rclr` (R320). -/
def Matrix.rclr (m : Matrix) (w : Nat) : Matrix :=
  { m with ev := { m.ev with nv := m.ev.nv && !bit w 10, sat := m.ev.sat && !bit w 9, ix := m.ev.ix && !bit w 8 }
           rcor := if bit w 0 then 0 else m.rcor, runc := if bit w 0 then 0 else m.runc }

/-- The checks of a pop of a quay for rows of `size` bytes from row r on (R310, R315), and the pop. -/
def popRows (s : State) (k q size r : Nat) (act : State → List (Block × Bool) → MxTry) : MxTry :=
  let c := s.core k
  let x := c.quay q
  if !x.v then .fault s 0x01
  else if x.bytes % size ≠ 0 ∨ 96 < r + x.bytes / size then .fault s 0x02
  else if c.feedFault q then .fault s 0x03
  else if !x.canPop then .wait
  else
    let (bs, c) := c.popEntry q
    act (s.setCore k c) bs

/-- The same checks for a push, and the push. -/
def pushRows (s : State) (k q size r : Nat) (act : Nat → MxTry) : MxTry :=
  let x := (s.core k).quay q
  if !x.v then .fault s 0x01
  else if x.bytes % size ≠ 0 ∨ 96 < r + x.bytes / size then .fault s 0x02
  else if x.canPush then act (x.bytes / size)
  else .wait

/-- `tld` (R310). -/
def mxTld (s : State) (k : Nat) (w : Word) : MxTry :=
  popRows s k (wfield w 3 0) 128 (wfield w 14 8) fun s bs =>
    .done (s.modMx k fun m => m.putHalves bs (tileKey (wfield w 6 4) (wfield w 14 8) 0))

/-- `tst` (R310). -/
def mxTst (s : State) (k : Nat) (w : Word) : MxTry :=
  pushRows s k (wfield w 3 0) 128 (wfield w 14 8) fun n =>
    .done (s.modCore k fun c => c.pushEntry (wfield w 3 0) (c.mx.halves (2 * n) (tileKey (wfield w 6 4) (wfield w 14 8) 0)))

/-- `aldq` (R315). -/
def mxAldq (s : State) (k : Nat) (w : Word) : MxTry :=
  popRows s k (wfield w 19 16) 480 (wfield w 14 8) fun t bs =>
    if bs.any Prod.snd then .fault s 0x05
    else
      let x := blocksNat bs
      .done (t.modMx k fun m => (upto 0 (64 * bs.length / 480)).foldl (fun m i =>
        m.putElems (wfield w 5 0) (wfield w 14 8 + i) 0 (unpackA40 (x >>> (3840 * i)))) m)

/-- `acvt` (R317). -/
def mxAcvt (s : State) (k : Nat) (w : Word) : MxTry :=
  let m := (s.core k).mx
  let size := targetRow (convTgt w)
  pushRows s k (wfield w 19 16) size (wfield w 14 8) fun n =>
    if m.rowsBad (wfield w 5 0) (wfield w 14 8) n then .fault s 0x05
    else
      let x := rowImages m w n (wfield w 14 8)
      .done ((s.modMx k fun m => m.raise x.2).modCore k fun c => c.pushEntry (wfield w 19 16) (natBlocks x.1 (size * n / 64)))

/-- `acvts` (R317). -/
def mxAcvts (s : State) (k : Nat) (w : Word) (off rows : Nat) : MxTry :=
  let m := (s.core k).mx
  if m.rowsBad (wfield w 5 0) (wfield w 14 8) rows then .fault s 0x05
  else
    let x := rowImages m w rows (wfield w 14 8)
    let n := targetRow (convTgt w) * rows
    let whole := n / 64
    .done ((s.modMx k fun m => m.raise x.2).modCore k fun c =>
      let c := c.padPutBlocks (natBlocks x.1 whole) off
      if n % 64 = 0 then c else c.padPut (off + 64 * whole) (n % 64) (x.1 >>> (512 * whole)) false)

/-- `ard` (R315). -/
def mxArd (s : State) (k : Nat) (e : MxEntry) (w : Word) : MxTry :=
  let m := (s.core k).mx
  let x := segmentFp32 m (wfield w 5 0) (wfield w 14 8) (wfield w 22 21) (w.getLsbD 20)
  .done ((s.modMx k fun m => m.raise x.2).payMx k e (laneVec x.1) (m.elemsBad (wfield w 5 0) (wfield w 14 8) (32 * wfield w 22 21) 32))

/-- `step` (R312, R319). -/
def mxStep (s : State) (k : Nat) (e : MxEntry) (sw shA shB : Word) : MxTry :=
  let m := (s.core k).mx
  if stepBad m sw shA shB then .fault s 0x05
  else if Config.freeBit s.fresh then
    .keep (s.tick.modMx k fun m => { m with rcor := min (m.rcor + 1) 65535 }) { e with retry := true }
  else .done (s.tick.modMx k fun m => m.step sw shA shB)

/-! ### Chains (14 R326, R333, R345) -/

/-- Reserve slots at the receiving hops in order: the state, or the hop that has none. -/
def reserveSlots (crew ch : Nat) : List (Nat × Nat) → State → Except Nat State
  | [], s => .ok s
  | (i, r) :: hs, s =>
    match s.memberCore crew r with
    | none => .error i
    | some d =>
      let l := s.recvOf d crew
      match l.findIdx? Option.isNone with
      | none => .error i
      | some j => reserveSlots crew ch hs (s.setRecv d crew (setAt l j (some { crew := crew, ch := ch, rows := [] })))

/-- `bchain`: the status. -/
def bchain (s : State) (crew : Nat) (w : Word) (ranks : List Nat) : State × Nat :=
  let ch := wfield w 2 0
  if (s.chain crew ch).isSome then (s, 2)
  else
    let x : Chain := { fan := w.getLsbD 3, ranks := ranks, broken := false, begun := [], ended := [] }
    match reserveSlots crew ch x.receivers s with
    | .error i => (s, 1 + 256 * i)
    | .ok s => (s.setChain crew ch (some x), 0)

/-- The flits and the forwarded rows of a chain are discarded. -/
def State.clearFlits (s : State) (crew ch : Nat) : State :=
  s.mapCores fun c => { c with mx := { c.mx with
    arriving := c.mx.arriving.filter fun f => !(f.crew == crew && f.ch == ch)
    forwards := c.mx.forwards.filter fun f => !(f.flit.crew == crew && f.flit.ch == ch) } }

/-- BNST (R345). -/
def bnst (m : Matrix) : Nat := m.crcr <<< 32 + m.crcf <<< 16 + (m.recv.filter Option.isSome).length <<< 8

/-! ### Which commands may fire (R305, R331) -/

/-- The chain and the tile of a pass. -/
def MxCmd.pass : MxCmd → Option Nat
  | .bsend w => some w
  | .bwait w => some w
  | _ => none

def passCh (w : Nat) : Nat := field w 0 3
def passCt (w : Nat) : Nat := field w 4 6

/-- What commands share, by number: quay q is q, scratchpad 16, sticky status 17, receive slots 18, chain ch is 24 + ch,
tile register n is 32 + n, accumulator tile n is 64 + n. -/
def resQuay (q : Nat) : Nat := q
def resPad : Nat := 16
def resStatus : Nat := 17
def resSlots : Nat := 18
def resChain (ch : Nat) : Nat := 24 + ch
def resTile (n : Nat) : Nat := 32 + n
def resAcc (n : Nat) : Nat := 64 + n

/-- What a command reads and does not change; a command that raises sticky status counts as a reader of it. -/
def MxCmd.reads : MxCmd → List Nat
  | .tst w => [resTile (field w 4 3)]
  | .trd w => [resTile (field w 4 3)]
  | .step w _ _ => [resTile (field w 8 3), resTile (field w 12 3), resStatus]
  | .ard w => [resAcc (field w 0 6), resStatus]
  | .acvt w => [resAcc (field w 0 6), resStatus]
  | .acvts w _ _ => [resAcc (field w 0 6), resStatus]
  | .bsts _ => [resSlots]
  | _ => []

/-- What a command changes; a pass has its tile to itself (R331). -/
def MxCmd.writes : MxCmd → List Nat
  | .tld w => [resQuay (field w 0 4), resTile (field w 4 3)]
  | .tldv _ w => [resTile (field w 4 3)]
  | .tst w => [resQuay (field w 0 4)]
  | .step w _ _ => [resAcc (field w 0 6)]
  | .azero w => (upto (field w 0 6) (field w 8 6 + 1)).map resAcc
  | .awr _ w => [resAcc (field w 0 6)]
  | .acvt w => [resQuay (field w 16 4)]
  | .acvts _ _ _ => [resPad]
  | .aldq w => [resQuay (field w 16 4), resAcc (field w 0 6)]
  | .rsts => [resStatus]
  | .rclr _ => [resStatus]
  | .bchain w _ => [resChain (field w 0 3), resSlots]
  | .bsend w => [resAcc (passCt w), resChain (passCh w)]
  | .bwait w => [resAcc (passCt w), resChain (passCh w)]
  | .bfree c => [resChain c, resSlots]
  | _ => []

/-- Whether a command would change what another has or leaves. -/
def MxCmd.conflicts (a b : MxCmd) : Bool :=
  a.writes.any (fun r => b.writes.contains r || b.reads.contains r) || a.reads.any b.writes.contains

/-- Whether a command must wait for one of those before it: passes, and commands that wait for them. -/
def MxCmd.blocked (cmd : MxCmd) (before : List MxEntry) : Bool := before.any fun e => e.cmd.conflicts cmd

/-! ### Rows and credit (14 R329, R330, R332, R343) -/

/-- Whether the position of a row at its receiver is taken: the row of the pass before it has not been consumed, and has
not been written into a spill frame (R330). -/
def State.rowTaken (s : State) (d crew ch row src : Nat) : Bool :=
  (s.core d).mx.arriving.any (fun r => r.crew == crew && r.ch == ch && r.row == row && r.src == src) ||
  (match slotOfChain (s.core d).mx.recv crew ch with
   | some (_, x) => [2 * row, 2 * row + 1].any fun p =>
       match SMap.get none x.rows p with | some h => h.srcs.testBit src | none => false
   | none => false)

/-- Put a row on its way as two flits. -/
def State.sendRow (s : State) (d : Nat) (f : Flit) (row : Nat) (data : List (BitVec 40)) : State :=
  let half (h : Nat) : Flit := { f with row := row, half := h, data := (data.drop (48 * h)).take 48 }
  s.modMx d fun m => { m with arriving := m.arriving ++ [half 0, half 1] }

/-- Take row r out of a receive slot. -/
def RecvSlot.take (x : RecvSlot) (r : Nat) : RecvSlot := { x with rows := (x.rows.erase (2 * r)).erase (2 * r + 1) }

/-- Element by element, one sum of two terms each (R329). -/
def addRows (y x : List (BitVec 40)) : List (BitVec 40) := (y.zip x).map fun e => BitVec.ofNat 40 (a40Add e.1.toNat e.2.toNat)

/-- Row r of a pass that a slot holds whole, from every source (R332): its elements and its poison. -/
def RecvSlot.row (x : RecvSlot) (chain : Chain) (pass r : Nat) : Option (List (BitVec 40) × Bool) :=
  let whole (h : SlotHalf) : Bool := h.pass == pass && popcount h.srcs 256 == (if chain.fan then chain.hops - 1 else 1)
  match SMap.get none x.rows (2 * r), SMap.get none x.rows (2 * r + 1) with
  | some a, some b => if whole a && whole b then some (a.data ++ b.data, a.bad || b.bad) else none
  | _, _ => none

/-! ### The end of a pass (14 R333, R337) -/

/-- The flits of a command on core k. -/
def MxEntry.flit (e : MxEntry) (k crew w : Nat) (fan : Bool) (pass : Nat) : Flit :=
  { crew := crew, ch := passCh w, pass := pass, row := 0, half := 0, fan := fan, src := k, word := e.word, blk := e.blk
    bundle := e.bundle, data := List.replicate 48 0, bad := false }

/-- A command that has fired is gone: its hop has ended the pass, whose rows it will not consume; with `forward` the rows
that it has not sent go on as poisoned rows. -/
def State.endPass (s : State) (k crew rank : Nat) (e : MxEntry) (forward : Bool) : State :=
  match e.cmd.pass, e.pass with
  | some w, some n =>
    match s.chain crew (passCh w) with
    | none => s
    | some x =>
      match x.hopOf rank with
      | none => s
      | some i =>
        let s := (s.setChain crew (passCh w) (some (x.finish i))).dropPass k crew (passCh w) n
        if forward && (x.next i).isSome then
          let f : Forward := { hop := i, row := e.row, flit := { e.flit k crew w x.fan n with bad := true } }
          s.modMx k fun m => { m with forwards := m.forwards ++ [f] }
        else s
  | _, _ => s

/-- The results of released commands that are discarded are not owed any more (R306). -/
def Core.forgiveAll (c : Core) (es : List MxEntry) : Core := es.foldl (fun c e => c.forgive e.rid) c

/-- The channel whose fault feeds the quay that a command pops. -/
def Core.poppedFeed (c : Core) : MxCmd → Option Nat
  | .tld w => some (c.quay (field w 0 4)).feed
  | .aldq w => some (c.quay (field w 16 4)).feed
  | _ => none

/-- Record a tile fault of the command `e`, at which `gone` are discarded, and leave `rest` in the queue (R306). A fault
that is recorded stays. -/
def Core.recordTile (c : Core) (e : MxEntry) (gone rest : List MxEntry) (fc : Nat) : Core :=
  let c := c.forgiveAll gone
  { c with mx := { c.mx with queue := rest
                             fp := true, fc := if c.mx.fp then c.mx.fc else fc
                             fword := if c.mx.fp then c.mx.fword else e.word
                             ffeed := if c.mx.fp then c.mx.ffeed else if fc = 0x03 then c.poppedFeed e.cmd else none } }

/-- A tile fault of the command `e` that stands between `before` and `after` in the queue of core k: it and the released
commands behind it are gone (R306), and the passes among them end (R337); an overflow sends nothing further (R341). -/
def State.tileFault (s : State) (k : Nat) (before : List MxEntry) (e : MxEntry) (after : List MxEntry) (fc : Nat) : State :=
  let gone := e :: after.filter fun x => x.released
  let s := s.modCore k fun c => c.recordTile e gone (before ++ after.filter fun x => !x.released) fc
  match (s.core k).crewRank with
  | some (crew, rank) => gone.foldl (fun s x => s.endPass k crew rank x (fc != 0x07 || x.bundle != e.bundle || x.blk != e.blk)) s
  | none => s

/-- The first of the rows that core k forwards, if its receiver has room for it; what no hop can receive is dropped. -/
def forwardFirst (k : Nat) : List Forward → List Forward → State → State
  | _, [], s => s
  | before, f :: fs, s =>
    let keep (s : State) (l : List Forward) : State := s.modMx k fun m => { m with forwards := before ++ l ++ fs }
    match (s.chain f.flit.crew f.flit.ch).bind fun x => (x.next f.hop).bind (s.memberCore f.flit.crew) with
    | none => keep s []
    | some d =>
      if s.rowTaken d f.flit.crew f.flit.ch f.row k then forwardFirst k (before ++ [f]) fs s
      else
        keep (s.sendRow d f.flit f.row (List.replicate 96 0)) (if f.row < 95 then [{ f with row := f.row + 1 }] else [])

/-! ### Passes (14 R328 to R332, R337) -/

/-- A command of a pass fires: its chain is set up and whole and its role is admitted, and it takes the number of its pass
(R327, R328). -/
def passBegin (s : State) (e : MxEntry) (w crew rank : Nat) (send : Bool) : MxTry :=
  match s.chain crew (passCh w) with
  | none => .fault s 0x06
  | some x =>
    match x.hopOf rank with
    | none => .fault s 0x06
    | some i =>
      let role := x.role i
      if x.broken || (role == .first || role == .middle || role == .source) != send then .fault s 0x06
      else .keep (s.setChain crew (passCh w) (some (x.begin i))) { e with pass := some (x.begun.getD i 0) }

/-- The next row of pass n at hop i of a chain. -/
def passRow (s : State) (k : Nat) (e : MxEntry) (w crew rank : Nat) (x : Chain) (i n : Nat) : MxTry :=
  let ct := passCt w
  let m := (s.core k).mx
  let dst := (x.next i).bind (s.memberCore crew)
  let full : Bool := match dst with | some d => s.rowTaken d crew (passCh w) e.row k | none => false
  let send (s : State) (data : List (BitVec 40)) : State :=
    match dst with
    | some d => s.sendRow d (e.flit k crew w x.fan n) e.row data
    | none => s
  let advance (s : State) : MxTry :=
    if e.row = 95 then .done (s.endPass k crew rank e false) else .keep s { e with row := e.row + 1 }
  let own := m.accRow ct e.row
  if full then .wait
  else if x.role i == .first || x.role i == .source then
    if m.rowsBad ct e.row 1 then .fault s 0x05 else advance (send s own)
  else
    match slotOfChain m.recv crew (passCh w) with
    | none => if x.broken then .fault s 0x06 else .wait
    | some (j, sl) =>
      match sl.row x n e.row with
      | none => if x.broken then .fault s 0x06 else .wait
      | some (data, bad) =>
        let s := s.modMx k fun m => { m with recv := setAt m.recv j (some (sl.take e.row)) }
        if bad || m.rowsBad ct e.row 1 then .fault s 0x05
        else advance (send (s.modMx k fun m => m.putElems ct e.row 0 (addRows own data)) (addRows own data))

/-- A pass goes on; one whose chain is gone takes its fault (R333). -/
def passStep (s : State) (k : Nat) (e : MxEntry) (w crew rank : Nat) (send : Bool) : MxTry :=
  match e.pass with
  | none => passBegin s e w crew rank send
  | some n =>
    match s.chain crew (passCh w) with
    | none => .fault s 0x06
    | some x => match x.hopOf rank with
      | none => .fault s 0x06
      | some i => passRow s k e w crew rank x i n

/-! ### Firing -/

/-- Try a command. -/
def tryMx (s : State) (k : Nat) (e : MxEntry) : MxTry :=
  let m := (s.core k).mx
  match e.cmd with
  | .tld w => mxTld s k (BitVec.ofNat 64 w)
  | .tldv v w =>
    .done (s.modMx k fun m => m.putHalves (vecBlocks v 2) (tileKey (field w 4 3) (field w 8 7) 0))
  | .tst w => mxTst s k (BitVec.ofNat 64 w)
  | .trd w =>
    let bs := m.halves 2 (tileKey (field w 4 3) (field w 8 7) 0)
    .done (s.payMx k e (BitVec.ofNat 1024 (blocksNat bs)) (bs.any Prod.snd))
  | .shset _ v => .done (s.payMx k e (wordVec v) false)
  | .shget _ v => .done (s.payMx k e (wordVec v) false)
  | .step w a b => if e.retry then .wait else mxStep s k e (BitVec.ofNat 64 w) a b
  | .azero w =>
    .done (s.modMx k fun m =>
      let lo := accKey (field w 0 6) 0 0
      let hi := accKey (field w 0 6 + field w 8 6 + 1) 0 0
      { m.accClean fun x => decide (lo ≤ x) && decide (x < hi) with acc := m.acc.filter fun x => decide (x.1 < lo) || decide (hi ≤ x.1) })
  | .ard w => mxArd s k e (BitVec.ofNat 64 w)
  | .awr v w =>
    .done (s.modMx k fun m => m.putElems (field w 0 6) (field w 8 7) (32 * field w 21 2)
      ((upto 0 32).map fun j => BitVec.ofNat 40 (widenA40 (field v.toNat (32 * j) 32))))
  | .acvt w => mxAcvt s k (BitVec.ofNat 64 w)
  | .acvts w off rows => mxAcvts s k (BitVec.ofNat 64 w) off rows
  | .aldq w => mxAldq s k (BitVec.ofNat 64 w)
  | .rsts => .done (s.payMx k e (BitVec.ofNat 1024 (mxst m)) false)
  | .rclr w => .done (s.modMx k fun m => m.rclr w)
  | .bchain w ranks =>
    match (s.core k).crewRank with
    | some (crew, _) =>
      let r := bchain s crew (BitVec.ofNat 64 w) ranks
      .done (r.1.payMx k e (BitVec.ofNat 1024 r.2) false)
    | none => .done (s.payMx k e 1 false)
  | .bsend w =>
    match (s.core k).crewRank with
    | some (crew, rank) => passStep s k e w crew rank true
    | none => .fault s 0x06
  | .bwait w =>
    match (s.core k).crewRank with
    | some (crew, rank) => passStep s k e w crew rank false
    | none => .fault s 0x06
  | .bfree ch =>
    match (s.core k).crewRank with
    | some (crew, _) =>
      match s.chain crew ch with
      | none => .done (s.payMx k e 1 false)
      | some x =>
        if x.inProgress then .wait
        else .done (((s.releaseSlots crew ch x.ranks).clearFlits crew ch |>.setChain crew ch none).payMx k e 0 false)
    | none => .done (s.payMx k e 1 false)
  | .bsts clr =>
    .done ((s.modMx k fun m => if clr then { m with crcr := 0, crcf := 0 } else m).payMx k e (BitVec.ofNat 1024 (bnst m)) false)

/-- Whether an operation before a command holds it back: a fence whose consumer mask names its path (05 R144), or a drain
(05 R146). -/
def Core.mxHeld (c : Core) (e : MxEntry) : Bool :=
  c.ctl.store.any (fun h => h.released && e.after h && match h.op with
    | .fence _ p q => p != 0 && q.testBit (if e.cmd.isBasin then 4 else 3)
    | _ => false) ||
  c.cp.queue.any fun h => h.op.isDrain && e.after h

/-- Try the commands in queue order. One that waits holds back every later one, but for a pass, which holds back those
that conflict with it, and they those that conflict with them (R305, R331). -/
def fireFrom (s : State) (k : Nat) : List MxEntry → List MxEntry → State
  | _, [] => s
  | before, e :: es =>
    if !e.released || (s.core k).mxHeld e then s
    else if e.cmd.blocked before then fireFrom s k (before ++ [e]) es
    else
      match tryMx s k e with
      | .wait => if e.cmd.pass.isSome then fireFrom s k (before ++ [e]) es else s
      | .fault t fc => t.tileFault k before e es fc
      | .keep t e' => (t.modMx k fun m => { m with queue := before ++ e' :: es }).countBusy k 2
      | .done t => (t.modMx k fun m => { m with queue := before ++ es }).countBusy k 2

/-- MATRIX_COMMAND_FIRE (R305): one command, or one row of a pass, and one row that a faulted pass forwards. Throttling holds
it (20 R421). -/
def execMatrixCommandFire (k : Nat) (s : State) : Out :=
  if s.pausedBy (clusterOf k) then .next s
  else
    let t := forwardFirst k [] (s.core k).mx.forwards s
    .next (fireFrom t k [] (t.core k).mx.queue)

/-- The command that waits for its second try, with what stands before and behind it. -/
def retrySplit : List MxEntry → List MxEntry → Option (List MxEntry × MxEntry × List MxEntry)
  | _, [] => none
  | before, e :: es => if e.retry then some (before, e, es) else retrySplit (before ++ [e]) es

/-- RESIDUE_RETRY (R319): the step is performed again from its captured inputs; a second mismatch is a machine check.
Throttling holds it (20 R421). -/
def execResidueRetry (k : Nat) (ok : Bool) (s : State) : Out :=
  match retrySplit [] (s.core k).mx.queue with
  | none => .next s
  | some (before, e, es) =>
    match e.cmd with
    | .step w a b =>
      if s.pausedBy (clusterOf k) then .next s
      else if ok then
        .next ((s.modMx k fun m => { m.step (BitVec.ofNat 64 w) a b with queue := before ++ es }).countBusy k 2)
      else
        .next ((s.modMx k fun m => { m with runc := min (m.runc + 1) 65535 }).tileFault k before e es 0x04)
    | _ => .next s

/-! ### Rows that arrive (14 R330, R332, R339, R341, R343, R344) -/

/-- Whether an entry is the command that sent a flit, or stands behind it in program order. -/
def MxEntry.sent (f : Flit) (e : MxEntry) : Bool := e.blk == f.blk && e.bundle == f.bundle
def MxEntry.behind (f : Flit) (e : MxEntry) : Bool := decide (f.blk < e.blk) || (e.blk == f.blk && decide (f.bundle < e.bundle))

/-- A tile fault of the command that sent a flit, on a core that holds its task: if the command has finished, the released
commands behind it are gone. Answers the core and what is gone. -/
def Core.senderFault (c : Core) (f : Flit) (fc : Nat) : Core × List MxEntry :=
  let out (e : MxEntry) : Bool := e.released && (e.sent f || e.behind f)
  let e : MxEntry :=
    { cmd := .rsts, word := f.word, bundle := f.bundle, blk := f.blk, rid := none, released := true, row := 0, retry := false, pass := none }
  (c.recordTile e (c.mx.queue.filter out) (c.mx.queue.filter fun x => !out x) fc, c.mx.queue.filter out)

/-- The passes that are gone end; the rows of the command at fault are not forwarded (R341). -/
def endPasses (k : Nat) (c : Core) (f : Flit) (gone : List MxEntry) (s : State) : State :=
  match c.crewRank with
  | some (crew, rank) => gone.foldl (fun s x => s.endPass k crew rank x (!x.sent f)) s
  | none => s

/-- A fault of the command that sent a flit: its task runs on the sending core, or stands in its frame. -/
def senderFault (s : State) (f : Flit) (fc : Nat) : State :=
  if (s.core f.src).inCrew f.crew then
    let r := (s.core f.src).senderFault f fc
    endPasses f.src r.1 f r.2 (s.setCore f.src r.1)
  else
    match s.snapAt f.src f.crew with
    | some (key, c) =>
      let r := c.senderFault f fc
      endPasses f.src r.1 f r.2 { s with sched := { s.sched with frames := SMap.set none s.sched.frames key (some r.1) } }
    | none => s

/-- What a position holds once a half row has been written or added into it. -/
def SlotHalf.add (f : Flit) : Option SlotHalf → SlotHalf
  | some h => { h with data := addRows h.data f.data, srcs := h.srcs ||| pow2 f.src, bad := h.bad || f.bad }
  | none =>
    { pass := f.pass, data := if f.fan then addRows (List.replicate 48 0) f.data else f.data, srcs := pow2 f.src, bad := f.bad }

/-- The position of a flit in a receive slot. -/
def Flit.pos (f : Flit) : Nat := 2 * f.row + f.half

def RecvSlot.put (x : RecvSlot) (f : Flit) : RecvSlot :=
  { x with rows := SMap.set none x.rows f.pos (some (SlotHalf.add f (SMap.get none x.rows f.pos))) }

/-- Half a row as it is written into a spill frame: it is not added (R339). -/
def Flit.spilled (f : Flit) : SlotHalf := { pass := f.pass, data := f.data, srcs := pow2 f.src, bad := f.bad }

/-- Whether a slot can take a flit now: the position is free, or holds the same fan-in row without this source. -/
def RecvSlot.takes (x : RecvSlot) (f : Flit) : Bool :=
  match SMap.get none x.rows f.pos with
  | some h => f.fan && h.pass == f.pass && !h.srcs.testBit f.src
  | none => true

/-- Write half a row into the frame of a hop that has yielded, or find the position taken (R339, R341). -/
def spillFlit (s : State) (k : Nat) (f : Flit) : State :=
  match s.snapAt k f.crew with
  | none => s
  | some (key, c) =>
    match slotOfChain c.mx.recv f.crew f.ch with
    | none => s
    | some (j, x) =>
      if (SMap.get none x.rows f.pos).isSome then senderFault (s.breakChain f.crew f.ch) f 0x07
      else
        let h := f.spilled
        let c := { c with mx := { c.mx with recv := setAt c.mx.recv j (some { x with rows := SMap.set none x.rows f.pos (some h) }) } }
        let s := { s with sched := { s.sched with frames := SMap.set none s.sched.frames key (some c) } }
        (frameBytes (key / 1024) k (key % 4) f.bad 6 (0x34D000 + 46080 * j + 240 * f.pos) 240 (packA40 h.data) s).1

/-- Whether no command will consume a flit at core k: its chain is gone, the pass has ended there, or the chain is broken
and no pass of it is in progress there (R334, R335, R337). -/
def State.stale (s : State) (k : Nat) (f : Flit) : Bool :=
  match s.chain f.crew f.ch with
  | none => true
  | some x => match s.hopAt f.crew x k with
    | none => true
    | some i => decide (f.pass < x.ended.getD i 0) || (x.broken && x.begun.getD i 0 == x.ended.getD i 0)

/-- The passes that the hop on core k has ended, if its task has yielded (R339, R341). -/
def State.yieldedHop (s : State) (k : Nat) (f : Flit) : Option Nat :=
  if (s.core k).inCrew f.crew then none
  else (s.chain f.crew f.ch).bind fun x => (s.hopAt f.crew x k).bind fun i => (s.snapAt k f.crew).map fun _ => x.ended.getD i 0

/-- Deliver a flit that has left the arriving ones of core k; `none` when its slot cannot take it yet. -/
def deliverFlit (s : State) (k : Nat) (f : Flit) : Option State :=
  match s.yieldedHop k f with
  | some n => some (if f.pass < n then s else spillFlit s k f)
  | none =>
  if s.stale k f then some s
  else
    match slotOfChain (s.core k).mx.recv f.crew f.ch with
    | some (j, x) => if x.takes f then some (s.modMx k fun m => { m with recv := setAt m.recv j (some (x.put f)) }) else none
    | none => some s

/-- Whether two flits come the same way, where they keep their order (R343). -/
def Flit.sameWay (a b : Flit) : Bool := a.crew == b.crew && a.ch == b.ch && a.src == b.src

/-- The first of the arriving flits that can be delivered. -/
def deliverFirst (s : State) (k : Nat) (retries : Nat) : List Flit → List Flit → State
  | _, [] => s
  | before, f :: fs =>
    let fail : Bool := decide (8 < retries)
    let t := s.modMx k fun m => { m with arriving := before ++ fs, crcr := min (m.crcr + min retries 8) 0xFFFFFFFF
                                         crcf := if fail then min (m.crcf + 1) 65535 else m.crcf }
    match if before.any f.sameWay then none else deliverFlit t k { f with bad := f.bad || fail } with
    | some t => t
    | none => deliverFirst s k retries (before ++ [f]) fs

/-- BASIN_ROW_ARRIVAL (R329, R343): a flit passes when it has been sent again `retries` times, up to 8; with more, 8 retries
have failed, and it is delivered poisoned (R344). -/
def execBasinRowArrival (k retries : Nat) (s : State) : Out := .next (deliverFirst s k retries [] (s.core k).mx.arriving)

/-- The pass of a broken chain that waits at core k for rows takes its fault. -/
def breakPass (crew ch : Nat) (x : Chain) (s : State) (k : Nat) : State :=
  let c := s.core k
  let waits (e : MxEntry) : Bool := e.released && e.pass.isSome && (match e.cmd.pass with | some w => passCh w == ch | none => false)
  let receives : Bool := match s.hopAt crew x k with | some i => x.role i == .middle || x.role i == .last || x.role i == .destination | none => false
  if !c.inCrew crew || !receives then s
  else
    match c.mx.queue.findIdx? waits with
    | some i =>
      match c.mx.queue.drop i with
      | e :: es => s.tileFault k (c.mx.queue.take i) e es 0x06
      | [] => s
    | none => s

/-- What the slots of the members of a crew hold of a broken chain is discarded; the rows in a spill frame stay (R341). -/
def State.dropChain (s : State) (crew ch : Nat) (x : Chain) : State :=
  x.ranks.foldl (fun s r => match s.memberCore crew r with
    | some k => if !(s.core k).inCrew crew then s else s.setRecv k crew ((s.recvOf k crew).map fun o => o.map fun y => if y.isOf crew ch then { y with rows := [] } else y)
    | none => s) s

/-- CHAIN_BROKEN (R335): the mark reaches the cores of the chain. -/
def execChainBroken (crew ch : Nat) (s : State) : Out :=
  match s.chain crew ch with
  | some x => if x.broken then .next (((s.cores.map Prod.fst).foldl (breakPass crew ch x) s).dropChain crew ch x) else .next s
  | none => .next s

end Sys2Proof.Machine
end

