-- ==== Sys2Proof/Machine/Block.lean ====
section
/-!
DEFINITION. Atomic blocks: fetch and legality at block entry (06 R171, R172, R181; 07 R199 to R202; 08 R205; 10 R262 to
R268), bundles, commit, and where recorded faults are delivered (18 R379).
-/

namespace Sys2Proof.Machine

/-! ### Fetching a block (06 R161, R181) -/

/-- A bundle as it was fetched; not `whole` if it extends to or beyond NPAR. -/
structure Fetched where
  bundle : Bundle
  whole : Bool
deriving DecidableEq, Repr

/-- The 64 bytes that a place outside the HBM apertures returns to a fetch (04 R91, 01 R10). -/
def State.ioBlock (s : State) (pa : Nat) : Nat :=
  match space pa with
  | .regs _ => s.regBytes pa 64
  | _ => freeBytes (Config.pcieRead s.fresh) pa 64

/-- `n` parcels from index i of the code object at `code`. -/
def fetchParcels (io : Nat → Nat) (w : Who) (code : Nat) : Nat → Nat → MemSys → MemSys × Except XFault (List Parcel)
  | 0, _, ms => (ms, .ok [])
  | n + 1, i, ms =>
    match fetchParcel io ms w ((code + 512 + 3 * i) % pow2 64) with
    | (ms, .error f) => (ms, .error f)
    | (ms, .ok p) =>
      match fetchParcels io w code n (i + 1) ms with
      | (ms, .error f) => (ms, .error f)
      | (ms, .ok ps) => (ms, .ok (p :: ps))

/-- The slots that a header marks present, in ascending order. -/
def headerSlots (h : Header) : List Slot := Sys2Proof.slots.filter fun sl => h.pres.getLsbD sl.num

/-- The parcels of a bundle behind its header. -/
def headerParcels (h : Header) : Nat := (headerSlots h).length + h.nli.toNat

/-- The bundle of a header and the parcels behind it. -/
def bundleOf (h : Header) (i : Nat) (ps : List Parcel) : Bundle :=
  { hdr := h, moves := (headerSlots h).zip ps, long := ps.drop (headerSlots h).length, index := i, stop := i + 1 + headerParcels h }

/-- The bundle whose header is parcel i. -/
def fetchBundle (io : Nat → Nat) (w : Who) (code npar i : Nat) (ms : MemSys) : MemSys × Except XFault Fetched :=
  if npar ≤ i then (ms, .ok { bundle := bundleOf (decodeHeader 0) i [], whole := false })
  else
    match fetchParcels io w code 1 i ms with
    | (ms, .error f) => (ms, .error f)
    | (ms, .ok hs) =>
      let h := decodeHeader (hs.headD 0)
      match fetchParcels io w code (min (headerParcels h) (npar - i - 1)) (i + 1) ms with
      | (ms, .error f) => (ms, .error f)
      | (ms, .ok ps) => (ms, .ok { bundle := bundleOf h i ps, whole := decide (i + headerParcels h < npar) })

/-- Bundles from index i up to one that `last` names, at most `n`; a bundle that is not whole ends them. -/
def fetchBundles (io : Nat → Nat) (w : Who) (code npar : Nat) (last : Bundle → Bool) : Nat → Nat → MemSys → MemSys × Except XFault (List Fetched)
  | 0, _, ms => (ms, .ok [])
  | n + 1, i, ms =>
    match fetchBundle io w code npar i ms with
    | (ms, .error f) => (ms, .error f)
    | (ms, .ok b) =>
      if !b.whole || last b.bundle then (ms, .ok [b])
      else
        match fetchBundles io w code npar last n b.bundle.stop ms with
        | (ms, .error f) => (ms, .error f)
        | (ms, .ok bs) => (ms, .ok (b :: bs))

/-! ### Legality (07 R199 to R201, 08 R205, 10 R266, 18 R382) -/

def moveGuarded (p : Parcel) : Bool := wfield p 23 19 != 0

def moveSrc (p : Parcel) : Option Src := decodeSrc (p.extractLsb' 9 10)

/-- An exit move (10 R262). -/
def isExitMove (m : Slot × Parcel) : Bool :=
  decide (m.1.num ≤ 2) && (match moveOp m.2 with | some op => decide (0xF0 ≤ op) | none => false)

/-- `move_legal` of R201. -/
def moveLegal (b : Bundle) (m : Slot × Parcel) : Bool :=
  parcelDefined m.1 m.2 &&
  (match moveSrc m.2 with
   | some (.long f) => decide (f.lastParcel < b.hdr.nli.toNat) &&
       (f != .w2w1w0 || wfield (b.long.getD 2 0) 23 16 == 0)
   | _ => true)

/-- The value of an immediate source. -/
def immediate (b : Bundle) (p : Parcel) : Option Word :=
  match moveSrc p with
  | some (.long f) => some (longValue b.long f)
  | some (.short i) => some (sextWord 9 i.toNat)
  | _ => none

/-- The static control word of an atomic (08 R210). -/
def atomicWordOk (op : Nat) (w : Word) : Bool :=
  let ord := wfield w 1 0
  wfield w 63 7 == 0 && decide (wfield w 6 4 ≤ 5) &&
  (if ord = 0 then wfield w 6 4 == 0 else w.getLsbD 2) &&
  (decide (op < 0x39) || w.getLsbD 2) && (op != 0x38 || !w.getLsbD 3)

/-- Whether the first operand of an `ls2` trigger meets R205. -/
def staticOk (b : Bundle) (op : Nat) (p : Parcel) : Bool :=
  let check (f : Word → Bool) : Bool := match immediate b p with | some w => f w | none => false
  if 0x30 ≤ op ∧ op ≤ 0x3A then check (atomicWordOk op)
  else if 0x50 ≤ op ∧ op ≤ 0x53 then check fun w => decide (w.toNat ≤ 5)
  else if op = 0x54 then check fun w => wfield w 63 23 == 0 && !w.getLsbD 15 && wfield w 7 3 == 0 && decide (wfield w 2 0 ≤ 5)
  else if op = 0x64 then check fun w => decide (w.toNat ≤ 3)
  else true

/-- Whether a trigger stands where it may: block-final operations, `ctl.loop` and the system operations that divert the
block stand in its exit bundle (05 R138, 10 R266, 18 R382). -/
def placeOk (b : Bundle) (m : Slot × Parcel) : Bool :=
  let alone : Bool := b.hdr.x && !b.moves.any isExitMove
  match m.1, moveOp m.2 with
  | .s0, some op =>
    if op = 0x08 ∨ (0x53 ≤ op ∧ op ≤ 0x56) then alone
    else if op = 0x52 then b.hdr.x else true
  | .s2, some op => if 0x50 ≤ op ∧ op ≤ 0x56 then b.hdr.x else true
  | _, _ => true

/-- Exit moves stand in an exit bundle, and the one in the highest slot is unguarded (06 R172). -/
def exitsOk (b : Bundle) : Bool :=
  match (b.moves.filter isExitMove).getLast? with
  | none => true
  | some m => b.hdr.x && !moveGuarded m.2

/-- The lane groups that a trigger claims (07 R199). -/
def laneGroups (m : Slot × Parcel) : Nat :=
  match m.1, moveOp m.2 with
  | .s3, some op | .s4, some op | .s5, some op =>
    match op / 64 with
    | 0 => 1
    | 1 => 2
    | 2 => 4
    | _ => 0
  | _, _ => 0

/-- The place that a move which is no trigger writes. -/
def moveLoc (m : Slot × Parcel) : Option Loc :=
  if 256 ≤ moveDst m.2 then none else (decodeDst m.1 (m.2.extractLsb' 0 8)).map fun d => (dstLoc m.1 d).1

/-- Whether a bundle is legal by itself. -/
def bundleLegal (f : Fetched) : Bool :=
  let b := f.bundle
  let rq := b.hdr.rq.toNat
  f.whole && rq != 7 && rq != 8 && rq != 15 &&
  b.moves.all (moveLegal b) && decide (b.moves.filterMap moveLoc).Nodup &&
  decide ((b.moves.map laneGroups).foldl (· + ·) 0 ≤ 8) && exitsOk b && b.moves.all (placeOk b) &&
  b.moves.all (fun m => match m.1, moveOp m.2 with | .s2, some op => staticOk b op m.2 | _, _ => true)

/-- The parcel index of the first illegal bundle of a block; `held` counts the held triggers before it, `n` the bundles
that may follow. -/
def firstIllegal : Nat → Nat → List Fetched → Option Nat
  | _, _, [] => none
  | n, held, f :: fs =>
    let held := held + (f.bundle.moves.filter isHeld).length
    if !bundleLegal f || decide (32 < held) || (n == 0 && !f.bundle.hdr.x) then some f.bundle.index
    else firstIllegal (n - 1) held fs

/-! ### Entering a bundle -/

/-- Whether a bundle issues under its replay qualifier (06 R162). -/
def Core.issues (c : Core) (b : Bundle) : Bool :=
  let rq := b.hdr.rq.toNat
  let li (l : Nat) : Nat := c.seq.li.getD l 0
  if rq = 0 then true
  else if rq ≤ 6 then decide (c.seq.lv ≤ rq - 1) || li (rq - 1) == 0
  else decide (c.seq.lv ≤ rq - 9) || decide (li (rq - 9) + 1 = (c.rd (.trip (rq - 9))).toNat)

/-- The moves of a bundle in the order in which they are performed: what writes registers and ports first, then the
triggers, which see the operand ports (06 R169). -/
def orderedMoves (b : Bundle) : List (Slot × Parcel) :=
  b.moves.filter (fun m => (moveOp m.2).isNone) ++ b.moves.filter fun m => (moveOp m.2).isSome

/-- Whether every result of every bundle before has landed, as STOP asks (06 R179); a held operation of the block has
no result before its commit. -/
def Core.allLanded (c : Core) : Bool := c.regs.pend.all fun p => p.landed || (p.later && p.blk == c.ctl.blk)

def Core.stopped (c : Core) (b : Bundle) : Bool := b.hdr.stop && !c.allLanded

/-- Take the next bundle. -/
def Core.enterBundle (c : Core) (b : Bundle) (rest : List Bundle) (bidx : Nat) : Core :=
  { c with ctl := { c.ctl with phase := .run, cur := b, bundles := rest, bidx := bidx, todo := if c.issues b then orderedMoves b else [] } }

/-! ### Recorded faults (18 R379) -/

/-- Where a recorded fault stands. -/
inductive Recorded where
  | notice (n : Notice) | tile | channel (ch : Nat) | quay
deriving DecidableEq, Repr

/-- Notices on the paths of a mask, the oldest first: machine checks, or denials. -/
def Core.noticesOn (c : Core) (mask : Nat) (mc : Bool) : List Recorded :=
  (c.notices.filter fun n => n.path &&& mask != 0 && (n.code != 0x0C) == mc).map .notice

def Core.faultedChannels (c : Core) (mc : Bool) : List Recorded :=
  ((upto 0 8).filter fun ch => (c.channel ch).fp && ((c.channel ch).fc == 0x09) == mc).map .channel

/-- Whether the recorded tile fault is a machine check. -/
def Matrix.mcFault (m : Matrix) : Bool := m.fp && (m.fc == 0x04 || m.fc == 0x05)

/-- The recorded fault that a delivery point takes: `mask` names the paths of the core's own accesses, `tl` the tile
path, and `chs` the channels (R379). -/
def Core.recorded (c : Core) (mask : Nat) (tl quay : Bool) (chs : Nat → Bool) : Option Recorded :=
  let named (l : List Recorded) : List Recorded := l.filter fun r => match r with | .channel ch => chs ch | _ => true
  (c.noticesOn mask true ++ (if tl && c.mx.mcFault then [Recorded.tile] else []) ++ named (c.faultedChannels true) ++
   (if tl && c.mx.fp then [Recorded.tile] else []) ++ named (c.faultedChannels false) ++
   (if quay && c.cp.qflt.getLsbD 7 then [Recorded.quay] else []) ++ c.noticesOn mask false).head?

/-- The channel whose fault made the recorded tile fault, or the recorded quay fault, a feed pop (15 R363). -/
def Core.tileFeed (c : Core) : Option Nat := if c.mx.fp && c.mx.fc == 0x03 then c.mx.ffeed else none
def Core.quayFeed (c : Core) : Option Nat := if c.cp.qflt.getLsbD 7 && c.cp.qflt.getLsbD 15 then c.cp.qfeed else none

/-- Clear what is delivered with a channel's fault: the tile fault and the quay fault that it fed. The nests released to the
channel before the delivery have been discarded (15 R358). -/
def Core.clearChannel (c : Core) (ch : Nat) : Core :=
  let mine (h : Held) : Bool := h.released && match h.op with | .cpGo n _ _ => n == ch | _ => false
  let c1 := { c with mx := { c.mx with fp := c.mx.fp && c.tileFeed != some ch }
                     cp := { c.cp with qflt := if c.quayFeed = some ch then c.cp.qflt &&& ~~~0x80 else c.cp.qflt
                                       queue := c.cp.queue.filter fun h => !mine h } }
  c1.setChannel ch { c1.channel ch with fp := false }

/-- Take a channel's fault. -/
def takeChannel (s : State) (k ch slot bidx : Nat) : State :=
  let x := (s.core k).channel ch
  takeFault (s.modCore k fun c => c.clearChannel ch) k
    { code := 0x40 + x.fc, addr := x.faddr, kind := x.fkind, lvl := x.flvl, slot := slot, ch := ch, bidx := bidx }

/-- Take a recorded fault in a slot and a bundle; a feed fault and its channel's are taken as the channel's. -/
def takeRecorded (s : State) (k : Nat) (r : Recorded) (slot bidx : Nat) : State :=
  let c := s.core k
  match r with
  | .notice n => takeNotice s k n slot bidx
  | .channel ch => takeChannel s k ch slot bidx
  | .tile =>
    match c.tileFeed.filter fun ch => (c.channel ch).fp with
    | some ch => takeChannel s k ch slot bidx
    | none =>
      takeFault (s.modMx k fun m => { m with fp := false }) k
        { code := 0x20 + c.mx.fc, addr := c.mx.fword.toNat, slot := slot, bidx := bidx }
  | .quay =>
    match c.quayFeed.filter fun ch => (c.channel ch).fp with
    | some ch => takeChannel s k ch slot bidx
    | none =>
      takeFault (s.tick.modCore k fun c => { c with cp := { c.cp with qflt := c.cp.qflt &&& ~~~0x80 } }) k
        { code := 0x65, addr := (Config.faultAddr s.fresh).toNat, slot := slot, ch := wfield c.cp.qflt 3 0, bidx := bidx }

/-! ### Block entry (06 R181, 10 R263) -/

/-- Whether bundles are taken from the replay buffer. -/
def Core.replaying (c : Core) : Bool := c.ranging && !c.seq.away

/-- Whether the replay buffer is to be filled again: the range was left to a handler or saved in a frame (18 R385, 07 R202). -/
def Core.rangeLost (c : Core) : Bool := c.replaying && c.seq.range.isEmpty

/-- Fill the replay buffer again. A bundle that reaches NPAR is not kept: its block is fetched, and checked, as it is entered
(06 R181, 07 R201). -/
def refillRange (s : State) (k : Nat) : State × Option XFault :=
  let c := s.core k
  if !c.rangeLost then (s, none)
  else
    match fetchBundles s.ioBlock (s.who k) c.code.addr c.code.npar (fun _ => false) c.seq.nb c.seq.rstart s.ms with
    | (ms, .error f) => ({ s with ms := ms }, some f)
    | (ms, .ok fs) =>
      let bs := (fs.takeWhile Fetched.whole).map Fetched.bundle
      ({ s with ms := ms }.modCore k fun c => { c with seq := { c.seq with range := bs } }, none)

/-- The bundles of the block at the head: from the replay buffer while a range is active (R267), and otherwise, or where the
buffer does not hold the block, from memory. -/
def blockBundles (s : State) (k : Nat) : MemSys × Except XFault (List Fetched) :=
  let c := s.core k
  let bs := if c.replaying then c.seq.range.dropWhile fun b => b.index != c.ctl.head else []
  if bs.any fun b => b.hdr.x then
    let n := (bs.takeWhile fun b => !b.hdr.x).length
    (s.ms, .ok ((bs.take (min 64 (n + 1))).map fun b => { bundle := b, whole := true }))
  else fetchBundles s.ioBlock (s.who k) c.code.addr c.code.npar (fun b => b.hdr.x) 64 c.ctl.head s.ms

/-- Whether a released drain has not completed: no access that follows it is performed (15 R359). -/
def Core.draining (c : Core) : Bool := c.cp.queue.any fun h => h.released && h.op.isDrain

/-- Whether a pre-emption is to be taken at this block head (18 R389, R391). -/
def Core.preemptHere (c : Core) : Bool := c.trap.preempt == .pending && !c.trap.tl

/-- The faults of drained channels, and of a quay, that the next block takes, in the order of R379 (R359, R363). -/
def Core.drainFault (c : Core) : Option Recorded :=
  if c.cp.drained = [] then none else c.recorded 0 false (c.cp.drained.contains 8) c.cp.drained.contains

/-- What is recorded and delivered at this block boundary: the fault of a drained channel or of a quay, and notices that
have reached the core; machine checks first (R39, R359, R363, R378, R379). -/
def Core.atBoundary (c : Core) : Option (Recorded × Nat) :=
  let notices (mc : Bool) : List (Recorded × Nat) := (c.notices.filter fun n => n.seen && (n.code != 0x0C) == mc).map fun n => (.notice n, 0)
  (notices true ++ (c.drainFault.map fun r => (r, 7)).toList ++ notices false).head?

/-- A fault in fetching a block (R181): KIND 3. -/
def fetchFault (s : State) (k : Nat) (f : XFault) : State :=
  takeFault s k { code := f.code, addr := f.addr, kind := 3, lvl := f.lvl }

/-- Enter the block at the head of core k. -/
def enterBlock (s : State) (k : Nat) : State :=
  let c := s.core k
  let met (s : State) : State := s.modCore k fun c => { c with cp := { c.cp with drained := [] } }
  if c.ctl.negative || decide (c.code.npar ≤ c.ctl.head) then takeFault (met s) k { code := 0x02, addr := c.ctl.cameFrom, kind := 3 }
  else
    match refillRange s k with
    | (t, some f) => fetchFault (met t) k f
    | (t, none) =>
      let (ms, r) := blockBundles t k
      let t := met { t with ms := ms }
      match r with
      | .error f => fetchFault t k f
      | .ok fs =>
        match firstIllegal 63 0 fs with
        | some i => takeFault t k { code := 0x01, addr := i }
        | none =>
          match c.atBoundary with
          | some (r, slot) => takeRecorded t k r slot 0
          | none =>
            match fs.map Fetched.bundle with
            | [] => t
            | b :: bs => if c.stopped b then s else t.modCore k fun c => c.enterBundle b bs 0

/-- BLOCK_ENTRY (R181). -/
def execBlockEntry (k : Nat) (s : State) : Out :=
  let c := s.core k
  if c.ctl.phase ≠ .head ∨ c.draining ∨ c.preemptHere ∨ (c.clk.entering && !s.clocksReady k) then .next s
  else .next (enterBlock (s.modCore k fun c => { c with clk := { c.clk with entering := false } }) k)

/-! ### Bundles (06 R179) -/

/-- BUNDLE_PASS (R179): every slot has passed the bundle, and the next one, or the commit, begins. -/
def execBundlePass (k : Nat) (s : State) : Out :=
  let c := s.core k
  if c.ctl.phase ≠ .run ∨ c.ctl.todo ≠ [] ∨ c.ctl.waiting.isSome then .next s
  else
    match c.ctl.deferred with
    | some (n, slot) => .next (takeNotice s k n slot c.ctl.bidx)
    | none =>
      match c.ctl.bundles with
      | [] => .next (s.setCore k { c with ctl := { c.ctl with phase := .commit } })
      | b :: bs =>
        let d := { c with ctl := { c.ctl with bcount := c.ctl.bcount + 1 } }
        if c.stopped b then .next s else .next (s.setCore k (d.enterBundle b bs (c.ctl.bidx + 1)))

/-- Whether the block cannot go on without a load that waits for its commit: its next move reads the load's result, a bundle
with STOP or `ctl.wait` waits for it, or no further load finds room (log entry 96). -/
def Core.wantsLoad (c : Core) : Bool :=
  c.ctl.phase == .run &&
  (c.ctl.waiting.isSome || !c.ldRoom ||
    match c.ctl.todo with
    | m :: _ => (match moveSrc m.2 with | some src => !c.srcReady m.1 src | none => false)
    | [] => c.ctl.bundles.head?.any fun b => b.hdr.stop)

/-- Perform a load that waits for the commit of its block, before it: of earlier stores of the block it observes those to its
bytes (05 R131). -/
def State.loadEarly (s : State) (k : Nat) (h : Held) : State :=
  match h.op with
  | .load n signed x =>
    let c := s.core k
    let (ms, g) := holeOr x (cachedLoad s.ms { s.who k with sup := h.sup } c.ways x x.pa n 1) s.ms
    let v := if x.hole then g.val else forward x.pa g.val (c.ctl.store.takeWhile fun e => e != h) n
    { s with ms := ms }.setCore k (({ c with ctl := { c.ctl with store := c.ctl.store.erase h } }.pay h.rid
      (wordVec (extend signed n v)) g.bad).note g.bad)
  | _ => s

/-- The load that owes a result and waits in the block store buffer. -/
def Core.waitingLoad (c : Core) (id : Nat) : Option Held := c.ctl.store.find? fun h => h.op.isLoad && h.rid == some id

/-- The notice that a result carries. -/
def Core.badOf (c : Core) (id : Nat) : Option Notice := (c.regs.pend.find? fun p => p.id == id).bind PWrite.bad

/-- The accesses that `p` names are acknowledged, in the order in which they were sent to each device; `late` are the devices
that an access before still waits for (22 R433). -/
def ackOrdered (p : Unacked → Bool) : List Nat → List Unacked → List Unacked
  | _, [] => []
  | late, u :: us =>
    if p u && !late.contains u.dev then ackOrdered p late us else u :: ackOrdered p (u.dev :: late) us

/-- What is left on a link of which `p` is acknowledged; nothing is, while it is paused (22 R435). -/
def State.ackLink (s : State) (p : Unacked → Bool) (link : Nat) (us : List Unacked) : List Unacked :=
  if link = unorderedLink then us.filter fun u => !p u
  else if SMap.get 0 s.fab.paused link ≠ 0 then us
  else ackOrdered p [] us

/-- The accesses that `p` names are acknowledged as far as their order lets them be, and the messages behind them leave. -/
def State.acked (s : State) (p : Unacked → Bool) : State :=
  State.flushHeld { s with fab := { s.fab with
    unacked := (s.fab.unacked.map fun (e : Nat × List Unacked) => (e.1, s.ackLink p e.1 e.2)).filter fun e => !e.2.isEmpty } }

/-- RESULT_LANDING (R177): the data of a load arrives, or a remote home acknowledges an ordered access and its result
arrives (05 R157); with the number 0, and no result of that number, the remote writes of the core are acknowledged, as far as
their order on the links lets them be (22 R433; log entry 33). -/
def execResultLanding (k id : Nat) (s : State) : Out :=
  let c := s.core k
  let result (u : Unacked) : Bool := u.core == k && u.rid == some id
  let write (u : Unacked) : Bool := u.core == k && u.rid.isNone
  let lands (t : State) : Bool := !t.fab.unacked.any fun e => e.2.any result
  if c.regs.pend.any fun p => p.id == id && p.load && !p.later && !p.landed then
    match c.waitingLoad id with
    | some h => .next (if !h.released && c.wantsLoad then s.loadEarly k h else s)
    | none => .next (s.setCore k { c with regs := c.regs.arrive id })
  else if !lands s then
    let t := s.acked result
    .next (if lands t then t.modCore k fun c => { c with regs := c.regs.arrive id }.note (c.badOf id) else s)
  else if id = 0 ∧ s.fab.unacked.any (fun e => e.2.any write) then .next (s.acked write)
  else .next s

/-! ### Notices that reach a core (01 R39, 18 R378) -/

/-- Mark the oldest notice of a code as having reached the core. -/
def seeFirst (code : Nat) : List Notice → List Notice
  | [] => []
  | n :: ns => if n.code = code ∧ !n.seen then { n with seen := true } :: ns else n :: seeFirst code ns

/-- DENIAL_NOTICE (R39). -/
def execDenialNotice (k : Nat) (s : State) : Out := .next (s.modCore k fun c => { c with notices := seeFirst 0x0C c.notices })

/-- POISON_NOTICE (R378). -/
def execPoisonNotice (k : Nat) (s : State) : Out := .next (s.modCore k fun c => { c with notices := seeFirst 0x70 c.notices })

/-! ### `ctl.wait` (10 R271) -/

/-- The paths that a wait names by the limits below 63: scalar and vector, copy, tile (R271, 05 R128). -/
def waitPaths (ld st cp tl : Nat) : Nat :=
  (if ld < 63 ∨ st < 63 then 3 else 0) + (if cp < 63 then 4 else 0) + (if tl < 63 then 8 else 0)

/-- WAIT_READY (R271). -/
def execWaitReady (k : Nat) (s : State) : Out :=
  let c := s.core k
  match c.ctl.waiting with
  | none => .next s
  | some w =>
    let ld := field w 0 6
    let st := field w 6 6
    let cp := field w 12 6
    let tl := field w 18 6
    let t := if st < 63 then performStores s k else s
    let d := t.core k
    if c.ctl.phase ≠ .run then .next s
    else if d.ld ≤ ld ∧ d.st + t.treesOut k ≤ st ∧ d.cpCount ≤ cp ∧ d.tl ≤ tl then
      let u := t.setCore k { d with ctl := { d.ctl with waiting := none } }
      match d.recorded (waitPaths ld st cp tl) (decide (tl < 63)) (decide (cp < 63)) (fun _ => decide (cp < 63)) with
      | some r => .next (takeRecorded u k r 0 d.ctl.bidx)
      | none => .next u
    else .next t

/-! ### Commit (06 R174, 10 R266 to R268) -/

/-- The range that `ctl.loop` of a block starts, checked: its bundles, a fetch fault, or an operand fault. -/
def fetchRange (s : State) (k n : Nat) : MemSys × Except XFault (Option (List Bundle)) :=
  let c := s.core k
  match fetchBundles s.ioBlock (s.who k) c.code.addr c.code.npar (fun _ => false) n c.ctl.cur.stop s.ms with
  | (ms, .error f) => (ms, .error f)
  | (ms, .ok fs) =>
    let bs := fs.map Fetched.bundle
    let long : Bool := (upto 0 bs.length).any fun i => decide (64 ≤ ((bs.drop i).takeWhile fun b => !b.hdr.x).length)
    let loop : Bool := bs.any fun b => b.moves.any fun m => m.1 == .s0 && moveOp m.2 == some 0x08
    let last : Bool := match bs.getLast? with | some b => b.hdr.x | none => false
    (ms, .ok (if fs.all Fetched.whole && last && !long && !loop then some bs else none))

/-- The sequencer at the start of a range (R266). -/
def startRange (lv nb qn start : Nat) (bs : List Bundle) : Seq :=
  { lv := lv, nb := nb, rstart := start, qn := qn, icount := 0, q := if 0 < qn then 1 else 0, range := bs }

/-- The sequencer with no range active. -/
def Seq.ended (q : Seq) : Seq := { q with lv := 0, li := [0, 0, 0, 0, 0, 0], q := 0 }

/-- Where the block goes: its next head, and the range that goes on, ends, or has ended an iteration (R267, R268). -/
def Core.leaveBlock (c : Core) : Core :=
  let stop := c.ctl.cur.stop
  let target := match c.ctl.exit with | some t => t | none => stop
  let away : Bool := target != stop || c.ctl.exitNeg
  let last : Bool := match c.seq.range.getLast? with | some b => b.index == c.ctl.cur.index | none => false
  let ctl := { c.ctl with head := target, negative := c.ctl.exitNeg, cameFrom := c.ctl.cur.index, exit := none, exitNeg := false
                          iterate := c.replaying && !away && last }
  { c with ctl := ctl, seq := if c.replaying && away then c.seq.ended else c.seq }

/-- A nest that pushes to a quay becomes its feed as it is released (15 R361). -/
def Core.feed (c : Core) (h : Held) : Core :=
  match h.op with
  | .cpGo ch rs _ =>
    if h.released || nestDk rs != 2 then c
    else c.setQuay ((nestReg rs 1).toNat % 16) { c.quay ((nestReg rs 1).toNat % 16) with feed := ch }
  | _ => c

/-- The held operations of the block are released, and its writes are architectural (R174). A matrix command released
while a tile fault waits for its delivery is discarded (13 R306). -/
def Core.release (c : Core) : Core :=
  let c := c.cp.queue.foldl Core.feed c
  let gone := if c.mx.fp then c.mx.queue.filter fun e => !e.released else []
  let c1 := c.forgiveAll gone
  let queue := if c1.mx.fp then c1.mx.queue.filter fun e => e.released else c1.mx.queue
  let m := c1.ctl.bcount + 1
  { c1 with
    regs := c1.regs.settle m
    mx := { c1.mx with queue := queue.map fun (e : MxEntry) => { e with released := true } }
    cp := { c1.cp with queue := c1.cp.queue.map fun (h : Held) => { h with released := true } }
    ctl := { c1.ctl with phase := .release, blk := c1.ctl.blk + 1, bcount := m, held := 0, bundles := [], todo := [], loop := none
                         store := c1.ctl.store.map fun (h : Held) => { h with released := true } } }

/-- Whether the block holds `ctl.done` or `ctl.join`. -/
def Core.endsTask (c : Core) : Bool := c.ctl.final.any fun o => match o with | .done => true | .join _ => true | _ => false

/-- The target of a `swsel` is chosen when its block commits (20 R413). -/
def HOp.chosen (plvl : Nat) : HOp → HOp
  | .swsel a b c => let t := match plvl with | 0 => a | 1 => b | _ => c
                    .swsel t t t
  | op => op

/-- The schedules that the block of core k chooses as it commits. -/
def State.chooseSchedules (s : State) (k : Nat) (c : Core) : Core :=
  { c with ctl := { c.ctl with store := c.ctl.store.map fun (h : Held) => { h with op := h.op.chosen (s.clusterPwr (clusterOf k)).plvl } } }

/-- Commit the block of core k. -/
def commitBlock (s : State) (k : Nat) : State :=
  let c := s.core k
  match (if c.endsTask then c.recorded 0 true true (fun _ => true) else none) with
  | some r => takeRecorded s k r 0 c.ctl.bidx
  | none =>
    match c.ctl.loop with
    | none => s.setCore k (s.chooseSchedules k c.leaveBlock.release)
    | some (w, qn) =>
      let nb := field w 3 7 + 1
      match fetchRange s k nb with
      | (ms, .error f) =>
        takeFault { s with ms := ms } k { code := f.code, addr := f.addr, kind := 3, lvl := f.lvl, bidx := c.ctl.bidx }
      | (ms, .ok none) => takeFault { s with ms := ms } k { code := 0x04, addr := w, bidx := c.ctl.bidx }
      | (ms, .ok (some bs)) =>
        let d := c.leaveBlock
        { s with ms := ms }.setCore k
          (s.chooseSchedules k { d with seq := startRange (field w 0 3) nb qn c.ctl.cur.stop bs }.release)

end Sys2Proof.Machine
end

