-- ==== Sys2Proof/Machine/Frame.lean ====
section
/-!
DEFINITION. Saving a task into a save frame and restoring it (18 R392 to R395; 14 R338 to R340; 05 R151).
-/

namespace Sys2Proof.Machine

/-! ### Blocks of a frame (R393) -/

/-- A block of a frame as it was read: one that is denied or cannot be corrected at its level is none. -/
def gotBlock (g : Got) : Option (Block × Bool) :=
  match g.bad with
  | none => some (BitVec.ofNat 512 g.val, false)
  | some n => if n.code = 0x70 then some (BitVec.ofNat 512 g.val, true) else none

/-- Read 64 bytes of a frame with the context's supervisor translation. -/
def State.frameRead (s : State) (ctx core f off : Nat) : State × Option (Block × Bool) :=
  thenSome (s.frameGet ctx core f off 64) fun s g => (s, gotBlock g)

/-- `n` blocks of a frame from an offset. -/
def frameReads (ctx core f : Nat) : Nat → Nat → State → State × Option (List (Block × Bool))
  | 0, _, s => (s, some [])
  | n + 1, off, s =>
    thenSome (s.frameRead ctx core f off) fun s b =>
      thenSome (frameReads ctx core f n (off + 64) s) fun s bs => (s, some (b :: bs))

/-- `n` bytes of a frame from an offset, as a number, and whether one of their blocks is poisoned. -/
def frameNumber (s : State) (ctx core f off n : Nat) : State × Option (Nat × Bool) :=
  thenSome (frameReads ctx core f ((off % 64 + n + 63) / 64) (off / 64 * 64) s) fun s bs =>
    (s, some (field (blocksNat bs) (8 * (off % 64)) (8 * n), bs.any Prod.snd))

/-- Write `n` blocks of a frame from an offset, block i being `get i`; false at the first that fails. -/
def saveBlocks (ctx core f : Nat) (get : Nat → Block × Bool) : Nat → Nat → Nat → State → State × Bool
  | 0, _, _, s => (s, true)
  | n + 1, i, off, s =>
    thenIf (s.frameWrite ctx core f off 64 (get i).1.toNat (get i).2) (saveBlocks ctx core f get n (i + 1) (off + 64))

/-! ### The parts of a frame -/

/-- Block i of the tile registers as they lie in a frame. -/
def tileBlock (m : Matrix) (i : Nat) : Block × Bool := (SMap.get 0 m.tiles i, m.tilePoison.contains i)

/-- Block i of the accumulator tiles as they lie in a frame: elements of 5 bytes one after another (02 R45). -/
def accBlock (m : Matrix) (i : Nat) : Block × Bool :=
  let e := 64 * i / 5
  let x := packA40 ((upto e 14).map fun j => SMap.get 0 m.acc j)
  (BitVec.ofNat 512 (x >>> (8 * (64 * i - 5 * e))), m.accPoison.any fun j => decide (e ≤ j) && decide (j ≤ (64 * i + 63) / 5))

/-- Block i of the scratchpad. -/
def padBlock (c : Core) (i : Nat) : Block × Bool := (BitVec.ofNat 512 (c.padBytes (64 * i) 64), c.scratchPoison.contains i)

/-- The half rows that the receive slots hold, with their places in the spill frames (14 R339). -/
def spillRows (m : Matrix) : List (Nat × Nat × Bool) :=
  (((upto 0 4).zip m.recv).map fun (e : Nat × Option RecvSlot) =>
    match e.2 with
    | some x => x.rows.filterMap fun r => r.2.map fun h => (46080 * e.1 + 240 * r.1, packA40 h.data, h.bad)
    | none => []).flatten

/-- Write half rows into the spill frames. -/
def saveRows (ctx core f : Nat) : List (Nat × Nat × Bool) → State → State × Bool
  | [], s => (s, true)
  | r :: rs, s => thenIf (frameBytes ctx core f r.2.2 6 (0x34D000 + r.1) 240 r.2.1 s) (saveRows ctx core f rs)

/-- Words 1 to 7 of a header (R394). -/
def headerWords (c : Core) (resume strm : Nat) : Nat :=
  ofWords [match c.task with | some t => t.trec | none => 0, b2n c.trap.sup + 2 * b2n c.trap.tl + pow2 32 * resume,
    c.trap.fcause.toNat, c.trap.faddr.toNat, c.trap.fpc.toNat, strm]

/-- What the opaque parts of a frame hold of a core: everything but what the core does at the moment, and its replay buffer,
which is fetched again (07 R202). -/
def Core.snapshot (c : Core) (parked : Bool) : Core :=
  { c with seq := { c.seq with away := false, range := [] }
           trap := { c.trap with preempt := .none }
           stOut := []
           mx := { c.mx with forwards := [] }
           ctl := { c.ctl with phase := if parked then .parked else .head
                               bundles := [], todo := [], exit := none, exitNeg := false, deferred := none, loop := none
                               waiting := none, final := [], store := [], held := 0, iterate := false } }

/-- The opaque parts of a frame, by their first blocks and their numbers of blocks: the rest of the header, the registers, and the
basin map (R393). -/
def opaqueParts : List (Nat × Nat) := [(0x40, 63), (0x1000, 256), (0x37A000, 64)]

/-- Write opaque parts: what their bytes are is free, and what they stand for is kept in `frames` (log entry 89). -/
def saveOpaque (ctx core f : Nat) : List (Nat × Nat) → State → State × Bool
  | [], s => (s, true)
  | p :: ps, s =>
    thenIf (saveBlocks ctx core f (fun i => (Config.frameBlock s.fresh i, false)) p.2 (p.1 / 64) p.1 s.tick) (saveOpaque ctx core f ps)

/-- Write every part of frame f for core k, whose contents are `c`; the save state last. -/
def saveParts (s : State) (c : Core) (t : Task) (k f fst resume : Nat) : State × Bool :=
  thenIf (saveOpaque t.ctx k f opaqueParts s) fun s =>
  thenIf (saveBlocks t.ctx k f (tileBlock c.mx) 1536 0 0x5000 s) fun s =>
  thenIf (saveBlocks t.ctx k f (accBlock c.mx) 46080 0 0x1D000 s) fun s =>
  thenIf (saveBlocks t.ctx k f (padBlock c) (512 * c.ways) 0 0x2ED000 s) fun s =>
  thenIf (saveRows t.ctx k f (spillRows c.mx) s) fun s =>
  thenIf (frameBytes t.ctx k f false 2 8 56 (headerWords c resume (t.owner.getD 0)) s) fun s =>
  (s.setFrame t.ctx k f (some (c.snapshot (fst == 2)))).setFst t.ctx k f fst

/-- Save the task of core k into frame f (R392, R151); false if a write faults or is denied. The core is not yet free. -/
def saveTask (s : State) (k f fst resume : Nat) : State × Bool :=
  let s := { s with ms := s.ms.completeFlush k }.settleStores k
  (s.core k).task.elim (s, false) fun t => saveParts s (s.core k) t k f fst resume

/-! ### Restoring (R395, 14 R340) -/

/-- Put blocks of the tile registers back. -/
def restoreTiles (m : Matrix) (bs : List (Block × Bool)) : Matrix := ({ m with tiles := [], tilePoison := [] } : Matrix).putHalves bs 0

/-- Put blocks of the accumulator tiles back: five blocks hold 64 elements. -/
def restoreAcc : Nat → Nat → List (Block × Bool) → Matrix → Matrix
  | 0, _, _, m => m
  | n + 1, i, bs, m =>
    let five := bs.take 5
    let x := blocksNat five
    let bad (e : Nat) : Bool := (five.getD (5 * e / 64) (0, false)).2 || (five.getD ((5 * e + 4) / 64) (0, false)).2
    let m1 := (upto 0 64).foldl (fun (m : Matrix) e =>
      { m with acc := SMap.set 0 m.acc (i + e) (BitVec.ofNat 40 (x >>> (40 * e)))
               accPoison := if bad e then setInsert m.accPoison (i + e) else m.accPoison }) m
    restoreAcc n (i + 64) (bs.drop 5) m1

/-- A half row as its place in a spill frame gives it back. -/
def SlotHalf.restore (h : SlotHalf) (p : Nat × Bool) : SlotHalf := { h with data := (unpackA40 p.1).take 48, bad := p.2 }

/-- Put the half rows of the spill frames back into the receive slots that hold their places. -/
def restoreRows (ctx core f j : Nat) : List (Nat × Option SlotHalf) → RecvSlot → State → State × Option RecvSlot
  | [], x, s => (s, some x)
  | r :: rs, x, s =>
    thenSome (frameNumber s ctx core f (0x34D000 + 46080 * j + 240 * r.1) 240) fun s p =>
      restoreRows ctx core f j rs { x with rows := SMap.set none x.rows r.1 (r.2.map fun h => h.restore p) } s

/-- Put the rows of one slot back, if it holds a receive. -/
def restoreSlot (ctx core f j : Nat) : Option RecvSlot → State → State × Option (Option RecvSlot)
  | none, s => (s, some none)
  | some x, s => thenSome (restoreRows ctx core f j x.rows x s) fun s x => (s, some (some x))

def restoreSlots (ctx core f : Nat) : Nat → List (Option RecvSlot) → State → State × Option (List (Option RecvSlot))
  | _, [], s => (s, some [])
  | j, o :: os, s =>
    thenSome (restoreSlot ctx core f j o s) fun s y =>
      thenSome (restoreSlots ctx core f (j + 1) os s) fun s ys => (s, some (y :: ys))

/-- Read opaque parts: whether a block of them is poisoned. -/
def readOpaque (ctx core f : Nat) : List (Nat × Nat) → State → State × Option Bool
  | [], s => (s, some false)
  | p :: ps, s =>
    thenSome (frameReads ctx core f p.2 p.1 s) fun s bs =>
      thenSome (readOpaque ctx core f ps s) fun s b => (s, some (b || bs.any Prod.snd))

/-- Poison that a restored state holds gives 0x71 at the first block that reads it (R393); of an opaque part, `bad`, at the first
block that is entered (log entry 89). -/
def Core.poisonRestored (c : Core) (bad : Bool) : Core :=
  let mark (n : Notice) : Notice := if n.code = 0x70 then { n with code := 0x71 } else n
  { c with mx := { c.mx with tileErr := c.mx.tilePoison, accErr := c.mx.accPoison }
           scratchErr := c.scratchPoison
           notices := if bad then { code := 0x71, addr := 0, kind := 0, path := 0, seen := true } :: c.notices else c.notices
           regs := { c.regs with pend := c.regs.pend.map fun p => { p with bad := p.bad.map mark } } }

/-- A core whose parts and header words are as they were read (R393, R394); FCAUSE and FPC have no reserved bits (R380). -/
def rebuilt (old : Core) (bad : Bool) (tiles acc pad : List (Block × Bool)) (recv : List (Option RecvSlot)) (h : Nat) : Core :=
  let wd (i : Nat) : Nat := field h (64 * i) 64
  let m := restoreAcc 9216 0 acc { restoreTiles old.mx tiles with acc := [], accPoison := [], recv := recv }
  let c := { old with mx := m, scratch := [], scratchPoison := [] }.padPutBlocks pad 0
  let trap := { c.trap with fcause := BitVec.ofNat 64 (wd 3 % pow2 23), faddr := BitVec.ofNat 64 (wd 4), fpc := BitVec.ofNat 64 (wd 5 % pow2 38)
                            tl := bit (wd 2) 1, sup := bit (wd 2) 0 }
  { c with trap := trap }.poisonRestored bad

/-- The core that frame f of a context on core k holds: its opaque parts, and the parts whose layout R393 gives, with the
header's registers, and RESUME; `none` if a read faults or is denied. -/
def restoredCore (s : State) (ctx k f : Nat) (old : Core) : State × Option (Core × Nat) :=
  thenSome (readOpaque ctx k f opaqueParts s) fun s bad =>
  thenSome (frameReads ctx k f 1536 0x5000 s) fun s tiles =>
  thenSome (frameReads ctx k f 46080 0x1D000 s) fun s acc =>
  thenSome (frameReads ctx k f (512 * old.ways) 0x2ED000 s) fun s pad =>
  thenSome (restoreSlots ctx k f 0 old.mx.recv s) fun s recv =>
  thenSome (frameReads ctx k f 1 0 s) fun s hs =>
  (s, some (rebuilt old bad tiles acc pad recv (blocksNat hs), field (blocksNat hs) 160 32))

/-- What a core keeps of itself when it takes a saved task: its caches' boundary, the header it last read, its clocks'
samples, its record channel, the rows on their way to it or forwarded by it, and its basin counters. -/
def Core.adopt (live saved : Core) : Core :=
  { saved with
    ways := live.ways
    hdr := live.hdr
    clk := { live.clk with d := saved.clk.d, vreq := saved.clk.vreq, waiting := [], entering := true }
    cp := { saved.cp with record := live.cp.record, addOn := live.cp.addOn }
    mx := { saved.mx with arriving := live.mx.arriving, forwards := live.mx.forwards, crcr := live.mx.crcr, crcf := live.mx.crcf } }

end Sys2Proof.Machine
end

