-- ==== Sys2Proof/Machine/Task.lean ====
section
/-!
DEFINITION. From commit to the next block, and the life of a task on its core: its start, barriers, its end, pre-emption,
parking and resumption (05 R147 to R151; 06 R173, R174, R183, R184; 09 R235, R251; 10 R267, R274 to R277; 18 R386 to R395).
-/

namespace Sys2Proof.Machine

/-! ### What ends or diverts a block once its held operations are performed -/

/-- Change where a core stands. -/
def State.modCtl (s : State) (k : Nat) (f : Control → Control) : State := s.modCore k fun c => { c with ctl := f c.ctl }

/-- The release of a crew barrier (05 R150). -/
def State.barrierRelease (s : State) (k : Nat) : State := { s with ms := s.ms.drainMerge k }.settleStores k

/-- The member on core k arrives at its crew's next barrier (10 R277). -/
def State.arrive (s : State) (k : Nat) : State :=
  let c := s.core k
  let s := s.modCore k fun c => { c with arrived := c.arrived + 1 }
  match c.crewRank with
  | some (id, r) =>
    s.modCrew id fun d => { d with members := d.members.map fun m => if m.rank = r then { m with arrived := m.arrived + 1 } else m }
  | none => s

/-- Whether the running task waits for others at a barrier: a task alone passes at once. -/
def Core.hasCrew (c : Core) : Bool := match c.task with | some t => t.crew.isSome && decide (1 < t.crewn) | none => false

/-- What the core does next once it reaches an operation that ends its block or leaves its task. -/
def HOp.endPhase : HOp → Option Phase
  | .done => some (.ending 0 0)
  | .join _ => some (.ending 0 0)
  | .park => some .parking
  | .yield a => some (.yielding a)
  | _ => none

/-- Where an operation that leaves a handler leaves the core; `none` for every other. -/
def leaves (s : State) (k : Nat) (h : HOp) : Option State :=
  match h with
  | .rfe => some (s.modCore k fun c => { c with ctl := { c.ctl with final := [] } }.rfe)
  | .abort => some (s.modCore k fun c => { c with ctl := { c.ctl with final := [] } }.abort (wfield c.trap.fcause 7 0))
  | _ => none

/-- Where an operation that takes or leaves a handler leaves the core; `none` for every other. -/
def diverts (s : State) (k : Nat) (h : HOp) : Option State :=
  match h with
  | .trap v => some (takeTrap (s.modCtl k fun l => { l with final := [], phase := .head }) k v 0 (s.core k).ctl.head)
  | _ => leaves s k h

/-- The block or the task ends in phase `p`. -/
def endsIn (s : State) (k : Nat) (h : HOp) (p : Phase) : State :=
  s.modCtl k fun l => { l with final := if p = .ending 0 0 then [h] else [], phase := p }

/-- Where the operation `h` that ends or diverts a block leaves the core; `none` if the block goes on. -/
def endsWith (s : State) (k : Nat) (h : HOp) : Option State := h.endPhase.elim (diverts s k h) fun p => some (endsIn s k h p)

/-- The operations that end or divert a block, in program order (10 R272; 18 R382). -/
def runFinals (s : State) (k : Nat) : List HOp → State
  | [] => s.modCtl k fun l => { l with final := [], phase := .head }
  | h :: rest => (endsWith s k h).getD (runFinals s k rest)

/-- Once the held operations of a committed block are performed, the core goes on. -/
def afterRelease (s : State) (k : Nat) : State :=
  let c := s.core k
  if c.ctl.phase ≠ .release ∨ c.ctl.store ≠ [] then s
  else if c.ctl.iterate then s.modCtl k fun l => { l with phase := .iter }
  else runFinals s k c.ctl.final

/-! ### Held operations are performed (06 R173) -/

/-- Atomics that return a result (05 R147). -/
def HOp.isReturning : HOp → Bool
  | .atomic _ cw _ _ _ => bit cw 2
  | _ => false

def HOp.isIcinv : HOp → Bool
  | .icinv _ _ => true
  | _ => false

/-- The operation at the head of the block store buffer is gone, and the core goes on. -/
def State.popStore (s : State) (k : Nat) : State := s.modCtl k fun l => { l with store := l.store.drop 1 }

/-- A crew barrier at the head of the buffer: the release, and the member arrives and waits; a task alone passes (10 R277). -/
def performBar (s : State) (k : Nat) : State :=
  let s := s.barrierRelease k
  if (s.core k).hasCrew then (s.arrive k).modCtl k fun l => { l with phase := .barrier } else afterRelease (s.popStore k) k

/-- An `ls2.xlwait` at the head of the buffer waits for the invalidations that have been issued, and for none that is issued
later (08 R224). -/
def Held.reached (h : Held) (n : Nat) : Held := if h.op = .xlwait none then { h with op := .xlwait (some n) } else h

/-- Perform the operation at the head of the block store buffer. -/
def performHead (s : State) (k : Nat) (p : HOp → Bool) : State :=
  match (s.core k).ctl.store with
  | h :: rest =>
    if h.released && p h.op && (s.core k).ctl.phase != .barrier && !(s.core k).waitsEx h then
      if h.op = .bar then performBar s k
      else
        let (s, h) := s.retranslate k (h.reached s.ms.nextInval)
        match performHeld (s.popStore k) k h with
        | some t => afterRelease t k
        | none => s.modCtl k fun l => { l with store := h :: rest }
    else s
  | [] => s

/-- ACCESS_AT_TARGET (01 R35): the next access of a committed block reaches its target; with none left the core goes on. -/
def execAccessAtTarget (k : Nat) (s : State) : Out :=
  .next (if (s.core k).ctl.store = [] then afterRelease s k else performHead s k fun o => !o.isReturning && !o.isIcinv)

/-- ATOMIC_AT_HOME (05 R147). -/
def execAtomicAtHome (k : Nat) (s : State) : Out := .next (performHead s k HOp.isReturning)

/-- The instruction-cache lines in a range go from every core, under any ASID (08 R225). -/
def MemSys.icInvalidate (ms : MemSys) (base len : Nat) : MemSys :=
  { ms with icache := dropFrom (fun (l : ILine) => !(decide (base < l.va + 64) && decide (l.va < base + len))) ms.icache }

/-- ICINV_COMPLETE (08 R225): every instruction cache has removed the lines. -/
def execIcinvComplete (k : Nat) (s : State) : Out :=
  match (s.core k).ctl.store with
  | h :: _ =>
    match h.op with
    | .icinv base len =>
      if !h.released || (s.core k).waitsEx h then .next s
      else .next (afterRelease ({ s with ms := s.ms.icInvalidate base len }.popStore k) k)
    | _ => .next s
  | [] => .next s

/-- Whether what the block must have before it commits has landed: loads that are not of cached memory (R174, item 3). -/
def Core.commitLanded (c : Core) : Bool := c.regs.pend.all fun p => p.landed || !p.early || p.blk != c.ctl.blk

/-- BLOCK_COMMIT (06 R174). -/
def execBlockCommit (k : Nat) (s : State) : Out :=
  if (s.core k).ctl.phase = .commit ∧ (s.core k).commitLanded then .next (afterRelease (commitBlock s k) k) else .next s

/-! ### Iterations (10 R267) -/

/-- The counts of the levels from l on; `false` when every level has completed. -/
def advanceLevels (c : Core) : Nat → Nat → List Nat → List Nat × Bool
  | 0, _, li => (li, false)
  | n + 1, l, li =>
    let v := li.getD l 0 + 1
    if v < (c.rd (.trip l)).toNat then (setAt li l v, true) else advanceLevels c n (l + 1) (setAt li l 0)

/-- `advance` of R267. -/
def Core.advance (c : Core) : Core :=
  let (li, on) := advanceLevels c c.seq.lv 0 c.seq.li
  if on then
    let i := (c.seq.icount + 1) % pow2 32
    { c with seq := { c.seq with li := li, icount := i, q := (c.seq.q <<< 1) ||| (if i < c.seq.qn then 1 else 0) }
             ctl := { c.ctl with head := c.seq.rstart, iterate := false } }
  else { c with seq := c.seq.ended, ctl := { c.ctl with iterate := false } }

/-- ITERATION_BOUNDARY (10 R267). -/
def execIterationBoundary (k : Nat) (s : State) : Out :=
  if (s.core k).ctl.phase = .iter then
    let s := s.modCore k Core.advance
    .next (runFinals s k (s.core k).ctl.final)
  else .next s

/-! ### The start of a task (09 R235, 06 R183) -/

/-- Crews of stream n that an entry of a ready list names. -/
def Ready.crewsOf (n : Nat) : Ready → Nat
  | .launch m crews => if m = n then crews.length else 0
  | .record _ => 0

/-- The crews of stream n leave a ready list and its cluster's share. -/
def dropReady (n : Nat) (s : State) (e : Nat × List Ready) : State :=
  let count := (e.2.map (Ready.crewsOf n)).foldl (· + ·) 0
  if count = 0 then s
  else (s.share n (e.1 / 8) (· - count)).setReady (e.1 / 8) (e.1 % 8) (e.2.filter fun r => r.crewsOf n == 0)

/-- A waiting crew of stream n leaves its cluster's share. -/
def dropCrew (n : Nat) (s : State) (c : Crew) : State :=
  if c.stream = n ∧ !c.admitted ∧ c.region.length = 8 then s.share n (c.region.headD 0 / 8) (· - c.size) else s

/-- A core on which a task of the launch of stream n has been placed and has not started is freed. -/
def dropPlaced (n : Nat) (s : State) (k : Nat) : State :=
  match (s.core k).task with
  | some t =>
    if t.owner = some n ∧ !t.record ∧ (s.core k).ctl.phase = .starting then
      ((s.share n t.origin (· - 1)).modCrew (t.crew.getD 0) fun d => { d with
        members := d.members.map fun m => if m.rank = t.rank then { m with ended := true } else m }).freeCore k
    else s
  | none => s

/-- A task whose header could not be used ends its launch: nothing of it starts any more (09 R239). -/
def dropLaunch (s : State) (n fc aux : Nat) : State :=
  let st := s.stream n
  let s := s.setStream n { st with flight := st.flight.map fun l => { l with fatal := l.fatal.orElse fun _ => some (fc, aux) } }
  let s := s.sched.crews.foldl (dropCrew n) (s.sched.ready.foldl (dropReady n) s)
  let s := { s with sched := { s.sched with crews := s.sched.crews.filter fun c => c.stream != n || c.admitted } }
  (upto 0 256).foldl (dropPlaced n) s

/-- What a core holds when its task passes its first bundle (R235): registers and ports read 0. -/
def Core.startTask (c : Core) (t : Task) (e : CtxEntry) (obj : CodeObj) (entry : Nat) : Core :=
  { c with
    regs := {}, seq := {}, trap := { ({} : Trap) with sup := t.sup, preempt := c.trap.preempt }, xroot := e.xroot, xrdt := e.xrdt, xpool := e.xpool
    code := obj, hdr := obj, task := some t, notices := [], arrived := 0, stOut := []
    ctl := { ({} : Control) with phase := .head, head := entry } }.freshClocks

/-- A record task that does not run completes with a status, in the mode of its record (R444). -/
def failRecord (s : State) (k : Nat) (t : Task) (status aux : Nat) : State :=
  (completeRecord (s.freeCore k) k t.ready t.sup status aux none)

/-- Why a task does not start: a status, its AUX, and the task with what its record has given. -/
structure NoStart where
  status : Nat
  aux : Nat
  task : Task
deriving DecidableEq, Repr

/-- The task's fields that its record gives; its status and AUX when it does not run (R229, R234). -/
def recordTask (s : State) (k : Nat) (t : Task) : State × Except NoStart (Task × Nat) :=
  let (s, w) := s.ctxWho k t.ctx t.creatorSup
  match recordRead s.ms w t.trec false with
  | (ms, .error e) => ({ s with ms := ms }, .error { status := 0x07, aux := e, task := t })
  | (ms, .ok (x, r)) =>
    let s := { s with ms := ms }
    let w4 := recWord r 4
    let t1 := { t with code := va56 (recWord r 2), sup := recSup r, rst := recRst r
                       tc := (field w4 0 16, field w4 16 16, field w4 32 16) }
    if recordBad (leafCoh x.leaf) r ∨ recKind r ≠ 1 then (s, .error { status := 0x06, aux := 0, task := t1 })
    else if recSup r && !t.creatorSup then (s, .error { status := 0x08, aux := 0, task := t1 })
    else (s, .ok (t1, field (recWord r 3) 32 32))

/-- Read the header of a task's code object, unless the core has just read it (06 R183). -/
def taskHeader (s : State) (k : Nat) (t : Task) : State × Except (Nat × Nat) CodeObj :=
  let old := (s.core k).hdr
  if old.addr = t.code ∧ old.ctx = t.ctx ∧ old.npar ≠ 0 then (s, .ok old)
  else
    let (s, w) := s.ctxWho k t.ctx t.sup
    match readHeader s.ms w t.code with
    | (ms, .error e) => ({ s with ms := ms }, .error (0x07, e))
    | (ms, .ok none) => ({ s with ms := ms }, .error (0x05, 0))
    | (ms, .ok (some o)) => ({ s with ms := ms }, .ok { o with ctx := t.ctx })

/-- Start a task whose fields are known. -/
def startTask (s : State) (k : Nat) (t : Task) (entry : Nat) : State :=
  match taskHeader s k t with
  | (s, .error (st, aux)) => if t.record then failRecord s k t st aux else dropLaunch s (t.owner.getD 0) st aux
  | (s, .ok obj) =>
    let (s, e) := s.readCtx t.ctx
    ((s.modCore k fun c => c.startTask t e obj entry).markRecord k (some t) 3).applyCore k

/-- TASK_START (09 R235). -/
def execTaskStart (k : Nat) (s : State) : Out :=
  let c := s.core k
  match c.task with
  | none => .next s
  | some t =>
    if c.ctl.phase ≠ .starting ∨ c.lastLaunch ≠ s.launchSerial t then .next s
    else if t.record then
      match recordTask s k t with
      | (s, .error f) => .next (failRecord s k f.task f.status f.aux)
      | (s, .ok (t, entry)) => .next (startTask s k t entry)
    else .next (startTask s k t c.ctl.head)

/-! ### The end of a task (05 R148, 10 R274, R275, 18 R386) -/

/-- Quay commands, which make no access of memory. -/
def HOp.isQuay : HOp → Bool
  | .qset .. | .qpush .. | .qpop .. | .qadv .. | .qsts .. => true
  | _ => false

/-- No channel of the core holds a nest. -/
def Core.noNests (c : Core) : Bool := c.cp.chans.all fun e => e.2.nests.isEmpty

/-- Whether an access of the task is not yet performed (R148, item 1). -/
def State.accessesLeft (s : State) (k : Nat) : Bool :=
  let c := s.core k
  !c.noNests || decide (c.tl ≠ 0) || c.cp.queue.any (fun h => !h.op.isQuay) || s.rowsOutstanding k || s.waitsRemote k

/-- A member of a crew has ended; the crew goes with its last member (R244). -/
def State.endInCrew (s : State) (t : Task) : State :=
  match t.crew with
  | none => s
  | some id =>
    let s := s.modCrew id fun d => { d with members := d.members.map fun m => if m.rank = t.rank then { m with ended := true } else m }
    { s with sched := { s.sched with crews := s.sched.crews.filter fun c => c.id != id || !c.members.all Member.ended } }

/-- The continuation that the ending names. -/
def Control.continuation (l : Control) : Option Nat := match l.final with | .join a :: _ => some a | _ => none

/-- RECORD_COMPLETE (05 R148): the ending task's accesses are performed, its core's lines are written back, and its
record, or its share of the launch, completes. -/
def execRecordComplete (k : Nat) (s : State) : Out :=
  let c := s.core k
  match c.ctl.phase, c.task with
  | .dying, some _ => .next (forcedKill s k)
  | .ending status aux, some t =>
    if s.accessesLeft k then .next s
    else
      let cont := c.ctl.continuation
      let s := (({ s with ms := s.ms.completeFlush k }.leaveChains t).endInCrew t).freeCore k
      .next (if t.record then completeRecord s k t.ready t.sup status aux cont else completeMember s k t status cont)
  | _, _ => .next s

/-! ### Crew barriers (10 R277) -/

/-- BARRIER_COMPLETE (10 R277): every member that has not ended has arrived. Members whose tasks are saved find it passed when they
resume. -/
def execBarrierComplete (crew : Nat) (s : State) : Out :=
  match s.crew crew with
  | none => .next s
  | some c =>
    if c.admitted && c.members.any (fun m => !m.ended) && c.members.all (fun m => m.ended || decide (c.released < m.arrived)) then
      let s := s.modCrew crew fun d => { d with released := d.released + 1 }
      .next ((c.members.filter fun m => !m.ended).foldl (fun s m =>
        if (s.core m.core).inCrew crew && (s.core m.core).ctl.phase == .barrier then
          afterRelease ((s.popStore m.core).modCtl m.core fun l => { l with phase := .release }) m.core
        else s) s)
    else .next s

/-! ### Pre-emption (06 R184, 18 R389, R391) -/

/-- The stub of a block head. -/
def CodeObj.stubFor (o : CodeObj) (h : Nat) : Option Nat :=
  match o.stubs.find? fun r => decide (r.1 ≤ h) && decide (h ≤ r.2.1) with
  | some r => some r.2.2
  | none => o.dstub

/-- What stands behind the barrier at which the task has arrived: the barrier and the rest of its block's operations, and the
commands of the queue from the first that waits for it on. -/
def Core.behindBar (c : Core) : Behind :=
  match c.ctl.phase, c.ctl.store with
  | .barrier, b :: _ => { store := c.ctl.store, ex := c.cp.queue.dropWhile fun h => !h.waitsFor b, final := c.ctl.final }
  | _, _ => {}

/-- A task at a barrier whose block ended an iteration stands at the boundary. -/
def Core.toBoundary (c : Core) : Core := if c.ctl.phase == .barrier && c.ctl.iterate then c.advance else c

/-- Divert fetch to the stub. -/
def Core.divert (c : Core) (f now stub : Nat) : Core :=
  { c with
    trap := { c.trap with preempt := .stub f now }
    seq := { c.seq with away := c.ranging }
    ctl := { c.ctl with phase := .head, head := stub, cameFrom := c.ctl.cameFrom, negative := false
                        behind := c.behindBar, store := [], final := [] }
    cp := { c.cp with queue := c.cp.queue.take (c.cp.queue.length - c.behindBar.ex.length) } }

/-- Save a task that is parked in place (R389), and free its core. -/
def saveParked (s : State) (k f : Nat) : State :=
  match saveTask s k f 2 (wfield (s.core k).trap.fpc 31 0) with
  | (s, true) => s.freeCore k
  | (s, false) => forcedKill s k

/-- Whether the pre-emption of a task is taken now: at a block head or at a barrier, or of a parked task, once the rows on
their way to it are applied (15 R356). -/
def Core.preemptNow (c : Core) : Bool :=
  c.trap.preempt == .pending &&
  match c.ctl.phase with
  | .parked => c.cp.addOn.isEmpty
  | .head => !c.trap.tl
  | .barrier => !c.trap.tl
  | _ => false

/-- PREEMPTION_TAKEN (R391): a frame is allocated, and fetch goes to the drain stub. -/
def execPreemptionTaken (k : Nat) (s : State) : Out :=
  let c := (s.core k).toBoundary
  let parked : Bool := c.ctl.phase == .parked
  if !c.preemptNow then .next s
  else
    match freeFrame s c.ctx k 4 0 with
    | (s, none) => .next (forcedKill s k)
    | (s, some f) =>
      match s.setFst c.ctx k f 3 with
      | (s, false) => .next (forcedKill s k)
      | (s, true) =>
        let s := (s.forsake c.ctx k f).setFrame c.ctx k f (some (c.snapshot parked))
        if parked then .next (saveParked s k f)
        else
          match c.code.stubFor c.ctl.head with
          | none => .next (forcedKill s k)
          | some h => .next (s.modCore k fun c => c.toBoundary.divert f s.now h)

/-- 40 microseconds. -/
def stubCycles : Nat := 128000

/-- Whether the stub has committed its `ctl.yield`. -/
def Core.yielded (c : Core) : Bool :=
  match c.ctl.phase with
  | .yielding _ => true
  | .release => c.ctl.final.any fun o => match o with | .yield _ => true | _ => false
  | _ => false

/-- STUB_TIMEOUT (R391). -/
def execStubTimeout (k : Nat) (s : State) : Out :=
  let c := s.core k
  match c.trap.preempt with
  | .stub _ since => if since + stubCycles ≤ s.now ∧ !c.yielded then .next (forcedKill s k) else .next s
  | _ => .next s

/-- Whether every released command of a queue is a pass that waits for rows, or stands behind one that does (R392). -/
def passesWait (s : State) (k : Nat) : List MxEntry → List MxEntry → Bool
  | _, [] => true
  | before, e :: es =>
    (!e.released || (e.cmd.pass.isSome && (e.cmd.blocked before || (match tryMx s k e with | .wait => true | _ => false)))) &&
    passesWait s k (before ++ [e]) es

/-- Whether no command of the matrix engine but such passes is released. -/
def onlyPasses (s : State) (k : Nat) : Bool := passesWait s k [] (s.core k).mx.queue

/-- What R392 and 15 R356 wait for before a task yields. -/
def State.drained (s : State) (k : Nat) : Bool :=
  let c := s.core k
  c.noNests && c.ld == 0 && c.st + s.treesOut k == 0 && onlyPasses s k && c.cp.addOn.isEmpty && !c.cp.queue.any (fun h => !h.op.isQuay) &&
  !s.waitsRemote k && c.clk.waiting.isEmpty

/-- YIELD_SAVE (R392, 05 R151). -/
def execYieldSave (k : Nat) (s : State) : Out :=
  let c := s.core k
  match c.ctl.phase, c.trap.preempt with
  | .yielding a, .stub f _ =>
    let s := performStores s k
    if s.drained k then
      match saveTask s k f 1 a with
      | (s, true) => .next (s.freeCore k)
      | (s, false) => .next (forcedKill s k)
    else .next s
  | _, _ => .next s

/-- The barriers of its crew that have completed. -/
def State.barriersOf (s : State) (c : Core) : Nat :=
  match c.crewRank.bind fun (p : Nat × Nat) => s.crew p.1 with
  | some c => c.released
  | none => 0

/-- What stood behind a barrier stands there again: the member still waits, or the barrier has passed. -/
def Core.putBack (c : Core) (waits : Bool) (b : Behind) : Core :=
  { c with cp := { c.cp with queue := c.cp.queue ++ b.ex }
           ctl := { c.ctl with store := if waits then b.store else b.store.drop 1, final := b.final
                               phase := if waits then .barrier else .release } }

/-- Where a restored task goes on: at RESUME, at a barrier that has not passed, or as `ctl.rfe` would (R387, R395). -/
def goOn (s : State) (k resume : Nat) (saved : Core) : State :=
  if saved.ctl.phase = .unparked then s.modCore k Core.rfe
  else
    let b := saved.ctl.behind
    let s := s.modCtl k fun l => { l with phase := .head, head := resume, cameFrom := 0, negative := false, behind := {} }
    if b.store = [] then s else s.modCore k fun c => c.putBack (decide (s.barriersOf saved < saved.arrived)) b

/-- FRAME_RESUME (R395). A core with a task parked in place is not idle: it takes nothing until that task leaves, whose own
resumption is `ctl.unpark`'s (R387; log entry 133). A frame that software has freed against R394 holds nothing more. -/
def execFrameResume (k : Nat) (s : State) : Out :=
  if !(s.core k).idle || !s.startsTasks then .next s
  else
    match resumable s k with
    | none => .next s
    | some (ctx, f, saved) =>
      let (s, fst) := s.fst ctx k f
      if fst.any (· != 1) then .next (s.setFrame ctx k f none)
      else
      let free (c : Crew) : Crew := if c.admitted then c else { c with held := c.held.filter (· != k) }
      let s := { s with sched := { s.sched with crews := s.sched.crews.map free } }
      let spw := match saved.task with | some t => t.spw | none => 0
      let s := moveWays s k spw
      let live := s.core k
      match thenSome (s, fst) (fun s _ => restoredCore s ctx k f { saved with ways := spw }) with
      | (s, none) => .next (forcedKill (s.setCore k (live.adopt saved)) k)
      | (s, some (c, resume)) =>
        let s := (s.setCore k (live.adopt c)).applyCore k
        let s := ((s.setFst ctx k f 0).1).setFrame ctx k f none
        .next (goOn s k resume saved)

/-- PARK_IN_PLACE (R387). -/
def execParkInPlace (k : Nat) (s : State) : Out :=
  let c := s.core k
  if c.ctl.phase = .parking ∧ c.noNests ∧ c.tl = 0 ∧ c.cp.queue = [] then
    .next ((s.modCtl k fun l => { l with phase := .parked }).markRecord k c.task 4)
  else .next s

end Sys2Proof.Machine
end

