-- ==== Sys2Proof/Machine/Memory.lean ====
section
/-!
DEFINITION. Events of the memory system: walks, invalidations, fills, packs, errors, and accesses of PCIe requesters and
remote devices (01 R25 to R41; 03 R84, R87; 04 R90 to R93, R116, R121 to R123, R443; 15 R368; 22 R432).
-/

namespace Sys2Proof.Machine

/-! ### The accesses that a core is about to make -/

/-- An access that a core or an engine of it is about to make. -/
structure Pending where
  va : Nat
  kind : XKind
  sup : Bool
deriving DecidableEq, Repr

/-- The accesses of a trigger of `ls2` with the first operand `v` (08 R208 to R222). -/
def scalarAccesses (c : Core) (op : Nat) (v : Word) : List (Nat × XKind) :=
  let o (n : Nat) : Nat := (c.portW .s2 n).toNat
  let ea := (v + c.portW .s2 0).toNat
  if op ≤ 0x06 ∨ (0x10 ≤ op ∧ op ≤ 0x13) then [(ea, .load)]
  else if 0x20 ≤ op ∧ op ≤ 0x23 then [(ea, .store)]
  else if 0x30 ≤ op ∧ op ≤ 0x3A then [(o 0, .atomic)]
  else if op = 0x50 ∨ op = 0x52 then [(o 0, .load)]
  else if op = 0x51 ∨ op = 0x53 then [(o 0, .store)]
  else if op = 0x55 ∨ op = 0x56 then [(o 1, .load)]
  else if op = 0x60 then [(v.toNat, .atomic), (o 0, .atomic)]
  else if op = 0x61 ∨ op = 0x62 then [(v.toNat, .atomic)]
  else []

/-- The accesses of a tree instruction: the blocks that it reads. -/
def treeAccesses (c : Core) (form : TreeForm) (kind : XKind) (v : Word) : List (Nat × XKind) :=
  let sel := c.portW .s7 1
  let t := treeDesc (tdWords (c.rd (.td (selTd sel))))
  if !tdValid (c.rd (.td (selTd sel))) || (treeOperandBad form t sel v).isSome then []
  else
    (treeBlockNums form t (selLvl sel) (posOf t v.toNat) (selSel sel)).map fun b =>
      ((t.treeBase (selGx sel) (selGy sel) + 64 * b) % pow2 64, kind)

/-- The accesses of a trigger of `ex7` with the first operand `v` (08 R212 to R218). -/
def vectorAccesses (c : Core) (op : Nat) (v : Word) : List (Nat × XKind) :=
  let o (n : Nat) : Nat := (c.portW .s7 n).toNat
  let ea := (v + c.portW .s7 1).toNat
  let elems (kind : XKind) : List (Nat × XKind) :=
    if (elementBad (c.portW .s7 2) (c.portW .s7 3) (kind == .store)).isSome then []
    else (elementBlocks v.toNat (o 1) (o 2) (o 3 % 4)).map fun a => (a, kind)
  if op ≤ 0x02 then [(ea, .load)]
  else if 0x10 ≤ op ∧ op ≤ 0x12 then [(ea, .store)]
  else if op = 0x08 then elems .load
  else if op = 0x18 then elems .store
  else if op = 0x20 ∨ op = 0x21 then treeAccesses c .average .load v
  else if op = 0x22 ∨ op = 0x23 then treeAccesses c .row .load v
  else if op = 0x24 ∨ op = 0x25 then treeAccesses c .detail .load v
  else if op = 0x28 then treeAccesses c .update .atomic v
  else if op = 0x30 then [(v.toNat, .load)]
  else []

/-- The accesses of the trigger of `ls2` or `ex7` that passes next. -/
def moveAccess (s : State) (k : Nat) : List Pending :=
  let c := s.core k
  match c.ctl.phase, c.ctl.todo with
  | .run, (sl, p) :: _ =>
    match decodeGuard (p.extractLsb' 19 5), moveSrc p, moveOp p with
    | some g, some src, some op =>
      if (sl == .s2 || sl == .s7) && c.guardReady g && c.guard g && c.srcReady sl src then
        let v : Word := (srcValue s k sl src).1.setWidth 64
        (if sl == .s2 then scalarAccesses c op v else vectorAccesses c op v).map fun a => { va := a.1, kind := a.2, sup := c.trap.sup }
      else []
    | _, _, _ => []
  | _, _ => []

/-- The fetch of the block at the head. -/
def fetchAccess (s : State) (k : Nat) : List Pending :=
  let c := s.core k
  if c.ctl.phase = .head ∧ !c.ctl.negative ∧ c.ctl.head < c.code.npar then
    [{ va := (c.code.addr + 512 + 3 * c.ctl.head) % pow2 64, kind := .fetch, sup := c.trap.sup }]
  else []

/-- The next copy of each channel. The accesses of the record channel and of the scheduler walk at once (log entry 3). -/
def copyAccesses (s : State) (k : Nat) : List Pending :=
  ((s.core k).cp.chans.map fun (e : Nat × Channel) =>
    match e.2.nests with
    | n :: _ =>
      if !n.dead && decide (n.iter < nestTotal n.regs) then
        (if nestSk n.regs = 0 then [{ va := n.src, kind := .load, sup := n.sup }] else []) ++
        (if nestDk n.regs = 0 && decide (nestMode n.regs ≤ 1) then [{ va := n.dst, kind := .store, sup := n.sup }] else [])
      else []
    | [] => []).flatten

def pendingAccesses (s : State) (k : Nat) : List Pending := fetchAccess s k ++ moveAccess s k ++ copyAccesses s k

/-! ### Walks (01 R18, R25, R27) -/

/-- Whether an access hits in the TLB of its core, and in that of its die. -/
def hitsOwn (ms : MemSys) (w : Who) (p : Pending) : Bool := (tlbOf ms w (p.kind == .fetch)).any fun e => e.hits w.asid p.va
def hitsDie (ms : MemSys) (w : Who) (p : Pending) : Bool := (SMap.get [] ms.tlb2 w.die).any fun e => e.hits w.asid p.va

/-- The accesses of the cores of a die that miss in their core's TLB, as misses. -/
def dieMisses (s : State) (die : Nat) : List Miss :=
  (upto (64 * die) 64).flatMap fun k =>
    ((pendingAccesses s k).filter fun p => (vaFault p.va p.sup).isNone && !hitsOwn s.ms { s.who k with sup := p.sup } p).map fun p =>
      { core := k, va := p.va, fetch := p.kind == .fetch, sup := p.sup, done := false, retryAt := none }

/-- Whether two misses are those of one access. -/
def Miss.same (a b : Miss) : Bool := a.core == b.core && a.va == b.va && a.fetch == b.fetch && a.sup == b.sup

/-- Misses that hold a walker or a place in the queue: 8 walks, and 64 that wait (R27). -/
def queuedMisses (l : List Miss) : List Miss := l.filter fun m => m.retryAt.isNone

/-- A miss arrives at the end of the queue, or, with the queue full, looks again after 64 cycles. -/
def enterMiss (now : Nat) (l : List Miss) (m : Miss) : List Miss :=
  if l.any m.same then l
  else l ++ [{ m with retryAt := if (queuedMisses l).length < 72 then none else some (now + 64) }]

/-- The misses of a die: those of accesses that are still to be made stay in their order, and new ones arrive. -/
def missesOf (s : State) (die : Nat) : List Miss :=
  let now := dieMisses s die
  now.foldl (enterMiss s.now) ((SMap.get [] s.ms.misses die).filter fun m => now.any m.same)

def Miss.who (s : State) (m : Miss) : Who := { s.who m.core with sup := m.sup }

/-- The misses of a die after one of them is resolved; one whose walk has ended in a fault stays, and the access takes it. -/
def setMisses (ms : MemSys) (die : Nat) (l : List Miss) : MemSys := { ms with misses := SMap.set [] ms.misses die l }

/-- Look a translation up for a miss: it leaves the queue with the TLBs filled, or its walk has faulted. -/
def resolveMiss (s : State) (die : Nat) (l : List Miss) (m : Miss) : State :=
  match lookupLeaf s.ms (m.who s) m.fetch m.va with
  | (ms, .ok _) => { s with ms := setMisses ms die (l.erase m) }
  | (ms, .error _) => { s with ms := setMisses ms die (l.map fun x => if x = m then { m with done := true } else x) }

/-- TABLE_WALK (01 R18, R27): misses arrive, and the first of the eight that have a walker is walked. An access that is made
before its turn walks at once: what it waits for is time (log entry 3). -/
def execTableWalk (die : Nat) (s : State) : Out :=
  let l := missesOf s die
  match ((queuedMisses l).take 8).find? fun m => !m.done with
  | some m => .next (resolveMiss s die l m)
  | none => .next { s with ms := setMisses s.ms die l }

/-- A miss that found the queue full looks in the level-2 TLB again: it is filled from there, or finds a place in the queue,
or waits for 64 cycles more (R27). -/
def retryMiss (s : State) (die : Nat) (l : List Miss) (m : Miss) : State :=
  if (SMap.get [] s.ms.tlb2 die).any fun e => e.hits (m.who s).asid m.va then resolveMiss s die l m
  else { s with ms := setMisses s.ms die (enterMiss s.now (l.erase m) m) }

/-- WALK_QUEUE_RETRY (01 R27). -/
def execWalkQueueRetry (die : Nat) (s : State) : Out :=
  let l := missesOf s die
  match l.find? fun m => match m.retryAt with | some t => decide (t ≤ s.now) | none => false with
  | some m => .next (retryMiss s die l m)
  | none => .next { s with ms := setMisses s.ms die l }

/-! ### Invalidations (01 R29 to R33) -/

/-- Whether an invalidation covers a translation that a core of the context of `w` has made. -/
def Inval.covers (i : Inval) (asid : Nat) (x : Xlat) : Bool :=
  i.matches { asid := asid, va := x.va / pageSize (leafSize x.leaf) * pageSize (leafSize x.leaf), size := leafSize x.leaf
              leaf := x.leaf, level := 0 }

/-- Whether a core holds an operation of a block up to `b` that an invalidation covers. -/
def State.holdsOld (s : State) (i : Inval) (k b : Nat) : Bool :=
  let c := s.core k
  (c.ctl.store ++ c.cp.queue ++ c.ctl.behind.store ++ c.ctl.behind.ex).any fun h =>
    decide (h.blk ≤ b) && h.op.xlats.any (i.covers (s.who k).asid)

/-- Whether the task of a frame of core k was pre-empted at a barrier with an operation behind it that an invalidation covers
(18 R391); its frames are those of keys 1024 CTX + 4 core + frame. -/
def State.savedOld (s : State) (i : Inval) (k : Nat) : Bool :=
  s.sched.frames.any fun e => e.1 / 4 % 256 == k && e.2.any fun c =>
    (c.ctl.behind.store ++ c.ctl.behind.ex).any fun h => h.op.xlats.any (i.covers { s.who k with xroot := c.xroot }.asid)

/-- The add-on-writes of core k that are on their way. -/
def State.rowsBy (s : State) (k : Nat) : List AddOnRow := s.cores.flatMap fun e => e.2.cp.addOn.filter fun r => r.src == k

/-- Whether core k, resumed, still holds what stood behind its barrier. -/
def State.resumedOld (s : State) (i : Inval) (k : Nat) : Bool :=
  let c := s.core k
  (c.ctl.store ++ c.cp.queue ++ c.ctl.behind.store ++ c.ctl.behind.ex).any fun h => h.op.xlats.any (i.covers (s.who k).asid)

/-- The accesses of core k that no remote home has acknowledged. -/
def State.unackedBy (s : State) (k : Nat) : List Unacked := s.fab.unacked.flatMap fun e => e.2.filter fun u => u.core == k

/-- A unit observes an invalidation: the frames of the leaves it removes, and the accesses of its core that are old (R31). -/
def observeUnit (s : State) (i : Inval) (u : Nat) : State :=
  let es := if u < 512 then SMap.get [] s.ms.tlb u else SMap.get [] s.ms.tlb2 (u - 512)
  let frames := (es.filter i.matches).flatMap s.ms.framesOf
  let b := (s.core u).ctl.blk
  let i1 := { i with seen := setInsert i.seen u, frames := (i.frames ++ frames).eraseDups
                     old := if u < 256 ∧ s.holdsOld i u b then i.old ++ [(u, b)] else i.old
                     remote := if u < 256 then i.remote ++ s.unackedBy u else i.remote
                     rows := if u < 256 then i.rows ++ s.rowsBy u else i.rows
                     saved := if u < 256 ∧ s.savedOld i u then i.saved ++ [u] else i.saved }
  let ms := s.ms.observe i u
  { s with ms := { ms with invals := ms.invals.map fun j => if j.id = i.id then i1 else j } }

/-- Whether an access that was old when its core observed an invalidation is not yet performed (R32, items 2 to 4). -/
def State.oldLeft (s : State) (i : Inval) : Bool :=
  i.old.any (fun o => s.holdsOld i o.1 o.2) || (i.remote.any fun u => s.fab.unacked.any fun e => e.2.contains u) ||
  (i.rows.any fun r => s.cores.any fun e => e.2.cp.addOn.contains r) || i.saved.any fun k => s.savedOld i k || s.resumedOld i k

/-- The units that observe: level-1 TLBs 0 to 255, instruction TLBs 256 to 511, and the dies' 512 to 515. -/
def unitCount : Nat := 516

/-- INVALIDATION_OBSERVED (01 R31). -/
def execInvalidationObserved (id unit : Nat) (s : State) : Out :=
  match s.ms.invals.find? fun i => i.id == id with
  | some i => if unit < unitCount ∧ !i.seen.contains unit then .next (observeUnit s i unit) else .next s
  | none => .next s

/-- INVALIDATION_COMPLETE (01 R32). -/
def execInvalidationComplete (id : Nat) (s : State) : Out :=
  match s.ms.invals.find? fun i => i.id == id with
  | some i =>
    if i.seen.length < unitCount || s.oldLeft i then .next s
    else
      let ms := s.ms.finishInval i.frames
      .next { s with ms := { ms with invals := ms.invals.filter fun j => j.id != id } }
  | none => .next s

/-! ### Pools, caches and packs -/

/-- COPY_ON_WRITE (04 R122 to R124): a write of the core that is about to be made is decided. The old block's count does not
fall yet, so that another write may be decided meanwhile, and copies too (R123). -/
def execCopyOnWrite (k va : Nat) (s : State) : Out :=
  match (pendingAccesses s k).find? fun p => p.va == va && (p.kind == .store || p.kind == .atomic) with
  | some p => .next { s with ms := (translateFor s.ms { s.who k with sup := p.sup } va p.kind).1 }
  | none => .next s

/-- ENTRY_INVALIDATION (04 R121). -/
def execEntryInvalidation (pa : Nat) (s : State) : Out := .next { s with ms := s.ms.entryInvalidate pa }

/-- L1_FILL (04 R93): a load that is about to be made has missed, and its line is filled. What the load replaces counts when
it is made (R442). -/
def execL1Fill (k va : Nat) (s : State) : Out :=
  match (moveAccess s k).find? fun p => p.va == va && p.kind == .load with
  | some p =>
    let w : Who := { s.who k with sup := p.sup }
    match translate s.ms w va .load with
    | (ms, .ok x) =>
      if x.dev.isSome || x.hole || !inAperture x.pa then .next { s with ms := ms }
      else
        match cachedLoad ms w (s.core k).ways x x.pa 1 1 with
        | (ms2, g) => .next { s with ms := if g.bad.isSome then ms else { ms2 with psub := ms.psub } }
    | (ms, .error _) => .next { s with ms := ms }
  | none => .next s

/-- PACK_WRITE (03 R84). -/
def execPackWrite (p : Nat) (s : State) : Out := .next { s with ms := s.ms.packWrite p }

/-! ### Errors (04 R90, R116; 03 R87) -/

/-- The number of a kind of unit. -/
def eccIndex : EccUnit → Nat
  | .hbmBlock => 0 | .packTag => 1 | .cleanCopy => 2 | .sreg => 3 | .vreg => 4 | .port => 5 | .tileRow => 6 | .accTile => 7
  | .scratchpad => 8 | .receiveBuffer => 9 | .predicate => 10 | .mask => 11 | .shape => 12 | .vt => 13 | .icache => 14 | .tlb => 15
  | .levelTwo => 16

/-- The unit that an error lies in: a stack, a TLB (the numbers of `MemSys.observe`), a level-2 slice, or a core. -/
def eccPlace (u : EccUnit) (n : Nat) : Nat :=
  match u with
  | .hbmBlock => 64 * n / 0x2000000000 % 16
  | .packTag => 256 * n / 0x2000000000 % 16
  | .tlb => n % 1024
  | .levelTwo => n % 128
  | _ => n % 256

/-- Count a corrected error. -/
def MemSys.countCorrected (ms : MemSys) (u : EccUnit) (n : Nat) : MemSys :=
  let key := 1024 * eccIndex u + eccPlace u n
  { ms with corrected := SMap.set 0 ms.corrected key (SMap.get 0 ms.corrected key + 1) }

/-- A register or port holds data with an uncorrectable error, which the next block that reads it finds (18 R378). -/
def Core.spoil (c : Core) (l : Loc) (v : Vec) : Core :=
  let p : PWrite :=
    { id := c.regs.nextId, key := c.key l, op := .put, val := v, trig := c.ctl.bcount, slot := 0, vis := c.ctl.bcount
      blk := 0, later := false, landed := true, load := false
      bad := some { code := 0x71, addr := 0, kind := 0, path := 0, seen := false } }
  { c with regs := { c.regs with pend := c.regs.pend ++ [p], nextId := c.regs.nextId + 1 } }

/-- The operand port or result port of a number. -/
def portLoc (i : Nat) : Loc := if i < 64 then .oport (i / 8) (i % 8) else .rport (i / 2 % 8) (i % 2 == 1)

/-- The half row at position p of receive slot j is poisoned. -/
def Matrix.spoilHalf (m : Matrix) (j p : Nat) : Matrix :=
  { m with recv := modAt m.recv j fun o => o.map fun (x : RecvSlot) =>
      { x with rows := SMap.set none x.rows p ((SMap.get none x.rows p).map fun h => { h with bad := true }) } }

/-- An uncorrectable error in a core's unit, at index i. -/
def Core.uncorrectable (c : Core) (u : EccUnit) (i : Nat) (v : Vec) : Core :=
  match u with
  | .sreg => c.spoil (.sreg (decide (32 ≤ i)) (i % 32)) (v.setWidth 64 |>.setWidth 1024)
  | .vreg => c.spoil (.vreg (decide (16 ≤ i)) (i % 16)) v
  | .port => c.spoil (portLoc i) v
  | .predicate => c.spoil (.pred (i % 8)) (v.setWidth 1 |>.setWidth 1024)
  | .mask => c.spoil (.mask (i % 8)) (v.setWidth 128 |>.setWidth 1024)
  | .shape => c.spoil (.tsh (i % 8)) (v.setWidth 64 |>.setWidth 1024)
  | .vt => c.spoil .vt (v.setWidth 64 |>.setWidth 1024)
  | .tileRow => { c with mx := { c.mx with tilePoison := setInsert c.mx.tilePoison i, tileErr := setInsert c.mx.tileErr i } }
  | .accTile => { c with mx := { c.mx with accPoison := setInsert c.mx.accPoison i, accErr := setInsert c.mx.accErr i } }
  | .scratchpad => { c with scratchPoison := setInsert c.scratchPoison i }
  | .receiveBuffer => { c with mx := c.mx.spoilHalf (i / 192) (i % 192) }
  | _ => c

/-- An uncorrectable error in a level-1 line: a clean copy is refetched, so its line goes; what the home does not have is
poisoned (R90). -/
def MemSys.spoilLine (ms : MemSys) (k line : Nat) : MemSys :=
  ms.setLines k ((ms.lines k).filterMap fun l =>
    if l.line != line then some l else if l.pending then some { l with poison := true } else none)

/-- An uncorrectable error in entry i of an instruction cache or of a TLB, which hold clean copies alone: the entry goes. -/
def MemSys.spoilILine (ms : MemSys) (k i : Nat) : MemSys := { ms with icache := SMap.set [] ms.icache k ((ms.ilines k).eraseIdx i) }
def MemSys.spoilTlb (ms : MemSys) (u i : Nat) : MemSys :=
  if u < 512 then { ms with tlb := SMap.set [] ms.tlb u ((SMap.get [] ms.tlb u).eraseIdx i) }
  else { ms with tlb2 := SMap.set [] ms.tlb2 (u - 512) ((SMap.get [] ms.tlb2 (u - 512)).eraseIdx i) }

/-- An uncorrectable error in the frame at place i of a level-2 slice: a clean copy goes, to be fetched again, and a block of
a dirty pack is poisoned (R90). -/
def MemSys.spoilFrame (ms : MemSys) (sl i : Nat) : MemSys :=
  match (ms.slice sl)[i]? with
  | some l =>
    if (SMap.get none ms.dirtyPacks (l.line / 4)).isSome then ms.setPoison (64 * l.line) true
    else ms.setSlice sl ((ms.slice sl).filter fun k => k.line != l.line)
  | none => ms

/-- ECC_ERROR (04 R90). -/
def execEccError (u : EccUnit) (n : Nat) (corrected : Bool) (s : State) : Out :=
  if corrected then .next { s with ms := s.ms.countCorrected u n }
  else
    match u with
    | .hbmBlock => .next { s with ms := if space (64 * n) = .hbm then s.ms.setPoison (64 * n) true else s.ms }
    | .packTag =>
      .next { s with ms := if space (256 * n) = .hbm then (upto 0 4).foldl (fun m i => m.setPoison (256 * n + 64 * i) true) s.ms else s.ms }
    | .cleanCopy => .next { s with ms := s.ms.spoilLine (n % 256) (n / 256) }
    | .icache => .next { s with ms := s.ms.spoilILine (n % 256) (n / 256) }
    | .tlb => .next { s with ms := s.ms.spoilTlb (n % 1024) (n / 1024) }
    | .levelTwo => .next { s with ms := s.ms.spoilFrame (n % 128) (n / 128) }
    | _ => .next (s.tick.modCore (n % 256) fun c => c.uncorrectable u (n / 256) (Config.poisonData s.fresh))

/-- HBM_SCRUB (04 R116): a populated line is scrubbed; an error that it finds is corrected and counted. -/
def execHbmScrub (block : Nat) (s : State) : Out :=
  if space (64 * block) = .hbm ∧ Config.freeBit s.fresh = true then .next { s.tick with ms := s.ms.countCorrected .hbmBlock block }
  else .next s.tick

/-! ### Accesses from outside (01 R35 to R38; 04 R443) -/

/-- A part of an access within one 256-byte piece. -/
structure Piece where
  pa : Nat
  len : Nat
  off : Nat
deriving DecidableEq, Repr

/-- An access split at multiples of `m` (R37); `fuel` bounds the parts. -/
def splitAt (m : Nat) : Nat → Nat → Nat → Nat → List Piece
  | 0, _, _, _ => []
  | fuel + 1, pa, len, off =>
    if len = 0 then []
    else
      let n := min len (m - pa % m)
      { pa := pa, len := n, off := off } :: splitAt m fuel (pa + n) (len - n) (off + n)

/-- The target that checks an access from outside: register space checks a PCIe requester at the register block of its die,
and every other access is checked where it enters (01 R35; log entry 71). -/
def checkTarget (tn pa : Nat) : Nat :=
  match space pa with
  | .regs d => if tn < 152 then d else tn
  | _ => tn

/-- The check of an access from outside at a target, whose die is `die`: unpopulated space is denied at its home. -/
def MemSys.checkFrom (ms : MemSys) (tn die mid pa : Nat) (k : AccessKind) : MemSys × Bool :=
  match space pa with
  | .reserved => (ms.deny tn mid pa k true, false)
  | .unpopulated => (ms.deny (20 + homeSlice ms die pa false) mid pa k true, false)
  | _ =>
    let t := checkTarget tn pa
    let ms := ms.cacheWindows t mid
    if ms.allowed t mid pa k then (ms, true) else (ms.deny t mid pa k false, false)

/-- Write the blocks of a piece at their homes; `packed` is the mode of R84, and `bad` the poison of the data. The tracked
level-1 copies go, and those made through entry pages stay (R443). -/
def MemSys.writeFrom (ms : MemSys) (die : Nat) (packed bad : Bool) (data : Nat) (p : Piece) : MemSys :=
  (splitAt 64 6 p.pa p.len p.off).foldl (fun (m : MemSys) q =>
    (m.openHome die q.pa false none).putHome q.pa q.len (field data (8 * q.off) (8 * q.len)) (allOnes q.len) packed bad) ms

/-- Read the blocks of a piece at their homes. -/
def MemSys.readFrom (ms : MemSys) (die : Nat) (p : Piece) : MemSys :=
  (splitAt 64 6 p.pa p.len p.off).foldl (fun (m : MemSys) q => (m.recall (q.pa / 64)).visit die q.pa false false) ms

/-- Write registers from outside: 8 bytes at a time; a narrower write is denied (22 R446). -/
def State.writeRegsFrom (s : State) (d mid data : Nat) (p : Piece) : State × Bool :=
  if p.len < 8 ∨ p.pa % 8 ≠ 0 then ({ s with ms := s.ms.deny d mid p.pa .write false }, false)
  else (State.regWrites (p.len / 8) s p.pa (field data (8 * p.off) (8 * p.len)), true)

/-- Perform a piece that has passed its check; false if register space denies it. -/
def State.performFrom (s : State) (die mid : Nat) (write packed bad : Bool) (data : Nat) (p : Piece) : State × Bool :=
  match space p.pa with
  | .hbm => ({ s with ms := if write then s.ms.writeFrom die packed bad data p else s.ms.readFrom die p }, true)
  | .regs d => if write then s.writeRegsFrom d mid data p else (s, true)
  | _ => (s, true)

/-- The pieces of an access from outside, with the pieces that are denied. -/
def piecesFrom (tn die mid : Nat) (k : AccessKind) (packed bad : Bool) (data : Nat) : List Piece → State → State × List Piece
  | [], s => (s, [])
  | p :: ps, s =>
    let (ms, ok) := s.ms.checkFrom tn die mid p.pa k
    let s := { s with ms := ms }
    let (s, ok) := if ok then s.performFrom die mid (k != .read) packed bad data p else (s, false)
    let (s, no) := piecesFrom tn die mid k packed bad data ps s
    (s, if ok then no else p :: no)

/-- Command identifiers of the completion entries that lie in a write: queue q's entries are 16 bytes each, with the
identifier in bytes 12 and 13 (log entry 22). -/
def completions (s : State) (q lo hi : Nat) : State × List Nat :=
  let (ms, x) := s.ms.hwRead (s.sqAddr q) 64
  let base := field (sqWord x 1) 4 40 * 16
  let size := field (sqWord x 4) 32 12 + 1
  ({ s with ms := ms },
   ((upto 0 9).filter fun i => decide (lo ≤ 16 * (lo / 16 + i)) && decide (16 * (lo / 16 + i) + 16 ≤ hi) &&
      decide (base ≤ 16 * (lo / 16 + i)) && decide (16 * (lo / 16 + i) < base + 16 * size)).map
    fun i => ms.readN (16 * (lo / 16 + i) + 12) 2)

/-- Commands whose completion entries a write has performed are no longer outstanding (15 R368). -/
def endCommands (s : State) (lo hi : Nat) : State :=
  s.sto.outstanding.foldl (fun s c =>
    let (s, ids) := completions s c.queue lo hi
    if ids.contains c.cid then { s with sto := { s.sto with outstanding := s.sto.outstanding.erase c } } else s) s

/-- The bytes that a read of a piece returns: of memory, of registers, or of another root port, which are free values. -/
def State.pieceData (s : State) (p : Piece) : Nat :=
  match space p.pa with
  | .regs _ => s.regBytes p.pa p.len
  | .pcie _ => freeBytes (Config.pcieRead s.fresh) p.pa p.len
  | _ => s.ms.readN p.pa p.len

/-- A read is answered at its root port: with its data, or, when a piece of it is denied, with Completer Abort (R38). -/
def State.completeRead (s : State) (port rid : Nat) (ps : List Piece) (abort : Bool) : State :=
  let data := ps.foldl (fun a p => a + s.pieceData p <<< (8 * p.off)) 0
  let done : Completion := { port := port, rid := rid, abort := abort, data := if abort then 0 else BitVec.ofNat 1024 data }
  { s.tick with pcie := s.pcie ++ [done] }

/-- A root port denies every piece of an access: after a kill that its drive did not answer (18 R397, item 4). -/
def State.denyPieces (s : State) (tn mid : Nat) (kind : AccessKind) (ps : List Piece) : State :=
  ps.foldl (fun s p => { s with ms := s.ms.deny tn mid p.pa kind false }) s

/-- PCIE_REQUESTER_ACCESS (01 R13, R35 to R38). -/
def execPcieRequesterAccess (port rid pa len : Nat) (write : Bool) (data : BitVec 1024) (s : State) : Out :=
  if s.boot ≠ .running ∨ 3 < port then .next s
  else
    let mid := 0x800 + 256 * port + rid % 256
    let ps := splitAt 256 4 pa len 0
    let kind : AccessKind := if write then .write else .read
    let (s, no) := if s.sto.denied.contains (port, rid) then (s.denyPieces (148 + port) mid kind ps, ps)
      else piecesFrom (148 + port) port mid kind false false data.toNat ps s
    if write then .next ((ps.filter fun p => !no.contains p).foldl (fun s p => endCommands s p.pa (p.pa + p.len)) s)
    else .next (s.completeRead port rid ps (!no.isEmpty))

/-- The MID of an access from a device at a link (22 R432). -/
def State.ingressMid (s : State) (link dev : Nat) : Nat :=
  match (upto 0 64).find? fun i =>
    let e := s.ingress link i
    e.v && e.dev == dev && decide (0xC00 ≤ e.mid) && decide (e.mid ≤ 0xFFE) with
  | some i => (s.ingress link i).mid
  | none => 0xFFF

/-- FABRIC_REMOTE_ACCESS (22 R432): an atomic brings the value that its operation leaves. Whether the data of a write is
poisoned is free (04 R116; log entry 102). A denied piece is answered with a FAULT message. -/
def execFabricRemoteAccess (link dev pa len : Nat) (kind : AccessKind) (mode : PackMode) (data : BitVec 1024) (s : State) : Out :=
  if s.boot ≠ .running ∨ s.fab.devn = 0xFFFF ∨ 31 < link then .next s
  else
    let (s, bad) := piecesFrom (152 + link) (link / 8) (s.ingressMid link dev) kind (mode == .packed) (Config.freeBit s.fresh) data.toNat
      (splitAt 256 4 pa len 0) s.tick
    .next (bad.foldl (fun s p => s.send dev (faultMsg s 1 0 p.pa)) s)

end Sys2Proof.Machine
end

