-- ==== Sys2Proof/Machine/Fabric.lean ====
section
/-!
DEFINITION. Messages of the host and of peers, links, management, the emergency save, restart and boot (09 R238; 20 R422 to
R424; 22 R430 to R439).
-/

namespace Sys2Proof.Machine

/-! ### Messages (22 R434) -/

/-- Whether a reserved field of a message that is no tide message is not zero. -/
def msgReserved (m : Msg) : Bool :=
  wfield m.w0 55 32 != 0 || wfield m.w0 15 0 != 0 ||
  (match msgType m with
   | 0x10 => wfield m.w1 63 12 != 0
   | 0x11 => wfield m.w3 63 44 != 0 || wfield m.w3 31 12 != 0
   | 0x12 => wfield m.w1 63 16 != 0 || m.w3 != 0
   | 0x20 => wfield m.w1 63 8 != 0
   | _ => false)

/-- A message that is discarded and answered; a LAUNCH gets its tag back (22 R434). -/
def State.discard (s : State) (m : Msg) : State :=
  s.send (msgSender m) (faultMsg s 1 0 (if msgType m = 0x10 then m.w3.toNat else 0))

/-- A message of a type that the device serves while it has a number; it ends its sender's silence (20 R416). -/
def fabricArrival (s : State) (m : Msg) (type : Nat) (act : State → State) : Out :=
  if !s.serves ∨ msgType m ≠ type ∨ s.ignores (msgSender m) then .next s
  else if msgReserved m then .next (s.discard m)
  else .next (act (s.heard (msgSender m)))

/-- The types that R417 and R434 name. -/
def knownType (t : Nat) : Bool := (decide (1 ≤ t) && decide (t ≤ 0x0A)) || t == 0x10 || t == 0x11 || t == 0x12 || t == 0x20

/-- UNKNOWN_MESSAGE_TYPE (22 R434). -/
def execUnknownMessageType (m : Msg) (s : State) : Out :=
  if s.serves && !knownType (msgType m) && !s.ignores (msgSender m) then .next (s.discard m) else .next s

/-- Whether LAUNCH messages of a device may append supervisor records (22 R432). -/
def State.ingressSup (s : State) (link dev : Nat) : Bool :=
  match (upto 0 64).find? fun i =>
    let e := s.ingress link i
    e.v && e.dev == dev && decide (0xC00 ≤ e.mid) && decide (e.mid ≤ 0xFFE) with
  | some i => (s.ingress link i).sup
  | none => false

/-- LAUNCH (09 R238, 22 R434). -/
def execLaunch (link : Nat) (m : Msg) (s : State) : Out :=
  fabricArrival s m 0x10 fun s =>
    let n := wfield m.w1 11 0
    let die := link / 8 % 4
    let (s, e) := s.streamEntry n
    let (s, w) := s.ctxWho (64 * die) (entryCtx e) (s.ingressSup link (msgSender m))
    let (s, st) := appendLaunch s w m.w2.toNat n (s.ingressMid link (msgSender m)) die
    if st = 0 then s else s.send (msgSender m) (faultMsg s 2 st m.w3.toNat)

/-- The words of a message as a number. -/
def msgNat (m : Msg) : Nat := ofWords [m.w0.toNat, m.w1.toNat, m.w2.toNat, m.w3.toNat]

/-- COMPLETE (22 R431): it is stored in the ring, or dropped. -/
def execComplete (m : Msg) (s : State) : Out :=
  fabricArrival s m 0x11 fun s =>
    if !s.fab.cren then s
    else if 256 ≤ (s.fab.crpc + 65536 - s.fab.crcc) % 65536 then
      { s with fab := { s.fab with crlost := min (s.fab.crlost + 1) 0xFFFFFFFF } }
    else
      { s with ms := s.ms.hwWrite (s.fab.crbase * 256 + 32 * (s.fab.crpc % 256)) 32 (msgNat m)
               fab := { s.fab with crpc := (s.fab.crpc + 1) % 65536 } }

/-- The first unacknowledged access to a device at an address, with its link. -/
def State.unackedTo (s : State) (dev pa : Nat) : Option (Nat × Unacked) :=
  s.fab.unacked.findSome? fun (e : Nat × List Unacked) => (e.2.find? fun u => u.dev == dev && u.pa == pa).map fun u => (e.1, u)

/-- A peer has denied an access: a copy faults in its channel (15 R358), a copy record ends (09 R229), and any other
access is delivered under 01 R39. -/
def State.deniedBy (s : State) (u : Unacked) : State :=
  let n := denied u.pa (b2n u.store) u.path
  match u.ch, (s.core u.core).cp.record with
  | some 8, some rc => s.endCopy u.core rc rc.sup 0x0B 0x0C
  | some ch, _ => s.modCore u.core fun c => c.setChannel ch ((c.channel ch).fault (plainFault 0x02 u.pa 1) u.copy)
  | none, _ =>
    if u.store then s.modCore u.core fun c => c.note (some n)
    else s.modCore u.core fun c => (c.pay u.rid ((Config.poisonData 0).setWidth 1024) (some n)).note (some n)

/-- FAULT (22 R434): the peer has denied an access of a local context. -/
def execFault (m : Msg) (s : State) : Out :=
  fabricArrival s m 0x12 fun s =>
    if wfield m.w1 7 0 ≠ 1 then s
    else
      match s.unackedTo (msgSender m) m.w2.toNat with
      | none => s
      | some (l, u) =>
        (State.flushHeld { s with fab := { s.fab with unacked := SMap.set [] s.fab.unacked l ((SMap.get [] s.fab.unacked l).erase u) } }).deniedBy u

/-! ### Links (22 R435) -/

/-- How long a link that sheds lanes may pause: 2 microseconds. -/
def pauseCycles : Nat := 6400

/-- LINK_LANE_SHED (22 R435): from 8 lanes to 4, or from 4 to 2, the link pauses and keeps its unacknowledged flits. -/
def execLinkLaneShed (link : Nat) (s : State) : Out :=
  if 31 < link ∨ s.fab.ldown.getLsbD link ∨ s.fab.lanes link ≤ 2 then .next s
  else .next { s with fab := { s.fab with
    sheds := SMap.set 0 s.fab.sheds link (SMap.get 0 s.fab.sheds link + 1), paused := SMap.set 0 s.fab.paused link (s.now + 1) } }

/-- LINK_RESUME (22 R435): the flits are sent again in their order, in which they stay unacknowledged, and the messages that
waited for the link alone leave. -/
def execLinkResume (link : Nat) (s : State) : Out :=
  let t := SMap.get 0 s.fab.paused link
  if t = 0 ∨ t + pauseCycles < s.now + 1 then .next s
  else .next (State.flushHeld { s with fab := { s.fab with paused := SMap.set 0 s.fab.paused link 0 } })

/-- LINK_DOWN (22 R435): the link has not resumed in time. Each peer is told the address of the first access to it that is
lost; the messages on the link go over the next one (log entry 130). -/
def execLinkDown (link : Nat) (s : State) : Out :=
  let t := SMap.get 0 s.fab.paused link
  if t = 0 ∨ s.now + 1 < t + pauseCycles ∨ 31 < link then .next s
  else
    let us := SMap.get [] s.fab.unacked link
    let s := { s with fab := { s.fab with
      ldown := s.fab.ldown ||| (1 <<< link), paused := SMap.set 0 s.fab.paused link 0, unacked := SMap.set [] s.fab.unacked link [] } }
    let s := (us.foldl (fun s u => s.linkLost link u) s).flushHeld
    let lost (d : Nat) : Nat := ((us.find? fun u => u.dev == d).map Unacked.pa).getD 0
    if s.fab.ldown = BitVec.allOnes 32 then .next s
    else .next ((us.map Unacked.dev).eraseDups.foldl (fun s d => s.send d (faultMsg s 3 0 (lost d))) s)

/-! ### The save image (20 R422, R423) -/

def State.windowOn (s : State) : Bool := s.pwr.esw0.getLsbD 0
def State.windowDev (s : State) : Nat := wfield s.pwr.esw0 63 48
def State.windowBase (s : State) : Nat := wfield s.pwr.esw0 43 12 * 4096
def State.windowSize (s : State) : Nat := (wfield s.pwr.esw1 43 12 + 1) * 4096 - s.windowBase

/-- Write up to a block's bytes of the window; what goes to another device leaves the machine. -/
def State.windowWrite (s : State) (off n v : Nat) : State :=
  if s.windowDev = s.fab.devn then { s with ms := s.ms.hwWrite (s.windowBase + off) n v } else s

/-- Read bytes of the window; what another device returns is free. -/
def State.windowRead (s : State) (off n : Nat) : State × Nat :=
  if s.windowDev = s.fab.devn then
    let (ms, v) := s.ms.hwRead (s.windowBase + off) n
    ({ s with ms := ms }, v)
  else (s.tick, freeBytes (Config.remoteRead s.fresh) (s.windowBase + off) n)

/-- A launch in the list: where its record stands, its stream, its context, its notification and whether a task was
forced to a kill. -/
structure Listed where
  pa : Nat
  stream : Nat
  ctx : Nat
  notify : Nat
  forced : Bool
deriving DecidableEq, Repr

/-- The physical address of a record. -/
def State.recordAddr (s : State) (ctx va : Nat) (sup : Bool) : State × Nat :=
  let (s, w) := s.ctxWho 0 ctx sup
  match translate s.ms w va .load with
  | (ms, .ok x) => ({ s with ms := ms }, x.pa)
  | (ms, .error _) => ({ s with ms := ms }, 0)

/-- The queued launches of a stream, from a record on; `fuel` bounds their number. -/
def queuedLaunches (n ctx : Nat) : Nat → Nat → State → State × List Listed
  | 0, _, s => (s, [])
  | fuel + 1, va, s =>
    if va = 0 then (s, [])
    else
      let (s, w) := s.ctxWho 0 ctx ((s.stream n).supQueued.contains va)
      match recordRead s.ms w va false with
      | (ms, .error _) => ({ s with ms := ms }, [])
      | (ms, .ok (x, r)) =>
        let next := field (recWord r 1) 6 50
        let (s, l) := queuedLaunches n ctx fuel (if next = 0 then 0 else va56 (next * 64)) { s with ms := ms }
        (s, { pa := x.pa, stream := n, ctx := ctx, notify := field (recWord r 3) 0 16, forced := false } :: l)

/-- The launches in flight and queued of a stream. -/
def streamLaunches (s : State) (n : Nat) : State × List Listed :=
  let (s, e) := s.streamEntry n
  let (s, a) : State × List Listed :=
    match (s.stream n).flight with
    | some l =>
      let (s, pa) := s.recordAddr l.ctx l.addr l.creatorSup
      (s, [{ pa := pa, stream := n, ctx := l.ctx, notify := l.notify, forced := l.forced || l.killed }])
    | none => (s, [])
  let (s, b) := queuedLaunches n (entryCtx e) 0x100000 (if field (recWord e 0) 6 50 = 0 then 0 else entryHead e) s
  (s, a ++ b)

/-- Add the launches of a stream to the list. -/
def listStream (r : State × List Listed) (n : Nat) : State × List Listed :=
  let (s, l) := streamLaunches r.1 n
  (s, r.2 ++ l)

/-- The launch list, in order of the streams. -/
def launchList (s : State) : State × List Listed := (upto 0 4096).foldl listStream (s, [])

/-- The 32 bytes of an entry. -/
def Listed.bytes (l : Listed) : Nat := 
  ofWords [l.pa, l.stream + l.ctx * pow2 16 + l.notify * pow2 32 + b2n l.forced * pow2 48]

/-- Entries as a number. -/
def listNat (l : List Listed) : Nat := l.foldr (fun e a => e.bytes + a <<< 256) 0

/-- The frames that hold a task: context, core and frame. -/
def Sched.savedFrames (x : Sched) : List (Nat × Nat × Nat) :=
  (x.frames.filter fun e => e.2.isSome).map fun e => (e.1 / 1024, e.1 % 1024 / 4, e.1 % 4)

/-- Where the frames begin. -/
def framesAt (launches : Nat) : Nat := (0x40 + 32 * launches + 4095) / 4096 * 4096

/-- Whether an image of so many launches and frames fits. -/
def State.imageFits (s : State) (launches frames : Nat) : Bool :=
  s.windowOn && decide (framesAt launches + 0x400000 * frames ≤ s.windowSize)

/-- Copy block i of a frame into the image, if it can be read. -/
def copyBlock (ctx core f off : Nat) (s : State) (i : Nat) : State :=
  let r := s.frameRead ctx core f (64 * i)
  r.2.elim r.1 fun b => r.1.windowWrite (off + 64 * i) 64 b.1.toNat

/-- Copy the blocks of a frame into the image. -/
def copyFrame (ctx core f off : Nat) (s : State) : State := (upto 0 65536).foldl (copyBlock ctx core f off) s

/-- Write the entries of the list. -/
def writeList : List Listed → Nat → State → State
  | [], _, s => s
  | l :: ls, off, s => writeList ls (off + 32) (s.windowWrite off 32 l.bytes)

/-- Words 0 to 4 of the header. -/
def imageHead (s : State) (launches frames : Nat) : Nat :=
  ofWords [0x4C1BA0E500000001, s.fab.devn, s.pwr.tripped.getD 0, 32 * launches, frames]

/-- CRC-32C of words 0 to 4 and the launch list. -/
def imageCrc (head list launches : Nat) : Nat := crc32c (bytesOf head 40 ++ bytesOf list (32 * launches))

/-- Steps 4 and 5 of R422. -/
def writeImage (s : State) (ls : List Listed) : State :=
  let fs := s.sched.savedFrames
  let head := imageHead s ls.length fs.length
  let s := s.windowWrite 0 56 (head + imageCrc head (listNat ls) ls.length <<< 320)
  let s := writeList ls 0x40 s
  let s := ((upto 0 fs.length).zip fs).foldl (fun s (e : Nat × Nat × Nat × Nat) =>
    copyFrame e.2.1 e.2.2.1 e.2.2.2 (framesAt ls.length + 0x400000 * e.1) s) s
  { s.windowWrite 0x38 8 1 with image := s.sched }

/-- Step 6 of R422: the compute dies are unpowered. -/
def State.halt (s : State) (committed : Bool) : State := { s with boot := .halted, cores := [], committed := committed }

/-- Steps 1 to 3 of R422. -/
def tripSave (s : State) : State :=
  let s := { s with pwr := { s.pwr with tripped := some s.fab.gtime, thermal := 16 }, tide := { s.tide with own := if s.tide.state = TideState.joining then s.tide.own else 16 } }
  let s := (if s.inGroup then s.sendNotice 16 s.fab.gtime else s).recomputeCeil.applyAll
  let (s, ls) := launchList s
  let tasks := (s.cores.filter fun (e : Nat × Core) => e.2.task.isSome).length
  if s.imageFits ls.length (s.sched.savedFrames.length + tasks) then
    (s.windowWrite 0x38 8 0).askPreempt fun _ => true
  else s.halt false

/-- EMERGENCY_SAVE (20 R422): at 108 °C the save begins; once no task is resident, the image is written and the module
halts. -/
def execEmergencySave (s : State) : Out :=
  if s.boot ≠ .running then .next s
  else
    match s.pwr.tripped with
    | none => if s.hottest < 108 then .next s else .next (tripSave s)
    | some _ =>
      if s.resident then .next s
      else
        let (s, ls) := launchList s
        if s.imageFits ls.length s.sched.savedFrames.length then .next ((writeImage s ls).halt true) else .next (s.halt false)

/-! ### Boot (22 R438) -/

/-- What stays through a reset: what has left the machine, the save image among it, and the model's own choices. -/
def State.afterReset (s : State) (b : BootState) : State :=
  { State.reset with
    agenda := s.agenda, fresh := s.fresh + 1, boot := b, pcie := s.pcie, image := s.image
    pwr := { ({} : Power) with frames := s.pwr.frames }
    fab := { ({} : Fabric) with outbox := s.fab.outbox, reports := s.fab.reports } }

/-- The boot ROM: a step that fails leaves the device in recovery; whether one does is free. -/
def State.bootUp (s : State) : State := s.afterReset (if Config.freeBit s.fresh then .recovery else .running)

/-- RESET (22 R438). -/
def execReset (s : State) : Out := .next s.bootUp

/-- POWER_CUT (20 R424): at 118 °C the module removes its own power, and the contents of HBM go with it. -/
def execPowerCut (s : State) : Out := if s.hottest < 118 ∨ s.boot = .off then .next s else .next (s.afterReset .off)

/-! ### Management (22 R437, R439) -/

/-- Whether an operation is served in the device's state: in every one but recovery, which serves some (22 R438, R439). -/
def State.manages (s : State) (op : Nat) : Bool :=
  match s.boot with
  | .running | .halted | .off => true
  | .recovery => op == 1 || op == 2 || op == 5

/-- The answer to a management message; the device answers under the number that it had. -/
def mgmtMsg (devn op result : Nat) : Msg :=
  { w0 := BitVec.ofNat 64 (0x20 <<< 56 + devn <<< 16), w1 := BitVec.ofNat 64 op, w2 := BitVec.ofNat 64 result, w3 := 0 }

/-- A management message that names an operation: `act` gives the state and the result, and `more` what follows the answer. -/
def mgmtArrival (s : State) (m : Msg) (op : Nat) (act : State → State × Nat) (more : List Msg := []) : Out :=
  if msgType m ≠ 0x20 ∨ !s.manages op ∨ s.ignores (msgSender m) then .next s
  else if msgReserved m then .next (s.discard m)
  else if wfield m.w1 7 0 ≠ op then .next s
  else
    let (t, v) := act (s.heard (msgSender m))
    .next (more.foldl (fun t f => t.send (msgSender m) f) (t.send (msgSender m) (mgmtMsg s.fab.devn op v)))

/-- Whether an address is that of a register. -/
def isRegister (pa : Nat) : Bool := (match space pa with | .regs _ => true | _ => false) && pa % 8 == 0

/-- The access of firmware to a register, under MID 0x000 (01 R13), is checked at the register block of its die (01 R35). -/
def State.checkFirmware (s : State) (pa : Nat) (k : AccessKind) : State × Bool :=
  let (ms, ok) := s.ms.check 0 0 pa k false
  ({ s with ms := ms }, ok)

/-- A register as firmware reads it; a denied read returns poisoned data (01 R38). -/
def State.firmwareRead (s : State) (pa : Nat) : State × Nat :=
  if !isRegister pa then (s, 0)
  else
    match s.checkFirmware pa .read with
    | (s, true) => (s, s.regRead pa)
    | (s, false) => (s.tick, ((Config.poisonData s.fresh).setWidth 64).toNat)

/-- A register as firmware writes it; a denied write is discarded. -/
def State.firmwareWrite (s : State) (pa v : Nat) : State :=
  if !isRegister pa then s
  else
    match s.checkFirmware pa .write with
    | (s, true) => s.regWrite pa v
    | (s, false) => s

/-- MGMT_REGISTER_READ (22 R439). -/
def execMgmtRegisterRead (m : Msg) (s : State) : Out := mgmtArrival s m 1 fun s => s.firmwareRead m.w2.toNat

/-- MGMT_REGISTER_WRITE (22 R439). -/
def execMgmtRegisterWrite (m : Msg) (s : State) : Out :=
  mgmtArrival s m 2 fun s => (s.firmwareWrite m.w2.toNat m.w3.toNat, 0)

/-- Bytes 0 to 127 of an attestation report. -/
def reportBody (s : State) (nonce : BitVec 256) : BitVec 1024 :=
  BitVec.ofNat 1024 (s.fab.devn + 1 <<< 16 + Config.fuseState.toNat <<< 64 + Config.firmwareDigest.toNat <<< 192 +
    nonce.toNat <<< 704 + s.fab.gtime <<< 960)

/-- An attestation report (22 R437). -/
def attestation (s : State) (nonce : BitVec 256) : BitVec 1536 :=
  let body := reportBody s nonce
  reportSignature body ++ body

/-- A report as the six flits that carry it. -/
def reportFlits (r : BitVec 1536) : List Msg :=
  (upto 0 6).map fun i => { w0 := r.extractLsb' (256 * i) 64, w1 := r.extractLsb' (256 * i + 64) 64
                            w2 := r.extractLsb' (256 * i + 128) 64, w3 := r.extractLsb' (256 * i + 192) 64 }

/-- MGMT_ATTESTATION (22 R437, R439): the report follows the answer. -/
def execMgmtAttestation (m : Msg) (nonce : BitVec 256) (s : State) : Out :=
  mgmtArrival s m 3 (fun s => ({ s with fab := { s.fab with reports := s.fab.reports ++ [attestation s nonce] } }, 0))
    (reportFlits (attestation s nonce))

/-- MGMT_STATUS (22 R439). -/
def execMgmtStatus (m : Msg) (s : State) : Out :=
  mgmtArrival s m 5 fun s =>
    (s, (match s.boot with | .running => 0 | .recovery => 1 | _ => 2) + 4 * b2n s.committed)

/-! ### Restart (20 R424, 22 R439) -/

/-- What firmware finds in the window: whether the list's CRC is good, COMMIT, and the entries of the list. -/
structure Found where
  good : Bool
  commit : Bool
  list : List Nat
deriving DecidableEq, Repr

/-- Entries of the list in the window. -/
def readList : Nat → Nat → State → State × List Nat
  | 0, _, s => (s, [])
  | n + 1, off, s =>
    let (s, e) := s.windowRead off 32
    let (s, es) := readList n (off + 32) s
    (s, e :: es)

/-- Read the window. -/
def readWindow (s : State) : State × Found :=
  if !s.windowOn then (s, { good := true, commit := false, list := [] })
  else
    let (s, head) := s.windowRead 0 64
    let n := field head 192 64 / 32
    let (s, es) := readList (min n 0x100000) 0x40 s
    let list := es.foldr (fun e a => e + a <<< 256) 0
    let good : Bool := field head 0 64 == 0x4C1BA0E500000001 && decide (n ≤ 0x100000) &&
      field head 320 64 == imageCrc (field head 0 320) list n
    (s, { good := good, commit := field head 448 64 == 1, list := es })

/-- `n` blocks of the window from an offset, by number from `i` on. -/
def windowBlocks : Nat → Nat → Nat → State → State × SMap Block
  | 0, _, _, s => (s, [])
  | n + 1, i, off, s =>
    let (s, v) := s.windowRead off 64
    let b := BitVec.ofNat 512 v
    let (s, bs) := windowBlocks n (i + 1) (off + 64) s
    (s, if b = 0 then bs else (i, b) :: bs)

/-- The frames of the image, of so many launches; the image names them in its opaque parts (20 R423). -/
def windowFrames (launches : Nat) : Nat → List (Nat × Nat × Nat) → State → State × List Kept
  | _, [], s => (s, [])
  | i, e :: es, s =>
    let (s, bs) := windowBlocks 65536 0 (framesAt launches + 0x400000 * i) s
    let (s, ks) := windowFrames launches (i + 1) es s
    (s, { key := frameKey e.1 e.2.1 e.2.2, blocks := bs } :: ks)

/-- An entry of the restart report as a flit; a lost launch is marked with its status in bits [63:56] of word 1. -/
def reportFlit (e : Nat) (lost : Bool) : Msg :=
  { w0 := BitVec.ofNat 64 e, w1 := BitVec.ofNat 64 (e >>> 64 + (if lost then 0x0C <<< 56 else 0))
    w2 := BitVec.ofNat 64 (e >>> 128), w3 := BitVec.ofNat 64 (e >>> 192) }

/-- The report when the list's CRC fails: one entry of ones. -/
def badReport : Msg := { w0 := BitVec.allOnes 64, w1 := BitVec.allOnes 64, w2 := BitVec.allOnes 64, w3 := BitVec.allOnes 64 }

/-- COMPLETE with status 0x0C for a listed launch. -/
def sendLost (devn : Nat) (s : State) (e : Nat) : State :=
  let notify := field e 96 16
  if notify = 0xFFFF then s
  else s.send notify (completeMsg devn (field e 0 64) (statusWord 0x0C 0) (field e 64 16) (field e 80 16))

/-- What the scheduler holds after the resumption of a save image: the launches that no forced kill has marked, with
their crews, counters and frames, and its registers at reset (log entry 24). What deques have spilled stood in HBM, whose
contents are no part of a save (20 R424). -/
def resumedSched (x : Sched) : Sched :=
  let lost (n : Nat) : Bool := match (SMap.get {} x.streams n).flight with | some l => l.forced || l.killed | none => false
  { ({} : Sched) with
    slots := x.slots, share := x.share, nextCrew := x.nextCrew, serial := x.serial
    streams := x.streams.map fun (e : Nat × Stream) => (e.1, if lost e.1 then { e.2 with flight := none } else e.2)
    crews := x.crews.filter fun c => !lost c.stream
    frames := x.frames.filter fun e => match e.2 with | some c => (match c.task.bind Task.owner with | some n => !lost n | none => true) | none => false
    ready := dropFrom (fun (r : Ready) => match r with | .record q => (match q.owner with | some n => !lost n | none => true) | .launch n _ => !lost n) x.ready
    deque := dropFrom (fun (q : ReadyRec) => match q.owner with | some n => !lost n | none => true) x.deque }

/-- The frames of the launches that are resumed stay kept, until their cores resume them: HBM holds nothing yet (20 R424; log entry
143). -/
def Sched.keep (x : Sched) (ks : List Kept) : Sched := { x with kept := ks.filter fun k => (SMap.get none x.frames k.key).isSome }

/-- The restart: the window is read, the device boots, what is lost is reported, and a valid image is resumed if the
command asks for it. -/
def restart (s : State) (resume : Bool) (peer : Nat) : State :=
  let (s, f) := readWindow s
  let valid : Bool := f.good && f.commit
  let (s, ks) := if resume && valid then windowFrames f.list.length 0 s.image.savedFrames s else (s, [])
  let t := s.bootUp
  let t := { t with committed := f.commit, sched := if resume && valid then (resumedSched s.image).keep ks else t.sched }
  let t := t.send peer (mgmtMsg s.fab.devn 4 0)
  if !f.good then t.send peer badReport
  else
    let t := f.list.foldl (fun t e => t.send peer (reportFlit e (!valid))) t
    if valid then t else f.list.foldl (sendLost s.fab.devn) t

/-- MGMT_RESTART (22 R439). -/
def execMgmtRestart (m : Msg) (s : State) : Out :=
  if msgType m ≠ 0x20 ∨ !s.manages 4 ∨ s.ignores (msgSender m) then .next s
  else if msgReserved m then .next (s.discard m)
  else if wfield m.w1 7 0 ≠ 4 then .next s
  else .next (restart s (m.w2.getLsbD 0) (msgSender m))

end Sys2Proof.Machine
end

