-- ==== Sys2Proof/Machine/Dispatch.lean ====
section
/-! DEFINITION. The meaning of every row of the opcode table: one arm a constructor of Instr, each one direct call of
that row's meaning. -/

namespace Sys2Proof.Machine

/-- What one row does in a state: a parcel of a slot (06 R161) or an event of the machine's own. -/
def exec (i : Instr) (s : State) : Host.Outcome State Fault Refusal :=
  match i with
  | .move slot g s' d => Sys2Proof.Machine.execMove slot g s' d s
  | .ix1Add g s' => Sys2Proof.Machine.execIx1Add g s' s
  | .ix1Sub g s' => Sys2Proof.Machine.execIx1Sub g s' s
  | .ix1Adds g s' => Sys2Proof.Machine.execIx1Adds g s' s
  | .ix1Subs g s' => Sys2Proof.Machine.execIx1Subs g s' s
  | .ix1And g s' => Sys2Proof.Machine.execIx1And g s' s
  | .ix1Or g s' => Sys2Proof.Machine.execIx1Or g s' s
  | .ix1Xor g s' => Sys2Proof.Machine.execIx1Xor g s' s
  | .ix1Andn g s' => Sys2Proof.Machine.execIx1Andn g s' s
  | .ix1Shl g s' => Sys2Proof.Machine.execIx1Shl g s' s
  | .ix1Shr g s' => Sys2Proof.Machine.execIx1Shr g s' s
  | .ix1Sar g s' => Sys2Proof.Machine.execIx1Sar g s' s
  | .ix1Rol g s' => Sys2Proof.Machine.execIx1Rol g s' s
  | .ix1Min g s' => Sys2Proof.Machine.execIx1Min g s' s
  | .ix1Max g s' => Sys2Proof.Machine.execIx1Max g s' s
  | .ix1Minu g s' => Sys2Proof.Machine.execIx1Minu g s' s
  | .ix1Maxu g s' => Sys2Proof.Machine.execIx1Maxu g s' s
  | .ix1Clts g s' => Sys2Proof.Machine.execIx1Clts g s' s
  | .ix1Cltu g s' => Sys2Proof.Machine.execIx1Cltu g s' s
  | .ix1Ceq g s' => Sys2Proof.Machine.execIx1Ceq g s' s
  | .ix1Cne g s' => Sys2Proof.Machine.execIx1Cne g s' s
  | .ix1Cles g s' => Sys2Proof.Machine.execIx1Cles g s' s
  | .ix1Cleu g s' => Sys2Proof.Machine.execIx1Cleu g s' s
  | .ix1Shl8 g s' => Sys2Proof.Machine.execIx1Shl8 g s' s
  | .ix1Shl16 g s' => Sys2Proof.Machine.execIx1Shl16 g s' s
  | .ix1Shl32 g s' => Sys2Proof.Machine.execIx1Shl32 g s' s
  | .ix1Shr8 g s' => Sys2Proof.Machine.execIx1Shr8 g s' s
  | .ix1Shr16 g s' => Sys2Proof.Machine.execIx1Shr16 g s' s
  | .ix1Shr32 g s' => Sys2Proof.Machine.execIx1Shr32 g s' s
  | .ix1Sar8 g s' => Sys2Proof.Machine.execIx1Sar8 g s' s
  | .ix1Sar16 g s' => Sys2Proof.Machine.execIx1Sar16 g s' s
  | .ix1Sar32 g s' => Sys2Proof.Machine.execIx1Sar32 g s' s
  | .ix1Add8 g s' => Sys2Proof.Machine.execIx1Add8 g s' s
  | .ix1Add16 g s' => Sys2Proof.Machine.execIx1Add16 g s' s
  | .ix1Add32 g s' => Sys2Proof.Machine.execIx1Add32 g s' s
  | .ix1Mul g s' => Sys2Proof.Machine.execIx1Mul g s' s
  | .ix1Mulu g s' => Sys2Proof.Machine.execIx1Mulu g s' s
  | .ix1Div g s' => Sys2Proof.Machine.execIx1Div g s' s
  | .ix1Divu g s' => Sys2Proof.Machine.execIx1Divu g s' s
  | .ix1Rem g s' => Sys2Proof.Machine.execIx1Rem g s' s
  | .ix1Remu g s' => Sys2Proof.Machine.execIx1Remu g s' s
  | .ix1Bext g s' => Sys2Proof.Machine.execIx1Bext g s' s
  | .ix1Bexts g s' => Sys2Proof.Machine.execIx1Bexts g s' s
  | .ix1Bins g s' => Sys2Proof.Machine.execIx1Bins g s' s
  | .ix1Clz g s' => Sys2Proof.Machine.execIx1Clz g s' s
  | .ix1Ctz g s' => Sys2Proof.Machine.execIx1Ctz g s' s
  | .ix1Popc g s' => Sys2Proof.Machine.execIx1Popc g s' s
  | .ix1Brev g s' => Sys2Proof.Machine.execIx1Brev g s' s
  | .ix1Bswap g s' => Sys2Proof.Machine.execIx1Bswap g s' s
  | .sfx5Add g s' => Sys2Proof.Machine.execSfx5Add g s' s
  | .sfx5Sub g s' => Sys2Proof.Machine.execSfx5Sub g s' s
  | .sfx5Adds g s' => Sys2Proof.Machine.execSfx5Adds g s' s
  | .sfx5Subs g s' => Sys2Proof.Machine.execSfx5Subs g s' s
  | .sfx5And g s' => Sys2Proof.Machine.execSfx5And g s' s
  | .sfx5Or g s' => Sys2Proof.Machine.execSfx5Or g s' s
  | .sfx5Xor g s' => Sys2Proof.Machine.execSfx5Xor g s' s
  | .sfx5Andn g s' => Sys2Proof.Machine.execSfx5Andn g s' s
  | .sfx5Shl g s' => Sys2Proof.Machine.execSfx5Shl g s' s
  | .sfx5Shr g s' => Sys2Proof.Machine.execSfx5Shr g s' s
  | .sfx5Sar g s' => Sys2Proof.Machine.execSfx5Sar g s' s
  | .sfx5Rol g s' => Sys2Proof.Machine.execSfx5Rol g s' s
  | .sfx5Min g s' => Sys2Proof.Machine.execSfx5Min g s' s
  | .sfx5Max g s' => Sys2Proof.Machine.execSfx5Max g s' s
  | .sfx5Minu g s' => Sys2Proof.Machine.execSfx5Minu g s' s
  | .sfx5Maxu g s' => Sys2Proof.Machine.execSfx5Maxu g s' s
  | .sfx5Clts g s' => Sys2Proof.Machine.execSfx5Clts g s' s
  | .sfx5Cltu g s' => Sys2Proof.Machine.execSfx5Cltu g s' s
  | .sfx5Ceq g s' => Sys2Proof.Machine.execSfx5Ceq g s' s
  | .sfx5Cne g s' => Sys2Proof.Machine.execSfx5Cne g s' s
  | .sfx5Cles g s' => Sys2Proof.Machine.execSfx5Cles g s' s
  | .sfx5Cleu g s' => Sys2Proof.Machine.execSfx5Cleu g s' s
  | .sfx5Shl8 g s' => Sys2Proof.Machine.execSfx5Shl8 g s' s
  | .sfx5Shl16 g s' => Sys2Proof.Machine.execSfx5Shl16 g s' s
  | .sfx5Shl32 g s' => Sys2Proof.Machine.execSfx5Shl32 g s' s
  | .sfx5Shr8 g s' => Sys2Proof.Machine.execSfx5Shr8 g s' s
  | .sfx5Shr16 g s' => Sys2Proof.Machine.execSfx5Shr16 g s' s
  | .sfx5Shr32 g s' => Sys2Proof.Machine.execSfx5Shr32 g s' s
  | .sfx5Sar8 g s' => Sys2Proof.Machine.execSfx5Sar8 g s' s
  | .sfx5Sar16 g s' => Sys2Proof.Machine.execSfx5Sar16 g s' s
  | .sfx5Sar32 g s' => Sys2Proof.Machine.execSfx5Sar32 g s' s
  | .sfx5Add8 g s' => Sys2Proof.Machine.execSfx5Add8 g s' s
  | .sfx5Add16 g s' => Sys2Proof.Machine.execSfx5Add16 g s' s
  | .sfx5Add32 g s' => Sys2Proof.Machine.execSfx5Add32 g s' s
  | .vexAdd u w g s' => Sys2Proof.Machine.execVexAdd u w g s' s
  | .vexSub u w g s' => Sys2Proof.Machine.execVexSub u w g s' s
  | .vexAdds u w g s' => Sys2Proof.Machine.execVexAdds u w g s' s
  | .vexSubs u w g s' => Sys2Proof.Machine.execVexSubs u w g s' s
  | .vexMin u w g s' => Sys2Proof.Machine.execVexMin u w g s' s
  | .vexMax u w g s' => Sys2Proof.Machine.execVexMax u w g s' s
  | .vexAbs u w g s' => Sys2Proof.Machine.execVexAbs u w g s' s
  | .vexNeg u w g s' => Sys2Proof.Machine.execVexNeg u w g s' s
  | .vexAnd u w g s' => Sys2Proof.Machine.execVexAnd u w g s' s
  | .vexOr u w g s' => Sys2Proof.Machine.execVexOr u w g s' s
  | .vexXor u w g s' => Sys2Proof.Machine.execVexXor u w g s' s
  | .vexAndn u w g s' => Sys2Proof.Machine.execVexAndn u w g s' s
  | .vexShl u w g s' => Sys2Proof.Machine.execVexShl u w g s' s
  | .vexShr u w g s' => Sys2Proof.Machine.execVexShr u w g s' s
  | .vexSar u w g s' => Sys2Proof.Machine.execVexSar u w g s' s
  | .vexMul u w g s' => Sys2Proof.Machine.execVexMul u w g s' s
  | .vexFma u w g s' => Sys2Proof.Machine.execVexFma u w g s' s
  | .vexFms u w g s' => Sys2Proof.Machine.execVexFms u w g s' s
  | .vexFnma u w g s' => Sys2Proof.Machine.execVexFnma u w g s' s
  | .vexCeq u w g s' => Sys2Proof.Machine.execVexCeq u w g s' s
  | .vexCne u w g s' => Sys2Proof.Machine.execVexCne u w g s' s
  | .vexClt u w g s' => Sys2Proof.Machine.execVexClt u w g s' s
  | .vexCle u w g s' => Sys2Proof.Machine.execVexCle u w g s' s
  | .vexCdet u w g s' => Sys2Proof.Machine.execVexCdet u w g s' s
  | .vexSel u w g s' => Sys2Proof.Machine.execVexSel u w g s' s
  | .vexCvt u w g s' => Sys2Proof.Machine.execVexCvt u w g s' s
  | .vexPerm u w g s' => Sys2Proof.Machine.execVexPerm u w g s' s
  | .vexBcast u w g s' => Sys2Proof.Machine.execVexBcast u w g s' s
  | .vexSlide u w g s' => Sys2Proof.Machine.execVexSlide u w g s' s
  | .vexRsum u w g s' => Sys2Proof.Machine.execVexRsum u w g s' s
  | .vexRmin u w g s' => Sys2Proof.Machine.execVexRmin u w g s' s
  | .vexRmax u w g s' => Sys2Proof.Machine.execVexRmax u w g s' s
  | .vtset u g s' => Sys2Proof.Machine.execVtset u g s' s
  | .vtget u g s' => Sys2Proof.Machine.execVtget u g s' s
  | .vtthr u g s' => Sys2Proof.Machine.execVtthr u g s' s
  | .vtclr u g s' => Sys2Proof.Machine.execVtclr u g s' s
  | .kand u g s' => Sys2Proof.Machine.execKand u g s' s
  | .kor u g s' => Sys2Proof.Machine.execKor u g s' s
  | .kxor u g s' => Sys2Proof.Machine.execKxor u g s' s
  | .kandn u g s' => Sys2Proof.Machine.execKandn u g s' s
  | .knot u g s' => Sys2Proof.Machine.execKnot u g s' s
  | .kgen u g s' => Sys2Proof.Machine.execKgen u g s' s
  | .kpopc u g s' => Sys2Proof.Machine.execKpopc u g s' s
  | .kffs u g s' => Sys2Proof.Machine.execKffs u g s' s
  | .sfx5Rcp w g s' => Sys2Proof.Machine.execSfx5Rcp w g s' s
  | .sfx5Rsqrt w g s' => Sys2Proof.Machine.execSfx5Rsqrt w g s' s
  | .sfx5Sqrt w g s' => Sys2Proof.Machine.execSfx5Sqrt w g s' s
  | .sfx5Div w g s' => Sys2Proof.Machine.execSfx5Div w g s' s
  | .sfx5Exp2 w g s' => Sys2Proof.Machine.execSfx5Exp2 w g s' s
  | .sfx5Log2 w g s' => Sys2Proof.Machine.execSfx5Log2 w g s' s
  | .sfx5Tanh w g s' => Sys2Proof.Machine.execSfx5Tanh w g s' s
  | .sfx5Sigm w g s' => Sys2Proof.Machine.execSfx5Sigm w g s' s
  | .sfx5Sinpi w g s' => Sys2Proof.Machine.execSfx5Sinpi w g s' s
  | .sfx5Cospi w g s' => Sys2Proof.Machine.execSfx5Cospi w g s' s
  | .ctlLvl g s' => Sys2Proof.Machine.execCtlLvl g s' s
  | .ctlCabase g s' => Sys2Proof.Machine.execCtlCabase g s' s
  | .ctlCastr g s' => Sys2Proof.Machine.execCtlCastr g s' s
  | .ctlLoop g s' => Sys2Proof.Machine.execCtlLoop g s' s
  | .ctlBsel g s' => Sys2Proof.Machine.execCtlBsel g s' s
  | .ctlWait g s' => Sys2Proof.Machine.execCtlWait g s' s
  | .ctlFork g s' => Sys2Proof.Machine.execCtlFork g s' s
  | .ctlJoin g s' => Sys2Proof.Machine.execCtlJoin g s' s
  | .ctlSpawn g s' => Sys2Proof.Machine.execCtlSpawn g s' s
  | .ctlLaunch g s' => Sys2Proof.Machine.execCtlLaunch g s' s
  | .ctlDone g s' => Sys2Proof.Machine.execCtlDone g s' s
  | .ctlBar g s' => Sys2Proof.Machine.execCtlBar g s' s
  | .ctlSrd g s' => Sys2Proof.Machine.execCtlSrd g s' s
  | .ctlSwr g s' => Sys2Proof.Machine.execCtlSwr g s' s
  | .ctlTrap g s' => Sys2Proof.Machine.execCtlTrap g s' s
  | .ctlRfe g s' => Sys2Proof.Machine.execCtlRfe g s' s
  | .ctlPark g s' => Sys2Proof.Machine.execCtlPark g s' s
  | .ctlAbort g s' => Sys2Proof.Machine.execCtlAbort g s' s
  | .ctlYield g s' => Sys2Proof.Machine.execCtlYield g s' s
  | .ctlUnpark g s' => Sys2Proof.Machine.execCtlUnpark g s' s
  | .ctlClkset g s' => Sys2Proof.Machine.execCtlClkset g s' s
  | .ctlVset g s' => Sys2Proof.Machine.execCtlVset g s' s
  | .ctlClkrd g s' => Sys2Proof.Machine.execCtlClkrd g s' s
  | .ctlSwsel g s' => Sys2Proof.Machine.execCtlSwsel g s' s
  | .exitBr x g s' => Sys2Proof.Machine.execExitBr x g s' s
  | .exitJmp x g s' => Sys2Proof.Machine.execExitJmp x g s' s
  | .exitCall x g s' => Sys2Proof.Machine.execExitCall x g s' s
  | .exitCalla x g s' => Sys2Proof.Machine.execExitCalla x g s' s
  | .exitRet x g s' => Sys2Proof.Machine.execExitRet x g s' s
  | .ls2LdB g s' => Sys2Proof.Machine.execLs2LdB g s' s
  | .ls2LdH g s' => Sys2Proof.Machine.execLs2LdH g s' s
  | .ls2LdW g s' => Sys2Proof.Machine.execLs2LdW g s' s
  | .ls2LdD g s' => Sys2Proof.Machine.execLs2LdD g s' s
  | .ls2LdBs g s' => Sys2Proof.Machine.execLs2LdBs g s' s
  | .ls2LdHs g s' => Sys2Proof.Machine.execLs2LdHs g s' s
  | .ls2LdWs g s' => Sys2Proof.Machine.execLs2LdWs g s' s
  | .ls2SldB g s' => Sys2Proof.Machine.execLs2SldB g s' s
  | .ls2SldH g s' => Sys2Proof.Machine.execLs2SldH g s' s
  | .ls2SldW g s' => Sys2Proof.Machine.execLs2SldW g s' s
  | .ls2SldD g s' => Sys2Proof.Machine.execLs2SldD g s' s
  | .ls2SldBs g s' => Sys2Proof.Machine.execLs2SldBs g s' s
  | .ls2SldHs g s' => Sys2Proof.Machine.execLs2SldHs g s' s
  | .ls2SldWs g s' => Sys2Proof.Machine.execLs2SldWs g s' s
  | .ls2LdioB g s' => Sys2Proof.Machine.execLs2LdioB g s' s
  | .ls2LdioH g s' => Sys2Proof.Machine.execLs2LdioH g s' s
  | .ls2LdioW g s' => Sys2Proof.Machine.execLs2LdioW g s' s
  | .ls2LdioD g s' => Sys2Proof.Machine.execLs2LdioD g s' s
  | .ls2StB g s' => Sys2Proof.Machine.execLs2StB g s' s
  | .ls2StH g s' => Sys2Proof.Machine.execLs2StH g s' s
  | .ls2StW g s' => Sys2Proof.Machine.execLs2StW g s' s
  | .ls2StD g s' => Sys2Proof.Machine.execLs2StD g s' s
  | .ls2SstB g s' => Sys2Proof.Machine.execLs2SstB g s' s
  | .ls2SstH g s' => Sys2Proof.Machine.execLs2SstH g s' s
  | .ls2SstW g s' => Sys2Proof.Machine.execLs2SstW g s' s
  | .ls2SstD g s' => Sys2Proof.Machine.execLs2SstD g s' s
  | .ls2AtAdd g s' => Sys2Proof.Machine.execLs2AtAdd g s' s
  | .ls2AtAnd g s' => Sys2Proof.Machine.execLs2AtAnd g s' s
  | .ls2AtOr g s' => Sys2Proof.Machine.execLs2AtOr g s' s
  | .ls2AtXor g s' => Sys2Proof.Machine.execLs2AtXor g s' s
  | .ls2AtMin g s' => Sys2Proof.Machine.execLs2AtMin g s' s
  | .ls2AtMax g s' => Sys2Proof.Machine.execLs2AtMax g s' s
  | .ls2AtMinu g s' => Sys2Proof.Machine.execLs2AtMinu g s' s
  | .ls2AtMaxu g s' => Sys2Proof.Machine.execLs2AtMaxu g s' s
  | .ls2AtFadd g s' => Sys2Proof.Machine.execLs2AtFadd g s' s
  | .ls2AtSwp g s' => Sys2Proof.Machine.execLs2AtSwp g s' s
  | .ls2AtCas g s' => Sys2Proof.Machine.execLs2AtCas g s' s
  | .ls2LdAcq g s' => Sys2Proof.Machine.execLs2LdAcq g s' s
  | .ls2StRel g s' => Sys2Proof.Machine.execLs2StRel g s' s
  | .ls2Acq g s' => Sys2Proof.Machine.execLs2Acq g s' s
  | .ls2Rel g s' => Sys2Proof.Machine.execLs2Rel g s' s
  | .ls2Fence g s' => Sys2Proof.Machine.execLs2Fence g s' s
  | .ls2Moor g s' => Sys2Proof.Machine.execLs2Moor g s' s
  | .ls2Unmoor g s' => Sys2Proof.Machine.execLs2Unmoor g s' s
  | .ls2PoolShare g s' => Sys2Proof.Machine.execLs2PoolShare g s' s
  | .ls2PoolDrop g s' => Sys2Proof.Machine.execLs2PoolDrop g s' s
  | .ls2PoolAlloc g s' => Sys2Proof.Machine.execLs2PoolAlloc g s' s
  | .ls2Xlinv g s' => Sys2Proof.Machine.execLs2Xlinv g s' s
  | .ls2Xlwait g s' => Sys2Proof.Machine.execLs2Xlwait g s' s
  | .ls2Icinv g s' => Sys2Proof.Machine.execLs2Icinv g s' s
  | .ls2Cwb g s' => Sys2Proof.Machine.execLs2Cwb g s' s
  | .ls2Cinv g s' => Sys2Proof.Machine.execLs2Cinv g s' s
  | .ls2Ea0 g s' => Sys2Proof.Machine.execLs2Ea0 g s' s
  | .ls2Ea1 g s' => Sys2Proof.Machine.execLs2Ea1 g s' s
  | .ls2Ea2 g s' => Sys2Proof.Machine.execLs2Ea2 g s' s
  | .ls2Ea3 g s' => Sys2Proof.Machine.execLs2Ea3 g s' s
  | .ls2Ea4 g s' => Sys2Proof.Machine.execLs2Ea4 g s' s
  | .ls2Ea5 g s' => Sys2Proof.Machine.execLs2Ea5 g s' s
  | .ls2Ea6 g s' => Sys2Proof.Machine.execLs2Ea6 g s' s
  | .mx6Tld g s' => Sys2Proof.Machine.execMx6Tld g s' s
  | .mx6Tldv g s' => Sys2Proof.Machine.execMx6Tldv g s' s
  | .mx6Tst g s' => Sys2Proof.Machine.execMx6Tst g s' s
  | .mx6Trd g s' => Sys2Proof.Machine.execMx6Trd g s' s
  | .mx6Shset g s' => Sys2Proof.Machine.execMx6Shset g s' s
  | .mx6Shget g s' => Sys2Proof.Machine.execMx6Shget g s' s
  | .mx6Step g s' => Sys2Proof.Machine.execMx6Step g s' s
  | .mx6Azero g s' => Sys2Proof.Machine.execMx6Azero g s' s
  | .mx6Ard g s' => Sys2Proof.Machine.execMx6Ard g s' s
  | .mx6Awr g s' => Sys2Proof.Machine.execMx6Awr g s' s
  | .mx6Acvt g s' => Sys2Proof.Machine.execMx6Acvt g s' s
  | .mx6Acvts g s' => Sys2Proof.Machine.execMx6Acvts g s' s
  | .mx6Aldq g s' => Sys2Proof.Machine.execMx6Aldq g s' s
  | .mx6Bchain g s' => Sys2Proof.Machine.execMx6Bchain g s' s
  | .mx6Bsend g s' => Sys2Proof.Machine.execMx6Bsend g s' s
  | .mx6Bwait g s' => Sys2Proof.Machine.execMx6Bwait g s' s
  | .mx6Bfree g s' => Sys2Proof.Machine.execMx6Bfree g s' s
  | .mx6Bsts g s' => Sys2Proof.Machine.execMx6Bsts g s' s
  | .mx6Rsts g s' => Sys2Proof.Machine.execMx6Rsts g s' s
  | .mx6Rclr g s' => Sys2Proof.Machine.execMx6Rclr g s' s
  | .ex7Vld32 g s' => Sys2Proof.Machine.execEx7Vld32 g s' s
  | .ex7Vld64 g s' => Sys2Proof.Machine.execEx7Vld64 g s' s
  | .ex7Vld128 g s' => Sys2Proof.Machine.execEx7Vld128 g s' s
  | .ex7Svld32 g s' => Sys2Proof.Machine.execEx7Svld32 g s' s
  | .ex7Svld64 g s' => Sys2Proof.Machine.execEx7Svld64 g s' s
  | .ex7Svld128 g s' => Sys2Proof.Machine.execEx7Svld128 g s' s
  | .ex7Eld g s' => Sys2Proof.Machine.execEx7Eld g s' s
  | .ex7Vst32 g s' => Sys2Proof.Machine.execEx7Vst32 g s' s
  | .ex7Vst64 g s' => Sys2Proof.Machine.execEx7Vst64 g s' s
  | .ex7Vst128 g s' => Sys2Proof.Machine.execEx7Vst128 g s' s
  | .ex7Svst32 g s' => Sys2Proof.Machine.execEx7Svst32 g s' s
  | .ex7Svst64 g s' => Sys2Proof.Machine.execEx7Svst64 g s' s
  | .ex7Svst128 g s' => Sys2Proof.Machine.execEx7Svst128 g s' s
  | .ex7Est g s' => Sys2Proof.Machine.execEx7Est g s' s
  | .ex7Lavg g s' => Sys2Proof.Machine.execEx7Lavg g s' s
  | .ex7LavgHome g s' => Sys2Proof.Machine.execEx7LavgHome g s' s
  | .ex7LavgRow g s' => Sys2Proof.Machine.execEx7LavgRow g s' s
  | .ex7LavgRowHome g s' => Sys2Proof.Machine.execEx7LavgRowHome g s' s
  | .ex7Ldet g s' => Sys2Proof.Machine.execEx7Ldet g s' s
  | .ex7LdetHome g s' => Sys2Proof.Machine.execEx7LdetHome g s' s
  | .ex7Trst g s' => Sys2Proof.Machine.execEx7Trst g s' s
  | .ex7Tdld g s' => Sys2Proof.Machine.execEx7Tdld g s' s
  | .ex7QSet g s' => Sys2Proof.Machine.execEx7QSet g s' s
  | .ex7QPush g s' => Sys2Proof.Machine.execEx7QPush g s' s
  | .ex7QPop g s' => Sys2Proof.Machine.execEx7QPop g s' s
  | .ex7QAdv g s' => Sys2Proof.Machine.execEx7QAdv g s' s
  | .ex7QSts g s' => Sys2Proof.Machine.execEx7QSts g s' s
  | .ex7CpReg g s' => Sys2Proof.Machine.execEx7CpReg g s' s
  | .ex7CpGo g s' => Sys2Proof.Machine.execEx7CpGo g s' s
  | .ex7CpDrain g s' => Sys2Proof.Machine.execEx7CpDrain g s' s
  | .ex7CpSts g s' => Sys2Proof.Machine.execEx7CpSts g s' s
  | .ex7SqPost g s' => Sys2Proof.Machine.execEx7SqPost g s' s
  | .ex7SqCqack g s' => Sys2Proof.Machine.execEx7SqCqack g s' s
  | .blockEntry core => Sys2Proof.Machine.execBlockEntry core s
  | .bundlePass core => Sys2Proof.Machine.execBundlePass core s
  | .resultLanding core id => Sys2Proof.Machine.execResultLanding core id s
  | .blockCommit core => Sys2Proof.Machine.execBlockCommit core s
  | .denialNotice core => Sys2Proof.Machine.execDenialNotice core s
  | .poisonNotice core => Sys2Proof.Machine.execPoisonNotice core s
  | .iterationBoundary core => Sys2Proof.Machine.execIterationBoundary core s
  | .tableWalk die => Sys2Proof.Machine.execTableWalk die s
  | .walkQueueRetry die => Sys2Proof.Machine.execWalkQueueRetry die s
  | .invalidationObserved id unit => Sys2Proof.Machine.execInvalidationObserved id unit s
  | .invalidationComplete id => Sys2Proof.Machine.execInvalidationComplete id s
  | .copyOnWrite core va => Sys2Proof.Machine.execCopyOnWrite core va s
  | .entryInvalidation pa => Sys2Proof.Machine.execEntryInvalidation pa s
  | .l1Fill core va => Sys2Proof.Machine.execL1Fill core va s
  | .atomicAtHome core => Sys2Proof.Machine.execAtomicAtHome core s
  | .treeUpdate core => Sys2Proof.Machine.execTreeUpdate core s
  | .packWrite pack => Sys2Proof.Machine.execPackWrite pack s
  | .hbmScrub block => Sys2Proof.Machine.execHbmScrub block s
  | .pcieRequesterAccess port rid pa len write data => Sys2Proof.Machine.execPcieRequesterAccess port rid pa len write data s
  | .fabricRemoteAccess link dev pa len kind mode data => Sys2Proof.Machine.execFabricRemoteAccess link dev pa len kind mode data s
  | .atinvWrite target v => Sys2Proof.Machine.execAtinvWrite target v s
  | .atinvComplete target => Sys2Proof.Machine.execAtinvComplete target s
  | .l2modeWrite v => Sys2Proof.Machine.execL2modeWrite v s
  | .l2modeSwitchEnd => Sys2Proof.Machine.execL2modeSwitchEnd s
  | .rrctlWrite n v => Sys2Proof.Machine.execRrctlWrite n v s
  | .killctlWrite v => Sys2Proof.Machine.execKillctlWrite v s
  | .killAbortTimeout n => Sys2Proof.Machine.execKillAbortTimeout n s
  | .killComplete => Sys2Proof.Machine.execKillComplete s
  | .registerWrite pa v => Sys2Proof.Machine.execRegisterWrite pa v s
  | .coreTakeWork core => Sys2Proof.Machine.execCoreTakeWork core s
  | .scratchpadZeroing core => Sys2Proof.Machine.execScratchpadZeroing core s
  | .taskStart core => Sys2Proof.Machine.execTaskStart core s
  | .launchStart stream => Sys2Proof.Machine.execLaunchStart stream s
  | .crewAdmission => Sys2Proof.Machine.execCrewAdmission s
  | .recordComplete core => Sys2Proof.Machine.execRecordComplete core s
  | .copyRecordRun core => Sys2Proof.Machine.execCopyRecordRun core s
  | .shareReport slot cluster => Sys2Proof.Machine.execShareReport slot cluster s
  | .launchComplete stream => Sys2Proof.Machine.execLaunchComplete stream s
  | .quantumBoundary => Sys2Proof.Machine.execQuantumBoundary s
  | .streamMap => Sys2Proof.Machine.execStreamMap s
  | .preemptionTaken core => Sys2Proof.Machine.execPreemptionTaken core s
  | .stubTimeout core => Sys2Proof.Machine.execStubTimeout core s
  | .yieldSave core => Sys2Proof.Machine.execYieldSave core s
  | .frameResume core => Sys2Proof.Machine.execFrameResume core s
  | .parkInPlace core => Sys2Proof.Machine.execParkInPlace core s
  | .barrierComplete crew => Sys2Proof.Machine.execBarrierComplete crew s
  | .waitReady core => Sys2Proof.Machine.execWaitReady core s
  | .drainComplete core => Sys2Proof.Machine.execDrainComplete core s
  | .matrixCommandFire core => Sys2Proof.Machine.execMatrixCommandFire core s
  | .residueRetry core ok => Sys2Proof.Machine.execResidueRetry core ok s
  | .ex7CommandFire core => Sys2Proof.Machine.execEx7CommandFire core s
  | .nestCopyEmit core ch => Sys2Proof.Machine.execNestCopyEmit core ch s
  | .addOnRowApply core phase => Sys2Proof.Machine.execAddOnRowApply core phase s
  | .basinRowArrival core retries => Sys2Proof.Machine.execBasinRowArrival core retries s
  | .chainBroken crew ch => Sys2Proof.Machine.execChainBroken crew ch s
  | .voltageSettled cluster => Sys2Proof.Machine.execVoltageSettled cluster s
  | .sampleWindowBoundary levels => Sys2Proof.Machine.execSampleWindowBoundary levels s
  | .thermalLimitChange zone celsius => Sys2Proof.Machine.execThermalLimitChange zone celsius s
  | .emergencySave => Sys2Proof.Machine.execEmergencySave s
  | .powerCut => Sys2Proof.Machine.execPowerCut s
  | .roundBoundary => Sys2Proof.Machine.execRoundBoundary s
  | .noticeEffect => Sys2Proof.Machine.execNoticeEffect s
  | .heartbeatSend => Sys2Proof.Machine.execHeartbeatSend s
  | .silenceTimeout dev => Sys2Proof.Machine.execSilenceTimeout dev s
  | .evictTimeout dev => Sys2Proof.Machine.execEvictTimeout dev s
  | .joinTimeout => Sys2Proof.Machine.execJoinTimeout s
  | .tidectlWrite v => Sys2Proof.Machine.execTidectlWrite v s
  | .timeSyncSend => Sys2Proof.Machine.execTimeSyncSend s
  | .heartbeat m => Sys2Proof.Machine.execHeartbeat m s
  | .notice m => Sys2Proof.Machine.execNotice m s
  | .release m => Sys2Proof.Machine.execRelease m s
  | .joinReq m => Sys2Proof.Machine.execJoinReq m s
  | .joinAck m rest => Sys2Proof.Machine.execJoinAck m rest s
  | .join m => Sys2Proof.Machine.execJoin m s
  | .leave m => Sys2Proof.Machine.execLeave m s
  | .evict m => Sys2Proof.Machine.execEvict m s
  | .timeReq m => Sys2Proof.Machine.execTimeReq m s
  | .timeRsp m => Sys2Proof.Machine.execTimeRsp m s
  | .flow zone value => Sys2Proof.Machine.execFlow zone value s
  | .ack seq => Sys2Proof.Machine.execAck seq s
  | .ackTimeout => Sys2Proof.Machine.execAckTimeout s
  | .valveRefresh zone value => Sys2Proof.Machine.execValveRefresh zone value s
  | .launch link m => Sys2Proof.Machine.execLaunch link m s
  | .complete m => Sys2Proof.Machine.execComplete m s
  | .fault m => Sys2Proof.Machine.execFault m s
  | .mgmtRegisterRead m => Sys2Proof.Machine.execMgmtRegisterRead m s
  | .mgmtRegisterWrite m => Sys2Proof.Machine.execMgmtRegisterWrite m s
  | .mgmtAttestation m nonce => Sys2Proof.Machine.execMgmtAttestation m nonce s
  | .mgmtRestart m => Sys2Proof.Machine.execMgmtRestart m s
  | .mgmtStatus m => Sys2Proof.Machine.execMgmtStatus m s
  | .linkLaneShed link => Sys2Proof.Machine.execLinkLaneShed link s
  | .linkDown link => Sys2Proof.Machine.execLinkDown link s
  | .reset => Sys2Proof.Machine.execReset s
  | .accessAtTarget core => Sys2Proof.Machine.execAccessAtTarget core s
  | .eccError unit n corrected => Sys2Proof.Machine.execEccError unit n corrected s
  | .linkResume link => Sys2Proof.Machine.execLinkResume link s
  | .voltageLoweringDone cluster => Sys2Proof.Machine.execVoltageLoweringDone cluster s
  | .icinvComplete core => Sys2Proof.Machine.execIcinvComplete core s
  | .unknownMessageType m => Sys2Proof.Machine.execUnknownMessageType m s

end Sys2Proof.Machine
end

