-- ==== Sys2Proof/Machine/Turn.lean ====
section
/-!
DEFINITION. The turns of the cores and of the device: the core whose turn it is goes on with its next parcel, or, when
that waits, with what its own parts do; the device has its turn after the last core (log entry 1).
-/

namespace Sys2Proof.Machine

/-! ### The parcel that passes -/

/-- The next parcel of a core: the first of its bundle that has not been performed (06 R169, R179). -/
def Core.parcel (c : Core) : Option (Slot × Parcel) :=
  if c.ctl.phase = .run ∧ c.ctl.waiting = none then c.ctl.todo.head? else none

/-- Decode a parcel and perform it. -/
noncomputable def runParcel (m : Slot × Parcel) (s : State) : Option Out := (decodeParcel m.1 m.2).map fun i => exec i s

/-- `runParcel` of slot 6 without the instruction, for compiled code. -/
def runMx6 (g : Guard) (src : Src) (op : Nat) (s : State) : Option Out :=
  match op with
  | 0x00 => some (execMx6Tld g src s)
  | 0x01 => some (execMx6Tldv g src s)
  | 0x02 => some (execMx6Tst g src s)
  | 0x03 => some (execMx6Trd g src s)
  | 0x08 => some (execMx6Shset g src s)
  | 0x09 => some (execMx6Shget g src s)
  | 0x20 => some (execMx6Step g src s)
  | 0x30 => some (execMx6Azero g src s)
  | 0x31 => some (execMx6Ard g src s)
  | 0x32 => some (execMx6Awr g src s)
  | 0x33 => some (execMx6Acvt g src s)
  | 0x34 => some (execMx6Acvts g src s)
  | 0x35 => some (execMx6Aldq g src s)
  | 0x50 => some (execMx6Bchain g src s)
  | 0x51 => some (execMx6Bsend g src s)
  | 0x52 => some (execMx6Bwait g src s)
  | 0x53 => some (execMx6Bfree g src s)
  | 0x54 => some (execMx6Bsts g src s)
  | 0x70 => some (execMx6Rsts g src s)
  | 0x71 => some (execMx6Rclr g src s)
  | _ => none

/-- `runParcel` of slot 7 without the instruction, for compiled code. -/
def runEx7 (g : Guard) (src : Src) (op : Nat) (s : State) : Option Out :=
  match op with
  | 0x00 => some (execEx7Vld32 g src s)
  | 0x01 => some (execEx7Vld64 g src s)
  | 0x02 => some (execEx7Vld128 g src s)
  | 0x04 => some (execEx7Svld32 g src s)
  | 0x05 => some (execEx7Svld64 g src s)
  | 0x06 => some (execEx7Svld128 g src s)
  | 0x08 => some (execEx7Eld g src s)
  | 0x10 => some (execEx7Vst32 g src s)
  | 0x11 => some (execEx7Vst64 g src s)
  | 0x12 => some (execEx7Vst128 g src s)
  | 0x14 => some (execEx7Svst32 g src s)
  | 0x15 => some (execEx7Svst64 g src s)
  | 0x16 => some (execEx7Svst128 g src s)
  | 0x18 => some (execEx7Est g src s)
  | 0x20 => some (execEx7Lavg g src s)
  | 0x21 => some (execEx7LavgHome g src s)
  | 0x22 => some (execEx7LavgRow g src s)
  | 0x23 => some (execEx7LavgRowHome g src s)
  | 0x24 => some (execEx7Ldet g src s)
  | 0x25 => some (execEx7LdetHome g src s)
  | 0x28 => some (execEx7Trst g src s)
  | 0x30 => some (execEx7Tdld g src s)
  | 0x40 => some (execEx7QSet g src s)
  | 0x41 => some (execEx7QPush g src s)
  | 0x42 => some (execEx7QPop g src s)
  | 0x43 => some (execEx7QAdv g src s)
  | 0x44 => some (execEx7QSts g src s)
  | 0x60 => some (execEx7CpReg g src s)
  | 0x61 => some (execEx7CpGo g src s)
  | 0x62 => some (execEx7CpDrain g src s)
  | 0x63 => some (execEx7CpSts g src s)
  | 0x90 => some (execEx7SqPost g src s)
  | 0x91 => some (execEx7SqCqack g src s)
  | _ => none

theorem runMx6_eq (g : Guard) (src : Src) (op : Nat) (s : State) :
    (decodeMx6 g src op).map (fun i => exec i s) = runMx6 g src op s := by
  unfold decodeMx6
  split <;> first | rfl | (unfold runMx6; split <;> simp_all)

theorem runEx7_eq (g : Guard) (src : Src) (op : Nat) (s : State) :
    (decodeEx7 g src op).map (fun i => exec i s) = runEx7 g src op s := by
  unfold decodeEx7
  split <;> first | rfl | (unfold runEx7; split <;> simp_all)

def runTriggerFast (sl : Slot) (op : BitVec 8) (g : Guard) (src : Src) (s : State) : Option Out :=
  match sl with
  | .s6 => runMx6 g src op.toNat s
  | .s7 => runEx7 g src op.toNat s
  | sl => (decodeLow sl op g src).map fun i => exec i s

/-- `runParcel` for compiled code. -/
def runParcelFast (m : Slot × Parcel) (s : State) : Option Out :=
  match decodeGuard (m.2.extractLsb' 19 5), decodeSrc (m.2.extractLsb' 9 10) with
  | some g, some src =>
    let d : BitVec 9 := m.2.extractLsb' 0 9
    if d.getLsbD 8 then runTriggerFast m.1 (d.extractLsb' 0 8) g src s
    else (decodeDst m.1 (d.extractLsb' 0 8)).map fun x => exec (.move m.1 g src x) s
  | _, _ => none

@[csimp] theorem runParcel_eq_fast : @runParcel = @runParcelFast := by
  funext m s
  obtain ⟨sl, p⟩ := m
  unfold runParcel runParcelFast decodeParcel decodeBody decodeTrigger runTriggerFast
  dsimp only
  cases decodeGuard (p.extractLsb' 19 5) <;> cases decodeSrc (p.extractLsb' 9 10) <;> dsimp only <;> try rfl
  split
  · cases sl <;> simp only [runMx6_eq, runEx7_eq]
  · rw [Option.map_map]; rfl

/-! ### What happens by itself (log entry 1) -/

/-- The first of some events that changes the state; an event that its rule does not enable changes nothing. -/
def firstChange (s : State) : List (State → Out) → Option Out
  | [] => none
  | f :: fs =>
    match f s with
    | .next t => if t = s then firstChange s fs else some (.next t)
    | o => some o

/-- Whether an idle core may find work: streams are mapped, or lists or deques hold records. SCHCTL.EN stops only the mapping
of streams and the start of launches (09 R237, R251). -/
def State.hasTasks (s : State) : Bool :=
  s.sched.en || !s.sched.slots.isEmpty || !s.sched.ready.isEmpty || !s.sched.deque.isEmpty || !s.sched.spill.isEmpty

/-- The turn passes from core `k` to the next that may have something to do; number 256 stands for the device. -/
def State.passTurn (s : State) (k : Nat) : State :=
  let due (j : Nat) : Bool := s.hasTasks || !(s.core j).idle || (s.core j).partsBusy
  { s with curCore := ((upto (k + 1) (255 - k)).find? due).getD 256 }

/-- The block of core `k` commits, and the turn passes. -/
def commitTurn (k : Nat) (s : State) : Out :=
  match execBlockCommit k s with
  | .next t => .next (t.passTurn k)
  | o => o

/-- The crew of the task on core `k`, for its barrier. -/
def Core.crewId (c : Core) : Nat := match c.task with | some t => t.crew.getD 0 | none => 0

/-- What core `k` does next by where it stands. -/
def phaseEvents (c : Core) (k : Nat) : List (State → Out) :=
  match c.ctl.phase with
  | .idle => [execFrameResume k, execCoreTakeWork k]
  | .starting => [execScratchpadZeroing k, execTaskStart k]
  | .head => [execPreemptionTaken k, execBlockEntry k]
  | .run => [execWaitReady k, execBundlePass k]
  | .commit => [commitTurn k]
  | .release => [execAccessAtTarget k, execAtomicAtHome k, execIcinvComplete k]
  | .iter => [execIterationBoundary k]
  | .barrier => [execPreemptionTaken k, execBarrierComplete c.crewId]
  | .ending _ _ => [execRecordComplete k]
  | .yielding _ => [execYieldSave k]
  | .parking => [execParkInPlace k]
  | .parked => [execPreemptionTaken k]
  | .unparked => []
  | .dying => [execRecordComplete k]

/-- The second try of a step whose residues did not match: its outcome is free (log entry 8). -/
def retryTurn (k : Nat) (s : State) : Out :=
  if !s.pausedBy (clusterOf k) && (s.core k).mx.queue.any fun e => e.retry then execResidueRetry k (!Config.freeBit s.fresh) s.tick else .next s

/-- What arrives at core `k`, however its cluster is throttled. -/
def arrivalEvents (c : Core) (k : Nat) : List (State → Out) :=
  (c.regs.pend.filter fun p => p.load && !p.landed).map (fun p => execResultLanding k p.id) ++
  [execResultLanding k 0, execDenialNotice k, execPoisonNotice k, execStubTimeout k, execDrainComplete k, execBasinRowArrival k 0]

/-- The commands that the parts of core `k` fire: its copy engine, its matrix engine. -/
def commandEvents (c : Core) (k : Nat) : List (State → Out) :=
  [execEx7CommandFire k, execTreeUpdate k, execMatrixCommandFire k, retryTurn k] ++
  (upto 0 8).map (execNestCopyEmit k) ++ [execAddOnRowApply k c.rowPhase, execCopyRecordRun k]

/-- What core `k` may do when no parcel of it passes. -/
def coreEvents (c : Core) (k : Nat) : List (State → Out) := arrivalEvents c k ++ commandEvents c k ++ phaseEvents c k

/-- The engine whose move a slot dispatches: control in slots 0 to 2, vector in 3 to 5, matrix and copy (20 R404). -/
def slotEngine (sl : Slot) : Nat := if sl.num < 3 then 0 else if sl.num < 6 then 1 else if sl.num = 6 then 2 else 3

/-- The engines of a core that wait in this cycle with a present move, a wait among them, or a released command (20 R411). -/
def Core.stalled (c : Core) : List Nat :=
  ((if c.ctl.waiting.isSome then [0] else (c.parcel.map fun (m : Slot × Parcel) => slotEngine m.1).toList) ++
    (if c.mx.queue.any fun e => e.released then [2] else []) ++
    (if c.cp.queue.any (fun h => h.released) || (upto 0 8).any (fun ch => !(c.channel ch).nests.isEmpty) then [3] else [])).eraseDups

/-- The streams that are mapped to a slot and have a launch in flight, with their slots. -/
def State.flights (s : State) : List (Nat × Nat) :=
  (upto 0 64).filterMap fun h => (s.slotOf h).map fun x => (h, x.stream)

def schedulerEvents (s : State) : List (State → Out) :=
  [execCrewAdmission, execStreamMap, execQuantumBoundary] ++
  (upto 0 s.sto.outstanding.length).map (execKillAbortTimeout) ++ [execKillComplete] ++
  s.flights.flatMap fun (e : Nat × Nat) =>
    execLaunchStart e.2 :: execLaunchComplete e.2 ::
      (if (s.stream e.2).flight.isSome then (upto 0 32).map (execShareReport e.1) else [])

def memoryEvents (s : State) : List (State → Out) :=
  s.ms.invals.flatMap (fun (i : Inval) =>
    [execInvalidationObserved i.id (((upto 0 unitCount).find? fun u => !i.seen.contains u).getD 0), execInvalidationComplete i.id]) ++
  (s.ms.targets.filter fun e => e.2.busy).map (fun e => execAtinvComplete e.1) ++
  [execL2modeSwitchEnd, fun t => .next (if t.ms.cows.isEmpty then t else { t with ms := t.ms.payCows })]

def powerEvents (s : State) : List (State → Out) :=
  [execPowerCut, execEmergencySave, execSampleWindowBoundary ((upto 0 32).map fun cl => (s.clusterPwr cl).plvl), execAckTimeout] ++
  s.pwr.clusters.flatMap (fun (e : Nat × ClusterPwr) => [execVoltageSettled e.1, execVoltageLoweringDone e.1]) ++
  (upto 0 16).map (fun z (t : State) =>
    if (t.zone z).sentAt + 32000000 ≤ t.now then execValveRefresh z (t.zone z).valve t else .next t)

def tideEvents (s : State) : List (State → Out) :=
  [execRoundBoundary, execNoticeEffect, execHeartbeatSend, execJoinTimeout, execTimeSyncSend] ++
  s.tide.members.flatMap fun (m : TideMember) => [execSilenceTimeout m.dev, execEvictTimeout m.dev]

def fabricEvents (s : State) : List (State → Out) :=
  s.fab.paused.map (fun e => execLinkResume e.1) ++
  s.sched.crews.flatMap fun (c : Crew) => (upto 0 8).map (execChainBroken c.id)

/-- What the device does when every core has had its turn. -/
def deviceEvents (s : State) : List (State → Out) :=
  powerEvents s ++ schedulerEvents s ++ memoryEvents s ++ tideEvents s ++ fabricEvents s

/-! ### Turns -/

/-- The turn of the device: an event, or, with none left, a reference cycle passes and the cores have their turns. -/
def deviceTurn (s : State) : Out :=
  match firstChange s (deviceEvents s) with
  | some o => o
  | none => .next ({ s.advance 1 with curCore := 0 })

/-- The turn of core `k` when no parcel of it passes. When nothing of it goes on, its waiting engines count a stall cycle,
but for one that throttling pauses (20 R411). -/
def coreTurn (s : State) (k : Nat) : Out :=
  let paused := s.pausedBy (clusterOf k)
  match firstChange s (coreEvents (s.core k) k) with
  | some o => o
  | none => .next (((if paused then [] else (s.core k).stalled).foldl (fun t e => t.countCycle k e false) s).passTurn k)

/-- Whether the parcel at the head of core `k` still waits after it was tried. -/
def State.waits (s t : State) (k : Nat) : Bool := (t.core k).ctl.todo == (s.core k).ctl.todo

/-- The turn of the core whose turn it is. A move that passes is a busy cycle of its engine (20 R411); throttling holds it
(20 R421). -/
def turn (s : State) : Out :=
  match (s.core s.curCore).parcel with
  | none => coreTurn s s.curCore
  | some m =>
    if s.pausedBy (clusterOf s.curCore) then coreTurn s s.curCore
    else match runParcel m s with
      | none => coreTurn s s.curCore
      | some (.next t) =>
        if s.waits t s.curCore then coreTurn s s.curCore else .next (t.countBusy s.curCore (slotEngine m.1))
      | some o => o

/-- The bundle of one parcel. -/
def oneParcel (sl : Slot) (p : Parcel) : Bundle :=
  { hdr := { pres := 1 <<< sl.num, sync := 0, stop := false, x := true, nli := 0, rq := 0 }
    moves := [(sl, p)], long := [], index := 0, stop := 2 }

end Sys2Proof.Machine
end

