-- ==== Sys2Proof/Machine/Step.lean ====
section
/-!
DEFINITION. One step of the machine: the head of the agenda, if there is one, else the turn of a core or of the device
(log entry 1).
-/

namespace Sys2Proof.Machine

/-- One step. A device that does not run (22 R438, R439) goes on in time alone. -/
def step (s : State) : Out :=
  match s.agenda with
  | i :: rest => if (encodeParts i).isNone then exec i { s with agenda := rest } else .next { s with agenda := rest }
  | [] =>
    if s.boot ≠ .running then .next (s.advance 1)
    else if 256 ≤ s.curCore then deviceTurn s
    else turn s

/-- The state with a parcel as what core 0 passes next: a program has been launched, its block entered, and this is the
bundle that passes (log entry 25). -/
def State.withFetchWord (s : State) (_nbits w : Nat) : State :=
  let p : Parcel := BitVec.ofNat 24 w
  let sl : Slot := (slotOfParcel p).getD .s0
  let s1 : State := { s with agenda := [], curCore := 0, boot := .running }
  s1.modCore 0 fun c => { c with ctl := { c.ctl with phase := .run, waiting := none, cur := oneParcel sl p, todo := [(sl, p)] } }

end Sys2Proof.Machine
end

