-- ==== Sys2Proof/WellFormed.lean ====
section
/-!
DEFINITION. Well-formed instructions: what the encoding of an instruction can express (06 R165, R166, 07 R190, R198,
08 R205), and the ranges of what an event names.
-/

namespace Sys2Proof

/-- A special source that R198 assigns. -/
def Special.ok : Special → Bool
  | .tc d => d.toNat < 3
  | .li l => l.toNat < 6
  | _ => true

def Src.ok : Src → Bool
  | .special x => x.ok
  | _ => true

/-- An immediate source (08 R205). -/
def Src.immediate : Src → Bool
  | .long _ => true
  | .short _ => true
  | _ => false

/-- A destination that slot `s` can name (06 R166, 07 R190). -/
def Dst.ok (s : Slot) : Dst → Bool
  | .otherSreg _ => s.crosses
  | .otherVreg _ => s.crosses
  | .oport n => n.toNat < s.oports
  | .pairedOport n => n.toNat < s.paired.oports
  | _ => true

/-- A pack, block, register or core named by an event lies where it can. -/
def wellFormed : Instr → Bool
  | .move sl _ s d => s.ok && d.ok sl
  | .ix1Add _ s => s.ok
  | .ix1Sub _ s => s.ok
  | .ix1Adds _ s => s.ok
  | .ix1Subs _ s => s.ok
  | .ix1And _ s => s.ok
  | .ix1Or _ s => s.ok
  | .ix1Xor _ s => s.ok
  | .ix1Andn _ s => s.ok
  | .ix1Shl _ s => s.ok
  | .ix1Shr _ s => s.ok
  | .ix1Sar _ s => s.ok
  | .ix1Rol _ s => s.ok
  | .ix1Min _ s => s.ok
  | .ix1Max _ s => s.ok
  | .ix1Minu _ s => s.ok
  | .ix1Maxu _ s => s.ok
  | .ix1Clts _ s => s.ok
  | .ix1Cltu _ s => s.ok
  | .ix1Ceq _ s => s.ok
  | .ix1Cne _ s => s.ok
  | .ix1Cles _ s => s.ok
  | .ix1Cleu _ s => s.ok
  | .ix1Shl8 _ s => s.ok
  | .ix1Shl16 _ s => s.ok
  | .ix1Shl32 _ s => s.ok
  | .ix1Shr8 _ s => s.ok
  | .ix1Shr16 _ s => s.ok
  | .ix1Shr32 _ s => s.ok
  | .ix1Sar8 _ s => s.ok
  | .ix1Sar16 _ s => s.ok
  | .ix1Sar32 _ s => s.ok
  | .ix1Add8 _ s => s.ok
  | .ix1Add16 _ s => s.ok
  | .ix1Add32 _ s => s.ok
  | .ix1Mul _ s => s.ok
  | .ix1Mulu _ s => s.ok
  | .ix1Div _ s => s.ok
  | .ix1Divu _ s => s.ok
  | .ix1Rem _ s => s.ok
  | .ix1Remu _ s => s.ok
  | .ix1Bext _ s => s.ok
  | .ix1Bexts _ s => s.ok
  | .ix1Bins _ s => s.ok
  | .ix1Clz _ s => s.ok
  | .ix1Ctz _ s => s.ok
  | .ix1Popc _ s => s.ok
  | .ix1Brev _ s => s.ok
  | .ix1Bswap _ s => s.ok
  | .sfx5Add _ s => s.ok
  | .sfx5Sub _ s => s.ok
  | .sfx5Adds _ s => s.ok
  | .sfx5Subs _ s => s.ok
  | .sfx5And _ s => s.ok
  | .sfx5Or _ s => s.ok
  | .sfx5Xor _ s => s.ok
  | .sfx5Andn _ s => s.ok
  | .sfx5Shl _ s => s.ok
  | .sfx5Shr _ s => s.ok
  | .sfx5Sar _ s => s.ok
  | .sfx5Rol _ s => s.ok
  | .sfx5Min _ s => s.ok
  | .sfx5Max _ s => s.ok
  | .sfx5Minu _ s => s.ok
  | .sfx5Maxu _ s => s.ok
  | .sfx5Clts _ s => s.ok
  | .sfx5Cltu _ s => s.ok
  | .sfx5Ceq _ s => s.ok
  | .sfx5Cne _ s => s.ok
  | .sfx5Cles _ s => s.ok
  | .sfx5Cleu _ s => s.ok
  | .sfx5Shl8 _ s => s.ok
  | .sfx5Shl16 _ s => s.ok
  | .sfx5Shl32 _ s => s.ok
  | .sfx5Shr8 _ s => s.ok
  | .sfx5Shr16 _ s => s.ok
  | .sfx5Shr32 _ s => s.ok
  | .sfx5Sar8 _ s => s.ok
  | .sfx5Sar16 _ s => s.ok
  | .sfx5Sar32 _ s => s.ok
  | .sfx5Add8 _ s => s.ok
  | .sfx5Add16 _ s => s.ok
  | .sfx5Add32 _ s => s.ok
  | .vexAdd _ _ _ s => s.ok
  | .vexSub _ _ _ s => s.ok
  | .vexAdds _ _ _ s => s.ok
  | .vexSubs _ _ _ s => s.ok
  | .vexMin _ _ _ s => s.ok
  | .vexMax _ _ _ s => s.ok
  | .vexAbs _ _ _ s => s.ok
  | .vexNeg _ _ _ s => s.ok
  | .vexAnd _ _ _ s => s.ok
  | .vexOr _ _ _ s => s.ok
  | .vexXor _ _ _ s => s.ok
  | .vexAndn _ _ _ s => s.ok
  | .vexShl _ _ _ s => s.ok
  | .vexShr _ _ _ s => s.ok
  | .vexSar _ _ _ s => s.ok
  | .vexMul _ _ _ s => s.ok
  | .vexFma _ _ _ s => s.ok
  | .vexFms _ _ _ s => s.ok
  | .vexFnma _ _ _ s => s.ok
  | .vexCeq _ _ _ s => s.ok
  | .vexCne _ _ _ s => s.ok
  | .vexClt _ _ _ s => s.ok
  | .vexCle _ _ _ s => s.ok
  | .vexCdet _ _ _ s => s.ok
  | .vexSel _ _ _ s => s.ok
  | .vexCvt _ _ _ s => s.ok
  | .vexPerm _ _ _ s => s.ok
  | .vexBcast _ _ _ s => s.ok
  | .vexSlide _ _ _ s => s.ok
  | .vexRsum _ _ _ s => s.ok
  | .vexRmin _ _ _ s => s.ok
  | .vexRmax _ _ _ s => s.ok
  | .vtset _ _ s => s.ok
  | .vtget _ _ s => s.ok
  | .vtthr _ _ s => s.ok
  | .vtclr _ _ s => s.ok
  | .kand _ _ s => s.ok
  | .kor _ _ s => s.ok
  | .kxor _ _ s => s.ok
  | .kandn _ _ s => s.ok
  | .knot _ _ s => s.ok
  | .kgen _ _ s => s.ok
  | .kpopc _ _ s => s.ok
  | .kffs _ _ s => s.ok
  | .sfx5Rcp _ _ s => s.ok
  | .sfx5Rsqrt _ _ s => s.ok
  | .sfx5Sqrt _ _ s => s.ok
  | .sfx5Div _ _ s => s.ok
  | .sfx5Exp2 _ _ s => s.ok
  | .sfx5Log2 _ _ s => s.ok
  | .sfx5Tanh _ _ s => s.ok
  | .sfx5Sigm _ _ s => s.ok
  | .sfx5Sinpi _ _ s => s.ok
  | .sfx5Cospi _ _ s => s.ok
  | .ctlLvl _ s => s.ok
  | .ctlCabase _ s => s.ok
  | .ctlCastr _ s => s.ok
  | .ctlLoop _ s => s.ok
  | .ctlBsel _ s => s.ok
  | .ctlWait _ s => s.ok
  | .ctlFork _ s => s.ok
  | .ctlJoin _ s => s.ok
  | .ctlSpawn _ s => s.ok
  | .ctlLaunch _ s => s.ok
  | .ctlDone _ s => s.ok
  | .ctlBar _ s => s.ok
  | .ctlSrd _ s => s.ok
  | .ctlSwr _ s => s.ok
  | .ctlTrap _ s => s.ok
  | .ctlRfe _ s => s.ok
  | .ctlPark _ s => s.ok
  | .ctlAbort _ s => s.ok
  | .ctlYield _ s => s.ok
  | .ctlUnpark _ s => s.ok
  | .ctlClkset _ s => s.ok
  | .ctlVset _ s => s.ok
  | .ctlClkrd _ s => s.ok
  | .ctlSwsel _ s => s.ok
  | .exitBr _ _ s => s.ok
  | .exitJmp _ _ s => s.ok
  | .exitCall _ _ s => s.ok
  | .exitCalla _ _ s => s.ok
  | .exitRet _ _ s => s.ok
  | .ls2LdB _ s => s.ok
  | .ls2LdH _ s => s.ok
  | .ls2LdW _ s => s.ok
  | .ls2LdD _ s => s.ok
  | .ls2LdBs _ s => s.ok
  | .ls2LdHs _ s => s.ok
  | .ls2LdWs _ s => s.ok
  | .ls2SldB _ s => s.ok
  | .ls2SldH _ s => s.ok
  | .ls2SldW _ s => s.ok
  | .ls2SldD _ s => s.ok
  | .ls2SldBs _ s => s.ok
  | .ls2SldHs _ s => s.ok
  | .ls2SldWs _ s => s.ok
  | .ls2LdioB _ s => s.ok
  | .ls2LdioH _ s => s.ok
  | .ls2LdioW _ s => s.ok
  | .ls2LdioD _ s => s.ok
  | .ls2StB _ s => s.ok
  | .ls2StH _ s => s.ok
  | .ls2StW _ s => s.ok
  | .ls2StD _ s => s.ok
  | .ls2SstB _ s => s.ok
  | .ls2SstH _ s => s.ok
  | .ls2SstW _ s => s.ok
  | .ls2SstD _ s => s.ok
  | .ls2AtAdd _ s => s.ok && s.immediate
  | .ls2AtAnd _ s => s.ok && s.immediate
  | .ls2AtOr _ s => s.ok && s.immediate
  | .ls2AtXor _ s => s.ok && s.immediate
  | .ls2AtMin _ s => s.ok && s.immediate
  | .ls2AtMax _ s => s.ok && s.immediate
  | .ls2AtMinu _ s => s.ok && s.immediate
  | .ls2AtMaxu _ s => s.ok && s.immediate
  | .ls2AtFadd _ s => s.ok && s.immediate
  | .ls2AtSwp _ s => s.ok && s.immediate
  | .ls2AtCas _ s => s.ok && s.immediate
  | .ls2LdAcq _ s => s.ok && s.immediate
  | .ls2StRel _ s => s.ok && s.immediate
  | .ls2Acq _ s => s.ok && s.immediate
  | .ls2Rel _ s => s.ok && s.immediate
  | .ls2Fence _ s => s.ok && s.immediate
  | .ls2Moor _ s => s.ok
  | .ls2Unmoor _ s => s.ok
  | .ls2PoolShare _ s => s.ok
  | .ls2PoolDrop _ s => s.ok
  | .ls2PoolAlloc _ s => s.ok
  | .ls2Xlinv _ s => s.ok && s.immediate
  | .ls2Xlwait _ s => s.ok
  | .ls2Icinv _ s => s.ok
  | .ls2Cwb _ s => s.ok
  | .ls2Cinv _ s => s.ok
  | .ls2Ea0 _ s => s.ok
  | .ls2Ea1 _ s => s.ok
  | .ls2Ea2 _ s => s.ok
  | .ls2Ea3 _ s => s.ok
  | .ls2Ea4 _ s => s.ok
  | .ls2Ea5 _ s => s.ok
  | .ls2Ea6 _ s => s.ok
  | .mx6Tld _ s => s.ok
  | .mx6Tldv _ s => s.ok
  | .mx6Tst _ s => s.ok
  | .mx6Trd _ s => s.ok
  | .mx6Shset _ s => s.ok
  | .mx6Shget _ s => s.ok
  | .mx6Step _ s => s.ok
  | .mx6Azero _ s => s.ok
  | .mx6Ard _ s => s.ok
  | .mx6Awr _ s => s.ok
  | .mx6Acvt _ s => s.ok
  | .mx6Acvts _ s => s.ok
  | .mx6Aldq _ s => s.ok
  | .mx6Bchain _ s => s.ok
  | .mx6Bsend _ s => s.ok
  | .mx6Bwait _ s => s.ok
  | .mx6Bfree _ s => s.ok
  | .mx6Bsts _ s => s.ok
  | .mx6Rsts _ s => s.ok
  | .mx6Rclr _ s => s.ok
  | .ex7Vld32 _ s => s.ok
  | .ex7Vld64 _ s => s.ok
  | .ex7Vld128 _ s => s.ok
  | .ex7Svld32 _ s => s.ok
  | .ex7Svld64 _ s => s.ok
  | .ex7Svld128 _ s => s.ok
  | .ex7Eld _ s => s.ok
  | .ex7Vst32 _ s => s.ok
  | .ex7Vst64 _ s => s.ok
  | .ex7Vst128 _ s => s.ok
  | .ex7Svst32 _ s => s.ok
  | .ex7Svst64 _ s => s.ok
  | .ex7Svst128 _ s => s.ok
  | .ex7Est _ s => s.ok
  | .ex7Lavg _ s => s.ok
  | .ex7LavgHome _ s => s.ok
  | .ex7LavgRow _ s => s.ok
  | .ex7LavgRowHome _ s => s.ok
  | .ex7Ldet _ s => s.ok
  | .ex7LdetHome _ s => s.ok
  | .ex7Trst _ s => s.ok
  | .ex7Tdld _ s => s.ok
  | .ex7QSet _ s => s.ok
  | .ex7QPush _ s => s.ok
  | .ex7QPop _ s => s.ok
  | .ex7QAdv _ s => s.ok
  | .ex7QSts _ s => s.ok
  | .ex7CpReg _ s => s.ok
  | .ex7CpGo _ s => s.ok
  | .ex7CpDrain _ s => s.ok
  | .ex7CpSts _ s => s.ok
  | .ex7SqPost _ s => s.ok
  | .ex7SqCqack _ s => s.ok
  | .blockEntry core => decide (core < 256)
  | .bundlePass core => decide (core < 256)
  | .resultLanding core _ => decide (core < 256)
  | .blockCommit core => decide (core < 256)
  | .denialNotice core => decide (core < 256)
  | .poisonNotice core => decide (core < 256)
  | .iterationBoundary core => decide (core < 256)
  | .tableWalk die => decide (die < 4)
  | .walkQueueRetry die => decide (die < 4)
  | .invalidationObserved _ _ => true
  | .invalidationComplete _ => true
  | .copyOnWrite core va => decide (core < 256) && decide (va < 2 ^ 64)
  | .entryInvalidation pa => decide (pa < 2 ^ 44)
  | .l1Fill core va => decide (core < 256) && decide (va < 2 ^ 64)
  | .atomicAtHome core => decide (core < 256)
  | .treeUpdate core => decide (core < 256)
  | .packWrite pack => decide (pack < 2 ^ 36)
  | .hbmScrub block => decide (block < 2 ^ 38)
  | .pcieRequesterAccess port rid pa len _ _ => decide (port < 4) && decide (rid < 65536) && decide (pa < 2 ^ 44) && decide (len < 129)
  | .fabricRemoteAccess link dev pa len _ _ _ => decide (link < 32) && decide (dev < 65536) && decide (pa < 2 ^ 44) && decide (len < 129)
  | .atinvWrite target _ => decide (target < 184)
  | .atinvComplete target => decide (target < 184)
  | .l2modeWrite _ => true
  | .l2modeSwitchEnd => true
  | .rrctlWrite n _ => decide (n < 2 ^ 44)
  | .killctlWrite _ => true
  | .killAbortTimeout n => decide (n < 2 ^ 44)
  | .killComplete => true
  | .registerWrite pa _ => decide (pa < 2 ^ 44)
  | .coreTakeWork core => decide (core < 256)
  | .scratchpadZeroing core => decide (core < 256)
  | .taskStart core => decide (core < 256)
  | .launchStart stream => decide (stream < 4096)
  | .crewAdmission => true
  | .recordComplete core => decide (core < 256)
  | .copyRecordRun core => decide (core < 256)
  | .shareReport slot cluster => decide (slot < 64) && decide (cluster < 32)
  | .launchComplete stream => decide (stream < 4096)
  | .quantumBoundary => true
  | .streamMap => true
  | .preemptionTaken core => decide (core < 256)
  | .stubTimeout core => decide (core < 256)
  | .yieldSave core => decide (core < 256)
  | .frameResume core => decide (core < 256)
  | .parkInPlace core => decide (core < 256)
  | .barrierComplete _ => true
  | .waitReady core => decide (core < 256)
  | .drainComplete core => decide (core < 256)
  | .matrixCommandFire core => decide (core < 256)
  | .residueRetry core _ => decide (core < 256)
  | .ex7CommandFire core => decide (core < 256)
  | .nestCopyEmit core ch => decide (core < 256) && decide (ch < 8)
  | .addOnRowApply core _ => decide (core < 256)
  | .basinRowArrival core _ => decide (core < 256)
  | .chainBroken _ ch => decide (ch < 8)
  | .voltageSettled cluster => decide (cluster < 32)
  | .sampleWindowBoundary _ => true
  | .thermalLimitChange zone _ => decide (zone < 16)
  | .emergencySave => true
  | .powerCut => true
  | .roundBoundary => true
  | .noticeEffect => true
  | .heartbeatSend => true
  | .silenceTimeout dev => decide (dev < 65536)
  | .evictTimeout dev => decide (dev < 65536)
  | .joinTimeout => true
  | .tidectlWrite _ => true
  | .timeSyncSend => true
  | .heartbeat _ => true
  | .notice _ => true
  | .release _ => true
  | .joinReq _ => true
  | .joinAck _ _ => true
  | .join _ => true
  | .leave _ => true
  | .evict _ => true
  | .timeReq _ => true
  | .timeRsp _ => true
  | .flow zone value => decide (zone < 16) && decide (value < 256)
  | .ack seq => decide (seq < 256)
  | .ackTimeout => true
  | .valveRefresh zone value => (decide (zone < 16) || zone == 255) && decide (value < 256)
  | .launch link _ => decide (link < 32)
  | .complete _ => true
  | .fault _ => true
  | .mgmtRegisterRead _ => true
  | .mgmtRegisterWrite _ => true
  | .mgmtAttestation _ _ => true
  | .mgmtRestart _ => true
  | .mgmtStatus _ => true
  | .linkLaneShed link => decide (link < 32)
  | .linkDown link => decide (link < 32)
  | .reset => true
  | .accessAtTarget core => decide (core < 256)
  | .eccError _ n _ => decide (n < 2 ^ 44)
  | .linkResume link => decide (link < 32)
  | .voltageLoweringDone cluster => decide (cluster < 32)
  | .icinvComplete core => decide (core < 256)
  | .unknownMessageType _ => true

/-- An instruction that the encoding can express. -/
abbrev WellFormed (i : Instr) : Prop := wellFormed i = true

end Sys2Proof
end

