-- ==== Sys2Proof/Safety.lean ====
section
/-!
DEFINITION. The terms that claims are stated in: when a parcel passes, what a write of a register does to every read,
and the invariants of the machine.
-/

namespace Sys2Proof.Machine

/-! ### Parcels that pass -/

/-- The core whose turn it is. -/
def State.me (s : State) : Core := s.core s.curCore

/-- A trigger of slot `sl` passes: its guard can be read and is true, its source and the places `reads` that it reads
besides can be read, nothing that it consumes carries poison, a denial or an error, and no lower slot of its bundle has met
such a value (06 R164, R177, R179; 18 R378, R379). -/
def State.PassesWith (s : State) (sl : Slot) (g : Guard) (src : Src) (reads : List Loc) : Prop :=
  s.me.guardReady g = true ∧ s.me.metBad sl (s.me.guardBad g) = none ∧ s.me.guard g = true ∧ s.me.srcReady sl src = true ∧
  reads.all s.me.isReady = true ∧ s.me.operandBad sl src reads = none

/-- The same for a trigger that reads its ports alone. -/
def State.Passes (s : State) (sl : Slot) (g : Guard) (src : Src) : Prop := s.PassesWith sl g src []

/-- A move parcel of slot `sl` passes. -/
def State.Moves (s : State) (sl : Slot) (g : Guard) (src : Src) : Prop :=
  s.me.guardReady g = true ∧ s.me.guardBad g = none ∧ s.me.guard g = true ∧ s.me.srcReady sl src = true ∧ s.me.srcBad sl src = none

/-- The value that a parcel writes to a port of width `dk` (06 R168). -/
def State.value (s : State) (sl : Slot) (src : Src) (dk : DKind) : Vec :=
  convert (srcValue s s.curCore sl src).2 (srcValue s s.curCore sl src).1 dk

/-- The written value of a port of 64 bits. -/
def State.word (s : State) (sl : Slot) (src : Src) : Word := (s.value sl src .scalar).setWidth 64

/-- The state in which the parcel is done and the core whose turn it is has become `f` of what it was; nothing outside
that core has changed. -/
def State.after (s : State) (f : Core → Core) : State := s.setCore s.curCore (f s.me.pop)

/-- The precise fault of a code at a parcel of slot `sl`, with the address that the fault registers take: the block of
the core whose turn it is is abandoned, and its handler entered (18 R380, R383). -/
def State.faults (s : State) (sl : Slot) (code addr kind : Nat) : State :=
  takeFault (s.setCore s.curCore s.me.pop) s.curCore
    { code := code, addr := addr, kind := kind, slot := sl.num, bidx := s.me.ctl.bidx }

/-- The precise fault of a translation, met with memory in state `ms` (01 R21, 18 R380). -/
def State.accessFaults (s : State) (ms : MemSys) (sl : Slot) (f : XFault) (kind : Nat) : State :=
  takeFault ({ s with ms := ms }.setCore s.curCore s.me.pop) s.curCore
    { code := f.code, addr := f.addr, kind := kind, lvl := f.lvl, slot := sl.num, bidx := s.me.ctl.bidx }

/-- Core `c'` is core `c` but for one write of place `l`: a read in a bundle from the `d`-th after this one on gives the
written value, every other read of every place gives what it gave, and everything else in the core is as it was
(06 R169, R177). -/
def Core.Wrote (c : Core) (l : Loc) (op : WriteOp) (v : Vec) (d : Nat) (c' : Core) : Prop :=
  c' = { c with regs := c'.regs } ∧ c'.regs.handler = c.regs.handler ∧
  ∀ key m blk,
    let seen := key = c.key l ∧ c.ctl.bcount + d ≤ m
    c'.regs.read key m blk = (if seen then applyOp op (c.regs.read key m blk) v else c.regs.read key m blk) ∧
    c'.regs.ready key m blk = c.regs.ready key m blk ∧
    c'.regs.bad key m blk = (if seen ∧ op = .put then none else c.regs.bad key m blk)

/-- No higher slot of the current bundle has written place `l`: parcels pass in the order of slots (06 R169). -/
def Core.FirstAt (c : Core) (sl : Slot) (l : Loc) : Prop :=
  ∀ e ∈ c.regs.pend, e.key = c.key l → e.trig = c.ctl.bcount → e.slot ≤ sl.num

/-- The same for both result ports of a unit and for VT. -/
def Core.FirstResults (c : Core) (sl : Slot) : Prop :=
  c.FirstAt sl (.rport sl.num false) ∧ c.FirstAt sl (.rport sl.num true) ∧ c.FirstAt sl .vt

/-! ### Numbers (02 R42 to R62) -/

/-- The rational number that an exact value is; a NaN and the infinities count as 0. -/
def Exact.value : Exact → ℚ
  | .fin s m e => (if s then -1 else 1) * m * 2 ^ e
  | _ => 0

/-- The number that a code of a format denotes. -/
def Fmt.value (f : Fmt) (c : Nat) : ℚ := (decodeNum f c).value

/-- The greatest and the least number of a format (02 R42, R43, R45 to R47). -/
def Fmt.top (f : Fmt) : ℚ := f.maxFinite.value
def Fmt.low (f : Fmt) : ℚ := match f with | .int n sg => minInt n sg | f => -f.top

/-- Code `c` is the number of the format nearest to `v`, and of two that are equally near the one with an even code (02 R59,
rne). -/
def Fmt.Nearest (f : Fmt) (v : ℚ) (c : Nat) : Prop :=
  (decodeNum f c).isFin = true ∧ ∀ d, (decodeNum f d).isFin = true →
    |f.value c - v| ≤ |f.value d - v| ∧ (|f.value c - v| = |f.value d - v| → f.value c ≠ f.value d → c % 2 = 0)

/-- Code `c` is the number of the format next to `v` on the side of zero (02 R59, rtz). -/
def Fmt.Toward (f : Fmt) (v : ℚ) (c : Nat) : Prop :=
  (decodeNum f c).isFin = true ∧
  (0 ≤ v → f.value c ≤ v ∧ ∀ d, (decodeNum f d).isFin = true → f.value d ≤ v → f.value d ≤ f.value c) ∧
  (v ≤ 0 → v ≤ f.value c ∧ ∀ d, (decodeNum f d).isFin = true → v ≤ f.value d → f.value c ≤ f.value d)

/-- Code `c` is `v` rounded once to binary32, beyond the range too (11 R285). -/
def RoundsFp32 (v : ℚ) (rtz : Bool) (c : Nat) : Prop :=
  if rtz then (if |v| < 2 ^ 128 then Fmt.fp32.Toward v c else c = if v < 0 then 0xFF7FFFFF else 0x7F7FFFFF)
  else (if |v| < 2 ^ 128 - 2 ^ 103 then Fmt.fp32.Nearest v c else c = if v < 0 then 0xFF800000 else 0x7F800000)

/-! ### Memory that nothing moves -/

/-- Pack `q` of memory stands still: no level-1 copy of its lines has anything to write back, and it is not a dirty pack whose
absent blocks would be dropped when it leaves level 2 (03 R84, R85; 04 R101, R106). What an access brings about in the caches
then leaves its bytes. -/
def MemSys.Settled (ms : MemSys) (q : Nat) : Prop :=
  (SMap.get none ms.dirtyPacks q : Option Bool) ≠ some false ∧ ∀ k, ∀ l ∈ ms.lines k, l.line / 4 = q → l.pending = false

/-! ### Invariants -/

/-- Memory stands in its canonical form. -/
def MemSys.Ok (ms : MemSys) : Prop := Memory.wf ms.mem = true

/-- Memory and the list of cores stand in their canonical forms. -/
def State.Ok (s : State) : Prop := s.ms.Ok ∧ SMap.wf {} s.cores = true

end Sys2Proof.Machine
end

