-- ==== Sys2Proof/Certificates/Slice0/Obligations.lean ====
section
/-!
DEFINITION. The statements for the provers. Each docstring names the rules that its statement formalises.
-/

open Sys2Proof Sys2Proof.Machine

/-! ### Encoding (06 R162 to R169) -/

/-- O1 (06 R163, 10 R257, R262, 08 R208, R211, 11 R283, 13 R311, 15 R347): words written out from the encoding tables
decode to the instructions they stand for. -/
def Obligations.DecodeOfWrittenWords : Prop :=
  decodeParcel .s1 0b00000_1000000001_100000000 = some (.ix1Add .always (.short 1)) ∧
  decodeParcel .s5 0b00000_1111111111_111000001 = some (.sfx5Sub .always (.short 0x1FF)) ∧
  decodeParcel .s4 0b01010_0000100011_101010000 = some (.vexMul .vex4 .w512 (.p 2) (.vreg 3)) ∧
  decodeParcel .s0 0b11111_1000000010_111110000 = some (.exitBr .ctl (.notP 7) (.short 2)) ∧
  decodeParcel .s2 0b00000_0000000101_100000011 = some (.ls2LdD .always (.sreg 5)) ∧
  decodeParcel .s2 0b00000_0100000000_100110000 = some (.ls2AtAdd .always (.long .w0)) ∧
  decodeParcel .s6 0b00000_0000000001_100100000 = some (.mx6Step .always (.sreg 1)) ∧
  decodeParcel .s7 0b00000_1000000011_101100001 = some (.ex7CpGo .always (.short 3)) ∧
  decodeParcel .s1 0b00000_1000000001_000000101 = some (.move .s1 .always (.short 1) (.sreg 5)) ∧
  decodeParcel .s1 0b00000_1000000001_101110000 = none

/-- O2 (06 R163 to R169): every well-formed instruction that has an encoding is read back from its encoding, with every
operand, in the slot it is encoded for. -/
def Obligations.DecodeOfEncode : Prop :=
  ∀ (i : Instr) (sl : Slot) (p : Parcel), wellFormed i = true → encode i = some (sl, p) → decodeParcel sl p = some i

/-- O3 (06 R162; 06 R163, 07 R201): A header parcel has six fields, and each is read from where the layout puts it. A
parcel that a slot decodes is the encoding of what it decodes to: no two parcels of a slot mean one instruction, and no
bit of a parcel is dropped. -/
def Obligations.EncodeOfDecode : Prop :=
  (∀ h : Header, decodeHeader (encodeHeader h) = h ∧
    (encodeHeader h).extractLsb' 16 8 = h.pres ∧ (encodeHeader h).extractLsb' 8 8 = h.sync ∧
    (encodeHeader h).getLsbD 7 = h.stop ∧ (encodeHeader h).getLsbD 6 = h.x ∧
    (encodeHeader h).extractLsb' 4 2 = h.nli ∧ (encodeHeader h).extractLsb' 0 4 = h.rq) ∧
  (∀ (sl : Slot) (p : Parcel) (i : Instr), decodeParcel sl p = some i → encode i = some (sl, p) ∧ wellFormed i = true)

/-! ### Steps, reset, invariants -/

/-- O4 (06 R169, R179): When nothing stands on the agenda, the device runs, the turn is a core's and throttling does not
pause its cluster, the parcel at the head of that core's bundle, decoded in its slot, is performed: step is exec of the
decoded instruction, and a busy cycle of the slot's engine is counted (the model's choice of what a busy cycle is: log entries
117, 118). A parcel that waits, which leaves the bundle as it was, stays at the head, and the core's turn goes to its other
parts, as it does while throttling pauses the cluster (log entry 1). An event at the head of the agenda is performed, and it
leaves the agenda (log entry 1). -/
def Obligations.StepRunsDecoded : Prop :=
  (∀ (s t : State) (sl : Slot) (p : Parcel) (i : Instr),
    s.agenda = [] → s.boot = .running → s.curCore < 256 → s.me.ctl.phase = .run → s.me.ctl.waiting = none →
    s.pausedBy (clusterOf s.curCore) = false →
    s.me.ctl.todo.head? = some (sl, p) → decodeParcel sl p = some i → exec i s = .next t →
    (t.core s.curCore).ctl.todo ≠ s.me.ctl.todo → step s = .next (t.countBusy s.curCore (slotEngine sl))) ∧
  (∀ (s t : State) (sl : Slot) (p : Parcel) (i : Instr),
    s.agenda = [] → s.boot = .running → s.curCore < 256 → s.me.ctl.phase = .run → s.me.ctl.waiting = none →
    s.me.ctl.todo.head? = some (sl, p) → decodeParcel sl p = some i → exec i s = .next t →
    (t.core s.curCore).ctl.todo = s.me.ctl.todo → step s = coreTurn s s.curCore) ∧
  (∀ s : State, s.agenda = [] → s.boot = .running → s.curCore < 256 → s.pausedBy (clusterOf s.curCore) = true →
    step s = coreTurn s s.curCore) ∧
  (∀ (s : State) (i : Instr) (rest : List Instr), s.agenda = i :: rest → encode i = none →
    step s = exec i { s with agenda := rest })

/-- O5 (00 R1 to R5, 01 R39, 09 R237, 18 R380, 20 R405, R406, R418, 22 R430, R435): what reset leaves. The values that no
rule gives are the model's: no way of a level-1 cache is scratchpad (log entry 12), no mooring and no invalidation stands
(log entry 10), and memory reads as 0 (log entry 39). -/
def Obligations.ResetValues : Prop :=
  let s := State.reset
  s.sched.en = false ∧ s.sched.stab = 0 ∧ s.sched.ctxb = 0 ∧ s.ms.part = false ∧ s.ms.moors = [] ∧ s.ms.invals = [] ∧
  (∀ a, s.ms.byte a = 0) ∧ (∀ n, (SMap.get {} s.ms.targets n : Target).en = false) ∧
  (∀ c, (s.clusterPwr c).code = 0) ∧ s.tide.limit = 2 ∧ s.tide.en = false ∧ s.tide.state = .out ∧ s.fab.ldown = 0 ∧
  (∀ k, (s.core k).ctl.phase = .idle ∧ (s.core k).task = none ∧ (s.core k).ways = 0 ∧ (s.core k).clk.d = [2, 2, 2, 2])

/-- O6: at reset memory and the list of cores stand in canonical form. -/
def Obligations.ResetOk : Prop :=
  State.reset.Ok

/-- O7: every step keeps memory and the list of cores in canonical form, whatever stands on the agenda, so that equal
memories stay equal data. -/
def Obligations.StepKeepsOk : Prop :=
  ∀ s t : State, s.Ok → step s = .next t → t.Ok

/-- O8: every instruction and every event answers a next state in every state: none stops the machine (18 R383). -/
def Obligations.ExecAnswers : Prop :=
  ∀ (i : Instr) (s : State), ∃ t, exec i s = .next t

/-! ### The forms of accesses (05; 08) -/

/-- The scalar loads (08 R208): bytes, and whether the value is sign-extended. -/
def Sys2Proof.Machine.loadForms : List ((Guard → Src → Instr) × Nat × Bool) :=
  [(.ls2LdB, 1, false), (.ls2LdH, 2, false), (.ls2LdW, 4, false), (.ls2LdD, 8, false), (.ls2LdBs, 1, true), (.ls2LdHs, 2, true),
   (.ls2LdWs, 4, true)]

/-- The scratchpad loads (08 R208). -/
def Sys2Proof.Machine.scratchForms : List ((Guard → Src → Instr) × Nat × Bool) :=
  [(.ls2SldB, 1, false), (.ls2SldH, 2, false), (.ls2SldW, 4, false), (.ls2SldD, 8, false), (.ls2SldBs, 1, true), (.ls2SldHs, 2, true),
   (.ls2SldWs, 4, true)]

/-- The stores, to memory and to the scratchpad (08 R208). -/
def Sys2Proof.Machine.storeForms : List ((Guard → Src → Instr) × Nat) := [(.ls2StB, 1), (.ls2StH, 2), (.ls2StW, 4), (.ls2StD, 8)]
def Sys2Proof.Machine.scratchStoreForms : List ((Guard → Src → Instr) × Nat) := [(.ls2SstB, 1), (.ls2SstH, 2), (.ls2SstW, 4), (.ls2SstD, 8)]

/-- The atomics (08 R211). -/
def Sys2Proof.Machine.atomicForms : List ((Guard → Src → Instr) × AtOp) :=
  [(.ls2AtAdd, .add), (.ls2AtAnd, .and), (.ls2AtOr, .or), (.ls2AtXor, .xor), (.ls2AtMin, .min), (.ls2AtMax, .max),
   (.ls2AtMinu, .minu), (.ls2AtMaxu, .maxu), (.ls2AtFadd, .fadd), (.ls2AtSwp, .swp), (.ls2AtCas, .cas)]

/-- The held loads (08 R208). -/
def Sys2Proof.Machine.heldLoadForms : List ((Guard → Src → Instr) × Nat) :=
  [(.ls2LdioB, 1), (.ls2LdioH, 2), (.ls2LdioW, 4), (.ls2LdioD, 8)]

/-- The ordering operations on an address (05 R134 to R142, 08 R219 to R221): the port that holds the address, the size it
is aligned to, the fault of one that is not, the access, whether a result is owed and whether it counts in `ld`, and the
held operation from the written value, the two ports and the translation. -/
def Sys2Proof.Machine.orderForms : List ((Guard → Src → Instr) × (Nat × Nat × Nat × XKind) × Option Bool × (Word → Word → Word → Xlat → HOp)) :=
  [(.ls2LdAcq, (0, 8, 0x05, .load), some true, fun w _ _ x => .ldAcq (w.extractLsb' 0 3).toNat x),
   (.ls2StRel, (0, 8, 0x05, .store), none, fun w _ o1 x => .stRel (w.extractLsb' 0 3).toNat x o1),
   (.ls2Acq, (0, 64, 0x11, .load), some true, fun w _ _ x => .acq (w.extractLsb' 0 3).toNat x),
   (.ls2Rel, (0, 64, 0x11, .store), none, fun w _ o1 x => .rel (w.extractLsb' 0 3).toNat x o1),
   (.ls2Moor, (1, 64, 0x11, .load), some false, fun w o _ x => .moor w o x),
   (.ls2Unmoor, (1, 64, 0x11, .load), some false, fun w _ _ x => .unmoor w x)]

/-- The vector accesses (08 R212): a load and a store of memory, a load and a store of the scratchpad, for each size. -/
noncomputable def Sys2Proof.Machine.vectorForms : List (Nat × (Guard → Src → Instr) × (Guard → Src → Instr) × (Guard → Src → Instr) × (Guard → Src → Instr)) :=
  [(32, .ex7Vld32, .ex7Vst32, .ex7Svld32, .ex7Svst32), (64, .ex7Vld64, .ex7Vst64, .ex7Svld64, .ex7Svst64),
   (128, .ex7Vld128, .ex7Vst128, .ex7Svld128, .ex7Svst128)]

/-- The tree loads (08 R216, 03 R79): form, whether the load is performed at home, and the held operation. -/
noncomputable def Sys2Proof.Machine.treeForms : List ((Guard → Src → Instr) × TreeForm × Bool × (BitVec 256 → Nat → Nat → List Xlat → HOp)) :=
  [(.ex7Lavg, .average, false, .lavg false false), (.ex7LavgHome, .average, true, .lavg true false),
   (.ex7LavgRow, .row, false, .lavg false true), (.ex7LavgRowHome, .row, true, .lavg true true),
   (.ex7Ldet, .detail, false, .ldet false), (.ex7LdetHome, .detail, true, .ldet true)]

/-! ### How a parcel passes (06 R164 to R169, R177, R179; 18 R378, R379) -/

/-- O9 (06 R164, R173): a parcel whose guard is false does nothing: the bundle goes on without it. A trigger of slots 0 to 5
that would have been held takes an entry of the block store buffer even so, and waits while there is none. -/
def Obligations.FalseGuardDoesNothing : Prop :=
  ∀ (i : Instr) (sl : Slot) (g : Guard) (src : Src) (d : BitVec 9) (p : Parcel) (s : State),
    encodeParts i = some (sl, g, src, d) → encode i = some (sl, p) → s.me.ctl.todo.head? = some (sl, p) →
    s.me.guardReady g = true → s.me.guardBad g = none → s.me.guard g = false →
    (d.getLsbD 8 = false ∨ s.me.ctl.deferred = none) →
    exec i s = .next
      (if isHeld (sl, p) = true then
         if s.me.storeRoom = true then
           s.after fun c => { c with ctl := { c.ctl with held := c.ctl.held + 1 } }
         else s.setCore s.curCore s.me
       else s.after id)

/-- The instructions of `ls2` and of `ex7` that make an access at a translated address. -/
def Sys2Proof.Machine.accessForms2 : List (Guard → Src → Instr) :=
  loadForms.map Prod.fst ++ storeForms.map Prod.fst ++ heldLoadForms.map Prod.fst ++ atomicForms.map Prod.fst ++
    orderForms.map Prod.fst ++ [.ls2PoolShare, .ls2PoolDrop, .ls2PoolAlloc]
noncomputable def Sys2Proof.Machine.accessForms7 : List (Guard → Src → Instr) :=
  vectorForms.map (fun e => e.2.1) ++ vectorForms.map (fun e => e.2.2.1) ++ treeForms.map Prod.fst ++
    [.ex7Eld, .ex7Est, .ex7Tdld, .ex7Trst, .ex7SqPost]

/-- O10 (06 R177, R179; 08 R224): A parcel waits, and nothing changes, while a predicate that guards it, or the place that its
source reads, is written by a result that has not landed. An exit behind one that has fired reads nothing (R172). Every access
waits behind an `xlwait` of its own block while an invalidation of its context is outstanding. -/
def Obligations.UnlandedOperandWaits : Prop :=
  (∀ (i : Instr) (sl : Slot) (g : Guard) (src : Src) (d : BitVec 9) (s : State),
    encodeParts i = some (sl, g, src, d) → s.me.ctl.exit = none →
    (s.me.guardReady g = false ∨ (s.me.guardBad g = none ∧ s.me.ctl.deferred = none ∧ s.me.guard g = true ∧ s.me.srcReady sl src = false)) →
    exec i s = .next s) ∧
  (∀ (g : Guard) (src : Src) (s : State), s.xlWaits s.curCore = true →
    (s.Passes .s2 g src → ∀ f ∈ accessForms2, exec (f g src) s = .next s) ∧
    (s.Passes .s7 g src → ∀ f ∈ accessForms7, exec (f g src) s = .next s))

/-- Whether the unit of a trigger has room for it, and what it reads besides its source and its ports has landed: room in the
block store buffer (06 R173), in `ld` (06 R176), in the queues of the copy and of the matrix engine (15 R347, 13 R305), VT and the
mask register of a lane function (11 R279, R281), and the descriptor that a tree access names (03 R70). -/
def Sys2Proof.Machine.unitReady (i : Instr) (c : Core) : Bool :=
  let td : Bool := c.isReady (.td (selTd (c.portW .s7 1)))
  match i with
  | .ls2LdB .. | .ls2LdH .. | .ls2LdW .. | .ls2LdD .. | .ls2LdBs .. | .ls2LdHs .. | .ls2LdWs .. | .ls2SldB .. | .ls2SldH ..
  | .ls2SldW .. | .ls2SldD .. | .ls2SldBs .. | .ls2SldHs .. | .ls2SldWs .. => c.ldRoom
  | .ls2LdioB .. | .ls2LdioH .. | .ls2LdioW .. | .ls2LdioD .. | .ls2AtAdd .. | .ls2AtAnd .. | .ls2AtOr .. | .ls2AtXor ..
  | .ls2AtMin .. | .ls2AtMax .. | .ls2AtMinu .. | .ls2AtMaxu .. | .ls2AtFadd .. | .ls2AtSwp .. | .ls2AtCas .. | .ls2LdAcq ..
  | .ls2StRel .. | .ls2Acq .. | .ls2Rel .. | .ls2Moor .. | .ls2Unmoor .. => c.loadRoom
  | .ls2StB .. | .ls2StH .. | .ls2StW .. | .ls2StD .. | .ls2SstB .. | .ls2SstH .. | .ls2SstW .. | .ls2SstD .. | .ls2Fence ..
  | .ls2PoolShare .. | .ls2PoolDrop .. | .ls2PoolAlloc .. | .ls2Xlinv .. | .ls2Xlwait .. | .ls2Icinv .. | .ls2Cwb ..
  | .ls2Cinv .. | .ctlFork .. | .ctlJoin .. | .ctlSpawn .. | .ctlLaunch .. | .ctlDone .. | .ctlBar .. | .ctlSwr ..
  | .ctlTrap .. | .ctlRfe .. | .ctlPark .. | .ctlAbort .. | .ctlYield .. | .ctlUnpark .. | .ctlClkset .. | .ctlVset ..
  | .ctlClkrd .. | .ctlSwsel .. => c.storeRoom
  | .vexAdd u .. | .vexSub u .. | .vexAdds u .. | .vexSubs u .. | .vexMin u .. | .vexMax u .. | .vexAbs u .. | .vexNeg u ..
  | .vexAnd u .. | .vexOr u .. | .vexXor u .. | .vexAndn u .. | .vexShl u .. | .vexShr u .. | .vexSar u .. | .vexMul u ..
  | .vexFma u .. | .vexFms u .. | .vexFnma u .. | .vexCeq u .. | .vexCne u .. | .vexClt u .. | .vexCle u .. | .vexCdet u ..
  | .vexPerm u .. | .vexBcast u .. | .vexSlide u .. | .vexCvt u .. | .vexRsum u .. | .vexRmin u .. | .vexRmax u .. =>
    (laneReads u.slot 3 false c).all c.isReady
  | .vexSel u .. => (laneReads u.slot 3 true c).all c.isReady
  | .vtget .. => c.isReady .vt
  | .sfx5Rcp .. | .sfx5Rsqrt .. | .sfx5Sqrt .. | .sfx5Div .. | .sfx5Exp2 .. | .sfx5Log2 .. | .sfx5Tanh .. | .sfx5Sigm ..
  | .sfx5Sinpi .. | .sfx5Cospi .. => (laneReads .s5 2 false c).all c.isReady
  | .mx6Tld .. | .mx6Tldv .. | .mx6Tst .. | .mx6Trd .. | .mx6Shset .. | .mx6Shget .. | .mx6Step .. | .mx6Azero .. | .mx6Ard ..
  | .mx6Awr .. | .mx6Acvt .. | .mx6Acvts .. | .mx6Aldq .. | .mx6Bchain .. | .mx6Bsend .. | .mx6Bwait .. | .mx6Bfree ..
  | .mx6Bsts .. | .mx6Rsts .. | .mx6Rclr .. => c.mxRoom
  | .ex7Vld32 .. | .ex7Vld64 .. | .ex7Vld128 .. | .ex7Svld32 .. | .ex7Svld64 .. | .ex7Svld128 .. | .ex7Eld .. | .ex7Tdld .. =>
    c.exLoadRoom
  | .ex7Lavg .. | .ex7LavgHome .. | .ex7LavgRow .. | .ex7LavgRowHome .. | .ex7Ldet .. | .ex7LdetHome .. => c.exLoadRoom && td
  | .ex7Trst .. => c.exRoom && td
  | .ex7Vst32 .. | .ex7Vst64 .. | .ex7Vst128 .. | .ex7Svst32 .. | .ex7Svst64 .. | .ex7Svst128 .. | .ex7Est .. | .ex7QSet ..
  | .ex7QPush .. | .ex7QPop .. | .ex7QAdv .. | .ex7QSts .. | .ex7CpReg .. | .ex7CpDrain .. | .ex7CpSts .. | .ex7SqPost ..
  | .ex7SqCqack .. => c.exRoom
  | .ex7CpGo .. => c.nestRoom
  | _ => true

/-- O11 (01 R39, 18 R378, R379): a trigger whose source, or an operand port of whose unit, carries poison, a denial or an
uncorrectable error does not consume it: where the unit has room and what else it reads has landed, it takes the fault the
value carries, in its own slot and bundle, when no lower slot has met one; where not, it waits. That every operand port of
the unit is met, whether or not the operation uses it, is the model's reading (log entry 95). -/
def Obligations.PoisonedOperandFaults : Prop :=
  ∀ (i : Instr) (sl : Slot) (g : Guard) (src : Src) (d : BitVec 9) (s : State) (n : Notice),
    encodeParts i = some (sl, g, src, d) → d.getLsbD 8 = true → s.me.ctl.exit = none → s.me.ctl.deferred = none →
    s.me.guardReady g = true → s.me.guardBad g = none → s.me.guard g = true → s.me.srcReady sl src = true →
    s.me.operandBad sl src [] = some n →
    exec i s = .next (if unitReady i s.me then takeNotice s s.curCore n sl.num s.me.ctl.bidx else s)

/-- O12 (06 R166 to R169, R160, R177; 18 R379): A move copies its source, converted to the width of its destination, to
its destination, visible from the next bundle on, in the other file from the second; nothing else changes. A move whose
guard or source carries poison, a denial or an error writes nothing, and remembers it for the end of its bundle. -/
def Obligations.MoveResult : Prop :=
  (∀ (s : State) (sl : Slot) (g : Guard) (src : Src) (d : Dst), s.Moves sl g src →
    s.me.FirstAt sl (dstLoc sl d).1 →
    (dstLoc sl d).2.2 = (match d with | .otherSreg _ => 2 | .otherVreg _ => 2 | _ => 1) ∧
    ∃ c', s.me.pop.Wrote (dstLoc sl d).1 .put (s.value sl src (dstLoc sl d).2.1) (dstLoc sl d).2.2 c' ∧
      exec (.move sl g src d) s = .next (s.setCore s.curCore c')) ∧
  (∀ (s : State) (sl : Slot) (g : Guard) (src : Src) (d : Dst) (n : Notice), s.me.guardReady g = true →
    (s.me.guardBad g = some n ∨
      (s.me.guardBad g = none ∧ s.me.guard g = true ∧ s.me.srcReady sl src = true ∧ s.me.srcBad sl src = some n)) →
    exec (.move sl g src d) s = .next (s.setCore s.curCore (s.me.pop.deferBad n sl.num)) ∧
    (s.me.ctl.deferred = none → (s.me.pop.deferBad n sl.num).ctl.deferred = some (n, sl.num)) ∧
    (s.me.pop.deferBad n sl.num).regs = s.me.regs)

/-- O13 (06 R168): the conversions. A scalar goes to each of the 16 elements of a vector; a vector or a mask gives its low
64 bits to a scalar, 128 bits to a mask; a predicate becomes whether the low 64 bits are not all zero. -/
def Obligations.Conversions : Prop :=
  ∀ v : Vec,
    (∀ k, convert k v .scalar = (v.setWidth 64).setWidth 1024) ∧
    (∀ j < 16, (convert .scalar v .vector).extractLsb' (64 * j) 64 = v.setWidth 64) ∧
    convert .vector v .vector = v ∧ convert .mask v .vector = (v.setWidth 128).setWidth 1024 ∧
    convert .scalar v .mask = (v.setWidth 64).setWidth 1024 ∧
    convert .vector v .mask = (v.setWidth 128).setWidth 1024 ∧ convert .mask v .mask = (v.setWidth 128).setWidth 1024 ∧
    (∀ k, convert k v .pred = if (v.setWidth 64 : Word) = 0 then 0 else 1)

/-! ### Integer units (10 R256 to R260, 07 R195) -/

/-- The operations of `ix1` with one result: how each is written, its latency class, and its result from the written
value and the two operand ports (10 R256 to R260). -/
def Sys2Proof.Machine.ix1Single : List ((Guard → Src → Instr) × Nat × (Word → Word → Word → Word)) :=
  [(.ix1Adds, 0, fun a b _ => satWord (a.toInt + b.toInt)), (.ix1Subs, 0, fun a b _ => satWord (a.toInt - b.toInt)),
   (.ix1And, 0, fun a b _ => a &&& b), (.ix1Or, 0, fun a b _ => a ||| b), (.ix1Xor, 0, fun a b _ => a ^^^ b),
   (.ix1Andn, 0, fun a b _ => a &&& ~~~b), (.ix1Rol, 0, fun a b _ => a.rotateLeft (b.toNat % 64)),
   (.ix1Min, 0, fun a b _ => if a.toInt ≤ b.toInt then a else b), (.ix1Max, 0, fun a b _ => if a.toInt ≤ b.toInt then b else a),
   (.ix1Minu, 0, fun a b _ => if a.toNat ≤ b.toNat then a else b), (.ix1Maxu, 0, fun a b _ => if a.toNat ≤ b.toNat then b else a),
   (.ix1Clts, 0, fun a b _ => if a.toInt < b.toInt then 1 else 0), (.ix1Cltu, 0, fun a b _ => if a.toNat < b.toNat then 1 else 0),
   (.ix1Ceq, 0, fun a b _ => if a = b then 1 else 0), (.ix1Cne, 0, fun a b _ => if a = b then 0 else 1),
   (.ix1Cles, 0, fun a b _ => if a.toInt ≤ b.toInt then 1 else 0), (.ix1Cleu, 0, fun a b _ => if a.toNat ≤ b.toNat then 1 else 0)] ++
  [(.ix1Shl, 0, fun a b _ => shiftWord .shl 64 a b), (.ix1Shr, 0, fun a b _ => shiftWord .shr 64 a b),
   (.ix1Sar, 0, fun a b _ => shiftWord .sar 64 a b), (.ix1Shl8, 0, fun a b _ => shiftWord .shl 8 a b),
   (.ix1Shl16, 0, fun a b _ => shiftWord .shl 16 a b), (.ix1Shl32, 0, fun a b _ => shiftWord .shl 32 a b),
   (.ix1Shr8, 0, fun a b _ => shiftWord .shr 8 a b), (.ix1Shr16, 0, fun a b _ => shiftWord .shr 16 a b),
   (.ix1Shr32, 0, fun a b _ => shiftWord .shr 32 a b), (.ix1Sar8, 0, fun a b _ => shiftWord .sar 8 a b),
   (.ix1Sar16, 0, fun a b _ => shiftWord .sar 16 a b), (.ix1Sar32, 0, fun a b _ => shiftWord .sar 32 a b),
   (.ix1Add8, 0, fun a b _ => addLanes 8 a b), (.ix1Add16, 0, fun a b _ => addLanes 16 a b), (.ix1Add32, 0, fun a b _ => addLanes 32 a b)] ++
  [(.ix1Div, 2, fun a b _ => if b = 0 then BitVec.allOnes 64 else a.sdiv b),
   (.ix1Divu, 2, fun a b _ => if b = 0 then BitVec.allOnes 64 else a / b),
   (.ix1Rem, 2, fun a b _ => if b = 0 then a else a.srem b), (.ix1Remu, 2, fun a b _ => if b = 0 then a else a % b),
   (.ix1Bext, 0, fun a b _ => bitExtract a b), (.ix1Bexts, 0, fun a b _ => bitExtractS a b), (.ix1Bins, 0, bitInsert),
   (.ix1Clz, 0, fun a _ _ => BitVec.ofNat 64 (leadZeros a.toNat 64)), (.ix1Ctz, 0, fun a _ _ => BitVec.ofNat 64 (trailZeros a.toNat 0 64)),
   (.ix1Popc, 0, fun a _ _ => BitVec.ofNat 64 (popcount a.toNat 64)), (.ix1Brev, 0, fun a _ _ => a.reverse), (.ix1Bswap, 0, fun a _ _ => byteSwap a)]

/-- O14 (10 R256 to R260): an operation of `ix1` with one result writes it to `ix1.r`, visible after the latency of its
class, and changes nothing else: no other place of the core, no other core, no memory. -/
def Obligations.IntegerSingleResult : Prop :=
  ∀ e ∈ ix1Single, ∀ (g : Guard) (src : Src) (s : State),
    s.Ok → s.Passes .s1 g src → s.me.FirstAt .s1 (.rport 1 false) →
    ∃ c', s.me.pop.Wrote (.rport 1 false) .put
        ((e.2.2 (s.word .s1 src) (s.me.portW .s1 0) (s.me.portW .s1 1)).setWidth 1024) (s.me.la e.2.1) c' ∧
      exec (e.1 g src) s = .next (s.setCore s.curCore c')

/-- The operations of `ix1` with two results (10 R257, R259). -/
def Sys2Proof.Machine.ix1Double : List ((Guard → Src → Instr) × Nat × (Word → Word → Word) × (Word → Word → Word)) :=
  [(.ix1Add, 0, fun a b => a + b, fun a b => if 2 ^ 64 ≤ a.toNat + b.toNat then 1 else 0),
   (.ix1Sub, 0, fun a b => a - b, fun a b => if a.toNat < b.toNat then 1 else 0),
   (.ix1Mul, 1, fun a b => BitVec.ofInt 64 (a.toInt * b.toInt), fun a b => BitVec.ofInt 64 (a.toInt * b.toInt / 2 ^ 64)),
   (.ix1Mulu, 1, fun a b => BitVec.ofNat 64 (a.toNat * b.toNat), fun a b => BitVec.ofNat 64 (a.toNat * b.toNat / 2 ^ 64))]

/-- The operations of the second ALU (07 R195): those of `ix1` with opcodes 0x00 to 0x2E. -/
def Sys2Proof.Machine.sfx5Single : List ((Guard → Src → Instr) × (Word → Word → Word)) :=
  [(.sfx5Add, fun a b => a + b), (.sfx5Sub, fun a b => a - b), (.sfx5Adds, fun a b => satWord (a.toInt + b.toInt)),
   (.sfx5Subs, fun a b => satWord (a.toInt - b.toInt)), (.sfx5And, fun a b => a &&& b), (.sfx5Or, fun a b => a ||| b),
   (.sfx5Xor, fun a b => a ^^^ b), (.sfx5Andn, fun a b => a &&& ~~~b), (.sfx5Rol, fun a b => a.rotateLeft (b.toNat % 64)),
   (.sfx5Min, fun a b => if a.toInt ≤ b.toInt then a else b), (.sfx5Max, fun a b => if a.toInt ≤ b.toInt then b else a),
   (.sfx5Minu, fun a b => if a.toNat ≤ b.toNat then a else b), (.sfx5Maxu, fun a b => if a.toNat ≤ b.toNat then b else a),
   (.sfx5Clts, fun a b => if a.toInt < b.toInt then 1 else 0), (.sfx5Cltu, fun a b => if a.toNat < b.toNat then 1 else 0),
   (.sfx5Ceq, fun a b => if a = b then 1 else 0), (.sfx5Cne, fun a b => if a = b then 0 else 1),
   (.sfx5Cles, fun a b => if a.toInt ≤ b.toInt then 1 else 0), (.sfx5Cleu, fun a b => if a.toNat ≤ b.toNat then 1 else 0)] ++
  [(.sfx5Shl, shiftWord .shl 64), (.sfx5Shr, shiftWord .shr 64), (.sfx5Sar, shiftWord .sar 64),
   (.sfx5Shl8, shiftWord .shl 8), (.sfx5Shl16, shiftWord .shl 16), (.sfx5Shl32, shiftWord .shl 32),
   (.sfx5Shr8, shiftWord .shr 8), (.sfx5Shr16, shiftWord .shr 16), (.sfx5Shr32, shiftWord .shr 32),
   (.sfx5Sar8, shiftWord .sar 8), (.sfx5Sar16, shiftWord .sar 16), (.sfx5Sar32, shiftWord .sar 32),
   (.sfx5Add8, addLanes 8), (.sfx5Add16, addLanes 16), (.sfx5Add32, addLanes 32)]

/-- O15 (10 R257, R259; 07 R195): An operation of `ix1` with two results writes the one to `ix1.r` and the other to
`ix1.s`. An operation of the second ALU takes a from the low word of the written value and b from `sfx5.o2`, and writes
its result to `sfx5.s` alone. -/
def Obligations.IntegerPairResult : Prop :=
  (∀ e ∈ ix1Double, ∀ (g : Guard) (src : Src) (s : State),
    s.Ok → s.Passes .s1 g src → s.me.FirstAt .s1 (.rport 1 false) → s.me.FirstAt .s1 (.rport 1 true) →
    ∃ c1 c2, s.me.pop.Wrote (.rport 1 false) .put
        ((e.2.2.1 (s.word .s1 src) (s.me.portW .s1 0)).setWidth 1024) (s.me.la e.2.1) c1 ∧
      c1.Wrote (.rport 1 true) .put ((e.2.2.2 (s.word .s1 src) (s.me.portW .s1 0)).setWidth 1024) (s.me.la e.2.1) c2 ∧
      exec (e.1 g src) s = .next (s.setCore s.curCore c2)) ∧
  (∀ e ∈ sfx5Single, ∀ (g : Guard) (src : Src) (s : State),
    s.Ok → s.Passes .s5 g src → s.me.FirstAt .s5 (.rport 5 true) →
    ∃ c', s.me.pop.Wrote (.rport 5 true) .put
        ((e.2 ((s.value .s5 src .vector).setWidth 64) (s.me.portW .s5 2)).setWidth 1024) (s.me.la 0) c' ∧
      exec (e.1 g src) s = .next (s.setCore s.curCore c'))

/-- O16 (10 R257; 10 R257, R258; 10 R260): Saturation. A signed sum or difference outside the range of 64 bits becomes the
nearest end of it. Packed shifts and packed adds act on each lane by itself; a count of the lane's width or more gives
zeros, or copies of the sign. Bit fields, counts and reversals, bit by bit. -/
def Obligations.PackedAndFields : Prop :=
  (∀ x : Int, (satWord x).toInt = max (-2 ^ 63) (min (2 ^ 63 - 1) x)) ∧
  (∀ (a b : Word), ∀ w ∈ [8, 16, 32, 64], ∀ i < 64 / w,
    let x := a.extractLsb' (w * i) w
    (addLanes w a b).extractLsb' (w * i) w = x + b.extractLsb' (w * i) w ∧
    (shiftWord .shl w a b).extractLsb' (w * i) w = x <<< b.toNat ∧
    (shiftWord .shr w a b).extractLsb' (w * i) w = x >>> b.toNat ∧
    (shiftWord .sar w a b).extractLsb' (w * i) w = x.sshiftRight b.toNat) ∧
  (∀ (a b c : Word) (i : Nat), i < 64 →
    let pos := (b.extractLsb' 0 6).toNat
    let len := min (b.extractLsb' 8 7).toNat 64
    (bitExtract a b).getLsbD i = (decide (i < len) && a.getLsbD (pos + i)) ∧
    (bitInsert a b c).getLsbD i = (if pos ≤ i ∧ i < pos + len then a.getLsbD (i - pos) else c.getLsbD i) ∧
    (byteSwap a).getLsbD i = a.getLsbD (8 * (7 - i / 8) + i % 8) ∧
    (bitExtractS a b).getLsbD i = (if i < len then a.getLsbD (pos + i) else decide (0 < len) && a.getLsbD (pos + (len - 1))) ∧
    (popcount a.toNat 64 = ((upto 0 64).filter fun j => a.getLsbD j).length)) ∧
  (∀ a : Word,
    let z := leadZeros a.toNat 64
    let t := trailZeros a.toNat 0 64
    (a = 0 → z = 64 ∧ t = 64) ∧ (a ≠ 0 → z < 64 ∧ t < 64 ∧ a.getLsbD (63 - z) = true ∧ a.getLsbD t = true) ∧
    (∀ i, 64 - z ≤ i → a.getLsbD i = false) ∧ ∀ i < t, a.getLsbD i = false)

/-! ### Vector units (11 R278 to R293) -/

/-- A function of `vex3` and `vex4` that works lane by lane: how it is written, its latency class, the types it accepts,
whether it gives mask bits, and one lane of it (11 R283 to R289). -/
def Sys2Proof.Machine.vexLaneFns : List ((VexUnit → Width → Guard → Src → Instr) × Nat × Accepts × Bool × (LaneIn → Nat → Lane)) :=
  [(.vexAdd, 3, .intFp, false, laneAdd), (.vexSub, 3, .intFp, false, laneSub), (.vexAdds, 3, .int, false, laneAdds),
   (.vexSubs, 3, .int, false, laneSubs), (.vexMin, 3, .intFp, false, laneMin), (.vexMax, 3, .intFp, false, laneMax),
   (.vexAbs, 3, .intFp, false, laneAbs), (.vexNeg, 3, .intFp, false, laneNeg), (.vexAnd, 3, .any, false, laneAnd),
   (.vexOr, 3, .any, false, laneOr), (.vexXor, 3, .any, false, laneXor), (.vexAndn, 3, .any, false, laneAndn),
   (.vexShl, 3, .any, false, laneShift .shl), (.vexShr, 3, .any, false, laneShift .shr), (.vexSar, 3, .any, false, laneShift .sar),
   (.vexMul, 4, .intFp, false, laneMul), (.vexFma, 4, .intFp, false, laneFma), (.vexFms, 4, .intFp, false, laneFms),
   (.vexFnma, 4, .intFp, false, laneFnma), (.vexCeq, 3, .intFp, true, laneCeq), (.vexCne, 3, .intFp, true, laneCne),
   (.vexClt, 3, .intFp, true, laneClt), (.vexCle, 3, .intFp, true, laneCle), (.vexCdet, 3, .fp, true, laneCdet),
   (.vexPerm, 5, .any, false, lanePerm), (.vexBcast, 5, .any, false, laneBcast), (.vexSlide, 5, .any, false, laneSlide)]

/-- O17 (11 R281, R283 to R289; 10 R258): Lane j of a result is what its lane gives, or zero where the mask leaves it
out, and the lanes above the width are zero; bit j of the mask result is its lane's bit. What one lane of an integer
function gives, for every integer type: sums and products modulo the element's size, saturated sums at the nearest end of
the type's range, comparisons as the type's numbers. One rounding to binary32, and what one lane of an FP32 function gives: the
exact sum, difference, product or fused result rounded once, extremes and comparisons as numbers, the canonical NaN for a
NaN (11 R285, R287). -/
def Obligations.LanesByElement : Prop :=
  (∀ (w n : Nat) (on : Nat → Bool) (f : Nat → Lane), (∀ j, (f j).r < 2 ^ w) →
    (∀ j < n, field (lanes w on f n).r (w * j) w = if on j then (f j).r else 0) ∧
    (lanes w on f n).r < 2 ^ (w * n) ∧
    (∀ j < n, (laneBits on f n).testBit j = (on j && (f j).t)) ∧ laneBits on f n < 2 ^ n) ∧
  (∀ (x : LaneIn) (j b : Nat) (sg : Bool), x.fmt = .int b sg → x.ew = b → 0 < b →
    let p := x.la j
    let q := x.lb j
    let num (v : Nat) : Int := if sg then (BitVec.ofNat b v).toInt else v
    let top : Int := if sg then 2 ^ (b - 1) - 1 else 2 ^ b - 1
    let low : Int := if sg then -2 ^ (b - 1) else 0
    (laneAdd x j).r = (p + q) % 2 ^ b ∧ (laneSub x j).r = (p + 2 ^ b - q) % 2 ^ b ∧ (laneMul x j).r = (p * q) % 2 ^ b ∧
    (laneFma x j).r = (p * q + x.lcv j) % 2 ^ b ∧
    (laneAnd x j).r = p &&& q ∧ (laneXor x j).r = p ^^^ q ∧
    num (laneAdds x j).r = max low (min top (num p + num q)) ∧
    ((laneAdds x j).ev.sat = true ↔ num p + num q < low ∨ top < num p + num q) ∧
    num (laneMin x j).r = min (num p) (num q) ∧ num (laneMax x j).r = max (num p) (num q) ∧
    (laneCeq x j).t = decide (p = q) ∧ (laneClt x j).t = decide (num p < num q) ∧
    (laneCle x j).r = (if num p ≤ num q then 2 ^ b - 1 else 0)) ∧
  (∀ (s : Bool) (m : Nat) (e : Int) (rtz : Bool), m ≠ 0 →
    let v := (Exact.fin s m e).value
    let r := roundFp32 (.fin s m e) rtz
    RoundsFp32 v rtz r.1 ∧ (r.2.ix = true ↔ (decodeNum .fp32 r.1).isFin = false ∨ Fmt.fp32.value r.1 ≠ v) ∧
    (r.2.ov = true ↔ if rtz then 2 ^ 128 ≤ |v| else (2 ^ 128 - 2 ^ 103 : ℚ) ≤ |v|) ∧
    (r.2.uf = true ↔ (decodeNum .fp32 r.1).isFin = true ∧ Fmt.fp32.value r.1 ≠ v ∧ |Fmt.fp32.value r.1| < 2 ^ (-126 : Int))) ∧
  (∀ (x : LaneIn) (j : Nat), x.fmt = .fp32 → x.ew = 32 →
    let a := decodeNum .fp32 (x.la j)
    let b := decodeNum .fp32 (x.lb j)
    let c := decodeNum .fp32 (x.lcv j)
    let p := Fmt.fp32.value (x.la j)
    let q := Fmt.fp32.value (x.lb j)
    let u := Fmt.fp32.value (x.lcv j)
    let once (l : Lane) (v : ℚ) : Prop := ∃ y : Exact, y.isFin = true ∧ y.value = v ∧ l.r = (roundFp32 y x.rtz).1
    (a.isFin = true → b.isFin = true →
      once (laneAdd x j) (p + q) ∧ once (laneSub x j) (p - q) ∧ once (laneMul x j) (p * q) ∧
      (c.isFin = true → once (laneFma x j) (p * q + u) ∧ once (laneFms x j) (p * q - u) ∧ once (laneFnma x j) (u - p * q)) ∧
      Fmt.fp32.value (laneMin x j).r = min p q ∧ Fmt.fp32.value (laneMax x j).r = max p q ∧
      (laneCeq x j).t = decide (p = q) ∧ (laneCne x j).t = decide (p ≠ q) ∧ (laneClt x j).t = decide (p < q) ∧
      (laneCle x j).t = decide (p ≤ q)) ∧
    (a.isFin = true → Fmt.fp32.value (laneAbs x j).r = |p| ∧ Fmt.fp32.value (laneNeg x j).r = -p ∧
      let thr := (x.vt.extractLsb' 32 32).toNat
      ((decodeNum .fp32 thr).isFin = true → (laneCdet x j).t = decide (Fmt.fp32.value thr < |p|))) ∧
    (a.isNan = true ∨ b.isNan = true →
      (∀ f ∈ [laneAdd, laneSub, laneMul, laneFma, laneFms, laneFnma, laneMin, laneMax], (f x j).r = 0x7FC00000) ∧
      (laneCeq x j).t = false ∧ (laneCne x j).t = true ∧ (laneClt x j).t = false ∧ (laneCle x j).t = false))

/-- O18 (02 R43, R45 to R49, R59; 11 R288 to R290): Select takes each lane from a or from b by the mask register that the lane control
word names. Convert takes each lane from the element type of VT to the type that the lane control word names. The
reductions combine the lanes of a by a tree, a lane that the mask leaves out standing as the identity, and write one
element and the events. The number formats (02 R43, R45 to R49): what each code denotes; and the conversion of a number to a
format (02 R59): the nearest number, or the one toward zero, or the end of the range; a lane of convert is that conversion. -/
def Obligations.SelectConvertReduce : Prop :=
  (∀ (u : VexUnit) (w : Width) (g : Guard) (src : Src) (s : State) (f : Fmt),
    s.Ok → s.PassesWith u.slot g src (laneReads u.slot 3 true s.me) → s.me.FirstResults u.slot →
    laneOk (s.me.portW u.slot 3) = true → elemType (vtEt s.me.vtNow) = some f →
    let lc := s.me.portW u.slot 3
    let x := laneIn s.me u.slot lc w f (s.value u.slot src .vector)
    ∃ c1 c2, s.me.pop.Wrote (.rport u.slot.num false) .put
        (BitVec.ofNat 1024 (lanes x.ew (fun _ => true)
          (fun j => { r := if s.me.maskBit (laneKn lc) j then x.la j else x.lb j }) x.n).r) (s.me.la 3) c1 ∧
      (∀ key m blk, c2.regs.read key m blk = c1.regs.read key m blk) ∧ c2 = { c1 with regs := c2.regs } ∧
      exec (.vexSel u w g src) s = .next (s.setCore s.curCore c2)) ∧
  (∀ (u : VexUnit) (w : Width) (g : Guard) (src : Src) (s : State) (f t : Fmt),
    s.Ok → s.PassesWith u.slot g src (laneReads u.slot 3 false s.me) → s.me.FirstResults u.slot →
    laneOk (s.me.portW u.slot 3) = true → elemType (vtEt s.me.vtNow) = some f → elemType (laneTT (s.me.portW u.slot 3)) = some t →
    let lc := s.me.portW u.slot 3
    let a := (s.value u.slot src .vector).toNat % 2 ^ w.bits
    let n := w.bits / max (elemWidth f) (elemWidth t)
    let y := lanes (elemWidth t) (s.me.laneOn lc)
      (fun j => cvtLane f t (vtRtz s.me.vtNow) (field a (elemWidth f * j) (elemWidth f))) n
    ∃ c1 c2, s.me.pop.Wrote (.rport u.slot.num false) .put (BitVec.ofNat 1024 y.r) (s.me.la 5) c1 ∧
      c1.Wrote .vt .orBits (y.ev.bits.setWidth 1024) (s.me.la 5) c2 ∧
      exec (.vexCvt u w g src) s = .next (s.setCore s.curCore c2)) ∧
  (∀ e ∈ ([(.vexRsum, .sum), (.vexRmin, .min), (.vexRmax, .max)] : List ((VexUnit → Width → Guard → Src → Instr) × Reduction)),
  ∀ (u : VexUnit) (w : Width) (g : Guard) (src : Src) (s : State) (f : Fmt),
    s.Ok → s.PassesWith u.slot g src (laneReads u.slot 3 false s.me) → s.me.FirstResults u.slot →
    laneOk (s.me.portW u.slot 3) = true → elemType (vtEt s.me.vtNow) = some f → Accepts.intFp.ok f = true →
    let lc := s.me.portW u.slot 3
    let x := laneIn s.me u.slot lc w f (s.value u.slot src .vector)
    let y := reduceTree (e.2.combine f x.rtz) 10
      ((upto 0 x.n).map fun j => if s.me.laneOn lc j then x.la j else e.2.identity f)
    ∃ c1 c2, s.me.pop.Wrote (.rport u.slot.num false) .put (BitVec.ofNat 1024 y.1) (s.me.la 6) c1 ∧
      c1.Wrote .vt .orBits (y.2.bits.setWidth 1024) (s.me.la 6) c2 ∧
      exec (e.1 u w g src) s = .next (s.setCore s.curCore c2)) ∧
  (∀ e ∈ ([(.fp32, 8, 23), (.fp16, 5, 10), (.bf16, 8, 7), (.a40, 9, 30)] : List (Fmt × Nat × Nat)),
    ∀ (s : Bool) (ex fr : Nat), ex < 2 ^ e.2.1 → fr < 2 ^ e.2.2 →
    let code := b2n s * 2 ^ (e.2.1 + e.2.2) + ex * 2 ^ e.2.2 + fr
    let sg : ℚ := if s then -1 else 1
    let bias : Int := 2 ^ (e.2.1 - 1) - 1
    if ex = 2 ^ e.2.1 - 1 then decodeNum e.1 code = if fr = 0 then .inf s else .nan
    else (decodeNum e.1 code).isFin = true ∧ (decodeNum e.1 code).sign = s ∧ e.1.value code =
      if ex = 0 then sg * 2 ^ (1 - bias) * (fr / 2 ^ e.2.2) else sg * 2 ^ ((ex : Int) - bias) * (1 + fr / 2 ^ e.2.2)) ∧
  ((upto 0 32).map (fun c => (Fmt.t6 0).value c * 16) =
      [0, 1, 2, 3, 4, 5, 6, 7, 8, 9, 10, 11, 12, 13, 14, 15, 16, 18, 20, 22, 24, 26, 28, 30, 32, 40, 48, 56, 64, 96, 128, 128] ∧
    (upto 0 32).map (fun c => (Fmt.t6 1).value c * 256) =
      [0, 1, 4, 8, 16, 24, 32, 48, 64, 80, 96, 112, 128, 160, 192, 224, 256, 320, 384, 448, 512, 640, 768, 896] ++
      [1024, 1536, 2048, 3072, 4096, 8192, 16384, 16384] ∧
    (∀ es ≤ 2, ∀ c, (Fmt.t8 es).value 1 = 2 ^ (-6 * 2 ^ es : Int) ∧ (Fmt.t8 es).value 0x40 = 1 ∧
      (Fmt.t8 es).value 0x41 = 1 + 2 ^ es / 32 ∧ (Fmt.t8 es).value 0x7E = 2 ^ (5 * 2 ^ es) ∧
      (c < 0x7E → (Fmt.t8 es).value c < (Fmt.t8 es).value (c + 1)) ∧ (Fmt.t8 es).value 0x7F = (Fmt.t8 es).value 0x7E) ∧
    (∀ es ≤ 2, decodeNum (.t8 es) 0x80 = .nan ∧ ∀ c, 0 < c → c < 0x80 → (Fmt.t8 es).value (0x80 + c) = -(Fmt.t8 es).value c) ∧
    (∀ es ≤ 1, decodeNum (.t6 es) 0x20 = .nan ∧ ∀ c, 0 < c → c < 0x20 → (Fmt.t6 es).value (0x20 + c) = -(Fmt.t6 es).value c)) ∧
  (∀ f ∈ ([.fp32, .fp16, .bf16, .a40, .t8 0, .t8 1, .t8 2, .t6 0, .t6 1, .int 8 true, .int 16 true, .int 32 true, .int 64 true,
      .int 8 false, .int 16 false, .int 32 false, .int 64 false] : List Fmt),
    ∀ (s : Bool) (m : Nat) (e : Int) (rtz wid : Bool), m ≠ 0 →
    let v := (Exact.fin s m e).value
    let r := roundTo (.fin s m e) f rtz wid
    let near := (match f with | .t8 _ => true | .t6 _ => true | _ => !rtz)
    (f.low ≤ v → v ≤ f.top → r.2.sat = false ∧ (r.2.ix = true ↔ f.value r.1 ≠ v) ∧ if near then f.Nearest v r.1 else f.Toward v r.1) ∧
    let beyond : ℚ := match f with | .int _ _ => 1 | _ => 0
    (f.top < v → f.top + beyond ≤ v → r.2.sat = true ∧ r.2.ix = true ∧ f.value r.1 = f.top) ∧
    (v < f.low → v ≤ f.low - beyond → r.2.sat = true ∧ r.2.ix = true ∧ f.value r.1 = f.low)) ∧
  (∀ (f t : Fmt) (rtz : Bool) (c : Nat), cvtLane f f rtz c = { r := c } ∧
    (f ≠ t →
      let code := match f with | .t6 _ => c % 64 | _ => c
      let y := roundTo (decodeNum f code) t (rtz && [Fmt.fp32, .int 32 true, .int 32 false, .int 64 true, .int 64 false].contains t) (widening f t)
      cvtLane f t rtz c = { r := y.1, ev := y.2 }))

/-- The special functions (11 R292): each on one lane, from VT.RM, the lane of a and the lane of `sfx5.o0`. -/
def Sys2Proof.Machine.sfxFns : List ((Width → Guard → Src → Instr) × (Bool → Nat → Nat → Nat × Ev)) :=
  [(.sfx5Rcp, fun _ a _ => sfRcp a), (.sfx5Rsqrt, fun _ a _ => sfRsqrt a), (.sfx5Sqrt, fun m a _ => fsqrt m a),
   (.sfx5Div, fun m a b => fdiv m a b), (.sfx5Exp2, fun _ a _ => sfExp2 a), (.sfx5Log2, fun _ a _ => sfLog2 a),
   (.sfx5Tanh, fun _ a _ => sfTanh a), (.sfx5Sigm, fun _ a _ => sfSigm a), (.sfx5Sinpi, fun _ a _ => sfSinpi a),
   (.sfx5Cospi, fun _ a _ => sfCospi a)]

/-- O19 (11 R292): a special function on FP32 lanes writes `sfx5.r` and its events, with the latency of its class. A quotient
and a root are the exact ones rounded to the nearest code. -/
def Obligations.SpecialFunctionResult : Prop :=
  (∀ a b, (decodeNum .fp32 a).isFin = true → (decodeNum .fp32 b).isFin = true → Fmt.fp32.value a ≠ 0 → Fmt.fp32.value b ≠ 0 →
    RoundsFp32 (Fmt.fp32.value a / Fmt.fp32.value b) false (fdiv false a b).1) ∧
  (∀ a, (decodeNum .fp32 a).isFin = true → 0 < Fmt.fp32.value a →
    let c := (fsqrt false a).1
    let half (d : Nat) : ℚ := (Fmt.fp32.value c + Fmt.fp32.value d) / 2
    (decodeNum .fp32 c).isFin = true ∧ 0 ≤ Fmt.fp32.value c ∧ ∀ d, (decodeNum .fp32 d).isFin = true → 0 ≤ Fmt.fp32.value d →
      (Fmt.fp32.value c < Fmt.fp32.value d → Fmt.fp32.value a ≤ half d ^ 2) ∧
      (Fmt.fp32.value d < Fmt.fp32.value c → half d ^ 2 ≤ Fmt.fp32.value a)) ∧
  ∀ e ∈ sfxFns, ∀ (w : Width) (g : Guard) (src : Src) (s : State),
    s.Ok → s.PassesWith .s5 g src (laneReads .s5 2 false s.me) → s.me.FirstResults .s5 →
    laneOk (s.me.portW .s5 2) = true → elemType (vtEt s.me.vtNow) = some .fp32 →
    let lc := s.me.portW .s5 2
    let x := laneIn s.me .s5 lc w .fp32 (s.value .s5 src .vector)
    let y := lanes 32 (s.me.laneOn lc) (fun j => pair (e.2 x.rtz (x.la j) (x.lb j))) x.n
    ∃ c1 c2, s.me.pop.Wrote (.rport 5 false) .put (BitVec.ofNat 1024 y.r) (s.me.la 7) c1 ∧
      c1.Wrote .vt .orBits (y.ev.bits.setWidth 1024) (s.me.la 7) c2 ∧
      exec (e.1 w g src) s = .next (s.setCore s.curCore c2)

/-- O20 (11 R279 to R289; 11 R282): A lane function whose lane control word and element type are legal writes its lanes to
`r`, its mask bits to `s` when it gives some, and its events to VT, with the latency of its class, and nothing else. A
vector function whose lane control word breaks its layout, or whose element type is reserved or not accepted, is an
operand fault of its slot. -/
def Obligations.VectorLaneResult : Prop :=
  (∀ e ∈ vexLaneFns, ∀ (u : VexUnit) (w : Width) (g : Guard) (src : Src) (s : State) (f : Fmt),
    s.Ok → s.PassesWith u.slot g src (laneReads u.slot 3 false s.me) → s.me.FirstResults u.slot →
    laneOk (s.me.portW u.slot 3) = true → elemType (vtEt s.me.vtNow) = some f → e.2.2.1.ok f = true →
    let lc := s.me.portW u.slot 3
    let x := laneIn s.me u.slot lc w f (s.value u.slot src .vector)
    let y := lanes x.ew (s.me.laneOn lc) (e.2.2.2.2 x) x.n
    ∃ c1 c2 c3, s.me.pop.Wrote (.rport u.slot.num false) .put (BitVec.ofNat 1024 y.r) (s.me.la e.2.1) c1 ∧
      (if e.2.2.2.1 then
         c1.Wrote (.rport u.slot.num true) .put (BitVec.ofNat 1024 (laneBits (s.me.laneOn lc) (e.2.2.2.2 x) x.n)) (s.me.la e.2.1) c2
       else c2 = c1) ∧
      c2.Wrote .vt .orBits (y.ev.bits.setWidth 1024) (s.me.la e.2.1) c3 ∧
      exec (e.1 u w g src) s = .next (s.setCore s.curCore c3)) ∧
  (∀ e ∈ vexLaneFns, ∀ (u : VexUnit) (w : Width) (g : Guard) (src : Src) (s : State) (a : Word),
    s.PassesWith u.slot g src (laneReads u.slot 3 false s.me) → vecCheck s.me (s.me.portW u.slot 3) e.2.2.1 = .error a →
    exec (e.1 u w g src) s =
      .next (s.faults u.slot 0x04 a.toNat 0))

/-- The writes of VT (11 R291): how each combines with VT, and the operands it admits. -/
def Sys2Proof.Machine.vtWrites : List ((VexUnit → Guard → Src → Instr) × WriteOp × (Word → Bool)) :=
  [(.vtset, .put, fun a => !vtReserved a.toNat && (elemType (vtEt a)).isSome),
   (.vtthr, .thr, fun a => decide (a.toNat < 2 ^ 32)), (.vtclr, .clear, fun a => decide (a &&& 0xFC0000 = a))]

/-- The mask functions (11 R291). -/
def Sys2Proof.Machine.maskFns : List ((VexUnit → Guard → Src → Instr) × (BitVec 128 → BitVec 128 → BitVec 128)) :=
  [(.kand, fun a b => a &&& b), (.kor, fun a b => a ||| b), (.kxor, fun a b => a ^^^ b), (.kandn, fun a b => a &&& ~~~b),
   (.knot, fun a _ => ~~~a), (.kgen, fun a _ => BitVec.ofNat 128 (2 ^ min (a.toNat % 2 ^ 64) 128 - 1)),
   (.kpopc, fun a _ => BitVec.ofNat 128 (popcount a.toNat 128)), (.kffs, fun a _ => BitVec.ofNat 128 (trailZeros a.toNat 0 128))]

/-- O21 (11 R278, R279, R291; 11 R279): `vtset`, `vtthr` and `vtclr` write VT, or are operand faults; `vtget` reads it;
the mask functions act on 128 bits and write `r`. Each changes nothing else. What a write of VT does to it: `vtthr`
replaces bits [63:32] alone, `vtclr` clears what its operand names, and events set bits. -/
def Obligations.TypeAndMaskResults : Prop :=
  ((∀ e ∈ vtWrites, ∀ (u : VexUnit) (g : Guard) (src : Src) (s : State),
    s.Ok → s.Passes u.slot g src → s.me.FirstResults u.slot →
    let a : Word := (s.value u.slot src .vector).setWidth 64
    if e.2.2 a then
      ∃ c', s.me.pop.Wrote .vt e.2.1 (a.setWidth 1024) (s.me.la 3) c' ∧ exec (e.1 u g src) s = .next (s.setCore s.curCore c')
    else exec (e.1 u g src) s = .next (s.faults u.slot 0x04 a.toNat 0)) ∧
  (∀ (u : VexUnit) (g : Guard) (src : Src) (s : State),
    s.Ok → s.PassesWith u.slot g src [.vt] → s.me.FirstResults u.slot →
    ∃ c', s.me.pop.Wrote (.rport u.slot.num false) .put (s.me.vtNow.setWidth 1024) (s.me.la 3) c' ∧
      exec (.vtget u g src) s = .next (s.setCore s.curCore c')) ∧
  (∀ e ∈ maskFns, ∀ (u : VexUnit) (g : Guard) (src : Src) (s : State),
    s.Ok → s.Passes u.slot g src → s.me.FirstResults u.slot →
    ∃ c', s.me.pop.Wrote (.rport u.slot.num false) .put
        ((e.2 ((s.value u.slot src .vector).setWidth 128) ((s.me.port u.slot 0).setWidth 128)).setWidth 1024) (s.me.la 3) c' ∧
      exec (e.1 u g src) s = .next (s.setCore s.curCore c'))) ∧
  (∀ old new : Vec,
    (applyOp .thr old new).extractLsb' 32 32 = new.extractLsb' 0 32 ∧ (applyOp .thr old new).extractLsb' 0 32 = old.extractLsb' 0 32 ∧
    applyOp .clear old new = old &&& ~~~new ∧ applyOp .orBits old new = old ||| new ∧ applyOp .put old new = new)

/-! ### Control (10 R262 to R277, 18 R380 to R392, 20 R407) -/

/-- O22 (10 R270; 10 R270): Bucket select delivers the least bucket that holds the dimension and the index of its table
entry, and sets the valid counts of the shape registers of its mask, all of them visible to the next bundle, and nothing
else. The bucket is the least that holds the dimension, or the number of buckets, and the valid count is what the last
tile holds, from 1 to 96, or 0 for none; the new count replaces one byte of a shape register. -/
def Obligations.BucketSelectResult : Prop :=
  (∀ (g : Guard) (src : Src) (s : State), s.Ok → s.Passes .s0 g src →
    s.me.FirstAt .s0 (.rport 0 false) → s.me.FirstAt .s0 (.rport 0 true) → (∀ n < 8, s.me.FirstAt .s0 (.tsh n)) →
    let a := s.word .s0 src
    let o2 := s.me.portW .s0 2
    let o3 := s.me.portW .s0 3
    let size := (o2.extractLsb' 0 4).toNat
    let j := bucketOf a.toNat (buckets (s.me.portW .s0 0).toNat 8)
    if o2.extractLsb' 4 60 ≠ 0 ∨ size = 0 ∨ 12 < size then exec (.ctlBsel g src) s = .next (s.faults .s0 0x04 o2.toNat 0)
    else if o3.extractLsb' 9 55 ≠ 0 then exec (.ctlBsel g src) s = .next (s.faults .s0 0x04 o3.toNat 0)
    else ∃ c', c' = { s.me.pop with regs := c'.regs } ∧ exec (.ctlBsel g src) s = .next (s.setCore s.curCore c') ∧
      ∀ m blk, s.me.ctl.bcount + 1 ≤ m →
        c'.regs.read (s.me.key (.rport 0 false)) m blk = BitVec.ofNat 1024 j ∧
        c'.regs.read (s.me.key (.rport 0 true)) m blk =
          BitVec.ofNat 1024 (((s.me.portW .s0 1).extractLsb' 0 32).toNat + j * size) ∧
        (∀ n < 8, c'.regs.read (s.me.key (.tsh n)) m blk =
          if o3.getLsbD n then applyOp (if o3.getLsbD 8 then .byte2 else .byte1) (s.me.regs.read (s.me.key (.tsh n)) m blk)
              (BitVec.ofNat 1024 (validCount a.toNat))
          else s.me.regs.read (s.me.key (.tsh n)) m blk) ∧
        (∀ key, key ≠ s.me.key (.rport 0 false) → key ≠ s.me.key (.rport 0 true) → (∀ n < 8, key ≠ s.me.key (.tsh n)) →
          c'.regs.read key m blk = s.me.regs.read key m blk)) ∧
  ((∀ (v : Nat) (bs : List Nat),
    (∀ i < bucketOf v bs, ∃ b, bs[i]? = some b ∧ 96 * b < v) ∧
    (bucketOf v bs = bs.length ∨ ∃ b, bs[bucketOf v bs]? = some b ∧ v ≤ 96 * b)) ∧
  (∀ v, if v = 0 then validCount v = 0 else 1 ≤ validCount v ∧ validCount v ≤ 96 ∧ (v - validCount v) % 96 = 0) ∧
  ∀ old new : Vec,
    (applyOp .byte1 old new).extractLsb' 8 8 = new.extractLsb' 0 8 ∧ (applyOp .byte1 old new).extractLsb' 0 8 = old.extractLsb' 0 8 ∧
    (applyOp .byte1 old new).extractLsb' 16 48 = old.extractLsb' 16 48 ∧
    (applyOp .byte2 old new).extractLsb' 16 8 = new.extractLsb' 0 8 ∧ (applyOp .byte2 old new).extractLsb' 0 16 = old.extractLsb' 0 16 ∧
    (applyOp .byte2 old new).extractLsb' 24 40 = old.extractLsb' 24 40)

/-- The exits (10 R262): whether the target counts from the exit bundle's header, and whether the exit links. -/
def Sys2Proof.Machine.exitForms : List ((ExitSlot → Guard → Src → Instr) × Bool × Bool) :=
  [(.exitBr, true, false), (.exitJmp, false, false), (.exitCall, true, true), (.exitCalla, false, true), (.exitRet, false, false)]

/-- O23 (06 R172, 10 R262): the first exit of its bundle whose guard is true fires: it sets the target, and a link writes
the index of the bundle that follows to sa31. An exit behind one that has fired does nothing. -/
def Obligations.ExitFires : Prop :=
  ∀ e ∈ exitForms, ∀ (x : ExitSlot) (g : Guard) (src : Src) (s : State),
    (s.me.ctl.exit.isSome = true → exec (e.1 x g src) s = .next (s.setCore s.curCore s.me.pop)) ∧
    (s.Ok → s.me.ctl.exit = none → s.Passes x.slot g src → s.me.FirstAt x.slot (.sreg false 31) →
      let a := s.word x.slot src
      let target := if e.2.1 then BitVec.ofNat 64 s.me.ctl.cur.index + a else a
      let c1 := { s.me.pop with ctl := { s.me.pop.ctl with exit := some target.toNat, exitNeg := target.msb } }
      if e.2.2 then ∃ c2, c1.Wrote (.sreg false 31) .put (BitVec.ofNat 1024 s.me.ctl.cur.stop) 1 c2 ∧
        exec (e.1 x g src) s = .next (s.setCore s.curCore c2)
      else exec (e.1 x g src) s = .next (s.setCore s.curCore c1))

/-- O24 (10 R265, R266; 10 R271): The loop sequencer's writes: a trip count, a base, a stride, or the range that the block
starts. A level above 5, a reserved bit, or an active range where the port forbids one is an operand fault. `ctl.wait`
with no reserved bit set waits with the limits of its operand; with an ST limit below 63 the counted stores are performed.
A reserved bit is an operand fault. -/
def Obligations.SequencerWrites : Prop :=
  (∀ (g : Guard) (src : Src) (s : State), s.Ok → s.Passes .s0 g src →
    let a := s.word .s0 src
    let o := s.me.portW .s0 0
    let j := (o.extractLsb' 0 3).toNat
    let l := (o.extractLsb' 4 3).toNat
    (if 5 < j then exec (.ctlLvl g src) s = .next (s.faults .s0 0x04 o.toNat 0)
     else if a.extractLsb' 16 48 ≠ 0 ∨ s.me.seq.lv ≠ 0 then exec (.ctlLvl g src) s = .next (s.faults .s0 0x04 a.toNat 0)
     else s.me.FirstAt .s0 (.trip j) → ∃ c', s.me.pop.Wrote (.trip j) .put (BitVec.ofNat 1024 (a.extractLsb' 0 16).toNat + 1) 1 c' ∧
       exec (.ctlLvl g src) s = .next (s.setCore s.curCore c')) ∧
    (s.me.FirstAt .s0 (.cb j) → ∃ c', s.me.pop.Wrote (.cb j) .put (a.setWidth 1024) 1 c' ∧
       exec (.ctlCabase g src) s = .next (s.setCore s.curCore c')) ∧
    (if 5 < l then exec (.ctlCastr g src) s = .next (s.faults .s0 0x04 o.toNat 0)
     else if s.me.seq.lv ≠ 0 then exec (.ctlCastr g src) s = .next (s.faults .s0 0x04 a.toNat 0)
     else s.me.FirstAt .s0 (.cs j l) → ∃ c', s.me.pop.Wrote (.cs j l) .put (a.setWidth 1024) 1 c' ∧
       exec (.ctlCastr g src) s = .next (s.setCore s.curCore c')) ∧
    (if a.extractLsb' 10 54 ≠ 0 ∨ a.extractLsb' 0 3 = 0 ∨ a.extractLsb' 0 3 = 7 ∨ s.me.seq.lv ≠ 0 then
       exec (.ctlLoop g src) s = .next (s.faults .s0 0x04 a.toNat 0)
     else exec (.ctlLoop g src) s = .next (s.after fun c =>
       { c with ctl := { c.ctl with loop := some (a.toNat, ((s.me.portW .s0 1).extractLsb' 0 32).toNat) } }))) ∧
  (∀ (g : Guard) (src : Src) (s : State), s.Ok → s.Passes .s0 g src →
    let a := s.word .s0 src
    let t := s.after fun c => { c with ctl := { c.ctl with waiting := some a.toNat } }
    if a.extractLsb' 24 40 ≠ 0 then exec (.ctlWait g src) s = .next (s.faults .s0 0x04 a.toNat 0)
    else exec (.ctlWait g src) s = .next (if (a.extractLsb' 6 6).toNat < 63 then performStores t s.curCore else t))

/-- The operations on a record (10 R272, R273), each with the held operation it becomes from its operand port. -/
def Sys2Proof.Machine.recordForms : List ((Guard → Src → Instr) × (Nat → Nat → HOp)) :=
  [(.ctlFork, fun a _ => .fork a), (.ctlSpawn, fun a _ => .spawn a), (.ctlLaunch, fun a o => .launch a o)]

/-- O25 (10 R272, R273): `fork`, `spawn` and `launch` of a record on a page with R and W take an entry of the block store
buffer, and owe `ctl.r` a status of class sys to later blocks (a fork with no room in the deque faults); `join` takes its
place at the end of the block. A record that is not aligned to 64 bytes faults, and so does, before it, a stream number of
`launch` with a bit above [11:0]. -/
def Obligations.RecordOperations : Prop :=
  (∀ e ∈ recordForms, ∀ (g : Guard) (src : Src) (s : State) (ms : MemSys) (x : Xlat),
    s.Ok → s.Passes .s0 g src → s.me.storeRoom = true →
    let a := (s.word .s0 src).toNat
    let o := (s.me.portW .s0 0).toNat
    a % 64 = 0 → (e.1 g src = .ctlLaunch g src → o < 2 ^ 12) → translate s.ms (s.who s.curCore) a .atomic = (ms, .ok x) →
    exec (e.1 g src) s = .next
      (if e.1 g src = .ctlFork g src ∧ dequeFull s s.curCore s.me = true then { s with ms := ms }.faults .s0 0x16 a 2
       else { s with ms := ms }.after fun c =>
         (c.owe .s0 (.rport 0 false) .put 14 false).hold .s0 (e.2 a o) (some c.nextId))) ∧
  (∀ (g : Guard) (src : Src) (s : State) (ms : MemSys) (x : Xlat),
    s.Ok → s.Passes .s0 g src → s.me.storeRoom = true → (s.word .s0 src).toNat % 64 = 0 →
    translate s.ms (s.who s.curCore) (s.word .s0 src).toNat .atomic = (ms, .ok x) →
    exec (.ctlJoin g src) s = .next ({ s with ms := ms }.after fun c => c.finish (.join (s.word .s0 src).toNat))) ∧
  (∀ (g : Guard) (src : Src) (s : State), s.Passes .s0 g src → s.me.storeRoom = true →
    let a := (s.word .s0 src).toNat
    (a % 64 ≠ 0 → exec (.ctlFork g src) s = .next (s.faults .s0 0x05 a 2) ∧ exec (.ctlJoin g src) s = .next (s.faults .s0 0x05 a 2) ∧
      exec (.ctlSpawn g src) s = .next (s.faults .s0 0x05 a 2) ∧
      ((s.me.portW .s0 0).toNat < 2 ^ 12 → exec (.ctlLaunch g src) s = .next (s.faults .s0 0x05 a 2))) ∧
    (2 ^ 12 ≤ (s.me.portW .s0 0).toNat → exec (.ctlLaunch g src) s = .next (s.faults .s0 0x04 (s.me.portW .s0 0).toNat 0)))

/-- O26 (10 R272, R275, R277; 18 R382, R388, R392): `done` and `trap` take their place at the end of the block in either
mode, `yield` while the task stands in its stub, and `bar` takes its place in program order among the held operations; each
changes nothing else before its block has committed. -/
def Obligations.BlockEndings : Prop :=
  ∀ (g : Guard) (src : Src) (s : State), s.Ok → s.Passes .s0 g src → s.me.storeRoom = true →
    let a := s.word .s0 src
    exec (.ctlDone g src) s = .next (s.after fun c => c.finish .done) ∧
    exec (.ctlBar g src) s = .next (s.after fun c => c.hold .s0 .bar none) ∧
    exec (.ctlTrap g src) s = .next (s.after fun c => c.finish (.trap a)) ∧
    (∀ f t, s.me.trap.preempt = .stub f t → a.toNat < 2 ^ 32 →
      exec (.ctlYield g src) s = .next (s.after fun c => c.finish (.yield a.toNat))) ∧
    ((∀ f t, s.me.trap.preempt ≠ .stub f t) → exec (.ctlYield g src) s = .next (s.faults .s0 0x04 a.toNat 0))

/-- O27 (18 R382, R385 to R387; 20 R407 to R413): In supervisor mode with TL = 1, `rfe`, `park` and `abort` take their
place at the end of the block, and `unpark` of a core is held and owes its status; with TL = 0 the first three are operand
faults; in user mode each is a privilege fault, whatever its operand. The clock and voltage operations, and the software
watch selection, are held with the fields of their operands and owe `ctl.r` a result; an operand outside its range is an
operand fault. -/
def Obligations.PrivilegedControl : Prop :=
  (∀ (g : Guard) (src : Src) (s : State), s.Ok → s.Passes .s0 g src → s.me.storeRoom = true →
    let a := s.word .s0 src
    let denied : State := (s.setCore s.curCore s.me.pop).tick
    let priv := takeFault denied s.curCore
      { code := 0x03, addr := (Config.faultAddr s.fresh).toNat, slot := 0, bidx := s.me.ctl.bidx }
    (s.me.trap.sup = true → s.me.trap.tl = true →
      exec (.ctlRfe g src) s = .next (s.after fun c => c.finish .rfe) ∧
      exec (.ctlPark g src) s = .next (s.after fun c => c.finish .park) ∧
      exec (.ctlAbort g src) s = .next (s.after fun c => c.finish .abort)) ∧
    (s.me.trap.sup = true → s.me.trap.tl = false →
      exec (.ctlRfe g src) s = .next (s.faults .s0 0x04 a.toNat 0) ∧ exec (.ctlPark g src) s = .next (s.faults .s0 0x04 a.toNat 0) ∧
      exec (.ctlAbort g src) s = .next (s.faults .s0 0x04 a.toNat 0)) ∧
    (s.me.trap.sup = true → a.toNat < 2 ^ 8 → exec (.ctlUnpark g src) s = .next (s.after fun c =>
      (c.owe .s0 (.rport 0 false) .put 14 false).hold .s0 (.unpark a.toNat) (some c.nextId))) ∧
    (s.me.trap.sup = false → exec (.ctlRfe g src) s = .next priv ∧ exec (.ctlPark g src) s = .next priv ∧
      exec (.ctlAbort g src) s = .next priv ∧ exec (.ctlUnpark g src) s = .next priv)) ∧
  (∀ (g : Guard) (src : Src) (s : State), s.Ok → s.Passes .s0 g src → s.me.storeRoom = true →
    let a := s.word .s0 src
    let b := s.me.portW .s0 0
    let d := s.me.portW .s0 1
    let held (op : HOp) : State := s.after fun c => (c.owe .s0 (.rport 0 false) .put 14 false).hold .s0 op (some c.nextId)
    let dv := (a.extractLsb' 0 5).toNat
    (if a.extractLsb' 10 54 ≠ 0 ∨ a.extractLsb' 5 3 ≠ 0 ∨ dv < 2 ∨ 16 < dv then exec (.ctlClkset g src) s = .next (s.faults .s0 0x04 a.toNat 0)
     else exec (.ctlClkset g src) s = .next (held (.clkset (a.extractLsb' 8 2).toNat dv))) ∧
    (if 70 < a.toNat then exec (.ctlVset g src) s = .next (s.faults .s0 0x04 a.toNat 0)
     else exec (.ctlVset g src) s = .next (held (.vset a.toNat))) ∧
    (if 6 < a.toNat then exec (.ctlClkrd g src) s = .next (s.faults .s0 0x04 a.toNat 0)
     else exec (.ctlClkrd g src) s = .next (held (.clkrd a.toNat))) ∧
    (a.toNat < 2 ^ 32 → b.toNat < 2 ^ 32 → d.toNat < 2 ^ 32 → exec (.ctlSwsel g src) s = .next (held (.swsel a.toNat b.toNat d.toNat))))

/-- The privilege fault of a trigger of slot 0; no rule gives FADDR a value there, so that one is free (log entry 20). -/
noncomputable def Sys2Proof.Machine.privilegeFaultOf (s : State) : State :=
  takeFault (s.setCore s.curCore s.me.pop).tick s.curCore
    { code := 0x03, addr := (Config.faultAddr s.fresh).toNat, slot := 0, bidx := s.me.ctl.bidx }

/-- The system registers that are written, each with its reserved bits (01 R14, 04 R117, 18 R380, R381). -/
def Sys2Proof.Machine.sysWritten : List (Nat × Word) :=
  [(0x000, 0xFFF00000000F0000), (0x001, 0xFF00000000000FFF), (0x002, 0xFFFFF000000003FF), (0x010, 0xFFFFFFFFFF800000), (0x011, 0),
   (0x012, 0xFFFFFFC000000000)]

/-- O28 (18 R381, R382; 18 R381, R382): A read of a system register: which register each number names, that the mode is
checked before the reserved bits, and that only TSTAT, CTXN and FRAME may be read in user mode; FRAME is the software area of
the frame of a pre-emption while the task stands in its stub, and 0 otherwise. A write of a system register
in supervisor mode is held and made at the commit of its block, in the register of its number alone; in user mode it is a
privilege fault. A number that names no register is an operand fault before all this; a bit above [11:0], a write of TSTAT, CTXN
or FRAME, and a value with a reserved bit of its register are operand faults behind the mode. -/
def Obligations.SystemRegisters : Prop :=
  (∀ (g : Guard) (src : Src) (s : State) (w : Word), s.Ok → s.Passes .s0 g src → s.me.FirstAt .s0 (.rport 0 false) →
    let n := (s.word .s0 src).toNat
    (n, w) ∈ [(0x000, s.me.xroot), (0x001, s.me.xrdt), (0x002, s.me.xpool), (0x010, s.me.trap.fcause), (0x011, s.me.trap.faddr),
      (0x012, s.me.trap.fpc), (0x020, BitVec.ofNat 64 (b2n s.me.trap.sup + 2 * b2n s.me.trap.tl)), (0x030, BitVec.ofNat 64 s.me.ctx)] →
    (s.me.trap.sup = true ∨ n = 0x020 ∨ n = 0x030) →
    ∃ c', s.me.pop.Wrote (.rport 0 false) .put (w.setWidth 1024) (s.me.la 14) c' ∧
      exec (.ctlSrd g src) s = .next (s.setCore s.curCore c')) ∧
  (∀ (g : Guard) (src : Src) (s : State), s.Ok → s.Passes .s0 g src → s.me.FirstAt .s0 (.rport 0 false) →
    (s.word .s0 src).toNat = 0x031 →
    (∀ f t, s.me.trap.preempt = .stub f t →
      let base := (s.readCtx s.me.ctx).2.savev * 2 ^ 32 + 0x1000000 * s.curCore + 0x400000 * f
      ∃ c', s.me.pop.Wrote (.rport 0 false) .put ((BitVec.ofNat 64 (base % 2 ^ 64 + 0x37B000)).setWidth 1024) (s.me.la 14) c' ∧
        exec (.ctlSrd g src) s = .next ({ s with ms := (s.readCtx s.me.ctx).1.ms }.setCore s.curCore c')) ∧
    ((∀ f t, s.me.trap.preempt ≠ .stub f t) → ∃ c', s.me.pop.Wrote (.rport 0 false) .put 0 (s.me.la 14) c' ∧
      exec (.ctlSrd g src) s = .next (s.setCore s.curCore c'))) ∧
  (∀ (g : Guard) (src : Src) (s : State), s.Passes .s0 g src →
    let a := s.word .s0 src
    let n := (a.extractLsb' 0 12).toNat
    let supOnly := n ∈ [0x000, 0x001, 0x002, 0x010, 0x011, 0x012]
    let anyMode := n ∈ [0x020, 0x030, 0x031]
    (¬supOnly → ¬anyMode → exec (.ctlSrd g src) s = .next (s.faults .s0 0x04 a.toNat 0)) ∧
    (supOnly → s.me.trap.sup = false → exec (.ctlSrd g src) s = .next (privilegeFaultOf s)) ∧
    (anyMode ∨ (supOnly ∧ s.me.trap.sup = true) → a.extractLsb' 12 52 ≠ 0 →
      exec (.ctlSrd g src) s = .next (s.faults .s0 0x04 a.toNat 0))) ∧
  ((∀ (g : Guard) (src : Src) (s : State), s.Ok → s.Passes .s0 g src → s.me.storeRoom = true →
    let a := s.word .s0 src
    let o := s.me.portW .s0 0
    let n := (o.extractLsb' 0 12).toNat
    let anyMode := n ∈ [0x020, 0x030, 0x031]
    ((∀ e ∈ sysWritten, e.1 ≠ n) → ¬anyMode → exec (.ctlSwr g src) s = .next (s.faults .s0 0x04 o.toNat 0)) ∧
    ((anyMode ∨ ∃ e ∈ sysWritten, e.1 = n) → s.me.trap.sup = false → exec (.ctlSwr g src) s = .next (privilegeFaultOf s)) ∧
    ((anyMode ∨ ((∃ e ∈ sysWritten, e.1 = n) ∧ o.extractLsb' 12 52 ≠ 0)) → s.me.trap.sup = true →
      exec (.ctlSwr g src) s = .next (s.faults .s0 0x04 o.toNat 0)) ∧
    ∀ e ∈ sysWritten, e.1 = n → s.me.trap.sup = true → o.extractLsb' 12 52 = 0 →
      exec (.ctlSwr g src) s = .next (if a &&& e.2 = 0 then s.after fun c => c.hold .s0 (.swr n a) none
        else s.faults .s0 0x04 a.toNat 0)) ∧
  ∀ (s : State) (k : Nat) (h : Held) (n : Nat) (v : Word), h.op = .swr n v →
    ∃ t, performHeld s k h = some t ∧
      (n = 0x000 → t = s.setCore k { s.core k with xroot := v }) ∧ (n = 0x001 → t = s.setCore k { s.core k with xrdt := v }) ∧
      (n = 0x002 → t = s.setCore k { s.core k with xpool := v }) ∧
      (n = 0x010 → t = s.setCore k { s.core k with trap := { (s.core k).trap with fcause := v } }) ∧
      (n = 0x011 → t = s.setCore k { s.core k with trap := { (s.core k).trap with faddr := v } }) ∧
      (n = 0x012 → t = s.setCore k { s.core k with trap := { (s.core k).trap with fpc := v } }))

/-! ### The load and store unit (08 R204 to R225, 05 R131 to R144) -/

/-- O29 (08 R208, 05 R131, 01 R20, 06 R174, R176, R178; 08 R208, 04 R97): A plain load of an aligned address in a local aperture
reads its bytes through the level-1 cache, with the stores of its own block forwarded, and owes them, zero- or
sign-extended, to `ls2.r` with class ld; a pool entry that is not valid reads zeros. It waits for a released vector access of
its bytes, and one behind an acquiring atomic, a pool operation, a write-back or a drain of its own block is performed once the
block has committed (log entry 96). An address that is not aligned, a translation that faults, and an address outside the apertures fault, in
this order. A scratchpad load inside the scratchpad reads its bytes, with the scratchpad stores of its own block
forwarded, and lands before its block commits; an address that is not aligned faults first, one outside the scratchpad
second; a block that a restored task holds poisoned is a machine check when it is first read (18 R393). -/
def Obligations.ScalarLoad : Prop :=
  (∀ e ∈ loadForms, ∀ (g : Guard) (src : Src) (s : State), s.Ok → s.Passes .s2 g src → s.me.ldRoom = true → s.xlWaits s.curCore = false →
    let n := e.2.1
    let ea := (s.word .s2 src + s.me.portW .s2 0).toNat
    let full (v : Nat) : Word := if e.2.2 then BitVec.ofInt 64 (BitVec.ofNat (8 * n) v).toInt else BitVec.ofNat 64 (v % 2 ^ (8 * n))
    if ea % n ≠ 0 then exec (e.1 g src) s = .next (s.faults .s2 0x05 ea 0)
    else
      match translate s.ms (s.who s.curCore) ea .load with
      | (ms, .error f) => exec (e.1 g src) s = .next (s.accessFaults ms .s2 f 0)
      | (ms, .ok x) =>
        if x.dev ≠ none ∨ (x.hole = false ∧ inAperture x.pa = false) then exec (e.1 g src) s = .next ({ s with ms := ms }.faults .s2 0x06 ea 0)
        else if s.me.vectorAt x.pa n then exec (e.1 g src) s = .next s
        else if s.me.keepsLoad ea x.pa n then exec (e.1 g src) s = .next ({ s with ms := ms }.after fun c =>
          (c.loadResult .s2 (.rport 2 false) 8 0 false none).hold .s2 (.load n e.2.2 x) (some c.nextId))
        else if x.hole then exec (e.1 g src) s = .next ({ s with ms := ms }.after fun c => c.loadResult .s2 (.rport 2 false) 8 0 false none)
        else
          let r := cachedLoad ms (s.who s.curCore) s.me.ways x x.pa n 1
          exec (e.1 g src) s = .next ({ s with ms := r.1 }.after fun c =>
            (c.loadResult .s2 (.rport 2 false) 8 ((full (forward x.pa r.2.val s.me.ctl.store n)).setWidth 1024) false r.2.bad).note r.2.bad)) ∧
  (∀ e ∈ scratchForms, ∀ (g : Guard) (src : Src) (s : State),
    s.Ok → s.Passes .s2 g src → s.me.ldRoom = true →
    let n := e.2.1
    let ea := (s.word .s2 src + s.me.portW .s2 0).toNat
    if ea % n ≠ 0 then exec (e.1 g src) s = .next (s.faults .s2 0x05 ea 0)
    else if 32768 * s.me.ways < ea + n then exec (e.1 g src) s = .next (s.faults .s2 0x0D ea 0)
    else if s.me.padStoreAt ea n then exec (e.1 g src) s = .next s
    else if s.me.padErr ea n then exec (e.1 g src) s = .next (takePadError (s.after id) s.curCore .s2)
    else
      let v := forwardPad ea (s.me.padBytes ea n) s.me.ctl.store n
      let bad := if s.me.padPoisoned ea then some (poisonNotice ea 0 1) else none
      exec (e.1 g src) s = .next (s.after fun c =>
        (c.loadResult .s2 (.rport 2 false) 8
          ((if e.2.2 then BitVec.ofInt 64 (BitVec.ofNat (8 * n) v).toInt else BitVec.ofNat 64 (v % 2 ^ (8 * n)) : Word).setWidth 1024)
          true bad).note bad))

/-- The stores of the running task that count in `st`, with those of its current block that will, and its tree updates at
remote homes (06 R176, 08 R217). -/
def Sys2Proof.Machine.State.stCounted (s : State) : Nat := s.me.st + s.me.stHeld + s.treesOut s.curCore

/-- State `t` as a store finds it: with 63 stores counted, the counted stores have been performed (log entry 21). -/
noncomputable def Sys2Proof.Machine.State.withRoom (s t : State) : State :=
  if s.stCounted < 63 then t.after id else performStores (t.after id) s.curCore

/-- O30 (06 R173, 08 R208): a store takes an entry of the block store buffer with its address and the low bytes of
`ls2.o1`; nothing is stored before its block has committed, and no register changes. A store that would raise `st` to 64,
then or at its release, first has the counted stores performed (log entry 21), and waits where that makes no room. -/
def Obligations.StoresHeld : Prop :=
  (∀ e ∈ storeForms, ∀ (g : Guard) (src : Src) (s : State) (ms : MemSys) (x : Xlat),
    s.Ok → s.Passes .s2 g src → s.me.storeRoom = true → s.xlWaits s.curCore = false → s.storeFull s.curCore = false →
    let n := e.2
    let ea := (s.word .s2 src + s.me.portW .s2 0).toNat
    (ea % n ≠ 0 → exec (e.1 g src) s = .next (s.faults .s2 0x05 ea 1)) ∧
    (ea % n = 0 → translate s.ms (s.who s.curCore) ea .store = (ms, .ok x) →
      let d : BitVec 1024 := BitVec.ofNat 1024 ((s.me.portW .s2 1).toNat % 2 ^ (8 * n))
      exec (e.1 g src) s = .next ((s.withRoom { s with ms := ms }).modCore s.curCore fun c => c.hold .s2 (.store n x d) none))) ∧
  (∀ f ∈ storeForms.map Prod.fst ++ scratchStoreForms.map Prod.fst ++ [.ls2Cwb, .ls2Cinv], ∀ (g : Guard) (src : Src) (s : State),
    s.Passes .s2 g src → s.storeFull s.curCore = true → exec (f g src) s = .next s) ∧
  (∀ e ∈ scratchStoreForms, ∀ (g : Guard) (src : Src) (s : State),
    s.Ok → s.Passes .s2 g src → s.me.storeRoom = true → s.storeFull s.curCore = false →
    let n := e.2
    let ea := (s.word .s2 src + s.me.portW .s2 0).toNat
    if ea % n ≠ 0 then exec (e.1 g src) s = .next (s.faults .s2 0x05 ea 1)
    else if 32768 * s.me.ways < ea + n then exec (e.1 g src) s = .next (s.faults .s2 0x0D ea 1)
    else
      let d : BitVec 1024 := BitVec.ofNat 1024 ((s.me.portW .s2 1).toNat % 2 ^ (8 * n))
      exec (e.1 g src) s = .next ((s.withRoom s).modCore s.curCore fun c => c.hold .s2 (.sstore n ea d) none))

/-- O31 (08 R208, R210, R211): an atomic of an aligned element in an aperture is held with its operands; one that returns
owes its value to `ls2.r`, one that does not counts in `st`, which has the counted stores performed before it would reach 64 (log
entry 21). `ldio` is held and owes its value. An address that is not
aligned, a translation that faults, and, for an atomic, a device's address, fault. -/
def Obligations.AtomicsAndLdioHeld : Prop :=
  (∀ e ∈ atomicForms, ∀ (g : Guard) (src : Src) (s : State), s.Ok → s.Passes .s2 g src → s.me.loadRoom = true →
    s.xlWaits s.curCore = false →
    let cw := s.word .s2 src
    let a := (s.me.portW .s2 0).toNat
    let op (x : Xlat) : HOp := .atomic e.2 cw.toNat x (s.me.portW .s2 1) (s.me.portW .s2 2)
    if cw.getLsbD 2 = false ∧ s.storeFull s.curCore = true then exec (e.1 g src) s = .next s
    else if a % (if cw.getLsbD 3 then 8 else 4) ≠ 0 then exec (e.1 g src) s = .next (s.faults .s2 0x05 a 2)
    else
      match translate s.ms (s.who s.curCore) a .atomic with
      | (ms, .error f) => exec (e.1 g src) s = .next (s.accessFaults ms .s2 f 2)
      | (ms, .ok x) =>
        if inAperture x.pa = false ∧ space x.pa ≠ .reserved then exec (e.1 g src) s = .next ({ s with ms := ms }.faults .s2 0x06 a 2)
        else if cw.getLsbD 2 then exec (e.1 g src) s = .next ({ s with ms := ms }.after fun c =>
          (c.owe .s2 (.rport 2 false) .put 11 true).hold .s2 (op x) (some c.nextId))
        else exec (e.1 g src) s = .next ((s.withRoom { s with ms := ms }).modCore s.curCore fun c => c.hold .s2 (op x) none)) ∧
  (∀ e ∈ heldLoadForms, ∀ (g : Guard) (src : Src) (s : State), s.Ok → s.Passes .s2 g src → s.me.loadRoom = true →
    s.xlWaits s.curCore = false →
    let ea := (s.word .s2 src + s.me.portW .s2 0).toNat
    if ea % e.2 ≠ 0 then exec (e.1 g src) s = .next (s.faults .s2 0x05 ea 0)
    else
      match translate s.ms (s.who s.curCore) ea .load with
      | (ms, .error f) => exec (e.1 g src) s = .next (s.accessFaults ms .s2 f 0)
      | (ms, .ok x) => exec (e.1 g src) s = .next ({ s with ms := ms }.after fun c =>
          (c.owe .s2 (.rport 2 false) .put 8 true).hold .s2 (.ldio e.2 x) (some c.nextId)))

/-- O32 (05 R134 to R142, 08 R219 to R221): the ordering operations are held, and those with a result owe it to `ls2.r`
with class atom. An address that is not aligned, a translation that faults, and a page that is not coherent fault. That `moor`
and `unmoor` are translated as loads and `rel` as a store is the model's choice (log entry 110). -/
def Obligations.OrderingHeld : Prop :=
  ∀ e ∈ orderForms, ∀ (g : Guard) (src : Src) (s : State), s.Ok → s.Passes .s2 g src → s.me.loadRoom = true →
    s.xlWaits s.curCore = false →
    let a := (s.me.portW .s2 e.2.1.1).toNat
    let kind := e.2.1.2.2.2
    let op (x : Xlat) : HOp := e.2.2.2 (s.word .s2 src) (s.me.portW .s2 0) (s.me.portW .s2 1) x
    if a % e.2.1.2.1 ≠ 0 then exec (e.1 g src) s = .next (s.faults .s2 e.2.1.2.2.1 a kind.code)
    else
      match translate s.ms (s.who s.curCore) a kind with
      | (ms, .error f) => exec (e.1 g src) s = .next (s.accessFaults ms .s2 f kind.code)
      | (ms, .ok x) =>
        if leafCoh x.leaf = false then exec (e.1 g src) s = .next ({ s with ms := ms }.faults .s2 0x11 a kind.code)
        else exec (e.1 g src) s = .next ({ s with ms := ms }.after fun c =>
          match e.2.2.1 with
          | some ld => (c.owe .s2 (.rport 2 false) .put 11 ld).hold .s2 (op x) (some c.nextId)
          | none => c.hold .s2 (op x) none)

/-- O33 (05 R144, 08 R204, R209, R222 to R225): fences, pool operations and maintenance are held with their operands; a pool
operation on a page that is not pooled faults, after every translation; `ea` adds
a shifted offset and delivers the sum in `ls2.s`; a range must have a length of whole lines; `xlinv` is privileged. -/
def Obligations.MaintenanceAndAddresses : Prop :=
  (∀ (g : Guard) (src : Src) (s : State), s.Ok → s.Passes .s2 g src → s.me.storeRoom = true →
    let w := s.word .s2 src
    let o := s.me.portW .s2 0
    let range (op : Nat → Nat → HOp) : State :=
      if o.toNat % 64 ≠ 0 ∨ o.toNat = 0 ∨ 2 ^ 40 < o.toNat then s.faults .s2 0x04 o.toNat 0
      else s.after fun c => c.hold .s2 (op w.toNat o.toNat) none
    exec (.ls2Fence g src) s = .next (s.after fun c =>
      c.hold .s2 (.fence (w.extractLsb' 0 3).toNat (w.extractLsb' 8 7).toNat (w.extractLsb' 16 7).toNat) none) ∧
    exec (.ls2Xlwait g src) s = .next (s.after fun c => c.hold .s2 (.xlwait none) none) ∧
    exec (.ls2Icinv g src) s = .next (range fun b n => .icinv b n) ∧
    (s.storeFull s.curCore = false → ∀ e ∈ ([(.ls2Cwb, false), (.ls2Cinv, true)] : List ((Guard → Src → Instr) × Bool)),
      exec (e.1 g src) s = .next (if o.toNat % 64 ≠ 0 ∨ o.toNat = 0 ∨ 2 ^ 40 < o.toNat then s.faults .s2 0x04 o.toNat 0
        else (s.withRoom s).modCore s.curCore fun c => c.hold .s2 (.cacheRegion e.2 w.toNat o.toNat) none)) ∧
    (s.me.trap.sup = true →
      match xlinvBad (w.extractLsb' 0 2).toNat o (s.me.portW .s2 1) (s.me.portW .s2 2) with
      | some b => exec (.ls2Xlinv g src) s = .next (s.faults .s2 0x04 b.toNat 0)
      | none => exec (.ls2Xlinv g src) s = .next (s.after fun c => c.hold .s2
          (.xlinv (w.extractLsb' 0 2).toNat o.toNat (s.me.portW .s2 1).toNat (s.me.portW .s2 2).toNat) none)) ∧
    (s.me.trap.sup = false → exec (.ls2Xlinv g src) s = .next (takeFault (s.setCore s.curCore s.me.pop).tick s.curCore
      { code := 0x03, addr := (Config.faultAddr s.fresh).toNat, slot := 2, bidx := s.me.ctl.bidx }))) ∧
  (∀ (g : Guard) (src : Src) (s : State),
    s.Ok → s.Passes .s2 g src → s.me.storeRoom = true → s.xlWaits s.curCore = false →
    let a := (s.word .s2 src).toNat
    let b := (s.me.portW .s2 0).toNat
    let owed (ms : MemSys) (op : HOp) : State :=
      { s with ms := ms }.after fun c => (c.owe .s2 (.rport 2 false) .put 14 false).hold .s2 op (some c.nextId)
    let unpooled (ms : MemSys) (va : Nat) : State := s.accessFaults ms .s2 { code := 0x15, lvl := 7, addr := va } 2
    let one (op : Xlat → Nat → HOp) : State :=
      match poolEntry s.ms (s.who s.curCore) a with
      | (ms, .error f) => s.accessFaults ms .s2 f 2
      | (ms, .ok none) => unpooled ms a
      | (ms, .ok (some (x, p))) => owed ms (op x p)
    exec (.ls2PoolDrop g src) s = .next (one fun x p => .poolDrop x p) ∧
    exec (.ls2PoolAlloc g src) s = .next (one fun x p => .poolAlloc x p) ∧
    exec (.ls2PoolShare g src) s = .next
      (match poolEntry s.ms (s.who s.curCore) a with
       | (ms, .error f) => s.accessFaults ms .s2 f 2
       | (m1, .ok d) =>
         match poolEntry m1 (s.who s.curCore) b with
         | (ms, .error f) => s.accessFaults ms .s2 f 2
         | (m2, .ok e) =>
           match d, e with
           | none, _ => unpooled m2 a
           | some _, none => unpooled m2 b
           | some (x, p), some (y, q) => owed m2 (.poolShare x y p q))) ∧
  (∀ e ∈ ([(.ls2Ea0, 0), (.ls2Ea1, 1), (.ls2Ea2, 2), (.ls2Ea3, 3), (.ls2Ea4, 4), (.ls2Ea5, 5), (.ls2Ea6, 6)] :
      List ((Guard → Src → Instr) × Nat)), ∀ (g : Guard) (src : Src) (s : State),
    s.Ok → s.Passes .s2 g src → s.me.FirstAt .s2 (.rport 2 true) →
    ∃ c', s.me.pop.Wrote (.rport 2 true) .put ((s.word .s2 src + s.me.portW .s2 0 <<< e.2).setWidth 1024) (s.me.la 15) c' ∧
      exec (e.1 g src) s = .next (s.setCore s.curCore c'))

/-- O34 (08 R208, R211, 06 R173): what held operations on the scratchpad, and atomics, do when they are performed: a
scratchpad store writes its bytes and no others; the combining functions give sum, bitwise, extreme, swapped and compared
values. -/
def Obligations.HeldEffects : Prop :=
  (∀ (s : State) (k : Nat) (h : Held) (n off : Nat) (v : BitVec 1024), h.op = .sstore n off v →
    ∃ t, performHeld s k h = some t ∧ t.ms = s.ms ∧ (∀ j, j ≠ k → t.core j = s.core j) ∧ (t.core k).regs = (s.core k).regs ∧
      (∀ i < n, (SMap.get 0 (t.core k).scratch (off + i) : BitVec 8) = BitVec.ofNat 8 (v.toNat >>> (8 * i))) ∧
      (∀ a, (a < off ∨ off + n ≤ a) → (SMap.get 0 (t.core k).scratch a : BitVec 8) = SMap.get 0 (s.core k).scratch a)) ∧
  (∀ (w o x c : Nat), w ∈ [4, 8] → o < 2 ^ (8 * w) → x < 2 ^ (8 * w) →
    let num (v : Nat) : Int := (BitVec.ofNat (8 * w) v).toInt
    atApply .add w o x c = (o + x) % 2 ^ (8 * w) ∧ atApply .and w o x c = o &&& x ∧ atApply .or w o x c = o ||| x ∧
    atApply .xor w o x c = o ^^^ x ∧ num (atApply .min w o x c) = min (num o) (num x) ∧ num (atApply .max w o x c) = max (num o) (num x) ∧
    atApply .minu w o x c = min o x ∧ atApply .maxu w o x c = max o x ∧ atApply .swp w o x c = x ∧
    atApply .cas w o x c = if o = c then x else o)

/-! ### The copy engine's slot (08 R212 to R218, 15 R347 to R367) -/

/-- O35 (08 R212, 15 R347, 06 R173): a vector access takes an entry of the copy engine's queue, with its address and, for
a store, `ex7.o0`; a load owes `ex7.r` with class vld. An address that is not a multiple of the size faults first; then
one that does not translate, or that is outside the scratchpad. A store that would raise `st` to 64, then or at its release,
first has the counted stores performed (log entry 21), and waits where that makes no room. That an access of the scratchpad is aligned too is the model's reading (log
entry 30). -/
def Obligations.VectorAccessesHeld : Prop :=
  ∀ e ∈ vectorForms, ∀ (g : Guard) (src : Src) (s : State), s.Ok → s.Passes .s7 g src → s.xlWaits s.curCore = false →
    let n := e.1
    let ea := (s.word .s7 src + s.me.portW .s7 1).toNat
    let v := s.me.port .s7 0
    let load (c : Core) (op : HOp) : Core := (c.owe .s7 (.rport 7 false) .put 9 true).holdEx op (some c.nextId)
    let store (t : State) (op : HOp) : State := (s.withRoom t).modCore s.curCore fun c => c.holdEx op none
    (s.me.exLoadRoom = true →
      exec (e.2.1 g src) s = .next (if ea % n ≠ 0 then s.faults .s7 0x05 ea 0 else
        match translate s.ms (s.who s.curCore) ea .load with
        | (ms, .error f) => s.accessFaults ms .s7 f 0
        | (ms, .ok x) => { s with ms := ms }.after fun c => load c (.vload n x)) ∧
      exec (e.2.2.2.1 g src) s = .next (if ea % n ≠ 0 then s.faults .s7 0x05 ea 0
        else if 32768 * s.me.ways < ea + n then s.faults .s7 0x0D ea 0
        else if s.me.padErr ea n then takePadError (s.after id) s.curCore .s7
        else s.after fun c => load c (.svload n ea))) ∧
    (s.storeFull s.curCore = true → exec (e.2.2.1 g src) s = .next s ∧ exec (e.2.2.2.2 g src) s = .next s) ∧
    (s.me.exRoom = true → s.storeFull s.curCore = false →
      exec (e.2.2.1 g src) s = .next (if ea % n ≠ 0 then s.faults .s7 0x05 ea 1 else
        match translate s.ms (s.who s.curCore) ea .store with
        | (ms, .error f) => s.accessFaults ms .s7 f 1
        | (ms, .ok x) => store { s with ms := ms } (.vstore n x v)) ∧
      exec (e.2.2.2.2 g src) s = .next (if ea % n ≠ 0 then s.faults .s7 0x05 ea 1
        else if 32768 * s.me.ways < ea + n then s.faults .s7 0x0D ea 1
        else store s (.svstore n ea v)))

/-- O36 (08 R213, R214, R218; 08 R215 to R217, 03 R71, R77): An element load or store of 1 to 32 coefficients, of a class
and a form that the class admits, from an aligned address, takes an entry of the queue with the translations of its
blocks, and owes VT its events; a load of a tree descriptor owes the descriptor register that its operand names. A tree
load with a valid descriptor and legal operands takes an entry of the queue with the translations of its blocks and owes
`ex7.r`, with class lvl, or class atom when it is performed at home; a tree update takes one with the new coefficient. A
reserved bit of the selector or of the position faults before a descriptor that is not valid, and this before an operand out
of the tree's bounds. The model's own: the order of these faults (log entry 107), FADDR of each (log entry 32), the class of the events
of an element access (log entry 36), and that a store first has the counted stores performed when `st` would reach 64 (log
entry 21). -/
def Obligations.ElementAndTreeHeld : Prop :=
  (∀ (g : Guard) (src : Src) (s : State), s.Ok → s.Passes .s7 g src → s.xlWaits s.curCore = false →
    let a := s.word .s7 src
    let o1 := s.me.portW .s7 1
    let c := (s.me.portW .s7 2).toNat
    let o3 := s.me.portW .s7 3
    let cls := (o3.extractLsb' 0 2).toNat
    (1 ≤ c → c ≤ 32 → 1 ≤ cls → a.toNat % 64 = 0 → ∀ (ms : MemSys) (xs : List Xlat),
      (s.me.exLoadRoom = true → o3.toNat = cls →
        translateAll (s.who s.curCore) .load (elementBlocks a.toNat o1.toNat c cls) s.ms = (ms, .ok xs) →
        exec (.ex7Eld g src) s = .next ({ s with ms := ms }.after fun q =>
          ((q.owe .s7 (.rport 7 false) .put 9 true).owe .s7 .vt .orBits 9 false).holdEx (.eld a.toNat o1.toNat c cls xs) (some q.nextId))) ∧
      (s.me.exRoom = true → s.storeFull s.curCore = false → o3.toNat = cls + 2 ^ 8 * (o3.extractLsb' 8 8).toNat →
        codeInClass cls (o3.extractLsb' 8 8).toNat = true →
        translateAll (s.who s.curCore) .store (elementBlocks a.toNat o1.toNat c cls) s.ms = (ms, .ok xs) →
        exec (.ex7Est g src) s = .next ((s.withRoom { s with ms := ms }).modCore s.curCore fun q =>
          (q.owe .s7 .vt .orBits 9 false).holdEx
            (.est a.toNat o1.toNat c cls (o3.extractLsb' 8 8).toNat (s.me.port .s7 0) xs) (some q.nextId)))) ∧
    (s.me.exLoadRoom = true → exec (.ex7Tdld g src) s = .next
      (if 7 < o1.toNat then s.faults .s7 0x04 o1.toNat 0 else if a.toNat % 32 ≠ 0 then s.faults .s7 0x05 a.toNat 0 else
        match translate s.ms (s.who s.curCore) a.toNat .load with
        | (ms, .error f) => s.accessFaults ms .s7 f 0
        | (ms, .ok x) => { s with ms := ms }.after fun q =>
            (q.owe .s7 (.td o1.toNat) .put 9 true).holdEx (.tdld o1.toNat x) (some q.nextId)))) ∧
  (∀ (g : Guard) (src : Src) (s : State), s.Ok → s.Passes .s7 g src → s.xlWaits s.curCore = false →
    let sel := s.me.portW .s7 1
    let pos := s.word .s7 src
    let d := s.me.rd (.td (selTd sel))
    let t := treeDesc (d.setWidth 256)
    let base := t.treeBase (selGx sel) (selGy sel)
    let at_ (form : TreeForm) : List Nat :=
      (treeBlockNums form t (selLvl sel) (posOf t pos.toNat) (selSel sel)).map fun b => (base + 64 * b) % 2 ^ 64
    s.me.isReady (.td (selTd sel)) = true → s.me.badAt (.td (selTd sel)) = none →
    (∀ e ∈ treeForms, s.me.exLoadRoom = true →
      (selReserved sel = true → exec (e.1 g src) s = .next (s.faults .s7 0x0F sel.toNat 0)) ∧
      (selReserved sel = false → wfield pos 63 32 ≠ 0 → exec (e.1 g src) s = .next (s.faults .s7 0x0F pos.toNat 0)) ∧
      (selReserved sel = false → wfield pos 63 32 = 0 → d.getLsbD 256 = false → exec (e.1 g src) s = .next (s.faults .s7 0x0E sel.toNat 0)) ∧
      (d.getLsbD 256 = true → treeOperandBad e.2.1 t sel pos = none → ∀ (ms : MemSys) (xs : List Xlat),
        translateAll (s.who s.curCore) .load (at_ e.2.1) s.ms = (ms, .ok xs) →
        exec (e.1 g src) s = .next (if e.2.2.1 && !placementOk t base xs then { s with ms := ms }.faults .s7 0x10 base 0
          else { s with ms := ms }.after fun c =>
            (c.owe .s7 (.rport 7 false) .put (if e.2.2.1 then 11 else 10) true).holdEx
              (e.2.2.2 (d.setWidth 256) sel.toNat pos.toNat xs) (some c.nextId)))) ∧
    (s.me.exRoom = true → s.storeFull s.curCore = false → d.getLsbD 256 = true → treeOperandBad .update t sel pos = none →
      ∀ (ms : MemSys) (xs : List Xlat), translateAll (s.who s.curCore) .atomic (at_ .update) s.ms = (ms, .ok xs) →
      exec (.ex7Trst g src) s = .next (if placementOk t base xs = false then { s with ms := ms }.faults .s7 0x10 base 2
        else (s.withRoom { s with ms := ms }).modCore s.curCore fun c =>
          c.holdEx (.trst (d.setWidth 256) sel.toNat pos.toNat (wfield (s.me.portW .s7 2) 31 0) xs) none)))

/-- O37 (15 R347 to R350, R352, R359, R362, R366, R367): the operations on quays, channels and storage queues take an entry of
the queue with their operands, and those with a result owe it with class sys. An operand with a reserved bit faults. `cp.go`
waits for the nest registers of its channel, checks them, and captures them with the tree descriptor that NAUX names, which
must be valid where the mode reads a tree. `sq.post` rewrites the pointers of an entry of a queue with TRX = 1, and
`sq.cqack` of more entries than the queue holds faults. That `cp.reg` is held and seen by later blocks (log entry 35), and that
`sq.post` translates only for a queue that is open and `sq.cqack` faults there alone (log entry 37), are the model's readings. -/
def Obligations.QuaysChannelsAndQueuesHeld : Prop :=
  ∀ (g : Guard) (src : Src) (s : State), s.Ok → s.Passes .s7 g src → s.me.exRoom = true →
    let a := s.word .s7 src
    let o1 := s.me.portW .s7 1
    let bad (w : Word) : State := s.faults .s7 0x04 w.toNat 0
    let plain (op : HOp) : State := s.after fun c => c.holdEx op none
    let owed (r : Bool) (op : HOp) : State := s.after fun c => (c.owe .s7 (.rport 7 r) .put 13 false).holdEx op (some c.nextId)
    (exec (.ex7QSet g src) s = .next (if 15 < o1.toNat then bad o1 else if quayWordBad s.me (s.value .s7 src .scalar) then bad a
      else plain (.qset o1.toNat a))) ∧
    (exec (.ex7QPush g src) s = .next (if 15 < o1.toNat then bad o1 else plain (.qpush o1.toNat (s.value .s7 src .vector)))) ∧
    (exec (.ex7QPop g src) s = .next (if 15 < o1.toNat then bad o1 else owed false (.qpop o1.toNat))) ∧
    (exec (.ex7QAdv g src) s = .next (if 15 < o1.toNat then bad o1
      else if a.extractLsb' 17 47 ≠ 0 ∨ a.extractLsb' 9 7 ≠ 0 ∨ a.extractLsb' 0 9 = 0 ∨ 256 < (a.extractLsb' 0 9).toNat then bad a
      else plain (.qadv o1.toNat (a.extractLsb' 0 9).toNat (a.getLsbD 16)))) ∧
    (exec (.ex7QSts g src) s = .next (if 15 < o1.toNat then bad o1 else owed true (.qsts o1.toNat))) ∧
    (exec (.ex7CpReg g src) s = .next
      (let ch := (o1.extractLsb' 0 3).toNat
       let i := (o1.extractLsb' 3 5).toNat
       if o1.extractLsb' 8 56 ≠ 0 ∨ i ∉ [0, 1, 2, 3, 4, 5, 8, 9, 10, 11, 12, 13, 16, 17, 18, 19, 20, 21] then bad o1
       else if (i = 2 ∧ a.extractLsb' 15 49 ≠ 0) ∨ (i = 4 ∧ a.extractLsb' 32 32 ≠ 0) then bad a
       else s.after fun c => (c.oweIn .s7 (.nest ch i) .put 1 false).holdEx (.cpReg ch i a) (some c.nextId))) ∧
    (exec (.ex7CpDrain g src) s = .next (if 7 < a.toNat then bad a else owed true (.cpDrain a.toNat))) ∧
    (exec (.ex7CpSts g src) s = .next (if 7 < a.toNat then bad a else owed true (.cpSts a.toNat))) ∧
    (s.me.nestRoom = true →
      let rs := s.me.nestRegs (a.extractLsb' 0 3).toNat
      let td := s.me.rd (.td (selTd (nestReg rs 5)))
      if 7 < a.toNat then exec (.ex7CpGo g src) s = .next (bad a)
      else if s.me.nestReady a.toNat = false then exec (.ex7CpGo g src) s = .next s
      else
        match nestBad s.me rs with
        | some r => exec (.ex7CpGo g src) s = .next (bad r)
        | none =>
          if nestMode rs = 2 ∨ nestMode rs = 3 then
            s.me.badAt (.td (selTd (nestReg rs 5))) = none →
            exec (.ex7CpGo g src) s = .next
              (if td.getLsbD 256 = false then s.faults .s7 0x0E (nestReg rs 5).toNat 0 else plain (.cpGo a.toNat rs (td.setWidth 256)))
          else exec (.ex7CpGo g src) s = .next (plain (.cpGo a.toNat rs (td.setWidth 256)))) ∧
    (s.xlWaits s.curCore = false →
      let e : BitVec 512 := (s.me.port .s7 0).setWidth 512
      let r := s.ms.hwRead (s.sqAddr a.toNat) 64
      let posted (ms : MemSys) (b : BitVec 512) (refuse : Bool) : State := { s with ms := ms }.after fun c =>
        (c.owe .s7 (.rport 7 true) .put 13 false).holdEx (.sqPost a.toNat b refuse) (some c.nextId)
      exec (.ex7SqPost g src) s = .next
        (if 255 < a.toNat then bad a
         else if sqOpen s r.2 s.me.ctx s.me.trap.sup = true ∧ (sqWord r.2 5).testBit 3 = true then
           match sqRewrite r.1 (s.who s.curCore) (field (sqWord r.2 5) 20 4) e with
           | (ms, .error f) => s.accessFaults ms .s7 f (if field e.toNat 0 8 = 0x02 then 1 else 0)
           | (ms, .ok (b, refuse)) => posted ms b refuse
         else posted r.1 e false)) ∧
    (let n := (a.extractLsb' 0 12).toNat
     let r := s.ms.hwRead (s.sqAddr o1.toNat) 64
     exec (.ex7SqCqack g src) s = .next
       (if a.extractLsb' 28 36 ≠ 0 ∨ a.extractLsb' 12 4 ≠ 0 ∨ n = 0 then bad a
        else if 255 < o1.toNat then bad o1
        else if sqOpen s r.2 s.me.ctx s.me.trap.sup = true ∧ field (sqWord r.2 4) 32 12 < n then { s with ms := r.1 }.faults .s7 0x04 a.toNat 0
        else { s with ms := r.1 }.after fun c => (c.owe .s7 (.rport 7 true) .put 13 false).holdEx
          (.sqCqack o1.toNat n (a.extractLsb' 16 12).toNat) (some c.nextId)))

/-! ### The matrix unit (13 R302 to R320, 14 R325 to R345) -/

/-- The commands of `mx6` that check one word: how each is written, the width of its first operand, whether the word is
operand port 0, which words are reserved (13 R309, R311, R314, R316, R320; 14 R328, R333, R345), the command, and whether
it owes `mx6.r` a result (R308). -/
noncomputable def Sys2Proof.Machine.matrixForms : List ((Guard → Src → Instr) × DKind × Bool × (Word → Bool) × (Vec → Word → MxCmd) × Bool) :=
  [(.mx6Tld, .scalar, false, tileWordBad false, fun _ w => .tld w.toNat, false),
   (.mx6Tldv, .vector, true, tileWordBad true, fun v w => .tldv v w.toNat, false),
   (.mx6Tst, .scalar, false, tileWordBad false, fun _ w => .tst w.toNat, false),
   (.mx6Trd, .scalar, false, tileWordBad true, fun _ w => .trd w.toNat, true),
   (.mx6Azero, .scalar, false, zeroWordBad, fun _ w => .azero w.toNat, false),
   (.mx6Ard, .scalar, false, rowWordBad true true false, fun _ w => .ard w.toNat, true),
   (.mx6Awr, .vector, true, rowWordBad false true false, fun v w => .awr v w.toNat, false),
   (.mx6Acvt, .scalar, false, convWordBad false, fun _ w => .acvt w.toNat, false),
   (.mx6Aldq, .scalar, false, rowWordBad false false true, fun _ w => .aldq w.toNat, false),
   (.mx6Bsend, .scalar, false, sendWordBad, fun _ w => .bsend w.toNat, false),
   (.mx6Bwait, .scalar, false, sendWordBad, fun _ w => .bwait w.toNat, false),
   (.mx6Bfree, .scalar, false, fun w => decide (7 < w.toNat), fun _ w => .bfree w.toNat, true),
   (.mx6Bsts, .scalar, false, fun w => decide (1 < w.toNat), fun _ w => .bsts (w.getLsbD 0), true),
   (.mx6Rsts, .scalar, false, fun _ => false, fun _ _ => .rsts, true),
   (.mx6Rclr, .scalar, false, fun w => decide (w.extractLsb' 11 53 ≠ 0 ∨ w.extractLsb' 1 7 ≠ 0), fun _ w => .rclr w.toNat, false)]

/-- O38 (13 R305, R308; 13 R303, R304, R311, R316, 14 R325): A command of the matrix unit takes an entry of its queue with
the operands it captured, and one with a result owes it to `mx6.r` of later blocks with class mxr; a reserved bit of its
word faults. Shape registers, steps, conversions to the scratchpad and chains: each takes an entry of the queue with what
it captured. A step needs two shape registers of one class that is not 0; it waits for the two that it names, and `shget` for
its own. A command that reads a tile register or an accumulator with an uncorrectable error, which no block has read before,
takes the machine check (18 R378). -/
def Obligations.MatrixCommandsHeld : Prop :=
  (∀ e ∈ matrixForms, ∀ (g : Guard) (src : Src) (s : State), s.Ok → s.Passes .s6 g src → s.me.mxRoom = true →
    let v := s.value .s6 src e.2.1
    let w : Word := if e.2.2.1 then s.me.portW .s6 0 else v.setWidth 64
    let cmd := e.2.2.2.2.1 v w
    exec (e.1 g src) s = .next (if e.2.2.2.1 w then s.faults .s6 0x04 w.toNat 0
      else if cmd.meetsError s.me then takeTileError (s.after id) s.curCore
      else s.after fun c => if e.2.2.2.2.2 then (c.owe .s6 (.rport 6 false) .put 12 false).holdMx cmd w (some c.nextId) else c.holdMx cmd w none)) ∧
  (∀ (g : Guard) (src : Src) (s : State), s.Ok → s.Passes .s6 g src → s.me.mxRoom = true →
    let w := s.word .s6 src
    let o := s.me.portW .s6 0
    let o1 := s.me.portW .s6 1
    let bad (x : Word) : State := s.faults .s6 0x04 x.toNat 0
    let crewn := match s.me.task with | some t => t.crewn | none => 0
    (exec (.mx6Shset g src) s = .next
      (if w.extractLsb' 24 40 ≠ 0 ∨ w.extractLsb' 2 6 ≠ 0 ∨ 96 < (w.extractLsb' 8 8).toNat ∨ 128 < (w.extractLsb' 16 8).toNat then bad w
       else if 7 < o.toNat then bad o
       else s.after fun c => (c.oweIn .s6 (.tsh o.toNat) .put 1 false).holdMx (.shset o.toNat w) w (some c.nextId))) ∧
    ((7 < w.toNat ∨ (s.me.isReady (.tsh w.toNat) = true ∧ s.me.badAt (.tsh w.toNat) = none)) →
      exec (.mx6Shget g src) s = .next (if 7 < w.toNat then bad w else s.after fun c =>
        (c.owe .s6 (.rport 6 false) .put 12 false).holdMx (.shget w.toNat (s.me.shape w.toNat)) w (some c.nextId))) ∧
    (let a := (w.extractLsb' 8 3).toNat
     let b := (w.extractLsb' 12 3).toNat
     let p := s.me.shape a
     let q := s.me.shape b
     (stepWordBad w = true → exec (.mx6Step g src) s = .next (bad w)) ∧
     (stepWordBad w = false → (s.me.isReady (.tsh a) = false ∨ s.me.isReady (.tsh b) = false) → exec (.mx6Step g src) s = .next s) ∧
     (stepWordBad w = false → s.me.isReady (.tsh a) = true → s.me.isReady (.tsh b) = true → s.me.badAt (.tsh a) = none →
       s.me.badAt (.tsh b) = none →
       exec (.mx6Step g src) s = .next
         (if p.extractLsb' 0 2 = 0 ∨ q.extractLsb' 0 2 ≠ p.extractLsb' 0 2 then bad w
          else if MxCmd.meetsError s.me (.step w.toNat p q) then takeTileError (s.after id) s.curCore
          else s.after fun c => c.holdMx (.step w.toNat p q) w none))) ∧
    (exec (.mx6Acvts g src) s = .next
      (let len := o1.toNat * targetRow (w.extractLsb' 24 8).toNat
       if convWordBad true w then bad w
       else if o1.toNat = 0 ∨ 96 < (w.extractLsb' 8 7).toNat + o1.toNat then bad o1
       else if o.toNat % 64 ≠ 0 then s.faults .s6 0x05 o.toNat 1
       else if 32768 * s.me.ways < o.toNat + len then s.faults .s6 0x0D o.toNat 1
       else if MxCmd.meetsError s.me (.acvts w.toNat o.toNat o1.toNat) then takeTileError (s.after id) s.curCore
       else s.after fun c => c.holdMx (.acvts w.toNat o.toNat o1.toNat) w none)) ∧
    exec (.mx6Bchain g src) s = .next
      (if chainBad crewn w (chainRanks w o o1) then bad w
       else s.after fun c => (c.owe .s6 (.rport 6 false) .put 12 false).holdMx (.bchain w.toNat (chainRanks w o o1)) w (some c.nextId)))

/-! ### Exceptions (18 R380 to R388) -/

/-- O39 (18 R380, R383, 06 R175; 18 R380): A fault of a core with TL = 0 whose context has a handler abandons the block,
saves cause, address and position, and enters the handler in supervisor mode with TL = 1, in the handler bank, with the
loop sequencer frozen and the handler's code object, its header the one last read; nothing outside the core changes but what the reads of the context
entry and the header leave in memory's caches. The fields of FCAUSE, each in its place: CODE, MC for a machine check,
KIND, LVL, CH, SLOT, PM and AFT. -/
def Obligations.FaultEntersHandler : Prop :=
  (∀ (s s1 : State) (k : Nat) (f : FaultInfo) (e : CtxEntry) (ms : MemSys) (obj : CodeObj),
    let c := s.core k
    s.Ok → c.trap.tl = false → s.readCtx c.ctx = (s1, e) → e.hcode ≠ 0 →
    readHeader s1.ms { s.who k with sup := true } e.hcode = (ms, .ok (some obj)) →
    ∃ c', takeFault s k f = { s with ms := ms }.setCore k c' ∧
      c'.trap.fcause = causeWord f c.trap.sup ∧ c'.trap.faddr = BitVec.ofNat 64 f.addr ∧
      c'.trap.fpc = BitVec.ofNat 64 (c.ctl.head % 2 ^ 32 + 2 ^ 32 * (f.bidx % 64)) ∧
      c'.trap.tl = true ∧ c'.trap.sup = true ∧ c'.regs.handler = true ∧ c'.ctl.phase = .head ∧ c'.ctl.head = e.hentry ∧
      c'.code = { obj with ctx := c.ctx } ∧ c'.hdr = c'.code ∧ c'.trap.savedCode = c.code ∧ c'.seq = {} ∧ c'.trap.savedSeq = c.seq ∧
      c'.ctl.todo = [] ∧ c'.ctl.bundles = [] ∧ c'.regs.pend = c.regs.pend.filter (fun p => p.blk != c.ctl.blk) ∧
      c'.ctl.store = c.ctl.store.filter (fun h => h.released) ∧ c'.cp = { c.cp with queue := c.cp.queue.filter fun h => h.released } ∧
      c'.mx = { c.mx with queue := c.mx.queue.filter fun h => h.released } ∧ c'.task = c.task ∧ c'.scratch = c.scratch ∧
      c'.xroot = c.xroot ∧ c'.xrdt = c.xrdt ∧ c'.xpool = c.xpool) ∧
  (∀ (f : FaultInfo) (pm : Bool), f.code < 256 → f.kind < 4 → f.lvl < 8 → f.ch < 16 → f.slot < 8 →
    let w := causeWord f pm
    (w.extractLsb' 0 8).toNat = f.code ∧ w.getLsbD 8 = decide (f.code ∈ [0x70, 0x71, 0x24, 0x25, 0x49]) ∧
    (w.extractLsb' 9 2).toNat = f.kind ∧ (w.extractLsb' 11 3).toNat = f.lvl ∧ (w.extractLsb' 14 4).toNat = f.ch ∧
    (w.extractLsb' 18 3).toNat = f.slot ∧ w.getLsbD 21 = pm ∧ w.getLsbD 22 = f.aft ∧ w.extractLsb' 23 41 = 0)

/-- O40 (18 R384, R386): a fault taken with TL = 1 ends the task with AUX = 0x100 + its code, and the fault registers keep
the first fault; nothing outside the core changes. -/
def Obligations.NestedFault : Prop :=
  ∀ (s : State) (k : Nat) (f : FaultInfo), (s.core k).trap.tl = true →
    ∃ c', takeFault s k f = s.setCore k c' ∧ c'.trap = (s.core k).trap ∧
      c'.ctl.phase = .ending (if (s.core k).trap.fcause.getLsbD 8 then 3 else 1) (0x100 + f.code)

/-- O41 (18 R383, R385, R387, R388; 10 R277): what stands at the end of a committed block: the return from an exception restores
bank, sequencer, code object, mode and block head; a software trap with TL = 0 and no handler aborts the task with its own
cause, the exit's target in FPC and AFT set; `park`, `abort` and `yield` divert the core; an empty end goes on at the next
block head. A barrier is performed in its place among the held operations: a task alone passes it, and a member of a crew
arrives and waits (10 R277). -/
def Obligations.BlockEndEffects : Prop :=
  (∀ (s : State) (k : Nat) (h : Held) (later : List Held),
    let c := s.core k
    c.ctl.phase = .release → c.ctl.store = h :: later → h.op = .bar → h.released = true → c.waitsEx h = false →
    exec (.accessAtTarget k) s = .next
      (if (match c.task with | some t => t.crew.isSome && decide (1 < t.crewn) | none => false) then
         ((s.barrierRelease k).arrive k).modCtl k fun l => { l with phase := .barrier }
       else afterRelease ((s.barrierRelease k).popStore k) k)) ∧
  ∀ (s : State) (k : Nat) (rest : List HOp),
    let c := s.core k
    c.ctl.phase = .release → c.ctl.store = [] → c.ctl.iterate = false →
    (c.ctl.final = .rfe :: rest → ∃ c', exec (.accessAtTarget k) s = .next (s.setCore k c') ∧
      c'.regs = { c.regs with handler := false } ∧ c'.seq = { c.trap.savedSeq with range := [] } ∧ c'.code = c.trap.savedCode ∧
      c'.trap = { c.trap with tl := false, sup := c.trap.fcause.getLsbD 21 } ∧ c'.ctl.phase = .head ∧
      c'.ctl.head = (c.trap.fpc.extractLsb' 0 32).toNat ∧ c'.mx = c.mx ∧ c'.cp = c.cp ∧ c'.task = c.task ∧ c'.scratch = c.scratch) ∧
    (∀ (v : Word) (s1 : State) (e : CtxEntry), c.ctl.final = .trap v :: rest → c.trap.tl = false → s.Ok →
      s.readCtx c.ctx = (s1, e) → e.hcode = 0 →
      ∃ c', exec (.accessAtTarget k) s = .next (s1.setCore k c') ∧ c'.trap.faddr = v ∧ (c'.trap.fcause.extractLsb' 0 8).toNat = 0x17 ∧
        c'.trap.fcause.getLsbD 22 = true ∧ (c'.trap.fpc.extractLsb' 0 32).toNat = c.ctl.head % 2 ^ 32 ∧ c'.trap.tl = false ∧
        c'.ctl.phase = .ending 1 0x17) ∧
    (c.ctl.final = .park :: rest → exec (.accessAtTarget k) s = .next (s.setCore k { c with ctl := { c.ctl with final := [], phase := .parking } })) ∧
    (∀ a, c.ctl.final = .yield a :: rest →
      exec (.accessAtTarget k) s = .next (s.setCore k { c with ctl := { c.ctl with final := [], phase := .yielding a } })) ∧
    (c.ctl.final = .abort :: rest → exec (.accessAtTarget k) s = .next (s.setCore k { c with ctl := { c.ctl with
      final := [], phase := .ending (if c.trap.fcause.getLsbD 8 then 3 else 1) (c.trap.fcause.extractLsb' 0 8).toNat } })) ∧
    (c.ctl.final = .done :: rest →
      exec (.accessAtTarget k) s = .next (s.setCore k { c with ctl := { c.ctl with final := [.done], phase := .ending 0 0 } })) ∧
    (c.ctl.final = [] → exec (.accessAtTarget k) s = .next (s.setCore k { c with ctl := { c.ctl with final := [], phase := .head } }))

/-! ### Memory at its home (00 R4; 01 R37, R38; 04 R106, R440) -/

/-- O42 (00 R4, 01 R37, R38, 03 R83, R84, 04 R106, R440): a write at a home, within one pack, stores the bytes that its mask
names and no others, and memory keeps its form; an access to HBM that its target allows stores its bytes and no other byte of a
pack that stands still, where the writer's own level-1 cache has nothing to write back to the pack; a denied one stores nothing;
a block written whole carries the poison of its data. -/
def Obligations.HomeWrite : Prop :=
  (∀ (ms : MemSys) (a n v mask : Nat) (packed bad : Bool), ms.Ok →
    let m := ms.put a n v mask packed bad
    m.Ok ∧ (a % 256 + n ≤ 256 → ∀ i < n, m.byte (a + i) = if mask.testBit i then BitVec.ofNat 8 (v >>> (8 * i)) else ms.byte (a + i)) ∧
    (a % 256 + n ≤ 256 → ∀ b, (b < a ∨ a + n ≤ b) → m.byte b = ms.byte b) ∧
    (a % 256 + n ≤ 256 → mask = 2 ^ n - 1 → m.readN a n = v % 2 ^ (8 * n)) ∧
    (a % 64 = 0 → n = 64 → mask = 2 ^ 64 - 1 → m.poisoned a = bad)) ∧
  (∀ (ms m : MemSys) (w : Who) (x : Xlat) (pa n v path : Nat) (bad : Bool), ms.Ok → pa % 64 + n ≤ 64 → inAperture pa = true →
    (∀ l ∈ ms.lines w.core, l.line / 4 = pa / 256 → l.pending = false) →
    homeWrite ms w x pa n v (2 ^ n - 1) path bad = (m, none) →
    m.Ok ∧ m.readN pa n = v % 2 ^ (8 * n) ∧ (∀ b, (b < pa ∨ pa + n ≤ b) → ms.Settled (b / 256) → m.byte b = ms.byte b)) ∧
  (∀ (ms m : MemSys) (w : Who) (x : Xlat) (pa n v mask path : Nat) (bad : Bool) (d : Notice),
    homeWrite ms w x pa n v mask path bad = (m, some d) →
      (∀ b, ms.Settled (b / 256) → m.byte b = ms.byte b ∧ m.poisoned b = ms.poisoned b) ∧ d.code = 0x0C ∧ d.addr = pa)

/-! ### Blocks, bundles and results as events (06 R171 to R184; 10 R263, R267, R271) -/

/-- O43 (06 R171, R179, R181): a legal block is entered at its first bundle, and a bundle that every slot has passed gives
way to the next, or to the commit. -/
def Obligations.BlocksAndBundles : Prop :=
  (∀ (s : State) (k : Nat) (ms : MemSys) (fs : List Fetched) (b : Bundle) (bs : List Bundle),
    let c := s.core k
    s.Ok → c.ctl.phase = .head → c.draining = false → c.preemptHere = false → (c.clk.entering = false ∨ s.clocksReady k = true) →
    c.ctl.negative = false → c.ctl.head < c.code.npar → c.rangeLost = false →
    blockBundles (s.modCore k fun c => { c with clk := { c.clk with entering := false } }) k = (ms, .ok fs) →
    firstIllegal 63 0 fs = none → c.atBoundary = none → fs.map Fetched.bundle = b :: bs → c.stopped b = false →
    ∃ c', exec (.blockEntry k) s = .next ({ s with ms := ms }.setCore k c') ∧ c'.ctl.phase = .run ∧ c'.ctl.cur = b ∧
      c'.ctl.bundles = bs ∧ c'.ctl.bidx = 0 ∧ c'.ctl.todo = (if c.issues b then orderedMoves b else []) ∧ c'.regs = c.regs ∧
      c'.seq = c.seq ∧ c'.trap = c.trap ∧ c'.mx = c.mx ∧ c'.clk = { c.clk with entering := false } ∧
      c'.cp = { c.cp with drained := [] } ∧ c'.notices = c.notices ∧ c'.scratch = c.scratch) ∧
  (∀ (s : State) (k : Nat), let c := s.core k
    c.ctl.phase = .run → c.ctl.todo = [] → c.ctl.waiting = none → c.ctl.deferred = none →
    (c.ctl.bundles = [] → exec (.bundlePass k) s = .next (s.setCore k { c with ctl := { c.ctl with phase := .commit } })) ∧
    (∀ b bs, c.ctl.bundles = b :: bs → c.stopped b = false →
      exec (.bundlePass k) s = .next (s.setCore k { c with ctl := { c.ctl with
        bcount := c.ctl.bcount + 1, bidx := c.ctl.bidx + 1, cur := b, bundles := bs, phase := .run
        todo := if ({ c with ctl := { c.ctl with bcount := c.ctl.bcount + 1 } } : Core).issues b then orderedMoves b else [] } })))

/-- O44 (06 R174, R175, R177; 10 R263, R264, R267, R271; 01 R39, 05 R157, 15 R361, 18 R378): a committed block releases what it
held and goes to its exit's target, or on to the bundle that follows, and the last nest it releases to a quay is the quay's
feed; a load's data lands and no value changes; an iteration boundary counts the innermost level on; a `ctl.wait` whose limits
are met ends; the oldest notice of its kind is marked. The remote homes acknowledge a core's writes, each link's in the order
in which they were sent to a device: the first write of a core to a device is acknowledged. That one event acknowledges all
writes of a core that their order lets it is the model's choice (log entry 33). -/
def Obligations.CommitAndLanding : Prop :=
  ∀ (s : State) (k : Nat), let c := s.core k
    (c.ctl.phase = .commit → c.commitLanded = true → c.endsTask = false → c.ctl.loop = none → c.ctl.store ≠ [] →
      ∃ c', exec (.blockCommit k) s = .next (s.setCore k c') ∧ c'.ctl.phase = .release ∧
        c'.ctl.head = c.ctl.exit.getD c.ctl.cur.stop ∧ c'.ctl.cameFrom = c.ctl.cur.index ∧ c'.ctl.blk = c.ctl.blk + 1 ∧
        c'.ctl.bcount = c.ctl.bcount + 1 ∧ c'.ctl.store = c.ctl.store.map
          (fun h => { h with released := true, op := h.op.chosen (s.clusterPwr (clusterOf k)).plvl }) ∧
        c'.cp.queue = c.cp.queue.map (fun h => { h with released := true }) ∧ c'.trap = c.trap ∧ c'.ctl.held = 0 ∧
        (∀ a h ch rs td, c.cp.queue = a ++ [h] → h.released = false → h.op = .cpGo ch rs td → nestDk rs = 2 →
          (c'.quay ((nestReg rs 1).toNat % 16)).feed = ch)) ∧
    (∀ p ∈ c.regs.pend, p.load = true → p.later = false → p.landed = false → c.waitingLoad p.id = none →
      ∃ r, exec (.resultLanding k p.id) s = .next (s.setCore k { c with regs := r }) ∧
        (∀ q ∈ r.pend, q.id = p.id → q.landed = true) ∧ r.handler = c.regs.handler ∧
        ∀ key m blk, r.read key m blk = c.regs.read key m blk ∧ r.bad key m blk = c.regs.bad key m blk) ∧
    (∀ l ls, s.Ok → c.ctl.phase = .iter → c.ctl.final = [] → 0 < c.seq.lv → c.seq.li = l :: ls → l + 1 < (c.rd (.trip 0)).toNat →
      ∃ c', exec (.iterationBoundary k) s = .next (s.setCore k c') ∧ c'.seq.li = (l + 1) :: ls ∧ c'.seq.icount = (c.seq.icount + 1) % 2 ^ 32 ∧
        c'.seq.lv = c.seq.lv ∧ c'.ctl.head = c.seq.rstart ∧ c'.ctl.phase = .head ∧ c'.regs = c.regs) ∧
    (∀ (link : Nat) (us pre post : List Unacked) (u : Unacked), (link, us) ∈ s.fab.unacked → us = pre ++ u :: post →
      u.core = k → u.rid = none →
      link = unorderedLink ∨ (SMap.get 0 s.fab.paused link = 0 ∧ ∀ v ∈ pre, v.dev = u.dev → v.core = k ∧ v.rid = none) →
      (c.regs.pend.any fun p => p.id == 0) = false → (s.fab.unacked.any fun e => e.2.any fun v => v.rid == some 0) = false →
      ∃ t, exec (.resultLanding k 0) s = .next t ∧ t.cores = s.cores ∧ t.ms = s.ms ∧
        (t.fab.unacked.flatMap Prod.snd).count u < (s.fab.unacked.flatMap Prod.snd).count u) ∧
    (∀ w, c.ctl.waiting = some w → c.ctl.phase = .run →
      let t := if field w 6 6 < 63 then performStores s k else s
      let d := t.core k
      d.ld ≤ field w 0 6 → d.st + t.treesOut k ≤ field w 6 6 → d.cpCount ≤ field w 12 6 → d.tl ≤ field w 18 6 →
      d.notices = [] → d.mx.fp = false → d.cp.qflt.getLsbD 7 = false → (∀ ch, (d.channel ch).fp = false) →
      exec (.waitReady k) s = .next (t.setCore k { d with ctl := { d.ctl with waiting := none } })) ∧
    (∀ (i : Instr) (code : Nat), (i, code) ∈ [(.denialNotice k, 0x0C), (.poisonNotice k, 0x70)] →
      ∀ (a b : List Notice) (n : Notice), c.notices = a ++ n :: b → n.code = code → n.seen = false →
      (∀ m ∈ a, m.code = code → m.seen = true) →
      exec i s = .next (s.setCore k { c with notices := a ++ { n with seen := true } :: b }))

/-! ### Operations performed (05 R131 to R148; 08 R211, R225; 03 R73) -/

/-- O45 (05 R131, R147, 06 R173, 08 R211, R225): the head of the block store buffer is performed and leaves it: a
scratchpad store writes its bytes; a returning atomic at a local home, not to be translated again behind a pool operation of
its block, returns the old value and stores the combined one; `icinv` leaves no line in its range in any instruction cache. -/
def Obligations.HeldOperationsPerformed : Prop :=
  ∀ (s : State) (k : Nat) (h e : Held) (rest : List Held), let c := s.core k
    s.Ok → c.ctl.store = h :: e :: rest → h.released = true → c.waitsEx h = false → c.ctl.phase ≠ .barrier →
    (∀ n off v, h.op = .sstore n off v →
      ∃ c', exec (.accessAtTarget k) s = .next (s.setCore k c') ∧ c'.ctl = { c.ctl with store := e :: rest } ∧ c'.regs = c.regs ∧
        (∀ i < n, (SMap.get 0 c'.scratch (off + i) : BitVec 8) = BitVec.ofNat 8 (v.toNat >>> (8 * i))) ∧
        ∀ a, (a < off ∨ off + n ≤ a) → (SMap.get 0 c'.scratch a : BitVec 8) = SMap.get 0 c.scratch a) ∧
    (∀ (op : AtOp) (cw : Nat) (x : Xlat) (a y : Word) (ms : MemSys) (old : Nat),
      h.op = .atomic op cw x a y → cw.testBit 2 = true → cw.testBit 1 = false → x.dev = none → op ≠ .cas → h.again = false →
      let n := if cw.testBit 3 then 8 else 4
      let w : Who := { s.who k with sup := h.sup }
      x.pa % n = 0 → homeRead (s.ms.ownHome k (x.pa / 64) (spanOf x.pa n)) w x x.pa n 1 .atomic = (ms, .ok old) →
      ∃ t, exec (.atomicAtHome k) s = .next t ∧ (t.core k).ctl = { c.ctl with store := e :: rest } ∧
        (t.core k).regs = (c.pay h.rid (BitVec.ofNat 1024 old) none).regs ∧
        t.ms.readN x.pa n = atApply op n old (a.toNat % 2 ^ (8 * n)) (y.toNat % 2 ^ (8 * n)) % 2 ^ (8 * n) ∧
        (∀ b, (b < x.pa ∨ x.pa + n ≤ b) → ms.Settled (b / 256) → t.ms.byte b = ms.byte b) ∧ ∀ j, j ≠ k → t.core j = s.core j) ∧
    (∀ base len, h.op = .icinv base len →
      ∃ t, exec (.icinvComplete k) s = .next t ∧ (t.core k).ctl = { c.ctl with store := e :: rest } ∧ t.ms.mem = s.ms.mem ∧
        (∀ p ∈ t.ms.icache, ∀ l ∈ p.2, l.va + 64 ≤ base ∨ base + len ≤ l.va) ∧
        ∀ j, j ≠ k → t.core j = s.core j)

/-- O46 (15 R347, R348, R358, R361, R362, 03 R73, 08 R217, 15 R359): the released command at the head of the copy engine's queue
fires, where throttling does not hold it: a quay is set up, a nest enters its channel, or is discarded where the channel's fault
is not yet delivered; a tree update is performed at its home, or sent to the remote device that holds the tree; each is a busy
cycle of the slot (20 R411). A drain of a channel with no nest delivers CRES, and the faults that are recorded. -/
def Obligations.CopyEngineFires : Prop :=
  ∀ (s : State) (k : Nat) (h : Held), let c := s.core k
    s.Ok → c.exHead = some h → s.pausedBy (clusterOf k) = false →
    (∀ q (w : Word), h.op = .qset q w → w.getLsbD 56 = false →
      ∃ c', exec (.ex7CommandFire k) s = .next (s.setCore k c') ∧ c'.cp.queue = c.cp.queue.drop 1 ∧ c'.regs = c.regs ∧ c'.ctl = c.ctl ∧
        c'.quay q = { v := true, base := (w.extractLsb' 0 16).toNat, dm1 := (w.extractLsb' 48 8).toNat,
                      esm1 := (w.extractLsb' 32 8).toNat, pc := 0, cc := 0, feed := (c.quay q).feed } ∧
        ∀ p, p ≠ q → c'.quay p = c.quay p) ∧
    (∀ ch rs td, h.op = .cpGo ch rs td → (c.channel ch).fp = false → (c.channel ch).nests.length < 8 →
      ∃ c', exec (.ex7CommandFire k) s = .next (s.setCore k c') ∧ c'.cp.queue = c.cp.queue.drop 1 ∧ c'.regs = c.regs ∧
        (c'.channel ch).nests = (c.channel ch).nests ++ [{
          regs := rs, td := td, sup := h.sup, iter := 0, dead := false
          crc := if nestMode rs = 1 then (wfield (nestReg rs 5) 31 0) ^^^ 0xFFFFFFFF else 0 }] ∧
        ∀ p, p ≠ ch → c'.channel p = c.channel p) ∧
    (∀ ch rs td, h.op = .cpGo ch rs td → (c.channel ch).fp = true →
      ∃ c', exec (.ex7CommandFire k) s = .next (s.setCore k c') ∧ c'.cp.queue = c.cp.queue.drop 1 ∧ c'.cp.chans = c.cp.chans ∧
        c'.regs = c.regs) ∧
    (∀ ch, h.op = .cpDrain ch → (c.channel ch).nests = [] →
      ∃ c', exec (.drainComplete k) s = .next (s.setCore k c') ∧ c'.cp.queue = c.cp.queue.drop 1 ∧ c'.cp.drained = c.cp.drained ++
          ((if (c.channel ch).fp then [ch] else []) ++ if c.cp.qflt.getLsbD 7 then [8] else []) ∧
        c'.regs = (c.pay h.rid (wordVec (c.channel ch).cres) none).regs ∧ c'.ctl = c.ctl ∧ c'.mx = c.mx) ∧
    (∀ d sel pos new xs (s1 : State) (bs : List Block), h.op = .trst d sel pos new xs → anyRemote xs = none → h.again = false →
      let w : Who := { s.who k with sup := h.sup }
      let t := treeDesc d
      let l := selLvl (BitVec.ofNat 64 sel)
      let p := posOf t pos
      let nums := pathBlocks t l p
      vectorBlocks w true .atomic 2 xs (s.setCore k c.popEx) = (s1, bs, none) →
      exec (.treeUpdate k) s = .next (((writeTree w t.cls (nums.zip bs) (treeUpdate t (nums.zip bs) l p new) (nums.zip xs) s1).modCore k
        fun c => c.note none).countBusy k 3)) ∧
    (∀ d sel pos new xs dev pa, h.op = .trst d sel pos new xs → anyRemote xs = some (dev, pa) → h.again = false →
      let w : Who := { s.who k with sup := h.sup }
      exec (.treeUpdate k) s = .next (((s.setCore k c.popEx).sendOrdered
        { s.unackedOf w dev pa 2 true none with tree := true } 0 none).countBusy k 3))

/-- O47 (15 R347, R351, R353, R355, R358, R361): A nest of a channel goes on: one whose copies are all emitted, or that has
faulted, is drained once its copies are performed; a copy of the next iteration is emitted, waits for a quay, or its fault is
recorded, at which the nests behind are discarded. An entry that a channel pushes is counted when it lands. An add-on row is
added into its tile in the cycle that its mask names, one for a bank group, or clashes with the step's writeback; a row that
faults, or whose destination has ended, is a fault of its channel at its copy, of which no later row is applied. -/
def Obligations.NestsAndRows : Prop :=
  ∀ (s : State) (k : Nat), let c := s.core k
    (∀ ch n ns, let x := c.channel ch
      x.nests = n :: ns → c.pushing ch = false →
      ((n.dead = true ∨ nestTotal n.regs ≤ n.iter) → rowsOut s k ch = false →
        ∃ c', exec (.nestCopyEmit k ch) s = .next (s.setCore k c') ∧ (c'.channel ch).nests = ns ∧
          (c'.channel ch).cres = (if nestMode n.regs = 1 then BitVec.ofNat 64 (n.crc ^^^ 0xFFFFFFFF)
            else if nestMode n.regs = 5 ∧ n.dead = false then BitVec.ofNat 64 n.crc else x.cres) ∧
          (c'.channel ch).fp = x.fp ∧ (∀ p, p ≠ ch → c'.channel p = c.channel p) ∧ c'.regs = c.regs ∧ c'.ctl = c.ctl ∧ c'.mx = c.mx) ∧
      ((n.dead = true ∨ nestTotal n.regs ≤ n.iter) → rowsOut s k ch = true → exec (.nestCopyEmit k ch) s = .next s) ∧
      (n.dead = false → n.iter < nestTotal n.regs → s.pausedBy (clusterOf k) = false →
        (emitCopy s { s.who k with sup := n.sup } ch n = .wait → exec (.nestCopyEmit k ch) s = .next s) ∧
        (∀ (t : State) (f : CopyFault), emitCopy s { s.who k with sup := n.sup } ch n = .fault t f → t.Ok →
          (t.core k).channel ch = x → x.fp = false → rowsOut t k ch = false →
          ∃ c', exec (.nestCopyEmit k ch) s = .next (t.setCore k c') ∧ (c'.channel ch).fp = true ∧ (c'.channel ch).fc = f.fc ∧
            (c'.channel ch).faddr = f.addr ∧ (c'.channel ch).iter = n.iter ∧ (c'.channel ch).nests = [] ∧
            (nestMode n.regs = 1 → n.marks = [] → (c'.channel ch).cres = BitVec.ofNat 64 (n.crc ^^^ 0xFFFFFFFF))) ∧
        (∀ (t : State) (m : Nest) (ms : List Nest), emitCopy s { s.who k with sup := n.sup } ch n = .done t → t.Ok →
          ((t.core k).channel ch).nests = m :: ms → n.iter + 1 < nestTotal n.regs →
          ∃ c', exec (.nestCopyEmit k ch) s = .next (t.setCore k c') ∧
            (c'.channel ch).nests = { m with iter := m.iter + 1, marks := if rowsOut t k ch then m.marks else [] } :: ms))) ∧
    (∀ ch q bs es, s.Ok → (c.channel ch).nests = [] → q < 16 → (c.quay q).coming = (ch, bs) :: es → (∀ p < q, (c.quay p).coming = []) →
      ∃ c', exec (.nestCopyEmit k ch) s = .next (s.setCore k c') ∧
        c'.quay q = { c.quay q with coming := es, pc := ((c.quay q).pc + 1) % 65536 } ∧
        c'.scratch = (c.padPutBlocks bs ((c.quay q).slotAt (c.quay q).pc)).scratch ∧ c'.regs = c.regs ∧ c'.cp.chans = c.cp.chans) ∧
    (∀ phase (r : AddOnRow), let d := s.core r.src
      let bad (t : State) (fc : Nat) : Prop :=
        (t.core k).mx.acc = c.mx.acc ∧
        (∀ q ∈ (t.core k).cp.addOn, ¬(q.src = r.src ∧ q.ch = r.ch ∧ r.copy ≤ q.copy)) ∧
        (d.task.isSome = true → (d.channel r.ch).fp = false →
          let x := (t.core r.src).channel r.ch
          x.fp = true ∧ x.fc = fc ∧ x.faddr = r.row ∧ x.iter = r.copy ∧ x.nests.length ≤ 1)
      s.Ok →
      (c.cp.addOn.find? (fun q => !rowWanted s k q) = some r → ∃ t, exec (.addOnRowApply k phase) s = .next t ∧ bad t 0x08) ∧
      ((∀ q ∈ c.cp.addOn, rowWanted s k q = true) → c.mx.phase ≤ phase →
        c.cp.addOn.find? (fun q => q.mask.testBit (phase % 32) && !(phase == c.mx.phase && c.mx.applied.contains (q.tile % 8))) = some r →
        ((phase < 20 ∨ 32 ≤ phase ∨ c.mx.lastStep ≠ some (r.tile % 8)) →
          ∃ t, exec (.addOnRowApply k phase) s = .next t ∧ (t.core k).cp.addOn = c.cp.addOn.erase r ∧ (t.core k).mx.phase = phase ∧
            (t.core k).mx.applied = (if phase = c.mx.phase then c.mx.applied else []) ++ [r.tile % 8] ∧
            (t.core k).mx.acc = (addRow c.mx r.tile r.row r.data).acc ∧ (t.core k).mx.tiles = c.mx.tiles ∧ (t.core k).regs = c.regs ∧
            t.ms = s.ms) ∧
        (20 ≤ phase → phase < 32 → c.mx.lastStep = some (r.tile % 8) → ∃ t, exec (.addOnRowApply k phase) s = .next t ∧ bad t 0x07)))

/-- O48 (02 R52, R53, R62; 13 R305 to R320; 14 R329, R335, R343, R344; 20 R421): The released command at the head of the matrix
queue fires and leaves the queue, where throttling does not hold it: `azero` clears the tiles that it names. A second try of a
step performs it, or records a machine check. A flit that arrives enters its receive slot, and one of which 8 retries have
failed is poisoned and counted. A broken chain is a fault of every pass that waits on it for rows. The numbers: what an element
of a block is; the A40 sum of terms that lose no bit in its window is their exact sum rounded once; a cell after a step is the
A40 sum of its products and of what it held. -/
def Obligations.MatrixEngineFires : Prop :=
  (∀ (s : State) (k : Nat), let c := s.core k
    (∀ e es w, s.Ok → s.pausedBy (clusterOf k) = false → c.mx.forwards = [] → c.mx.queue = e :: es → e.released = true →
      c.mxHeld e = false → e.cmd = .azero w →
      ∃ c', exec (.matrixCommandFire k) s = .next (s.setCore k c') ∧ c'.mx.queue = es ∧ c'.mx.tiles = c.mx.tiles ∧ c'.regs = c.regs ∧
        c'.ctl = c.ctl ∧ ∀ n r j, r < 96 → j < 96 →
          (SMap.get 0 c'.mx.acc (accKey n r j) : BitVec 40) =
            if field w 0 6 ≤ n ∧ n ≤ field w 0 6 + field w 8 6 then 0 else SMap.get 0 c.mx.acc (accKey n r j)) ∧
    (∀ a e b w p q, s.Ok → s.pausedBy (clusterOf k) = false → c.mx.queue = a ++ e :: b → (∀ x ∈ a, x.retry = false) →
      e.retry = true → e.cmd = .step w p q →
      (∃ c', exec (.residueRetry k true) s = .next (s.setCore k c') ∧
        c'.mx = { c.mx.step (BitVec.ofNat 64 w) p q with queue := a ++ b } ∧ c'.regs = c.regs) ∧
      (c.mx.fp = false → (∀ x ∈ b, x.pass = none) → ∃ c', exec (.residueRetry k false) s = .next (s.setCore k c') ∧
        c'.mx.fp = true ∧ c'.mx.fc = 0x04 ∧ c'.mx.fword = e.word ∧ c'.mx.runc = min (c.mx.runc + 1) 65535 ∧ c'.mx.acc = c.mx.acc ∧
        c'.mx.queue = a ++ b.filter fun x => !x.released)) ∧
    (∀ (f : Flit) (fs : List Flit) (retries j : Nat) (x : RecvSlot), s.Ok → c.mx.arriving = f :: fs → c.inCrew f.crew = true →
      s.stale k f = false → slotOfChain c.mx.recv f.crew f.ch = some (j, x) → x.takes f = true →
      ∃ c', exec (.basinRowArrival k retries) s = .next (s.setCore k c') ∧ c'.mx.arriving = fs ∧
        c'.mx.recv = setAt c.mx.recv j (some (x.put { f with bad := f.bad || decide (8 < retries) })) ∧
        c'.mx.crcr = min (c.mx.crcr + min retries 8) 0xFFFFFFFF ∧
        c'.mx.crcf = (if 8 < retries then min (c.mx.crcf + 1) 65535 else c.mx.crcf) ∧ c'.mx.acc = c.mx.acc ∧ c'.regs = c.regs) ∧
    (∀ crew ch (x : Chain), s.Ok → s.chain crew ch = some x → x.broken = true →
      ∃ t, exec (.chainBroken crew ch) s = .next t ∧ t.ms = s.ms ∧ t.fab = s.fab ∧
        ∀ i, c.inCrew crew = true → s.hopAt crew x k = some i → x.role i = .middle ∨ x.role i = .last ∨ x.role i = .destination →
          ∀ a e b w, c.mx.queue = a ++ e :: b → (∀ y ∈ a, y.pass = none) → e.released = true → e.pass ≠ none → e.cmd = .bwait w →
            passCh w = ch → c.mx.fp = false →
            (t.core k).mx.fp = true ∧ (t.core k).mx.fc = 0x06 ∧ (t.core k).mx.fword = e.word ∧ (t.core k).mx.acc = c.mx.acc ∧
            (t.core k).mx.queue = a ++ b.filter fun y => !y.released)) ∧
  (∀ cw ∈ ([(1, 16), (2, 8), (3, 6)] : List (Nat × Nat)), ∀ (b : Block) (j : Nat),
    let code := (b.extractLsb' (16 + cw.2 * j) cw.2).toNat
    let sc := (b.extractLsb' 8 8).toNat
    let v := elementValue cw.1 b j
    (∀ f, formatOf (b.extractLsb' 0 8).toNat = some (f, cw.1) →
      v.isFin = (decodeNum f code).isFin ∧ v.value = f.value code * 2 ^ ((if sc = 0 ∨ sc = 0xFF then 128 else (sc : Int)) - 128)) ∧
    ((∀ f, formatOf (b.extractLsb' 0 8).toNat ≠ some (f, cw.1)) → v = zero)) ∧
  (∀ (ts : List Exact) (em : Int), (∀ t ∈ ts, t.isFin = true) → maxLead ts = some em →
    (∀ g m e, Exact.fin g m e ∈ ts → lost m (e - (em - 47)) = false) →
    let v := (ts.map Exact.value).sum
    let r := a40Sum ts
    (v = 0 → r = 0) ∧ (|v| ≤ Fmt.a40.top → Fmt.a40.Nearest v r) ∧
    (Fmt.a40.top < |v| → Fmt.a40.value r = if v < 0 then -Fmt.a40.top else Fmt.a40.top)) ∧
  (∀ a b : Exact, a.isFin = true → b.isFin = true → (a.mul b).isFin = true ∧ (a.mul b).value = a.value * b.value) ∧
  (∀ (m : Matrix) (w p q : Word) (n i j : Nat), shapeVr p ≤ 96 → shapeVr q ≤ 96 → i < 96 → j < 96 →
    let h := shapeDepth p / 2
    let el (t r x : Nat) : Exact :=
      elementValue (shapeCls p) (SMap.get 0 m.tiles (2 * (96 * t + r) + if x < h then 0 else 1)) (x % h)
    let old : Exact := if w.getLsbD 16 then zero else a40 (m.elem n i j).toNat
    (m.step w p q).elem n i j =
      if n = (w.extractLsb' 0 6).toNat ∧ i < shapeVr p ∧ j < shapeVr q then
        BitVec.ofNat 40 (a40Sum ((upto 0 (stepDepth p q)).map (fun x => (el (stepAt w) i x).mul (el (stepBt w) j x)) ++ [old]))
      else m.elem n i j)

/-! ### The memory system as events (01 R18 to R41; 03 R84; 04 R90 to R124; 22 R432, R446) -/

/-- O49 (01 R18, R25, R27, R31, R32; 04 R93, R121, R122): the first miss of the eight that have a walker is walked, and its
access then hits, or takes its fault; a miss that found the queue full looks again in the level-2 TLB, or enters the queue,
which never holds more than 8 walks and 64 misses that wait; a unit that observes an invalidation keeps no entry that it
covers, and keeps what of its core is old; once every unit has observed it, and no access is old, the invalidation is gone; a
pool decision and a fill change memory's caches alone; an entry invalidation leaves no copy of the entry. -/
def Obligations.TranslationEvents : Prop :=
  ∀ s : State,
    (∀ die, let l := missesOf s die
      (((queuedMisses l).take 8).find? (fun m => !m.done) = none →
        exec (.tableWalk die) s = .next { s with ms := { s.ms with misses := SMap.set [] s.ms.misses die l } }) ∧
      (∀ m ms x, ((queuedMisses l).take 8).find? (fun m => !m.done) = some m → lookupLeaf s.ms (m.who s) m.fetch m.va = (ms, .ok x) →
        exec (.tableWalk die) s = .next { s with ms := { ms with misses := SMap.set [] ms.misses die (l.erase m) } } ∧
        ((SMap.get [] ms.tlb (m.core + if m.fetch then 256 else 0) : List TlbEntry).any fun e => e.hits (m.who s).asid m.va) = true) ∧
      (∀ m ms f, ((queuedMisses l).take 8).find? (fun m => !m.done) = some m → lookupLeaf s.ms (m.who s) m.fetch m.va = (ms, .error f) →
        exec (.tableWalk die) s = .next { s with ms := { ms with
          misses := SMap.set [] ms.misses die (l.map fun x => if x = m then { m with done := true } else x) } })) ∧
    (∀ die m t, let l := missesOf s die
      l.find? (fun m => match m.retryAt with | some t => decide (t ≤ s.now) | none => false) = some m → m.retryAt = some t → m.core / 64 = die →
      (hitsDie s.ms (m.who s) { va := m.va, kind := if m.fetch then .fetch else .load, sup := m.sup } = true →
        ∃ u, exec (.walkQueueRetry die) s = .next u ∧ u.cores = s.cores ∧ (SMap.get [] u.ms.misses die : List Miss) = l.erase m ∧
          u.ms.mem = s.ms.mem ∧
          ((SMap.get [] u.ms.tlb (m.core + if m.fetch then 256 else 0) : List TlbEntry).any fun e => e.hits (m.who s).asid m.va) = true) ∧
      (hitsDie s.ms (m.who s) { va := m.va, kind := if m.fetch then .fetch else .load, sup := m.sup } = false →
        ∃ u, exec (.walkQueueRetry die) s = .next u ∧ u.cores = s.cores ∧ u.ms.mem = s.ms.mem ∧
          ((l.erase m).any m.same = false → (SMap.get [] u.ms.misses die : List Miss) = l.erase m ++
            [{ m with retryAt := if (queuedMisses (l.erase m)).length < 72 then none else some (s.now + 64) }]))) ∧
    (∀ (i : Nat → Instr), i = .tableWalk ∨ i = .walkQueueRetry → ∀ die, (queuedMisses (SMap.get [] s.ms.misses die)).length ≤ 72 →
      ∃ t, exec (i die) s = .next t ∧ t.cores = s.cores ∧ (queuedMisses (SMap.get [] t.ms.misses die)).length ≤ 72) ∧
    (∀ (i : Inval) (u : Nat), s.ms.invals.find? (fun j => j.id == i.id) = some i → u < 516 → u ∉ i.seen →
      ∃ t, exec (.invalidationObserved i.id u) s = .next t ∧ t.ms.mem = s.ms.mem ∧ t.cores = s.cores ∧
        (u < 512 → ∀ e ∈ (SMap.get [] t.ms.tlb u : List TlbEntry), i.matches e = false) ∧
        (512 ≤ u → (∀ e ∈ (SMap.get [] t.ms.tlb2 (u - 512) : List TlbEntry), i.matches e = false) ∧ ∀ e ∈ t.ms.walk, e.1 / 8 ≠ u - 512) ∧
        ∀ j ∈ t.ms.invals, j.id = i.id → u ∈ j.seen ∧
          (u < 256 → (s.holdsOld i u (s.core u).ctl.blk = true → (u, (s.core u).ctl.blk) ∈ j.old) ∧ (∀ v ∈ s.unackedBy u, v ∈ j.remote) ∧
            (∀ r ∈ s.rowsBy u, r ∈ j.rows) ∧ (s.savedOld i u = true → u ∈ j.saved))) ∧
    (∀ i : Inval, s.ms.invals.find? (fun j => j.id == i.id) = some i →
      (unitCount ≤ i.seen.length → s.oldLeft i = false →
        ∃ t, exec (.invalidationComplete i.id) s = .next t ∧ t.cores = s.cores ∧ (∀ j ∈ t.ms.invals, j.id ≠ i.id) ∧
          ∀ k, t.ms.wcOf k = []) ∧
      (i.seen.length < unitCount ∨ s.oldLeft i = true → exec (.invalidationComplete i.id) s = .next s)) ∧
    (∀ (k va : Nat) (p : Pending), (pendingAccesses s k).find? (fun p => p.va == va && (p.kind == .store || p.kind == .atomic)) = some p →
      exec (.copyOnWrite k va) s = .next { s with ms := (translateFor s.ms { s.who k with sup := p.sup } va p.kind).1 }) ∧
    (∀ pa, ∃ t, exec (.entryInvalidation pa) s = .next t ∧ t = { s with ms := s.ms.entryInvalidate pa } ∧
      (∀ e ∈ t.ms.bec, ∀ b ∈ e.2, b.pa ≠ pa) ∧
      ((∀ e ∈ s.ms.bec, ∀ b ∈ e.2, b.pa = pa → b.right = false) → t.ms.mem = s.ms.mem)) ∧
    (∀ (k va : Nat) (p : Pending) (ms : MemSys) (x : Xlat), (moveAccess s k).find? (fun p => p.va == va && p.kind == .load) = some p →
      translate s.ms { s.who k with sup := p.sup } va .load = (ms, .ok x) → x.dev = none → x.hole = false → inAperture x.pa = true →
      let r := cachedLoad ms { s.who k with sup := p.sup } (s.core k).ways x x.pa 1 1
      r.2.bad = none → exec (.l1Fill k va) s = .next { s with ms := { r.1 with psub := ms.psub } } ∧
        ((r.1.lines k).head?.map L1Line.line) = some (x.pa / 64))

/-- The place in a core that an error in a register, a port, a mask or a shape lies in, by its index. -/
def Sys2Proof.Machine.eccLocs (i : Nat) : List (EccUnit × Loc) :=
  [(.sreg, .sreg (decide (32 ≤ i)) (i % 32)), (.vreg, .vreg (decide (16 ≤ i)) (i % 16)), (.port, portLoc i), (.predicate, .pred (i % 8)),
   (.mask, .mask (i % 8)), (.shape, .tsh (i % 8)), (.vt, .vt)]

/-- O50 (03 R84, R87; 04 R90, R116; 18 R378): a dirty pack leaves for its stack with the tag of its blocks, and every byte
of it reads as before or, where its block is omitted, as 0. An uncorrectable error poisons the blocks it lies in; in a clean
copy, of a level-1 cache or of a level-2 slice, it costs the copy, and in what a core holds the next block that reads it finds 0x71. A corrected one is counted; a
scrub counts what it finds, which is free (log entry 8). -/
def Obligations.PackAndErrorEvents : Prop :=
  ∀ s : State, s.Ok →
    (∀ (p : Nat) (raw : Bool), SMap.get none s.ms.dirtyPacks p = some raw →
      ∃ t, exec (.packWrite p) s = .next t ∧ t.cores = s.cores ∧ (SMap.get none t.ms.dirtyPacks p : Option Bool) = none ∧
        (∀ b, b / 256 ≠ p ∨ s.ms.kept raw (b / 64) = true → t.ms.byte b = s.ms.byte b) ∧
        (∀ b, b / 256 = p → s.ms.kept raw (b / 64) = false → t.ms.byte b = 0) ∧ (raw = true → t.ms.mem = s.ms.mem)) ∧
    (∀ n, space (64 * n) = .hbm → ∃ t, exec (.eccError .hbmBlock n false) s = .next t ∧ t.ms.poisoned (64 * n) = true ∧
      t.ms.mem = s.ms.mem ∧ t.cores = s.cores ∧ ∀ b, b / 64 ≠ n → t.ms.poisoned b = s.ms.poisoned b) ∧
    (∀ n, space (256 * n) = .hbm → ∃ t, exec (.eccError .packTag n false) s = .next t ∧ t.ms.mem = s.ms.mem ∧ t.cores = s.cores ∧
      ∀ b, t.ms.poisoned b = (s.ms.poisoned b || decide (b / 256 = n))) ∧
    (∀ n, ∃ t, exec (.eccError .cleanCopy n false) s = .next t ∧ t.ms.mem = s.ms.mem ∧ t.cores = s.cores ∧
      (∀ l ∈ t.ms.lines (n % 256), l.line = n / 256 → l.pending = true ∧ l.poison = true) ∧
      ∀ l ∈ s.ms.lines (n % 256), l.line ≠ n / 256 → l ∈ t.ms.lines (n % 256)) ∧
    (∀ n (l : L2Line), (s.ms.slice (n % 128))[n / 128]? = some l → ∃ t, exec (.eccError .levelTwo n false) s = .next t ∧
      t.ms.mem = s.ms.mem ∧ t.cores = s.cores ∧
      (SMap.get none s.ms.dirtyPacks (l.line / 4) = none → t.ms.poison = s.ms.poison ∧
        t.ms.slice (n % 128) = (s.ms.slice (n % 128)).filter fun k => k.line != l.line) ∧
      (SMap.get none s.ms.dirtyPacks (l.line / 4) ≠ none → t.ms.poisoned (64 * l.line) = true ∧ t.ms.l2 = s.ms.l2 ∧
        ∀ b, b / 64 ≠ l.line → t.ms.poisoned b = s.ms.poisoned b)) ∧
    (∀ n, ∃ t, exec (.eccError .icache n false) s = .next t ∧ t.ms.mem = s.ms.mem ∧ t.cores = s.cores ∧
      t.ms.ilines (n % 256) = (s.ms.ilines (n % 256)).eraseIdx (n / 256)) ∧
    (∀ n, ∃ t, exec (.eccError .tlb n false) s = .next t ∧ t.ms.mem = s.ms.mem ∧ t.cores = s.cores ∧
      (n % 1024 < 512 → (SMap.get [] t.ms.tlb (n % 1024) : List TlbEntry) = (SMap.get [] s.ms.tlb (n % 1024) : List TlbEntry).eraseIdx (n / 1024)) ∧
      (512 ≤ n % 1024 → (SMap.get [] t.ms.tlb2 (n % 1024 - 512) : List TlbEntry) =
        (SMap.get [] s.ms.tlb2 (n % 1024 - 512) : List TlbEntry).eraseIdx (n / 1024))) ∧
    (∀ (u : EccUnit) (n : Nat), ∃ t, exec (.eccError u n true) s = .next t ∧ t.ms.mem = s.ms.mem ∧ t.cores = s.cores ∧
      let key := 1024 * eccIndex u + eccPlace u n
      (SMap.get 0 t.ms.corrected key : Nat) = SMap.get 0 s.ms.corrected key + 1) ∧
    (∀ n u l, let c := s.core (n % 256)
      (u, l) ∈ eccLocs (n / 256) →
      ∃ t c', exec (.eccError u n false) s = .next t ∧ t.ms = s.ms ∧ t.core (n % 256) = c' ∧ (c'.badAt l).map Notice.code = some 0x71 ∧
        c' = { c with regs := c'.regs } ∧ c'.regs.base = c.regs.base ∧
        (∀ key m blk, key ≠ c.key l → c'.regs.read key m blk = c.regs.read key m blk ∧ c'.regs.bad key m blk = c.regs.bad key m blk) ∧
        ∀ j, j ≠ n % 256 → t.core j = s.core j) ∧
    (∀ n, let c := s.core (n % 256)
      (∃ t, exec (.eccError .scratchpad n false) s = .next t ∧ n / 256 ∈ (t.core (n % 256)).scratchPoison ∧
        (t.core (n % 256)).scratch = c.scratch ∧ t.ms = s.ms) ∧
      (∃ t, exec (.eccError .tileRow n false) s = .next t ∧ n / 256 ∈ (t.core (n % 256)).mx.tilePoison ∧
        n / 256 ∈ (t.core (n % 256)).mx.tileErr ∧ (t.core (n % 256)).mx.tiles = c.mx.tiles ∧ t.ms = s.ms) ∧
      (∃ t, exec (.eccError .accTile n false) s = .next t ∧ n / 256 ∈ (t.core (n % 256)).mx.accPoison ∧
        n / 256 ∈ (t.core (n % 256)).mx.accErr ∧ (t.core (n % 256)).mx.acc = c.mx.acc ∧ t.ms = s.ms) ∧
      (∀ x h, let i := n / 256
        c.mx.recv[i / 192]? = some (some x) → SMap.get none x.rows (i % 192) = some h →
        ∃ t x', exec (.eccError .receiveBuffer n false) s = .next t ∧ (t.core (n % 256)).mx.recv[i / 192]? = some (some x') ∧
          SMap.get none x'.rows (i % 192) = some { h with bad := true } ∧ t.ms = s.ms)) ∧
    (∀ b, ∃ t, exec (.hbmScrub b) s = .next t ∧ t.ms.mem = s.ms.mem ∧ t.ms.poison = s.ms.poison ∧ t.cores = s.cores)

/-- O51 (01 R35 to R41; 04 R108 to R110; 15 R368; 18 R397; 22 R432, R446): a write of a PCIe requester or of a remote device
within one block of memory stores its bytes at their home, and no other byte of a pack that stands still, if its target allows
it; a read is answered with the bytes; an access that its target denies, or that comes from a requester of a drive which did
not answer a kill, stores nothing, ends no command, and is answered with Completer Abort or a FAULT message. A register is
written whole at an address that is a multiple of 8, and keeps what is reserved; ATINV removes the cached windows of its MID.
The level-2 mode changes only while no task is resident, and to shared mode only where the merged moorings fit and do not
clash; a range register with a legal ratio is enabled where WAYS over the enabled registers come to 15 or less, and else it is
not and its ERR is set. The model's choices in it: what checks an access that enters from outside (log entry 71), that a remote
atomic brings the value that it leaves (72), ERR of a refused write to a range that is enabled (53), and that a refused write
stores WAYS and RATIO too (101). -/
def Obligations.TablesAndLevelTwo : Prop :=
  (∀ s : State, s.Ok →
    (∀ (port rid pa len : Nat) (data : BitVec 1024), s.boot = .running → port < 4 → 0 < len → pa % 64 + len ≤ 64 →
      let mid := 0x800 + 256 * port + rid % 256
      let shut : Bool := s.sto.denied.contains (port, rid)
      ((s.ms.checkFrom (148 + port) port mid pa .write).2 = true → shut = false → space pa = .hbm → s.sto.outstanding = [] →
        ∃ t, exec (.pcieRequesterAccess port rid pa len true data) s = .next t ∧ t.cores = s.cores ∧
          t.ms.readN pa len = data.toNat % 2 ^ (8 * len) ∧
          ∀ b, (b < pa ∨ pa + len ≤ b) → s.ms.Settled (b / 256) → t.ms.byte b = s.ms.byte b) ∧
      ((s.ms.checkFrom (148 + port) port mid pa .write).2 = false ∨ shut = true →
        ∃ t, exec (.pcieRequesterAccess port rid pa len true data) s = .next t ∧ t.cores = s.cores ∧ t.sto = s.sto ∧
          ∀ b, s.ms.Settled (b / 256) → t.ms.byte b = s.ms.byte b) ∧
      ((s.ms.checkFrom (148 + port) port mid pa .read).2 = true → shut = false → space pa = .hbm →
        ∃ t, exec (.pcieRequesterAccess port rid pa len false data) s = .next t ∧ t.cores = s.cores ∧
          t.pcie = s.pcie ++ [{ port := port, rid := rid, abort := false, data := BitVec.ofNat 1024 (t.ms.readN pa len) }] ∧
          ∀ b, s.ms.Settled (b / 256) → t.ms.byte b = s.ms.byte b) ∧
      ((s.ms.checkFrom (148 + port) port mid pa .read).2 = false ∨ shut = true →
        ∃ t, exec (.pcieRequesterAccess port rid pa len false data) s = .next t ∧ t.cores = s.cores ∧
          t.pcie = s.pcie ++ [{ port := port, rid := rid, abort := true, data := 0 }] ∧
          ∀ b, s.ms.Settled (b / 256) → t.ms.byte b = s.ms.byte b)) ∧
    (∀ (link dev pa len : Nat) (kind : AccessKind) (mode : PackMode) (data : BitVec 1024), s.boot = .running → s.fab.devn ≠ 0xFFFF →
      link < 32 → 0 < len → pa % 64 + len ≤ 64 →
      ((s.ms.checkFrom (152 + link) (link / 8) (s.ingressMid link dev) pa kind).2 = true → space pa = .hbm →
        ∃ t, exec (.fabricRemoteAccess link dev pa len kind mode data) s = .next t ∧ t.cores = s.cores ∧ t.fab = s.fab ∧
          (kind ≠ .read → t.ms.readN pa len = data.toNat % 2 ^ (8 * len)) ∧
          ∀ b, kind = .read ∨ b < pa ∨ pa + len ≤ b → s.ms.Settled (b / 256) → t.ms.byte b = s.ms.byte b) ∧
      ((s.ms.checkFrom (152 + link) (link / 8) (s.ingressMid link dev) pa kind).2 = false → s.holdsFor dev = none →
        ∃ t m, exec (.fabricRemoteAccess link dev pa len kind mode data) s = .next t ∧ t.cores = s.cores ∧
          t.fab.outbox = s.fab.outbox ++ [(dev, m)] ∧ m.w0 = BitVec.ofNat 64 (0x12 <<< 56 + s.fab.devn <<< 16) ∧
          m.w1 = 1 ∧ m.w2 = BitVec.ofNat 64 pa ∧ ∀ b, s.ms.Settled (b / 256) → t.ms.byte b = s.ms.byte b)) ∧
    (∀ v : BitVec 64,
      (∃ t, exec (.registerWrite 0xFF002000000 v) s = .next t ∧ t.ms = s.ms ∧ t.cores = s.cores ∧
        t.sched = { s.sched with en := v.getLsbD 0 }) ∧
      (∃ t, exec (.registerWrite 0xFF002000008 v) s = .next t ∧ t.sched = { s.sched with stab := (v.extractLsb' 17 27).toNat }) ∧
      (∃ t, exec (.registerWrite 0xFF005000000 v) s = .next t ∧ t.fab = { s.fab with devn := (v.extractLsb' 0 16).toNat }) ∧
      ∃ t, exec (.registerWrite 0xFF000000000 v) s = .next t ∧ (t.target 0).en = v.getLsbD 0 ∧
        (t.target 0).base = (v.extractLsb' 21 23).toNat ∧ (t.target 0).log = (s.target 0).log) ∧
    (∀ n v, (s.target n).busy = false → ∃ t, exec (.atinvWrite n v) s = .next t ∧ (t.target n).busy = true ∧
      (t.target n).invMid = (v.extractLsb' 0 12).toNat ∧ (t.target n).invAll = v.getLsbD 12 ∧ (t.target n).cache = (s.target n).cache ∧
      t.ms.mem = s.ms.mem) ∧
    (∀ n, (s.target n).busy = true → ∃ t, exec (.atinvComplete n) s = .next t ∧ (t.target n).busy = false ∧ t.ms.mem = s.ms.mem ∧
      ∀ e ∈ (t.target n).cache, e ∈ (s.target n).cache ∧ (s.target n).invAll = false ∧ e.1 / 32 ≠ (s.target n).invMid)) ∧
  (∀ s : State,
    (∀ v : BitVec 64, s.ms.l2busy = false → v.getLsbD 0 ≠ s.ms.part → s.resident = true →
      ∃ t, exec (.l2modeWrite v) s = .next t ∧ t.ms.l2ref = true ∧ t.ms.part = s.ms.part ∧ t.ms.l2busy = false ∧ t.cores = s.cores) ∧
    (∀ v : BitVec 64, s.ms.l2busy = false → v.getLsbD 0 ≠ s.ms.part → s.resident = false → v.getLsbD 0 = true →
      ∃ t, exec (.l2modeWrite v) s = .next t ∧ t.ms.l2busy = true ∧ t.ms.part = s.ms.part ∧ t.cores = s.cores) ∧
    (∀ v : BitVec 64, s.ms.l2busy = false → s.ms.part = true → v.getLsbD 0 = false → s.resident = false →
      let l := mergedMoors s.ms.moors
      let clash : Prop := 4096 < l.length ∨
        ∃ a ∈ l, ∃ b ∈ l, a.asid = b.asid ∧ a.base < b.base + b.len ∧ b.base < a.base + a.len ∧ a.bol ≠ b.bol
      ∃ t, exec (.l2modeWrite v) s = .next t ∧ t.ms.part = true ∧ t.cores = s.cores ∧
        (clash → t.ms.l2mfull = true ∧ t.ms.l2busy = false) ∧ (¬clash → t.ms.l2busy = true)) ∧
    (s.ms.l2busy = true → ∃ t, exec .l2modeSwitchEnd s = .next t ∧ t.ms.part = (!s.ms.part) ∧ t.ms.l2busy = false ∧ t.ms.l2 = [] ∧
      t.cores = s.cores) ∧
    ∀ n (v : BitVec 64), n < 8 →
      let r := s.rangeReg n
      let ways := (v.extractLsb' 8 4).toNat
      let ratio := (v.extractLsb' 4 4).toNat
      let others := (((List.range 8).filter (· ≠ n)).map fun j => if (s.rangeReg j).en then (s.rangeReg j).ways else 0).sum
      (v.getLsbD 0 = false → ∃ t, exec (.rrctlWrite n v) s = .next t ∧ (t.rangeReg n).en = false ∧ (t.rangeReg n).err = (s.rangeReg n).err ∧
        t.ms.mem = s.ms.mem) ∧
      (v.getLsbD 0 = true → 9 ≤ (v.extractLsb' 4 4).toNat → ∃ t, exec (.rrctlWrite n v) s = .next t ∧ (t.rangeReg n).en = false ∧
        (t.rangeReg n).err = true ∧ ((s.rangeReg n).en = false → t.ms.l2 = s.ms.l2) ∧
        ((s.rangeReg n).en = true → ∀ e ∈ t.ms.l2, ∀ l ∈ e.2, l.kept = none)) ∧
      (v.getLsbD 0 = true → r.en = false → 15 < others + ways → ∃ t, exec (.rrctlWrite n v) s = .next t ∧ (t.rangeReg n).en = false ∧
        (t.rangeReg n).err = true ∧ t.ms.l2 = s.ms.l2 ∧ ∀ j, j ≠ n → t.rangeReg j = s.rangeReg j) ∧
      (v.getLsbD 0 = true → ratio < 9 → r.en = false → others + ways ≤ 15 →
        ∃ t, exec (.rrctlWrite n v) s = .next t ∧ (t.rangeReg n).en = true ∧ (t.rangeReg n).err = false ∧
          (t.rangeReg n).ways = ways ∧ (t.rangeReg n).ratio = ratio ∧ (∀ j, j ≠ n → t.rangeReg j = s.rangeReg j) ∧
          ∀ e ∈ t.ms.l2, ∀ l ∈ e.2, l.kept = none) ∧
      (v.getLsbD 0 = true → ratio < 9 → r.en = true → others + r.ways ≤ 15 →
        ∃ t, exec (.rrctlWrite n v) s = .next t ∧ (t.rangeReg n).en = true ∧ (t.rangeReg n).err = false ∧
          (t.rangeReg n).ways = r.ways ∧ (t.rangeReg n).ratio = ratio ∧ t.ms.l2 = s.ms.l2))

/-! ### The scheduler (09 R226 to R255; 04 R96; 10 R277; 05 R148) -/

/-- O52 (01 R24; 04 R96; 09 R229, R235, R239, R242, R243, R251, R252): an idle core takes the head of its own deque, a task
to run or a copy for its record channel; a core that begins a task of another launch has its scratchpad zeroed; a task starts
with every register 0 and the registers of its context; a mapped stream starts its HEAD launch and deals every crew, and one
whose record cannot be read ends at once; an admitted crew starts on all its cores together; a cluster whose share is
complete reports. -/
def Obligations.WorkStarts : Prop :=
  ∀ s : State,
    (∀ k (q : ReadyRec) ds, k < 256 → s.sched.crews = [] → s.pwr.tripped = none → (s.core k).idle = true → frameWaits s k = false →
      s.dequeOf k = q :: ds → s.takable k q = true → q.copy = false →
      ∃ t u, exec (.coreTakeWork k) s = .next t ∧ t.dequeOf k = ds ∧ (t.core k).ctl.phase = .starting ∧ (t.core k).task = some u ∧
        u.trec = q.addr ∧ u.ctx = q.ctx ∧ u.owner = q.owner ∧ u.record = true ∧ u.crew = none ∧ u.rank = 0 ∧ u.crewn = 1 ∧
        u.tc = (0, 0, 0) ∧ ∀ j, j ≠ k → t.core j = s.core j) ∧
    (∀ k (q : ReadyRec) ds, k < 256 → s.sched.crews = [] → s.pwr.tripped = none → (s.core k).idle = true → frameWaits s k = false →
      s.dequeOf k = q :: ds → s.takable k q = true → q.copy = true →
      ∃ t rc, exec (.coreTakeWork k) s = .next t ∧ t.dequeOf k = ds ∧ t.core k = { s.core k with cp := { (s.core k).cp with record := some rc } } ∧
        rc.addr = q.addr ∧ rc.ctx = q.ctx ∧ rc.creatorSup = q.creatorSup ∧ rc.owner = q.owner ∧ rc.doneBytes = 0 ∧
        ∀ j, j ≠ k → t.core j = s.core j) ∧
    (∀ k t, let c := s.core k
      c.task = some t → c.ctl.phase = .starting → c.lastLaunch ≠ s.launchSerial t →
      ∃ c', exec (.scratchpadZeroing k) s = .next (s.setCore k c') ∧ (∀ a, (SMap.get 0 c'.scratch a : BitVec 8) = 0) ∧
        (∀ q, c'.quay q = {}) ∧ c'.lastLaunch = s.launchSerial t ∧ c'.regs = c.regs ∧ c'.ctl = c.ctl ∧ c'.mx = c.mx) ∧
    (∀ k t (s1 : State) (o : CodeObj), let c := s.core k
      c.task = some t → t.record = false → c.ctl.phase = .starting → c.lastLaunch = s.launchSerial t →
      taskHeader s k t = (s1, .ok o) →
      let e := (s1.readCtx t.ctx).2
      ∃ t', exec (.taskStart k) s = .next t' ∧ (t'.core k).regs = {} ∧ (t'.core k).seq = {} ∧ (t'.core k).ctl.phase = .head ∧
        (t'.core k).ctl.head = c.ctl.head ∧ (t'.core k).xroot = e.xroot ∧ (t'.core k).xrdt = e.xrdt ∧ (t'.core k).xpool = e.xpool ∧
        (t'.core k).trap.sup = t.sup ∧ (t'.core k).trap.tl = false ∧ (t'.core k).task = some t ∧ (t'.core k).mx = c.mx ∧
        (t'.core k).scratch = c.scratch ∧ ∀ j, clusterOf j ≠ clusterOf k → t'.core j = s.core j) ∧
    (∀ n (s1 s2 s3 : State) e w (ms : MemSys) x r,
      s.schedOn = true → s.ms.l2busy = false → s.runnable n = true → (s.stream n).flight = none → headReady s n = (s1, true) →
      s1.streamEntry n = (s2, e) →
      let va := entryHead e
      let cs := (s2.stream n).supQueued.contains va
      s2.ctxWho 0 (entryCtx e) cs = (s3, w) → recordRead s3.ms w va false = (ms, .ok (x, r)) →
      let l := launchOf va n (entryCtx e) cs s.sched.serial r
      l.spw ≤ 12 → (l.sup = true → cs = true) → l.csize ≤ 64 * (allowedDies (entryDmask e)).length →
      ∃ t, exec (.launchStart n) s = .next t ∧ (t.stream n).flight = some { l with dealt := l.crews } ∧
        t.sched.serial = s.sched.serial + 1 ∧ t.cores = s.cores) ∧
    (∀ n (s1 s2 s3 : State) e w (ms : MemSys) f,
      s.schedOn = true → s.ms.l2busy = false → s.runnable n = true → (s.stream n).flight = none → headReady s n = (s1, true) →
      s1.streamEntry n = (s2, e) → s2.ctxWho 0 (entryCtx e) ((s2.stream n).supQueued.contains (entryHead e)) = (s3, w) →
      recordRead s3.ms w (entryHead e) false = (ms, .error f) →
      ∃ t u l, exec (.launchStart n) s = .next t ∧ t = finishLaunch u l 0x07 f ∧ l.stream = n ∧ l.addr = entryHead e ∧
        (t.stream n).flight = none ∧ t.cores = s.cores) ∧
    (∀ (s1 : State) (c : Crew) (l : Launch), reserveAll s = s1 → s.startsTasks = true →
      s1.sched.crews.find? (fun c => !c.admitted && c.held.length == c.size && s1.runnable c.stream) = some c →
      (s1.stream c.stream).flight = some l → c.held.Nodup →
      ∃ t, exec .crewAdmission s = .next t ∧
        (∀ r k, c.held[r]? = some k → ∃ u, (t.core k).task = some u ∧ (t.core k).ctl.phase = .starting ∧ (t.core k).ctl.head = l.entry ∧
          u.crew = some c.id ∧ u.rank = r ∧ u.crewn = c.size ∧ u.tc = l.coord (l.csize * c.index + r) ∧ u.trec = l.addr) ∧
        ∀ j, j ∉ c.held → t.core j = s1.core j) ∧
    (∀ h cl (x : StreamSlot) (l : Launch), s.slotOf h = some x → (s.stream x.stream).flight = some l → cl < 32 →
      cl / 8 ∈ allowedDies (entryDmask (s.streamEntry x.stream).2) → cl ∉ l.reports →
      (SMap.get 0 s.sched.share (32 * x.stream + cl) : Nat) = 0 →
      (∀ c ∈ s.sched.crews, c.stream = x.stream → c.admitted = false → ∀ k ∈ c.region, k / 8 ≠ cl) →
      ∃ t, exec (.shareReport h cl) s = .next t ∧ (t.stream x.stream).flight = some { l with reports := setInsert l.reports cl } ∧
        t.cores = s.cores ∧ ∀ n, n ≠ x.stream → t.stream n = s.stream n)

/-- O53 (05 R148; 09 R231, R254; 10 R277): a task whose accesses are performed ends, and its core is free; a copy record
is performed, where throttling does not hold it, and completes with status 0; a launch of which every allowed cluster has reported completes; a barrier at
which every member that has not ended has arrived passes. -/
def Obligations.WorkEnds : Prop :=
  ∀ s : State,
    (∀ k t status aux, (s.core k).ctl.phase = .ending status aux → (s.core k).task = some t → s.accessesLeft k = false →
      ∃ t', exec (.recordComplete k) s = .next t' ∧ (t'.core k).task = none ∧ (t'.core k).ctl.phase = .idle ∧
        (t'.core k).scratch = (s.core k).scratch ∧ ∀ j, clusterOf j ≠ clusterOf k → t'.core j = s.core j) ∧
    (∀ k (rc : RecordCopy) (s2 s4 : State) w (ms : MemSys) x r v, (s.core k).cp.record = some rc → rc.doneBytes = 0 →
      s.pausedBy (clusterOf k) = false →
      s.ctxWho k rc.ctx rc.creatorSup = (s2, w) → recordRead s2.ms w rc.addr false = (ms, .ok (x, r)) →
      recordBad (leafCoh x.leaf) r = false → (recSup r = true → rc.creatorSup = true) →
      let s3 := { s2 with ms := ms }.setStatus w rc.addr (linkWord 0 3)
      let src := recWord r 2
      let dst := recWord r 3
      let len := field (recWord r 4) 0 32
      let mode := field (recWord r 4) 32 2
      recordBlocks { w with sup := recSup r, sched := false } s3 (decide (src < dst + len) && decide (dst < src + len)) (mode == 1) (len / 64) src dst
        0xFFFFFFFF s3 = (s4, .ok v) →
      let done : RecordCopy := { rc with
        sup := recSup r, src := src, dst := dst, len := len, doneBytes := len, crc := v ^^^ 0xFFFFFFFF, mode := mode }
      (rowsOut s4 k 8 = false → exec (.copyRecordRun k) s =
        .next (completeRecord (s4.modCore k fun c => { c with cp := { c.cp with record := none } }) k rc.ready (recSup r) 0
          (if mode = 1 then v ^^^ 0xFFFFFFFF else 0) none)) ∧
      (rowsOut s4 k 8 = true → exec (.copyRecordRun k) s =
        .next (s4.modCore k fun c => { c with cp := { c.cp with record := some done } }))) ∧
    (∀ k (rc : RecordCopy), (s.core k).cp.record = some rc → 0 < rc.doneBytes → rowsOut s k 8 = false →
      ∃ t, exec (.copyRecordRun k) s = .next t ∧
        t = completeRecord (s.modCore k fun c => { c with cp := { c.cp with record := none } }) k rc.ready rc.sup 0
          (if rc.mode = 1 then rc.crc else 0) none ∧ t.core k = { s.core k with cp := { (s.core k).cp with record := none } } ∧
        ∀ j, j ≠ k → t.core j = s.core j) ∧
    (∀ k (rc : RecordCopy) (s2 : State) w (ms : MemSys) f, (s.core k).cp.record = some rc → rc.doneBytes = 0 →
      s.pausedBy (clusterOf k) = false →
      s.ctxWho k rc.ctx rc.creatorSup = (s2, w) → recordRead s2.ms w rc.addr false = (ms, .error f) →
      ∃ t, exec (.copyRecordRun k) s = .next t ∧ t = { s2 with ms := ms }.endCopy k rc false 0x07 f ∧ (t.core k).cp.record = none) ∧
    (∀ n (l : Launch), (s.stream n).flight = some l → l.stream = n → l.killed = false →
      (∀ d ∈ allowedDies (entryDmask (s.streamEntry n).2), ∀ c < 8, 8 * d + c ∈ l.reports) →
      ∃ t, exec (.launchComplete n) s = .next t ∧ (t.stream n).flight = none ∧ t.cores = s.cores ∧
        ∀ c ∈ t.sched.crews, c.stream ≠ n) ∧
    (∀ id (c : Crew), s.crew id = some c → c.admitted = true → (∃ m ∈ c.members, m.ended = false) →
      (∀ m ∈ c.members, m.ended = true ∨ c.released < m.arrived) →
      (∀ m ∈ c.members, m.ended = false → (s.core m.core).inCrew id = true ∧ (s.core m.core).ctl.phase = .barrier ∧
        (s.core m.core).ctl.final = [] ∧ (s.core m.core).ctl.iterate = false) →
      ∃ t, exec (.barrierComplete id) s = .next t ∧ t.crew id = some { c with released := c.released + 1 } ∧
        (∀ m ∈ c.members, m.ended = false →
          let rest := (s.core m.core).ctl.store.drop 1
          (t.core m.core).ctl = { (s.core m.core).ctl with store := rest, phase := if rest = [] then .head else .release } ∧
          (t.core m.core).regs = (s.core m.core).regs) ∧
        ∀ j, (∀ m ∈ c.members, m.ended = false → m.core ≠ j) → t.core j = s.core j)

/-- O54 (18 R396, R397): a kill frees every core that runs a task of the context and removes its ready records from every
deque, keeps the records of the tasks that it ends for their status, and sends an Abort for each of the context's storage
commands; a second kill is ignored while one is in progress. A command whose Abort has not been answered for 100 ms ends, and
its drive's root port denies the drive's requester ID (how long it is denied, and which ID it is: log entry 129). Once nothing of
the context is outstanding, the kill completes and counts in KSEQ. -/
def Obligations.KillOfContext : Prop :=
  ∀ s : State,
    (∀ v : BitVec 64, s.Ok → s.sched.killing = none →
      let x := v.toNat % 4096
      ∃ t, exec (.killctlWrite v) s = .next t ∧ t.sched.killing = some (x, 5) ∧ (∀ j u, (t.core j).task = some u → u.ctx ≠ x) ∧
        (∀ j < 256, ∀ q ∈ t.dequeOf j, q.ctx ≠ x) ∧ (∀ c ∈ t.sto.outstanding, c.ctx = x → c.abortAt ≠ none) ∧
        ∀ j u, (s.core j).task = some u → u.ctx = x → u.record = true → (u.ready, u.sup) ∈ t.sched.abandoned) ∧
    (∀ v : BitVec 64, s.sched.killing ≠ none → exec (.killctlWrite v) s = .next s) ∧
    (∀ n (c : Command) a, s.sto.outstanding[n]? = some c → c.abortAt = some a →
      (a + 320000000 ≤ s.now → exec (.killAbortTimeout n) s = .next { s with sto := { s.sto with
        outstanding := s.sto.outstanding.eraseIdx n
        denied := match s.drivePort c.queue with | some p => s.sto.denied ++ [(p, (Config.driveId c.queue).toNat)] | none => s.sto.denied } }) ∧
      (s.now < a + 320000000 → exec (.killAbortTimeout n) s = .next s)) ∧
    (∀ x st, s.sched.killing = some (x, st) → (∀ c ∈ s.sto.outstanding, c.ctx ≠ x) →
      (∀ e ∈ s.fab.unacked, ∀ u ∈ e.2, u.ctx ≠ x) → (∀ e ∈ s.cores, ∀ r ∈ e.2.mx.arriving, (s.crew r.crew).isSome = true) →
      (∀ e ∈ s.cores, ∀ r ∈ e.2.cp.addOn, r.ctx ≠ x) →
      ∃ t, exec .killComplete s = .next t ∧ t.sched.killing = none ∧ t.cores = s.cores ∧ (∀ e ∈ t.sched.abandoned, e.1.ctx ≠ x) ∧
        (space (s.ctxAddr x + 40) = .hbm → (∀ n, (s.target n).en = false) →
          t.ms.readN (s.ctxAddr x + 40) 4 = ((s.readCtx x).2.kseq + 1) % 2 ^ 32)) ∧
    (∀ x st, s.sched.killing = some (x, st) → ((∃ c ∈ s.sto.outstanding, c.ctx = x) ∨ (∃ e ∈ s.fab.unacked, ∃ u ∈ e.2, u.ctx = x) ∨
        ∃ e ∈ s.cores, ∃ r ∈ e.2.cp.addOn, r.ctx = x) →
      ∃ t, exec .killComplete s = .next t ∧ t.sched.killing = some (x, st) ∧ t.ms = s.ms)

/-- O55 (09 R240; 18 R387, R389, R391, R392, R395): a waiting stream takes the lowest free slot; a quantum begins every
250 µs; a pre-emption saves the task's state into a free frame and diverts fetch to its stub; a stub that does not yield
in time is killed, at once or when its core's accesses, storage commands and rows have ended; once drained a yielding task is
saved and its core freed; a frame whose FST is 1 is restored with what it held; a task parks. -/
def Obligations.StreamsAndFrames : Prop :=
  ∀ s : State,
    (∀ h (s1 : State) (w : Waiting) ws, s.sched.en = true → (∀ i x, s.slotOf i = some x → x.leaving = none) →
      (upto 0 64).find? (fun i => (s.slotOf i).isNone) = some h → waitingStreams (refreshWaits s) = (s1, w :: ws) →
      ∃ t x, exec .streamMap s = .next t ∧ t.slotOf h = some x ∧ x.stream = w.stream ∧ x.mappedAt = s.now ∧ x.leaving = none ∧
        (t.stream w.stream).waitFrom = none ∧ t.cores = s.cores ∧ ∀ i, i ≠ h → t.slotOf i = s.slotOf i) ∧
    (s.sched.quantum ≤ s.now → ∃ t, exec .quantumBoundary s = .next t ∧ t.sched.quantum = s.sched.quantum + 800000 ∧
      t.sched.quanta = s.sched.quanta + 1 ∧
      ∀ h x, t.slotOf h = some x → x.mappedAt < s.sched.quantum → x.prevBoundary = true) ∧
    (∀ k f st (s1 s2 : State), let c := s.core k
      c.trap.preempt = .pending → c.ctl.phase = .head → c.trap.tl = false → freeFrame s c.ctx k 4 0 = (s1, some f) →
      s1.setFst c.ctx k f 3 = (s2, true) → c.code.stubFor c.ctl.head = some st →
      ∃ t, exec (.preemptionTaken k) s = .next t ∧ (t.core k).trap = { c.trap with preempt := .stub f s.now } ∧
        (t.core k).ctl.phase = .head ∧ (t.core k).ctl.head = st ∧ (t.core k).regs = c.regs ∧ (t.core k).mx = c.mx ∧
        t.frameOf c.ctx k f = some (c.snapshot false) ∧ ∀ j, j ≠ k → t.core j = s.core j) ∧
    (∀ k f since u, let c := s.core k
      c.trap.preempt = .stub f since → since + stubCycles ≤ s.now → c.yielded = false → c.task = some u → u.crew = none →
      ∃ t, exec (.stubTimeout k) s = .next t ∧ t = forcedKill s k ∧
        (s.engineOut k = false → (t.core k).task = none ∧ (t.core k).ctl.phase = .idle) ∧
        (s.engineOut k = true → (t.core k).task = some u ∧ (t.core k).ctl.phase = .dying ∧
          ∀ c ∈ t.sto.outstanding, c.core = k → c.abortAt ≠ none)) ∧
    (∀ k f since a, (s.core k).ctl.phase = .yielding a → (s.core k).trap.preempt = .stub f since →
      let s1 := performStores s k
      s1.drained k = true →
      let r := saveTask s1 k f 1 a
      exec (.yieldSave k) s = .next (if r.2 then r.1.freeCore k else forcedKill r.1 k) ∧
        ((r.1.freeCore k).core k).task = none ∧ ((r.1.freeCore k).core k).ctl.phase = .idle) ∧
    (∀ k ctx f (s1 : State) (saved : Core), (s.core k).idle = true → s.startsTasks = true →
      resumable s k = some (ctx, f, saved) → s.fst ctx k f = (s1, some 1) → saved.ctl.phase = .head → saved.ctl.behind = {} →
      ∃ t, exec (.frameResume k) s = .next t ∧
        let spw := match saved.task with | some t => t.spw | none => 0
        let free (c : Crew) : Crew := if c.admitted then c else { c with held := c.held.filter (· != k) }
        let s2 := moveWays { s1 with sched := { s1.sched with crews := s1.sched.crews.map free } } k spw
        match restoredCore s2 ctx k f { saved with ways := spw } with
        | (s3, none) => t = forcedKill (s3.setCore k ((s2.core k).adopt saved)) k
        | (_, some (c, resume)) =>
          (t.core k).regs = c.regs ∧ (t.core k).mx.tiles = c.mx.tiles ∧ (t.core k).mx.acc = c.mx.acc ∧ (t.core k).scratch = c.scratch ∧
          (t.core k).task = c.task ∧ (t.core k).ctl.phase = .head ∧ (t.core k).ctl.head = resume ∧ t.frameOf ctx k f = none) ∧
    ∀ k, let c := s.core k
      c.ctl.phase = .parking → c.noNests = true → c.tl = 0 → c.cp.queue = [] →
      ∃ t, exec (.parkInPlace k) s = .next t ∧ t.core k = { c with ctl := { c.ctl with phase := .parked } } ∧
        ∀ j, j ≠ k → t.core j = s.core j

/-! ### Power, cooling and the tide (20) -/

/-- O56 (20 R406, R409, R411, R412, R415, R419 to R424): a raise reaches its target, and a lowering its own, or less far where the
target in force has risen meanwhile, and never more than where it began; the thermal limit follows the hottest junction, but
for the rise at 108 °C, which the trip makes; a window closes the samples, and a power level moves by at most one step; valves
are never set below COOLMIN, and the pump has frames of its own; at 108 °C the save begins, and at 118 °C the power goes. That
a halt clears the cores, and a power cut memory, is the model's reading (log entry 79). -/
def Obligations.PowerEvents : Prop :=
  ∀ s : State,
    (∀ cl, (s.clusterPwr cl).settling = true → ∃ t, exec (.voltageSettled cl) s = .next t ∧
      (t.clusterPwr cl).code = (s.clusterPwr cl).target ∧ t.ms = s.ms ∧ ∀ k, clusterOf k ≠ cl → t.core k = s.core k) ∧
    (∀ cl, (s.clusterPwr cl).lowering = true → ∃ t, exec (.voltageLoweringDone cl) s = .next t ∧
      (t.clusterPwr cl).code = max (s.clusterPwr cl).target (min (s.clusterPwr cl).code (s.targetCode cl)) ∧ t.ms = s.ms ∧
      ∀ k, clusterOf k ≠ cl → t.core k = s.core k) ∧
    (∀ z c, ∃ t, exec (.thermalLimitChange z c) s = .next t ∧ (t.zone (z % 16)).temp = c % 256 ∧ (t.zone (z % 16)).valve = (s.zone (z % 16)).valve ∧
      t.pwr.thermal = (if t.hottest < 108 then max s.pwr.thermal (thermalOf t.hottest) else s.pwr.thermal) ∧
      (∀ y, y ≠ z % 16 → t.zone y = s.zone y) ∧ t.ms = s.ms) ∧
    (∀ levels, s.Ok → s.pwr.window ≤ s.now + 1 → ∃ t, exec (.sampleWindowBoundary levels) s = .next t ∧ t.pwr.window = s.pwr.window + 32000 ∧
      (∀ k, (t.core k).clk.lastBusy = (s.core k).clk.busy ∧ (t.core k).clk.lastStall = (s.core k).clk.stall) ∧
      ∀ cl < 32, (s.clusterPwr cl).plvl ≤ 2 →
        (t.clusterPwr cl).plvl ≤ (s.clusterPwr cl).plvl + 1 ∧ (s.clusterPwr cl).plvl ≤ (t.clusterPwr cl).plvl + 1 ∧
        (t.clusterPwr cl).duty = (if s.throttled cl then max 1 ((s.clusterPwr cl).duty - 1)
          else if (s.zone (zoneOf cl)).temp < 97 then min 8 ((s.clusterPwr cl).duty + 1) else (s.clusterPwr cl).duty)) ∧
    (∀ z v, exec (.flow z v) s = .next (s.setZone (z % 16) { s.zone (z % 16) with
      flow := v % 256, flowAt := if (s.zone (z % 16)).flow < v % 256 ∧ (s.zone (z % 16)).awaitsFlow = true then some s.now else (s.zone (z % 16)).flowAt })) ∧
    (∀ q t, (q, t) ∈ s.pwr.awaiting → ∃ t', exec (.ack q) s = .next t' ∧ t'.pwr.lostFrames = 0 ∧
      (∀ e, e ∈ t'.pwr.awaiting ↔ e ∈ s.pwr.awaiting ∧ e.1 ≠ q) ∧ t'.ms = s.ms ∧ t'.cores = s.cores) ∧
    (∀ q t r, s.pwr.awaiting = (q, t) :: r → t + 3200000 ≤ s.now → ∃ t', exec .ackTimeout s = .next t' ∧
      t'.pwr.lostFrames = s.pwr.lostFrames + 1 ∧ (t'.pwr.unresponsive = true ↔ s.pwr.unresponsive = true ∨ 3 ≤ s.pwr.lostFrames + 1) ∧
      (∀ e ∈ t'.pwr.awaiting, e.1 ≠ q) ∧ t'.cores = s.cores) ∧
    (∀ v, ∃ t, exec (.valveRefresh 0xFF v) s = .next t ∧ t.pwr.pump = v % 256 ∧ t.cores = s.cores ∧ t.pwr.zones = s.pwr.zones ∧
      t.pwr.frames = s.pwr.frames ++ [coolFrame 2 0xFF (v % 256) s.pwr.frameSeq] ∧
      t.pwr.awaiting = s.pwr.awaiting ++ [(s.pwr.frameSeq, s.now)]) ∧
    (∀ z v, z ≠ 0xFF → let y := z % 16
      let p := max (s.coolMin y) (v % 256)
      ∃ t, exec (.valveRefresh z v) s = .next t ∧ (t.zone y).valve = p ∧ (t.zone y).sentAt = s.now ∧
        t.pwr.frames = s.pwr.frames ++ [coolFrame 1 y p s.pwr.frameSeq] ∧ t.pwr.awaiting = s.pwr.awaiting ++ [(s.pwr.frameSeq, s.now)] ∧
        (∀ x, x ≠ y → t.zone x = s.zone x) ∧ t.cores = s.cores) ∧
    (s.boot = .running → s.pwr.tripped = none → 108 ≤ s.hottest → ∃ t, exec .emergencySave s = .next t ∧
      t.pwr.tripped = some s.fab.gtime ∧ t.pwr.thermal = 16) ∧
    (∀ g, s.boot = .running → s.pwr.tripped = some g → s.resident = false → ∃ t, exec .emergencySave s = .next t ∧
      t.boot = .halted ∧ t.cores = []) ∧
    (s.boot ≠ .off → 118 ≤ s.hottest → ∃ t, exec .powerCut s = .next t ∧ t.boot = .off ∧ t.cores = [] ∧ t.ms = {})

/-- The messages that a module sends to every other member. -/
def Sys2Proof.Machine.State.toOthers (s : State) (m : Msg) : List (Nat × Msg) :=
  (s.tide.members.filter fun x => !s.isSelf x).map fun x => (x.dev, m)

/-- O57 (20 R414 to R417; 22 R433, R436): TIDECTL sets the leader and a legal limit, and the group while OUT; its EN founds a
group, asks to join the group of its leader, or leaves one; releases fall due at their rounds, and a joiner that has stepped its
time enters at its round; the ceiling is that of R414: of the members that count, 16 for a silent one, else its base limit and
its notices that are in effect; a member beats, evicts and asks for time, one that is leaving too (the model's choice, log entry
131); a join that is not answered in 2 ms fails. Messages leave at once where nothing before them waits (22 R433). -/
def Obligations.TideTimers : Prop :=
  ∀ s : State, s.tide.group < 65536 → s.fab.devn < 65536 →
    (∀ v : BitVec 64, s.tide.state = .out → v.getLsbD 31 = false → ∃ t, exec (.tidectlWrite v) s = .next t ∧ t.tide.state = .out ∧
      t.tide.en = false ∧ t.tide.group = (v.extractLsb' 48 16).toNat ∧ t.tide.leader = (v.extractLsb' 32 16).toNat ∧
      t.tide.limit = (if 2 ≤ (v.extractLsb' 0 5).toNat ∧ (v.extractLsb' 0 5).toNat ≤ 16 then v.extractLsb' 0 5 else s.tide.limit)) ∧
    (∀ v : BitVec 64, s.tide.state = .out → v.getLsbD 31 = true → (v.extractLsb' 32 16).toNat = s.fab.devn →
      ∃ t, exec (.tidectlWrite v) s = .next t ∧ t.tide.state = .member ∧ t.tide.en = true ∧
        t.tide.members = [newMember s.fab.devn (max t.tide.limit.toNat s.pwr.thermal) s.fab.gtime none]) ∧
    (∀ v : BitVec 64, s.tide.state = .out → v.getLsbD 31 = true → (v.extractLsb' 32 16).toNat ≠ s.fab.devn →
      s.holdsFor (v.extractLsb' 32 16).toNat = none →
      ∃ t m, exec (.tidectlWrite v) s = .next t ∧ t.tide.state = .joining ∧ t.tide.en = true ∧ t.tide.joinSent = some s.fab.gtime ∧
        t.tide.joinRound = none ∧ t.tide.stepped = false ∧ t.fab.outbox = s.fab.outbox ++ [((v.extractLsb' 32 16).toNat, m)] ∧
        msgType m = 4 ∧ msgSender m = s.fab.devn ∧ m.w0.extractLsb' 32 16 = v.extractLsb' 48 16 ∧
        msgLimit m = max t.tide.limit.toNat s.pwr.thermal % 32) ∧
    (∀ v : BitVec 64, s.tide.state = .member → v.getLsbD 31 = false → ∃ t, exec (.tidectlWrite v) s = .next t ∧
      t.tide.state = .leaving ∧ t.tide.leaveRound = some s.roundOn ∧ t.tide.group = s.tide.group) ∧
    (s.tide.state = .member → (∀ m ∈ s.tide.members, m.leaves = none) → ∃ t, exec .roundBoundary s = .next t ∧ t.tide.state = .member ∧
      t.tide.members.map TideMember.dev = s.tide.members.map TideMember.dev ∧
      (∀ m ∈ t.tide.members, (∀ r ∈ m.release, s.round < r.1) ∧ ∀ j, m.joins = some j → s.round < j) ∧
      ∀ m ∈ s.tide.members, ∀ j l q, m.release = [(j, l, q)] → j ≤ s.round →
        ∃ m' ∈ t.tide.members, m'.dev = m.dev ∧ m'.base = l ∧ m'.relseq = q ∧ m'.release = []) ∧
    (∀ j, s.tide.state = .joining → s.tide.joinRound = some j → j ≤ s.fab.gtime / 1000000 → ∃ t, exec .roundBoundary s = .next t ∧
      (s.tide.stepped = true → t.tide.state = .member ∧ t.tide.joinRound = none ∧ t.tide.own = s.ownLimit) ∧
      (s.tide.stepped = false → t.tide.state = .joining)) ∧
    (∀ b, s.wantCeil ≤ b ↔
      if s.tide.state = .out ∨ (s.tide.state = .joining ∧ s.tide.joinRound = none) then max s.tide.limit.toNat s.pwr.thermal ≤ b
      else 2 ≤ b ∧ ∀ m ∈ s.tide.members, (∀ j, m.joins = some j → s.tide.state = .joining ∨ j ≤ s.fab.gtime / 1000000) →
        if m.dev ≠ s.fab.devn ∧ m.last + 500000 ≤ s.fab.gtime then 16 ≤ b
        else m.base ≤ b ∧ ∀ n ∈ m.notices, n.gt ≤ s.fab.gtime → m.relseq < n.seq → n.limit ≤ b) ∧
    (∃ t, exec .noticeEffect s = .next t ∧ t.tide = { s.tide with ceil := s.wantCeil } ∧ t.ms = s.ms) ∧
    (s.inGroup = true → s.tide.beatAt ≤ s.fab.gtime → (∀ x ∈ s.tide.members, s.holdsFor x.dev = none) → ∃ t m, exec .heartbeatSend s = .next t ∧ t.fab.outbox = s.fab.outbox ++ s.toOthers m ∧
      msgType m = 1 ∧ msgSender m = s.fab.devn ∧ m.w1 = BitVec.ofNat 64 s.fab.gtime ∧ t.tide.beatAt = s.fab.gtime + 100000 ∧
      t.tide.members = s.tide.members) ∧
    (∀ dev m, s.tide.members.find? (fun x => x.dev == dev) = some m → s.silent m = true →
      ∃ t, exec (.silenceTimeout dev) s = .next t ∧ t.tide = { s.tide with ceil := s.wantCeil } ∧ t.ms = s.ms) ∧
    (∀ dev m, s.tide.members.find? (fun x => x.dev == dev) = some m → s.inGroup = true → s.leader = some s.fab.devn → s.isSelf m = false →
      m.leaves = none → m.last + 5000000 ≤ s.fab.gtime → dev < 65536 → (∀ x ∈ s.tide.members, s.holdsFor x.dev = none) →
      ∃ t e, exec (.evictTimeout dev) s = .next t ∧ t.fab.outbox = s.fab.outbox ++ s.toOthers e ∧ msgType e = 8 ∧ msgSubj e = dev ∧
        e.w3 = BitVec.ofNat 64 s.roundOn ∧
        t.tide.members = s.tide.members.map fun x => if x.dev = dev then { x with leaves := some s.roundOn } else x) ∧
    (∀ a, s.tide.state = .joining → s.tide.joinSent = some a → s.tide.joinRound = none → a + 2000000 ≤ s.fab.gtime →
      ∃ t, exec .joinTimeout s = .next t ∧ t.tide.state = .out ∧ t.tide.fail = true ∧ t.tide.members = []) ∧
    (∀ d, s.inGroup = true → s.tide.syncRound < s.round → 100000 + 1000 * (s.fab.devn % 512) ≤ s.fab.gtime % 1000000 →
      s.leader = some d → d ≠ s.fab.devn → s.holdsFor d = none →
      ∃ t m, exec .timeSyncSend s = .next t ∧ t.fab.outbox = s.fab.outbox ++ [(d, m)] ∧ msgType m = 9 ∧
        m.w1 = BitVec.ofNat 64 s.fab.gtime ∧ t.tide.syncRound = s.round)

/-- O58 (20 R414 to R417; 22 R436): what a well-formed tide message of a member does: it ends the member's silence, and a
NOTICE, a RELEASE or a LEAVE is noted for its time; EVICT of this module takes it out; JOIN enters its subject; time is asked,
answered and corrected. The leader answers JOIN_REQ, and a joiner takes JOIN_ACK. The model's reading in it: the round that
JOIN_ACK and JOIN name and that an EVICT of this module acts as it arrives (log entry 49), and that a member that is leaving
corrects its time (131). -/
def Obligations.TideMessages : Prop :=
  ∀ (s : State) (m : Msg), s.serves = true → tideBad m = false → s.tide.group < 65536 → s.fab.devn < 65536 →
    let x := msgSender m
    let now := s.fab.gtime
    let upd (f : TideMember → TideMember) : List TideMember := s.tide.members.map fun y => if y.dev = x then f y else y
    ((∃ y ∈ s.tide.members, y.dev = x) →
      (msgType m = 1 → ∃ t, exec (.heartbeat m) s = .next t ∧ t.tide.members = upd fun y => { y with last := now }) ∧
      (msgType m = 2 → ∃ t, exec (.notice m) s = .next t ∧ t.tide.members = (upd fun y => { y with
        last := now, notices := y.notices ++ [{ limit := msgLimit m, gt := m.w1.toNat, seq := msgSeq m }] }) ∧
        t.tide.late = if m.w1.toNat < now then min (s.tide.late + 1) 0xFFFF else s.tide.late) ∧
      (msgType m = 3 → ∃ t, exec (.release m) s = .next t ∧ t.tide.members = upd fun y => { y with
        last := now, release := y.release ++ [(m.w3.toNat, msgLimit m, msgSeq m)] }) ∧
      (msgType m = 7 → ∃ t, exec (.leave m) s = .next t ∧ t.tide.members = upd fun y => { y with
        last := now, leaves := some m.w3.toNat }) ∧
      (msgType m = 8 → msgSubj m = s.fab.devn → ∃ t, exec (.evict m) s = .next t ∧ t.tide.state = .out ∧ t.tide.members = []) ∧
      (msgType m = 8 → msgSubj m ≠ s.fab.devn → ∃ t, exec (.evict m) s = .next t ∧
        ∀ y ∈ t.tide.members, y.dev = msgSubj m → y.leaves = some m.w3.toNat) ∧
      (msgType m = 6 → msgSubj m ≠ s.fab.devn → ∃ t, exec (.join m) s = .next t ∧ t.tide.members =
        (upd fun y => { y with last := now }).filter (fun y => y.dev != msgSubj m) ++
          [newMember (msgSubj m) (msgLimit m) now (some m.w3.toNat)]) ∧
      (msgType m = 9 → s.holdsFor x = none → ∃ t a, exec (.timeReq m) s = .next t ∧ t.fab.outbox = s.fab.outbox ++ [(x, a)] ∧
        msgType a = 0x0A ∧ a.w1 = BitVec.ofNat 64 now ∧ a.w3 = m.w1) ∧
      (msgType m = 0x0A →
        let o : Int := Int.tdiv (((m.w1.toNat : Int) - (msgRes m : Int) - (m.w3.toNat : Int)) + ((m.w1.toNat : Int) - (now : Int))) 2
        (s.inGroup = true → (s.modMember x fun y => { y with last := now }).leader ≠ some s.fab.devn →
          ∃ t, exec (.timeRsp m) s = .next t ∧ t.fab = { s.fab with slew := o }) ∧
        (s.tide.state = .joining → ∃ t, exec (.timeRsp m) s = .next t ∧ t.fab = { s.fab with gtime := ofInt 64 ((now : Int) + o) } ∧
          t.tide.stepped = true))) ∧
    (msgType m = 4 → s.inGroup = true → s.leader = some s.fab.devn → s.holdsFor x = none → ∃ t a rest, exec (.joinReq m) s = .next t ∧
      t.fab.outbox = s.fab.outbox ++ (x, a) :: rest ∧ msgType a = 5 ∧ a.w3 = BitVec.ofNat 64 s.roundOn ∧
      t.tide.members = s.tide.members.filter (fun y => y.dev != x) ++ [newMember x (msgLimit m) now (some s.roundOn)]) ∧
    (∀ rest, msgType m = 5 → s.tide.state = .joining → s.tide.joinRound = none → s.holdsFor x = none → ∃ t a, exec (.joinAck m rest) s = .next t ∧
      t.tide.joinRound = some m.w3.toNat ∧ t.fab.outbox = s.fab.outbox ++ [(x, a)] ∧ msgType a = 9 ∧
      (∃ y ∈ t.tide.members, y.dev = s.fab.devn ∧ y.base = s.tide.own))

/-! ### The fabric, management and boot (22; 09 R238) -/

/-- O59 (09 R238; 20 R416; 22 R431, R434, R437, R439): what a well-formed message of the host or of a peer does, besides ending
the silence of a member that sent it: LAUNCH appends and answers a refusal, COMPLETE enters the ring or is counted lost, FAULT
delivers the denial of a store, an unknown type is answered, and management reads and writes registers, attests, with the report
behind the answer, answers its status and restarts the device. The model's choices in it: that a removed device is ignored
whatever its message (log entry 132), that FAULT ends the first unacknowledged access to its sender at its address (74), the
answer 0 for an address that is no register and the check under firmware's MID (73), and that a restart leaves memory empty (24,
39). -/
def Obligations.FabricMessages : Prop :=
  ∀ (s : State) (m : Msg), msgReserved m = false →
    let x := msgSender m
    let h := s.heard x
    (s.ignores x = true → (∀ link, exec (.launch link m) s = .next s) ∧ exec (.complete m) s = .next s ∧ exec (.fault m) s = .next s) ∧
    (h.ms = s.ms ∧ h.fab = s.fab ∧ ((∀ y ∈ s.tide.members, y.dev ≠ x) → h = s)) ∧
    (s.ignores x = false →
    (s.serves = true →
      (∀ link, msgType m = 0x10 →
        let n := wfield m.w1 11 0
        let r := h.streamEntry n
        let q := r.1.ctxWho (64 * (link / 8 % 4)) (entryCtx r.2) (r.1.ingressSup link x)
        let a := appendLaunch q.1 q.2 m.w2.toNat n (q.1.ingressMid link x) (link / 8 % 4)
        exec (.launch link m) s = .next (if a.2 = 0 then a.1 else a.1.send x (faultMsg a.1 2 a.2 m.w3.toNat))) ∧
      (msgType m = 0x11 → s.fab.cren = true → (s.fab.crpc + 65536 - s.fab.crcc) % 65536 < 256 → ∃ t, exec (.complete m) s = .next t ∧
        t.fab = { s.fab with crpc := (s.fab.crpc + 1) % 65536 } ∧ t.cores = h.cores ∧
        let a := s.fab.crbase * 256 + 32 * (s.fab.crpc % 256)
        ((s.ms.check (stackDie a) 0 a .write false).2 = true → inAperture a = true → t.ms.readN a 32 = msgNat m) ∧
        ∀ b, (b < a ∨ a + 32 ≤ b) → s.ms.Settled (b / 256) → t.ms.byte b = s.ms.byte b) ∧
      (msgType m = 0x11 → s.fab.cren = true → 256 ≤ (s.fab.crpc + 65536 - s.fab.crcc) % 65536 →
        exec (.complete m) s = .next { h with fab := { h.fab with crlost := min (s.fab.crlost + 1) 0xFFFFFFFF } }) ∧
      (∀ l (u : Unacked), msgType m = 0x12 → wfield m.w1 7 0 = 1 → s.unackedTo x m.w2.toNat = some (l, u) → u.store = true → u.ch = none →
        ∃ t, exec (.fault m) s = .next t ∧ t.core u.core = (h.core u.core).note (some (denied u.pa 1 u.path)) ∧ t.ms = s.ms ∧
          (SMap.get [] t.fab.unacked l : List Unacked) = (SMap.get [] s.fab.unacked l : List Unacked).erase u ∧
          ∀ j, j ≠ u.core → t.core j = h.core j)) ∧
    (msgType m = 0x20 →
      (s.manages 1 = true → wfield m.w1 7 0 = 1 → isRegister m.w2.toNat = true → ∀ t, h.checkFirmware m.w2.toNat .read = (t, true) →
        exec (.mgmtRegisterRead m) s = .next (t.send x (mgmtMsg s.fab.devn 1 (t.regRead m.w2.toNat)))) ∧
      (s.manages 1 = true → wfield m.w1 7 0 = 1 → isRegister m.w2.toNat = false →
        exec (.mgmtRegisterRead m) s = .next (h.send x (mgmtMsg s.fab.devn 1 0))) ∧
      (s.manages 2 = true → wfield m.w1 7 0 = 2 → isRegister m.w2.toNat = true → ∀ t ok, h.checkFirmware m.w2.toNat .write = (t, ok) →
        exec (.mgmtRegisterWrite m) s =
          .next ((if ok then t.regWrite m.w2.toNat m.w3.toNat else t).send x (mgmtMsg s.fab.devn 2 0))) ∧
      (∀ nonce, s.manages 3 = true → wfield m.w1 7 0 = 3 → s.holdsFor x = none → ∃ t, exec (.mgmtAttestation m nonce) s = .next t ∧
        t.fab.reports = s.fab.reports ++ [attestation s nonce] ∧
        t.fab.outbox = s.fab.outbox ++ (x, mgmtMsg s.fab.devn 3 0) :: (reportFlits (attestation s nonce)).map (fun f => (x, f)) ∧
        t.cores = h.cores ∧ t.ms = s.ms) ∧
      (s.manages 4 = true → wfield m.w1 7 0 = 4 → ∃ t, exec (.mgmtRestart m) s = .next t ∧ t.cores = [] ∧ t.ms = {} ∧
        (s.windowOn = false → t.committed = false ∧ t.fab.outbox = s.fab.outbox ++ [(x, mgmtMsg s.fab.devn 4 0)])) ∧
      (s.manages 5 = true → wfield m.w1 7 0 = 5 → exec (.mgmtStatus m) s = .next (h.send x (mgmtMsg s.fab.devn 5
        ((match s.boot with | .running => 0 | .recovery => 1 | _ => 2) + 4 * b2n s.committed))))) ∧
    (s.serves = true → knownType (msgType m) = false →
      exec (.unknownMessageType m) s = .next (s.send x (faultMsg s 1 0 0))))

/-- O60 (22 R435, R438): a link that sheds lanes pauses, and resumes with its unacknowledged accesses or, after 2 µs, goes
down without them, which each peer is told with the first of its addresses that is lost (the model's choice, log entry 130); no
message that waits for a link is lost; after a reset no core runs and memory holds nothing (log entry 39). -/
def Obligations.LinksAndReset : Prop :=
  ∀ s : State,
    (∀ l ≤ 31, s.fab.ldown.getLsbD l = false → (SMap.get 0 s.fab.sheds l : Nat) < 2 → ∃ t, exec (.linkLaneShed l) s = .next t ∧
      (SMap.get 0 t.fab.sheds l : Nat) = SMap.get 0 s.fab.sheds l + 1 ∧
      t.fab.ldown = s.fab.ldown ∧ t.fab.unacked = s.fab.unacked ∧ (SMap.get 0 t.fab.paused l : Nat) = s.now + 1 ∧ t.cores = s.cores) ∧
    (∀ l, let p : Nat := SMap.get 0 s.fab.paused l
      p ≠ 0 → s.now + 1 ≤ p + pauseCycles → ∃ t, exec (.linkResume l) s = .next t ∧ (SMap.get 0 t.fab.paused l : Nat) = 0 ∧
        t.fab.unacked = s.fab.unacked ∧ t.fab.ldown = s.fab.ldown ∧ t.cores = s.cores ∧
        ∀ h ∈ s.fab.held, h ∈ t.fab.held ∨ (h.dev, h.msg) ∈ t.fab.outbox) ∧
    (∀ l ≤ 31, let p : Nat := SMap.get 0 s.fab.paused l
      p ≠ 0 → p + pauseCycles ≤ s.now + 1 → ∃ t, exec (.linkDown l) s = .next t ∧ t.fab.ldown = s.fab.ldown ||| (1 <<< l) ∧
        (SMap.get [] t.fab.unacked l : List Unacked) = [] ∧ t.ms.mem = s.ms.mem ∧
        (∀ h ∈ s.fab.held, h ∈ t.fab.held ∨ (h.dev, h.msg) ∈ t.fab.outbox) ∧
        (∀ (u : Unacked), (SMap.get [] s.fab.unacked l : List Unacked).find? (fun v => v.dev == u.dev) = some u →
          s.fab.ldown ||| (1 <<< l) ≠ BitVec.allOnes 32 → ∃ m : Msg, m.w1 = 3 ∧ m.w2 = BitVec.ofNat 64 u.pa ∧
            ((u.dev, m) ∈ t.fab.outbox ∨ ∃ h ∈ t.fab.held, h.dev = u.dev ∧ h.msg = m)) ∧
        ∀ j, (∀ u ∈ (SMap.get [] s.fab.unacked l : List Unacked), u.core ≠ j) → t.core j = s.core j) ∧
    ∃ t, exec .reset s = .next t ∧ t.cores = [] ∧ t.ms = {} ∧ t.sched = {} ∧ t.tide = {} ∧ t.fab.devn = 0xFFFF ∧
      t.fab.outbox = s.fab.outbox ∧ t.boot = if Config.freeBit s.fresh then .recovery else .running
end

