-- ==== Sys2Proof/Laws/Map.lean ====
section
/-!
SUPPORT. Sparse maps: what a read gives after a write, and that writes keep the canonical form.
-/

namespace Sys2Proof.Machine

variable {β : Type}

/-! ### Reads after writes -/

theorem SMap.get_erase_same (d : β) (m : SMap β) (k : Nat) : SMap.get d (SMap.erase m k) k = d := by
  induction m with
  | nil => rfl
  | cons e m ih =>
    obtain ⟨a, v⟩ := e
    simp only [SMap.erase, List.filter_cons] at ih ⊢
    by_cases h : a = k
    · simpa [h] using ih
    · simpa [h, SMap.get] using ih

theorem SMap.get_filter_of_keep (d : β) (m : SMap β) (q : Nat × β → Bool) (k : Nat) (hq : ∀ v, q (k, v) = true) :
    SMap.get d (m.filter q) k = SMap.get d m k := by
  induction m with
  | nil => rfl
  | cons e m ih =>
    obtain ⟨a, v⟩ := e
    by_cases h : a = k
    · subst h; simp [hq, SMap.get]
    · simp only [List.filter_cons]; split <;> simp [SMap.get, h, ih]

theorem SMap.get_filter_of_drop (d : β) (m : SMap β) (q : Nat × β → Bool) (k : Nat) (hq : ∀ v, q (k, v) = false) :
    SMap.get d (m.filter q) k = d := by
  induction m with
  | nil => rfl
  | cons e m ih =>
    obtain ⟨a, v⟩ := e
    by_cases h : a = k
    · subst h; simp [hq, ih]
    · simp only [List.filter_cons]; split <;> simp [SMap.get, h, ih]

theorem SMap.get_insert (d : β) (m : SMap β) (k j : Nat) (v : β) :
    SMap.get d (SMap.insert m k v) j = if j = k then v else SMap.get d m j := by
  induction m with
  | nil =>
    by_cases h : j = k
    · simp [SMap.insert, SMap.get, h]
    · simp [SMap.insert, SMap.get, h, Ne.symm h]
  | cons e m ih =>
    obtain ⟨a, w⟩ := e
    simp only [SMap.insert]
    split
    · by_cases h : j = k
      · simp [SMap.get, h]
      · simp [SMap.get, h, Ne.symm h]
    · split
      · rename_i h; subst h
        by_cases h : j = k
        · simp [SMap.get, h]
        · simp [SMap.get, h, Ne.symm h]
      · by_cases h : a = j
        · subst h; rename_i h1 h2; simp [SMap.get, Ne.symm h2]
        · simp [SMap.get, h, ih]

/-- What a read gives after a write. -/
theorem SMap.get_set [DecidableEq β] (d : β) (m : SMap β) (k j : Nat) (v : β) :
    SMap.get d (SMap.set d m k v) j = if j = k then v else SMap.get d m j := by
  unfold SMap.set
  split
  · rename_i h
    by_cases hj : j = k
    · subst hj; simp [h, SMap.get_erase_same]
    · simp only [hj, if_false]
      exact SMap.get_filter_of_keep d m _ j (by simp [hj])
  · exact SMap.get_insert d m k j v

@[simp] theorem SMap.get_set_same [DecidableEq β] (d : β) (m : SMap β) (k : Nat) (v : β) :
    SMap.get d (SMap.set d m k v) k = v := by simp [SMap.get_set]

theorem SMap.get_set_other [DecidableEq β] (d : β) (m : SMap β) {k j : Nat} (v : β) (h : j ≠ k) :
    SMap.get d (SMap.set d m k v) j = SMap.get d m j := by simp [SMap.get_set, h]

/-! ### The canonical form -/

/-- Every key lies above `l`. -/
def SMap.Above (l : Nat) (m : SMap β) : Prop := ∀ e ∈ m, l < e.1

theorem SMap.rising_some (l : Nat) (m : SMap β) :
    SMap.rising (some l) m = true ↔ SMap.rising none m = true ∧ SMap.Above l m := by
  induction m generalizing l with
  | nil => simp [SMap.rising, SMap.Above]
  | cons e m ih =>
    obtain ⟨a, v⟩ := e
    simp only [SMap.rising, Bool.and_eq_true, decide_eq_true_eq, SMap.Above, List.mem_cons, forall_eq_or_imp, true_and]
    constructor
    · rintro ⟨h1, h2⟩
      exact ⟨h2, h1, fun e he => Nat.lt_trans h1 (((ih a).1 h2).2 e he)⟩
    · rintro ⟨h2, h1, _⟩
      exact ⟨h1, h2⟩

theorem SMap.rising_cons (a : Nat) (v : β) (m : SMap β) :
    SMap.rising none ((a, v) :: m) = true ↔ SMap.Above a m ∧ SMap.rising none m = true := by
  simp only [SMap.rising, Bool.true_and]
  rw [SMap.rising_some]; exact And.comm

theorem SMap.above_insert {l k : Nat} {v : β} {m : SMap β} (h : SMap.Above l m) (hk : l < k) :
    SMap.Above l (SMap.insert m k v) := by
  induction m with
  | nil => simpa [SMap.insert, SMap.Above] using hk
  | cons e m ih =>
    obtain ⟨a, w⟩ := e
    have h1 : l < a := h _ (List.mem_cons_self ..)
    have h2 : SMap.Above l m := fun e he => h e (List.mem_cons_of_mem _ he)
    have h3 := ih h2
    simp only [SMap.insert]
    split
    · intro e he; rcases List.mem_cons.1 he with rfl | he
      · exact hk
      · exact h e he
    · split
      · intro e he; rcases List.mem_cons.1 he with rfl | he
        · exact hk
        · exact h2 e he
      · intro e he; rcases List.mem_cons.1 he with rfl | he
        · exact h1
        · exact h3 e he

theorem SMap.rising_insert {m : SMap β} (k : Nat) (v : β) (h : SMap.rising none m = true) :
    SMap.rising none (SMap.insert m k v) = true := by
  induction m with
  | nil => simp [SMap.insert, SMap.rising]
  | cons e m ih =>
    obtain ⟨a, w⟩ := e
    obtain ⟨ha, hm⟩ := (SMap.rising_cons a w m).1 h
    simp only [SMap.insert]
    split
    · rename_i hk
      exact (SMap.rising_cons _ _ _).2 ⟨fun e he => by
        rcases List.mem_cons.1 he with rfl | he
        · exact hk
        · exact Nat.lt_trans hk (ha e he), h⟩
    · split
      · rename_i hk; subst hk; exact (SMap.rising_cons _ _ _).2 ⟨ha, hm⟩
      · exact (SMap.rising_cons _ _ _).2 ⟨SMap.above_insert ha (by omega), ih hm⟩

theorem SMap.rising_filter {m : SMap β} (q : Nat × β → Bool) (h : SMap.rising none m = true) :
    SMap.rising none (m.filter q) = true := by
  induction m with
  | nil => rfl
  | cons e m ih =>
    obtain ⟨a, w⟩ := e
    obtain ⟨ha, hm⟩ := (SMap.rising_cons a w m).1 h
    simp only [List.filter_cons]
    split
    · exact (SMap.rising_cons _ _ _).2 ⟨fun e he => ha e (List.mem_filter.1 he).1, ih hm⟩
    · exact ih hm

theorem SMap.mem_insert {m : SMap β} {k : Nat} {v : β} {e : Nat × β} (h : e ∈ SMap.insert m k v) : e = (k, v) ∨ e ∈ m := by
  induction m with
  | nil => left; simpa [SMap.insert] using h
  | cons x m ih =>
    obtain ⟨a, w⟩ := x
    simp only [SMap.insert] at h
    split at h
    · simpa using h
    · split at h
      · rcases List.mem_cons.1 h with h | h
        · exact .inl h
        · exact .inr (List.mem_cons_of_mem _ h)
      · rcases List.mem_cons.1 h with h | h
        · exact .inr (h ▸ List.mem_cons_self ..)
        · exact (ih h).imp id (List.mem_cons_of_mem _)

theorem SMap.wf_iff [DecidableEq β] (d : β) (m : SMap β) :
    SMap.wf d m = true ↔ SMap.rising none m = true ∧ ∀ e ∈ m, e.2 ≠ d := by
  simp [SMap.wf]

/-- Leaving entries out keeps the canonical form. -/
theorem SMap.wf_filter [DecidableEq β] {d : β} {m : SMap β} (q : Nat × β → Bool) (h : SMap.wf d m = true) :
    SMap.wf d (m.filter q) = true := by
  rw [SMap.wf_iff] at *
  exact ⟨SMap.rising_filter q h.1, fun e he => h.2 e (List.mem_filter.1 he).1⟩

/-- A write keeps the canonical form. -/
theorem SMap.wf_set [DecidableEq β] {d : β} {m : SMap β} (k : Nat) (v : β) (h : SMap.wf d m = true) :
    SMap.wf d (SMap.set d m k v) = true := by
  unfold SMap.set
  split
  · exact SMap.wf_filter _ h
  · rename_i hv
    rw [SMap.wf_iff] at *
    refine ⟨SMap.rising_insert k v h.1, fun e he => ?_⟩
    rcases SMap.mem_insert he with rfl | he
    · exact hv
    · exact h.2 e he

theorem SMap.get_of_above {d : β} {m : SMap β} {k : Nat} (h : SMap.Above k m) : SMap.get d m k = d := by
  induction m with
  | nil => rfl
  | cons e m ih =>
    obtain ⟨a, w⟩ := e
    have h1 : k < a := h _ (List.mem_cons_self ..)
    have h2 : a ≠ k := by omega
    simp [SMap.get, h2, ih fun e he => h e (List.mem_cons_of_mem _ he)]

/-- Maps in canonical form that read alike are equal. -/
theorem SMap.ext_of_wf [DecidableEq β] {d : β} {m n : SMap β} (hm : SMap.wf d m = true) (hn : SMap.wf d n = true)
    (h : ∀ k, SMap.get d m k = SMap.get d n k) : m = n := by
  induction m generalizing n with
  | nil =>
    cases n with
    | nil => rfl
    | cons e n =>
      obtain ⟨a, w⟩ := e
      have := h a
      simp only [SMap.get, if_true] at this
      exact absurd this.symm (((SMap.wf_iff _ _).1 hn).2 _ (List.mem_cons_self ..))
  | cons e m ih =>
    obtain ⟨a, w⟩ := e
    obtain ⟨hr, hd⟩ := (SMap.wf_iff _ _).1 hm
    obtain ⟨ha, hm'⟩ := (SMap.rising_cons _ _ _).1 hr
    have hw : w ≠ d := hd _ (List.mem_cons_self ..)
    cases n with
    | nil =>
      have := h a
      simp only [SMap.get, if_true] at this
      exact absurd this hw
    | cons f n =>
      obtain ⟨b, x⟩ := f
      obtain ⟨hr2, hd2⟩ := (SMap.wf_iff _ _).1 hn
      obtain ⟨hb, hn'⟩ := (SMap.rising_cons _ _ _).1 hr2
      have hx : x ≠ d := hd2 _ (List.mem_cons_self ..)
      have hab : a = b := by
        rcases Nat.lt_trichotomy a b with hlt | heq | hlt
        · have := h a
          have h2 : b ≠ a := by omega
          simp only [SMap.get, if_true, h2, if_false] at this
          rw [SMap.get_of_above fun e he => Nat.lt_trans hlt (hb e he)] at this
          exact absurd this hw
        · exact heq
        · have := h b
          have h2 : a ≠ b := by omega
          simp only [SMap.get, if_true, h2, if_false] at this
          rw [SMap.get_of_above fun e he => Nat.lt_trans hlt (ha e he)] at this
          exact absurd this.symm hx
      subst hab
      have hwx : w = x := by simpa [SMap.get] using h a
      subst hwx
      congr 1
      refine ih ((SMap.wf_iff _ _).2 ⟨hm', fun e he => hd e (List.mem_cons_of_mem _ he)⟩)
        ((SMap.wf_iff _ _).2 ⟨hn', fun e he => hd2 e (List.mem_cons_of_mem _ he)⟩) fun k => ?_
      by_cases hk : a = k
      · subst hk; rw [SMap.get_of_above ha, SMap.get_of_above hb]
      · simpa [SMap.get, hk] using h k

end Sys2Proof.Machine
end

