-- ==== Sys2Proof/Laws/Mem.lean ====
section
/-!
SUPPORT. Memory at the homes: what a read of a byte gives after a write, and that every operation of Machine/Mem.lean
keeps memory in its canonical form.
-/

namespace Sys2Proof.Machine

/-! ### Reading after writing (01 R37, 04 R106) -/

/-- After a masked write of `n` bytes from `a`, a byte reads as written when the mask names it, and as before otherwise. -/
theorem writeMasked_get (n : Nat) : ∀ (m : List Host.Cell) (a v mask b : Nat),
    SMap.get emptyByte (writeMasked n m a v mask) b =
      if a ≤ b ∧ b < a + n ∧ mask.testBit (b - a) = true then BitVec.ofNat 8 (v >>> (8 * (b - a))) else SMap.get emptyByte m b := by
  induction n with
  | zero => intro m a v mask b; rw [if_neg (by omega)]; rfl
  | succ n ih =>
    intro m a v mask b
    rw [writeMasked, ih]
    by_cases h : b = a
    · subst h
      rw [if_neg (by omega)]
      by_cases hm : mask % 2 = 1
      · rw [if_pos hm, SMap.get_set, if_pos rfl, if_pos ⟨Nat.le_refl _, by omega, by simp [Nat.testBit_zero, hm]⟩]
        simp
      · rw [if_neg hm, if_neg]
        rintro ⟨-, -, h2⟩
        simp [Nat.testBit_zero, hm] at h2
    · have hs : SMap.get emptyByte (if mask % 2 = 1 then SMap.set emptyByte m a (BitVec.ofNat 8 v) else m) b = SMap.get emptyByte m b := by
        split
        · rw [SMap.get_set, if_neg h]
        · rfl
      rw [hs]
      by_cases hb : a ≤ b
      · obtain ⟨d, rfl⟩ : ∃ d, b = a + 1 + d := ⟨b - a - 1, by omega⟩
        have e1 : a + 1 + d - (a + 1) = d := by omega
        have e2 : a + 1 + d - a = d + 1 := by omega
        rw [e1, e2, Nat.testBit_succ]
        have e3 : (v / 256) >>> (8 * d) = v >>> (8 * (d + 1)) := by
          rw [show 8 * (d + 1) = 8 + 8 * d by omega, Nat.shiftRight_add, Nat.shiftRight_eq_div_pow v 8, show (2 : Nat) ^ 8 = 256 from rfl]
        rw [e3]
        congr 1
        apply propext
        constructor <;> rintro ⟨-, h1, h2⟩ <;> exact ⟨by omega, by omega, h2⟩
      · rw [if_neg (by omega), if_neg (by omega)]

/-- What the expansion of a pack reads as: each byte as it read before. -/
theorem MemSys.expanded_get (ms : MemSys) (a b : Nat) (h : b / 256 = a / 256) : SMap.get emptyByte (ms.expanded a) b = ms.byte b := by
  unfold MemSys.expanded MemSys.byte
  by_cases hb : ms.absent b = true
  · rw [SMap.get_filter_of_drop _ _ _ _ fun v => by simp [h, hb], if_pos hb]; rfl
  · rw [SMap.get_filter_of_keep _ _ _ _ fun v => by simp [hb], if_neg hb]

theorem MemSys.expanded_get_other (ms : MemSys) (a b : Nat) (h : b / 256 ≠ a / 256) :
    SMap.get emptyByte (ms.expanded a) b = SMap.get emptyByte ms.mem b :=
  SMap.get_filter_of_keep _ _ _ _ fun v => by simp [h]

/-- What a byte reads as after a write within one pack. -/
theorem MemSys.put_byte (ms : MemSys) (a n v mask : Nat) (packed bad : Bool) (b : Nat) (h : a % 256 + n ≤ 256) :
    (ms.put a n v mask packed bad).byte b =
      if a ≤ b ∧ b < a + n ∧ mask.testBit (b - a) = true then BitVec.ofNat 8 (v >>> (8 * (b - a))) else ms.byte b := by
  obtain ⟨hm, hd, ht⟩ : (ms.put a n v mask packed bad).mem = writeMasked n (ms.expanded a) a v mask ∧
      (∃ x, (ms.put a n v mask packed bad).dirtyPacks = SMap.insert ms.dirtyPacks (a / 256) (some x)) ∧
      (ms.put a n v mask packed bad).tags = ms.tags := by
    unfold MemSys.put MemSys.setPoison
    dsimp only
    split
    · exact ⟨rfl, ⟨_, rfl⟩, rfl⟩
    · split <;> exact ⟨rfl, ⟨_, rfl⟩, rfl⟩
  obtain ⟨x, hd⟩ := hd
  by_cases hp : b / 256 = a / 256
  · have hb : (ms.put a n v mask packed bad).absent b = false := by simp [MemSys.absent, hd, SMap.get_insert, hp]
    rw [MemSys.byte, if_neg (by simp [hb]), hm, writeMasked_get, MemSys.expanded_get _ _ _ hp]
  · have hb : (ms.put a n v mask packed bad).absent b = ms.absent b := by simp [MemSys.absent, hd, SMap.get_insert, hp, ht]
    have hn : ¬ (a ≤ b ∧ b < a + n ∧ mask.testBit (b - a) = true) := fun h' => hp (by omega)
    rw [MemSys.byte, hb, hm, writeMasked_get, if_neg hn, if_neg hn, MemSys.expanded_get_other _ _ _ hp, MemSys.byte]

/-! ### The canonical form -/

@[simp] theorem MemSys.ok_mk (mem poison tags dirtyPacks rawPacks l1 wc icache bec tlb tlb2 walk invals nextInval targets moors part l2busy l2ref
    l2mfull rr rrCount l2 misses cows psub corrected) :
    (MemSys.mk mem poison tags dirtyPacks rawPacks l1 wc icache bec tlb tlb2 walk invals nextInval targets moors part l2busy l2ref
      l2mfull rr rrCount l2 misses cows psub corrected).Ok ↔ Memory.wf mem = true := Iff.rfl

/-- Memory after reset. -/
theorem reset_memory_ok : State.reset.ms.Ok := rfl

theorem mem_of_ok {ms : MemSys} (h : ms.Ok) : Memory.wf ms.mem = true := h

theorem MemSys.Ok.of_eq {α : Type} {p : MemSys × α} {m : MemSys} {a : α} (h : p = (m, a)) (hp : p.1.Ok) : m.Ok := by subst h; exact hp

theorem foldl_ms_ok {α : Type} {f : MemSys → α → MemSys} {ms : MemSys} {l : List α} (hf : ∀ m x, MemSys.Ok m → (f m x).Ok)
    (h : ms.Ok) : (l.foldl f ms).Ok := by
  induction l generalizing ms with
  | nil => exact h
  | cons x l ih => exact ih (hf _ _ h)

theorem foldl_ms_fst_ok {α β : Type} {f : MemSys × β → α → MemSys × β} {r : MemSys × β} {l : List α}
    (hf : ∀ m x, MemSys.Ok m.1 → (f m x).1.Ok) (h : r.1.Ok) : (l.foldl f r).1.Ok := by
  induction l generalizing r with
  | nil => exact h
  | cons x l ih => exact ih (hf _ _ h)

theorem memory_wf_set {m : List Host.Cell} (a : Nat) (v : BitVec 8) (h : Memory.wf m = true) :
    Memory.wf (SMap.set emptyByte m a v) = true := SMap.wf_set a v h

theorem memory_wf_filter {m : List Host.Cell} (q : Host.Cell → Bool) (h : Memory.wf m = true) : Memory.wf (m.filter q) = true :=
  SMap.wf_filter q h

theorem memory_wf_foldl {α : Type} {f : List Host.Cell → α → List Host.Cell} {m : List Host.Cell} {l : List α}
    (hf : ∀ m x, Memory.wf m = true → Memory.wf (f m x) = true) (h : Memory.wf m = true) : Memory.wf (l.foldl f m) = true := by
  induction l generalizing m with
  | nil => exact h
  | cons x l ih => exact ih (hf _ _ h)

theorem memory_wf_writeMasked {m : List Host.Cell} (n a v mask : Nat) (h : Memory.wf m = true) :
    Memory.wf (writeMasked n m a v mask) = true := by
  induction n generalizing m a v mask with
  | zero => exact h
  | succ n ih => unfold writeMasked; apply ih; split <;> simp [h, memory_wf_set]

theorem ite_ms_ok {c : Prop} [Decidable c] {a b : MemSys} (ha : a.Ok) (hb : b.Ok) : (if c then a else b).Ok := by split <;> assumption

theorem ite_ms_fst_ok {α : Type} {c : Prop} [Decidable c] {a b : MemSys × α} (ha : a.1.Ok) (hb : b.1.Ok) :
    (if c then a else b).1.Ok := by split <;> assumption

theorem ite_wf {c : Prop} [Decidable c] {a b : List Host.Cell} (ha : Memory.wf a = true) (hb : Memory.wf b = true) :
    Memory.wf (if c then a else b) = true := by split <;> assumption

/-! ### Every operation of Machine/Mem.lean keeps it -/

theorem expanded_ok (ms : MemSys) (a : Nat) (hms : ms.Ok) : Memory.wf (ms.expanded a) = true := memory_wf_filter _ hms

theorem MemSys.setPoison_ok (ms : MemSys) (a : Nat) (p : Bool) (hms : ms.Ok) :
    (MemSys.setPoison ms a p).Ok := by
  unfold MemSys.setPoison
  repeat' first
    | with_reducible assumption | with_reducible intro _ | with_reducible apply memory_wf_set
    | with_reducible apply memory_wf_filter | with_reducible apply memory_wf_writeMasked | with_reducible apply mem_of_ok
    | with_reducible refine MemSys.Ok.of_eq (by with_reducible assumption) ?_ | simp only [MemSys.ok_mk] | split | dsimp only

theorem MemSys.put_ok (ms : MemSys) (a : Nat) (n : Nat) (v : Nat) (mask : Nat) (packed : Bool) (bad : Bool) (hms : ms.Ok) :
    (MemSys.put ms a n v mask packed bad).Ok := by
  unfold MemSys.put
  repeat' first
    | with_reducible assumption | with_reducible intro _ | with_reducible apply MemSys.setPoison_ok
    | with_reducible apply expanded_ok | with_reducible apply memory_wf_set | with_reducible apply memory_wf_filter
    | with_reducible apply memory_wf_writeMasked | with_reducible apply mem_of_ok
    | with_reducible refine MemSys.Ok.of_eq (by with_reducible assumption) ?_ | simp only [MemSys.ok_mk] | split | dsimp only

theorem MemSys.merge_ok (ms : MemSys) (line : Nat) (v : Block) (bits : Block) (packed : Bool) (bad : Bool) (hms : ms.Ok) :
    (MemSys.merge ms line v bits packed bad).Ok := by
  unfold MemSys.merge
  repeat' first
    | with_reducible assumption | with_reducible intro _ | with_reducible apply MemSys.put_ok
    | with_reducible apply mem_of_ok | with_reducible refine MemSys.Ok.of_eq (by with_reducible assumption) ?_
    | simp only [MemSys.ok_mk] | split | dsimp only

theorem MemSys.putLine_ok (ms : MemSys) (l : L1Line) (hms : ms.Ok) :
    (MemSys.putLine ms l).Ok := by
  unfold MemSys.putLine
  repeat' first
    | with_reducible assumption | with_reducible intro _ | with_reducible apply MemSys.merge_ok
    | with_reducible apply MemSys.put_ok | with_reducible apply mem_of_ok
    | with_reducible refine MemSys.Ok.of_eq (by with_reducible assumption) ?_ | simp only | split | dsimp only

theorem MemSys.setLines_ok (ms : MemSys) (core : Nat) (ls : List L1Line) (hms : ms.Ok) :
    (MemSys.setLines ms core ls).Ok := by
  unfold MemSys.setLines
  repeat' first
    | with_reducible assumption | with_reducible intro _ | with_reducible apply mem_of_ok
    | with_reducible refine MemSys.Ok.of_eq (by with_reducible assumption) ?_ | simp only [MemSys.ok_mk] | split | dsimp only

theorem MemSys.expelWith_ok (f : Nat → MemSys → L1Line → MemSys) (ms : MemSys) (line : Nat) (own : Option Nat) (hf : (∀
    (y0 : Nat) (y1 : MemSys) (y2 : L1Line), y1.Ok → (f y0 y1 y2).Ok)) (hms : ms.Ok) :
    (MemSys.expelWith f ms line own).Ok := by
  unfold MemSys.expelWith
  repeat' first
    | with_reducible assumption | with_reducible intro _ | with_reducible apply MemSys.setLines_ok | with_reducible apply hf
    | with_reducible apply foldl_ms_ok | with_reducible apply foldl_ms_fst_ok | with_reducible apply memory_wf_foldl
    | with_reducible apply memory_wf_set | with_reducible apply memory_wf_filter | with_reducible apply memory_wf_writeMasked
    | with_reducible apply mem_of_ok | with_reducible refine MemSys.Ok.of_eq (by with_reducible assumption) ?_
    | simp only | split | dsimp only

theorem MemSys.packWrite_ok (ms : MemSys) (p : Nat) (hms : ms.Ok) :
    (MemSys.packWrite ms p).Ok := by
  unfold MemSys.packWrite
  repeat' first
    | with_reducible assumption | with_reducible intro _ | with_reducible apply foldl_ms_ok
    | with_reducible apply foldl_ms_fst_ok | with_reducible apply memory_wf_foldl | with_reducible apply memory_wf_set
    | with_reducible apply memory_wf_filter | with_reducible apply memory_wf_writeMasked | with_reducible apply mem_of_ok
    | with_reducible refine MemSys.Ok.of_eq (by with_reducible assumption) ?_ | simp only [MemSys.ok_mk] | split | dsimp only

theorem MemSys.setSlice_ok (ms : MemSys) (sl : Nat) (ls : List L2Line) (hms : ms.Ok) :
    (MemSys.setSlice ms sl ls).Ok := by
  unfold MemSys.setSlice
  repeat' first
    | with_reducible assumption | with_reducible intro _ | with_reducible apply mem_of_ok
    | with_reducible refine MemSys.Ok.of_eq (by with_reducible assumption) ?_ | simp only [MemSys.ok_mk] | split | dsimp only

theorem MemSys.evict_ok (ms : MemSys) (sl : Nat) (line : Nat) (hms : ms.Ok) :
    (MemSys.evict ms sl line).Ok := by
  unfold MemSys.evict
  repeat' first
    | with_reducible assumption | with_reducible intro _ | with_reducible apply MemSys.setSlice_ok
    | with_reducible apply MemSys.packWrite_ok | with_reducible apply MemSys.expelWith_ok
    | with_reducible apply MemSys.putLine_ok | with_reducible apply memory_wf_set | with_reducible apply memory_wf_filter
    | with_reducible apply memory_wf_writeMasked | with_reducible apply mem_of_ok
    | with_reducible refine MemSys.Ok.of_eq (by with_reducible assumption) ?_ | simp only [MemSys.ok_mk] | split | dsimp only

theorem MemSys.makeWay_ok (ms : MemSys) (sl : Nat) (line : Nat) (cls : Option Nat) (hms : ms.Ok) :
    (MemSys.makeWay ms sl line cls).1.Ok := by
  unfold MemSys.makeWay
  repeat' first
    | with_reducible assumption | with_reducible intro _ | with_reducible apply MemSys.evict_ok
    | with_reducible apply memory_wf_set | with_reducible apply memory_wf_filter | with_reducible apply memory_wf_writeMasked
    | with_reducible apply mem_of_ok | with_reducible refine MemSys.Ok.of_eq (by with_reducible assumption) ?_
    | simp only | split | dsimp only

theorem MemSys.occupy_ok (sl : Nat) (cls : Option Nat) (ms : MemSys) (line : Nat) (hms : ms.Ok) :
    (MemSys.occupy sl cls ms line).Ok := by
  unfold MemSys.occupy
  repeat' first
    | with_reducible assumption | with_reducible intro _ | with_reducible apply MemSys.makeWay_ok
    | with_reducible apply MemSys.setSlice_ok | with_reducible apply memory_wf_set | with_reducible apply memory_wf_filter
    | with_reducible apply memory_wf_writeMasked | with_reducible apply mem_of_ok
    | with_reducible refine MemSys.Ok.of_eq (by with_reducible assumption) ?_ | simp only | split | dsimp only

theorem MemSys.classOf_ok (count : Bool) (ms : MemSys) (sl : Nat) (pa : Nat) (a4 : List Nat) (hms : ms.Ok) :
    (MemSys.classOf count ms sl pa a4).1.Ok := by
  induction a4 generalizing count ms sl pa with
  | nil =>
    unfold MemSys.classOf
    repeat' first
      | with_reducible assumption | with_reducible intro _ | dsimp only | with_reducible apply ih
      | with_reducible apply mem_of_ok | with_reducible refine MemSys.Ok.of_eq (by with_reducible assumption) ?_
      | simp only [MemSys.ok_mk] | split
  | cons x l ih =>
    unfold MemSys.classOf
    repeat' first
      | with_reducible assumption | with_reducible intro _ | dsimp only | with_reducible apply ih
      | with_reducible apply mem_of_ok | with_reducible refine MemSys.Ok.of_eq (by with_reducible assumption) ?_
      | simp only [MemSys.ok_mk] | split

theorem MemSys.leavePartitions_ok (ms : MemSys) (die : Nat) (line : Nat) (hms : ms.Ok) :
    (MemSys.leavePartitions ms die line).Ok := by
  unfold MemSys.leavePartitions
  repeat' first
    | with_reducible assumption | with_reducible intro _ | with_reducible apply MemSys.packWrite_ok
    | with_reducible apply memory_wf_set | with_reducible apply memory_wf_filter | with_reducible apply memory_wf_writeMasked
    | with_reducible apply mem_of_ok | with_reducible refine MemSys.Ok.of_eq (by with_reducible assumption) ?_
    | simp only [MemSys.ok_mk] | split | dsimp only

theorem MemSys.freshPack_ok (ms : MemSys) (sl : Nat) (p : Nat) (hms : ms.Ok) :
    (MemSys.freshPack ms sl p).Ok := by
  unfold MemSys.freshPack
  repeat' first
    | with_reducible assumption | with_reducible intro _ | with_reducible apply memory_wf_set
    | with_reducible apply memory_wf_filter | with_reducible apply memory_wf_writeMasked | with_reducible apply mem_of_ok
    | with_reducible refine MemSys.Ok.of_eq (by with_reducible assumption) ?_ | simp only [MemSys.ok_mk] | split | dsimp only

theorem MemSys.reach_ok (count : Bool) (ms : MemSys) (die : Nat) (pa : Nat) (th : Bool) (write : Bool) (hms : ms.Ok) :
    (MemSys.reach count ms die pa th write).Ok := by
  unfold MemSys.reach
  repeat' first
    | with_reducible assumption | with_reducible intro _ | with_reducible apply MemSys.freshPack_ok
    | with_reducible apply MemSys.leavePartitions_ok | with_reducible apply MemSys.classOf_ok
    | with_reducible apply MemSys.occupy_ok | with_reducible apply foldl_ms_ok | with_reducible apply foldl_ms_fst_ok
    | with_reducible apply memory_wf_foldl | with_reducible apply memory_wf_set | with_reducible apply memory_wf_filter
    | with_reducible apply memory_wf_writeMasked | with_reducible apply mem_of_ok
    | with_reducible refine MemSys.Ok.of_eq (by with_reducible assumption) ?_ | simp only | split | dsimp only

theorem MemSys.visit_ok (ms : MemSys) (die : Nat) (pa : Nat) (th : Bool) (write : Bool) (hms : ms.Ok) :
    (MemSys.visit ms die pa th write).Ok := by
  unfold MemSys.visit
  repeat' first
    | with_reducible assumption | with_reducible intro _ | with_reducible apply MemSys.reach_ok
    | with_reducible apply mem_of_ok | with_reducible refine MemSys.Ok.of_eq (by with_reducible assumption) ?_
    | simp only [MemSys.ok_mk] | split | dsimp only

theorem MemSys.claim_ok (ms : MemSys) (die : Nat) (pa : Nat) (th : Bool) (hms : ms.Ok) :
    (MemSys.claim ms die pa th).Ok := by
  unfold MemSys.claim
  repeat' first
    | with_reducible assumption | with_reducible intro _ | with_reducible apply MemSys.reach_ok
    | with_reducible apply mem_of_ok | with_reducible refine MemSys.Ok.of_eq (by with_reducible assumption) ?_
    | simp only [MemSys.ok_mk] | split | dsimp only

theorem MemSys.fillPack_ok (ms : MemSys) (p : Nat) (hms : ms.Ok) :
    (MemSys.fillPack ms p).Ok := by
  unfold MemSys.fillPack
  repeat' first
    | with_reducible assumption | with_reducible intro _ | with_reducible apply MemSys.occupy_ok
    | with_reducible apply foldl_ms_ok | with_reducible apply foldl_ms_fst_ok | with_reducible apply memory_wf_foldl
    | with_reducible apply memory_wf_set | with_reducible apply memory_wf_filter | with_reducible apply memory_wf_writeMasked
    | with_reducible apply mem_of_ok | with_reducible refine MemSys.Ok.of_eq (by with_reducible assumption) ?_
    | simp only [MemSys.ok_mk] | split | dsimp only

theorem MemSys.putHome_ok (ms : MemSys) (a : Nat) (n : Nat) (v : Nat) (mask : Nat) (packed : Bool) (bad : Bool)
    (hms : ms.Ok) :
    (MemSys.putHome ms a n v mask packed bad).Ok := by
  unfold MemSys.putHome
  repeat' first
    | with_reducible assumption | with_reducible intro _ | with_reducible apply MemSys.fillPack_ok
    | with_reducible apply MemSys.put_ok | with_reducible apply mem_of_ok
    | with_reducible refine MemSys.Ok.of_eq (by with_reducible assumption) ?_ | simp only | split | dsimp only

theorem MemSys.sendLine_ok (core : Nat) (ms : MemSys) (l : L1Line) (hms : ms.Ok) :
    (MemSys.sendLine core ms l).Ok := by
  unfold MemSys.sendLine
  repeat' first
    | with_reducible assumption | with_reducible intro _ | with_reducible apply MemSys.fillPack_ok
    | with_reducible apply MemSys.visit_ok | with_reducible apply MemSys.putLine_ok | with_reducible apply mem_of_ok
    | with_reducible refine MemSys.Ok.of_eq (by with_reducible assumption) ?_ | simp only | split | dsimp only

theorem MemSys.expel_ok (ms : MemSys) (line : Nat) (own : Option Nat) (hms : ms.Ok) :
    (MemSys.expel ms line own).Ok := by
  unfold MemSys.expel
  repeat' first
    | with_reducible assumption | with_reducible intro _ | with_reducible apply MemSys.sendLine_ok
    | with_reducible apply MemSys.expelWith_ok | with_reducible apply mem_of_ok
    | with_reducible refine MemSys.Ok.of_eq (by with_reducible assumption) ?_ | simp only [MemSys.ok_mk] | split | dsimp only

theorem MemSys.flushLine_ok (core : Nat) (drop : Bool) (ms : MemSys) (l : L1Line) (hms : ms.Ok) :
    (MemSys.flushLine core drop ms l).Ok := by
  unfold MemSys.flushLine
  repeat' first
    | with_reducible assumption | with_reducible intro _ | with_reducible apply MemSys.expel_ok
    | with_reducible apply MemSys.sendLine_ok | with_reducible apply MemSys.setLines_ok | with_reducible apply memory_wf_set
    | with_reducible apply memory_wf_filter | with_reducible apply memory_wf_writeMasked | with_reducible apply mem_of_ok
    | with_reducible refine MemSys.Ok.of_eq (by with_reducible assumption) ?_ | simp only [MemSys.ok_mk] | split | dsimp only

theorem MemSys.flushWhere_ok (ms : MemSys) (core : Nat) (p : L1Line → Bool) (drop : Bool) (hms : ms.Ok) :
    (MemSys.flushWhere ms core p drop).Ok := by
  unfold MemSys.flushWhere
  repeat' first
    | with_reducible assumption | with_reducible intro _ | with_reducible apply MemSys.flushLine_ok
    | with_reducible apply foldl_ms_ok | with_reducible apply foldl_ms_fst_ok | with_reducible apply memory_wf_foldl
    | with_reducible apply memory_wf_set | with_reducible apply memory_wf_filter | with_reducible apply memory_wf_writeMasked
    | with_reducible apply mem_of_ok | with_reducible refine MemSys.Ok.of_eq (by with_reducible assumption) ?_
    | simp only [MemSys.ok_mk] | split | dsimp only

theorem MemSys.recall_ok (ms : MemSys) (line : Nat) (hms : ms.Ok) :
    (MemSys.recall ms line).Ok := by
  unfold MemSys.recall
  repeat' first
    | with_reducible assumption | with_reducible intro _ | with_reducible apply MemSys.flushWhere_ok
    | with_reducible apply foldl_ms_ok | with_reducible apply foldl_ms_fst_ok | with_reducible apply memory_wf_foldl
    | with_reducible apply mem_of_ok | with_reducible refine MemSys.Ok.of_eq (by with_reducible assumption) ?_
    | simp only [MemSys.ok_mk] | split | dsimp only

theorem MemSys.refresh_ok (ms : MemSys) (core : Nat) (line : Nat) (hms : ms.Ok) :
    (MemSys.refresh ms core line).Ok := by
  unfold MemSys.refresh
  repeat' first
    | with_reducible assumption | with_reducible intro _ | with_reducible apply MemSys.setLines_ok
    | with_reducible apply mem_of_ok | with_reducible refine MemSys.Ok.of_eq (by with_reducible assumption) ?_
    | simp only | split | dsimp only

theorem MemSys.cacheWindows_ok (ms : MemSys) (tn : Nat) (mid : Nat) (hms : ms.Ok) :
    (MemSys.cacheWindows ms tn mid).Ok := by
  unfold MemSys.cacheWindows
  repeat' first
    | with_reducible assumption | with_reducible intro _ | with_reducible apply MemSys.recall_ok
    | with_reducible apply MemSys.visit_ok | with_reducible apply foldl_ms_ok | with_reducible apply foldl_ms_fst_ok
    | with_reducible apply memory_wf_foldl | with_reducible apply mem_of_ok
    | with_reducible refine MemSys.Ok.of_eq (by with_reducible assumption) ?_ | simp only [MemSys.ok_mk] | split | dsimp only

theorem MemSys.deny_ok (ms : MemSys) (tn : Nat) (mid : Nat) (pa : Nat) (k : AccessKind) (unpop : Bool) (hms : ms.Ok) :
    (MemSys.deny ms tn mid pa k unpop).Ok := by
  unfold MemSys.deny
  repeat' first
    | with_reducible assumption | with_reducible intro _ | with_reducible apply mem_of_ok
    | with_reducible refine MemSys.Ok.of_eq (by with_reducible assumption) ?_ | simp only [MemSys.ok_mk] | split | dsimp only

theorem MemSys.check_ok (ms : MemSys) (die : Nat) (mid : Nat) (pa : Nat) (k : AccessKind) (th : Bool) (hms : ms.Ok) :
    (MemSys.check ms die mid pa k th).1.Ok := by
  unfold MemSys.check
  repeat' first
    | with_reducible assumption | with_reducible intro _ | with_reducible apply MemSys.deny_ok
    | with_reducible apply MemSys.cacheWindows_ok | with_reducible apply mem_of_ok
    | with_reducible refine MemSys.Ok.of_eq (by with_reducible assumption) ?_ | simp only | split | dsimp only

theorem MemSys.substitute_ok (ms : MemSys) (hms : ms.Ok) :
    (MemSys.substitute ms).Ok := by
  unfold MemSys.substitute
  repeat' first
    | with_reducible assumption | with_reducible intro _ | with_reducible apply mem_of_ok
    | with_reducible refine MemSys.Ok.of_eq (by with_reducible assumption) ?_ | simp only [MemSys.ok_mk] | split | dsimp only

theorem homeRead_ok (ms : MemSys) (w : Who) (x : Xlat) (pa : Nat) (n : Nat) (path : Nat) (kind : AccessKind) (hms : ms.Ok) :
    (homeRead ms w x pa n path kind).1.Ok := by
  unfold homeRead
  repeat' first
    | with_reducible assumption | with_reducible intro _ | with_reducible apply MemSys.substitute_ok
    | with_reducible apply MemSys.check_ok | with_reducible apply MemSys.recall_ok | with_reducible apply MemSys.visit_ok
    | with_reducible apply mem_of_ok | with_reducible refine MemSys.Ok.of_eq (by with_reducible assumption) ?_
    | simp only | split | dsimp only

theorem MemSys.openHome_ok (ms : MemSys) (die : Nat) (pa : Nat) (th : Bool) (own : Option Nat) (hms : ms.Ok) :
    (MemSys.openHome ms die pa th own).Ok := by
  unfold MemSys.openHome
  repeat' first
    | with_reducible assumption | with_reducible intro _ | with_reducible apply MemSys.expel_ok
    | with_reducible apply MemSys.visit_ok | with_reducible apply mem_of_ok
    | with_reducible refine MemSys.Ok.of_eq (by with_reducible assumption) ?_ | simp only [MemSys.ok_mk] | split | dsimp only

theorem MemSys.claimHome_ok (ms : MemSys) (die : Nat) (pa : Nat) (th : Bool) (own : Option Nat) (hms : ms.Ok) :
    (MemSys.claimHome ms die pa th own).Ok := by
  unfold MemSys.claimHome
  repeat' first
    | with_reducible assumption | with_reducible intro _ | with_reducible apply MemSys.expel_ok
    | with_reducible apply MemSys.claim_ok | with_reducible apply mem_of_ok
    | with_reducible refine MemSys.Ok.of_eq (by with_reducible assumption) ?_ | simp only [MemSys.ok_mk] | split | dsimp only

theorem homeWrite_ok (ms : MemSys) (w : Who) (x : Xlat) (pa : Nat) (n : Nat) (v : Nat) (mask : Nat) (path : Nat)
    (bad : Bool) (hms : ms.Ok) :
    (homeWrite ms w x pa n v mask path bad).1.Ok := by
  unfold homeWrite
  repeat' first
    | with_reducible assumption | with_reducible intro _ | with_reducible apply MemSys.openHome_ok
    | with_reducible apply MemSys.check_ok | with_reducible apply MemSys.refresh_ok | with_reducible apply MemSys.putHome_ok
    | with_reducible apply mem_of_ok | with_reducible refine MemSys.Ok.of_eq (by with_reducible assumption) ?_
    | simp only | split | dsimp only

theorem MemSys.leave_ok (core : Nat) (ms : MemSys) (e : WcEntry) (hms : ms.Ok) :
    (MemSys.leave core ms e).Ok := by
  unfold MemSys.leave
  repeat' first
    | with_reducible assumption | with_reducible intro _ | with_reducible apply MemSys.openHome_ok
    | with_reducible apply MemSys.refresh_ok | with_reducible apply MemSys.fillPack_ok | with_reducible apply MemSys.merge_ok
    | with_reducible apply mem_of_ok | with_reducible refine MemSys.Ok.of_eq (by with_reducible assumption) ?_
    | simp only [MemSys.ok_mk] | split | dsimp only

theorem MemSys.drainWhere_ok (ms : MemSys) (core : Nat) (p : WcEntry → Bool) (hms : ms.Ok) :
    (MemSys.drainWhere ms core p).Ok := by
  unfold MemSys.drainWhere
  repeat' first
    | with_reducible assumption | with_reducible intro _ | with_reducible apply MemSys.leave_ok
    | with_reducible apply foldl_ms_ok | with_reducible apply foldl_ms_fst_ok | with_reducible apply memory_wf_foldl
    | with_reducible apply memory_wf_set | with_reducible apply memory_wf_filter | with_reducible apply memory_wf_writeMasked
    | with_reducible apply mem_of_ok | with_reducible refine MemSys.Ok.of_eq (by with_reducible assumption) ?_
    | simp only [MemSys.ok_mk] | split | dsimp only

theorem MemSys.drainWc_ok (ms : MemSys) (core : Nat) (hms : ms.Ok) :
    (MemSys.drainWc ms core).Ok := by
  unfold MemSys.drainWc
  repeat' first
    | with_reducible assumption | with_reducible intro _ | with_reducible apply MemSys.drainWhere_ok
    | with_reducible apply mem_of_ok | with_reducible refine MemSys.Ok.of_eq (by with_reducible assumption) ?_
    | simp only [MemSys.ok_mk] | split | dsimp only

theorem MemSys.room_ok (ms : MemSys) (core : Nat) (n : Nat) (line : Nat) (hms : ms.Ok) :
    (MemSys.room ms core n line).1.Ok := by
  unfold MemSys.room
  repeat' first
    | with_reducible assumption | with_reducible intro _ | with_reducible apply MemSys.flushWhere_ok
    | with_reducible apply mem_of_ok | with_reducible refine MemSys.Ok.of_eq (by with_reducible assumption) ?_
    | simp only | split | dsimp only

theorem MemSys.touch_ok (ms : MemSys) (core : Nat) (l : L1Line) (hms : ms.Ok) :
    (MemSys.touch ms core l).Ok := by
  unfold MemSys.touch
  repeat' first
    | with_reducible assumption | with_reducible intro _ | with_reducible apply MemSys.setLines_ok
    | with_reducible apply memory_wf_set | with_reducible apply memory_wf_filter | with_reducible apply memory_wf_writeMasked
    | with_reducible apply mem_of_ok | with_reducible refine MemSys.Ok.of_eq (by with_reducible assumption) ?_
    | simp only [MemSys.ok_mk] | split | dsimp only

theorem MemSys.shareOthers_ok (ms : MemSys) (core : Nat) (line : Nat) (hms : ms.Ok) :
    (MemSys.shareOthers ms core line).Ok := by
  unfold MemSys.shareOthers
  repeat' first
    | with_reducible assumption | with_reducible intro _ | with_reducible apply mem_of_ok
    | with_reducible refine MemSys.Ok.of_eq (by with_reducible assumption) ?_ | simp only [MemSys.ok_mk] | split | dsimp only

theorem MemSys.fill_ok (ms : MemSys) (core : Nat) (n : Nat) (leaf : BitVec 64) (line : Nat) (excl : Bool) (hms : ms.Ok) :
    (MemSys.fill ms core n leaf line excl).1.Ok := by
  unfold MemSys.fill
  repeat' first
    | with_reducible assumption | with_reducible intro _ | with_reducible apply MemSys.shareOthers_ok
    | with_reducible apply MemSys.touch_ok | with_reducible apply MemSys.room_ok | with_reducible apply MemSys.recall_ok
    | with_reducible apply MemSys.expel_ok | with_reducible apply MemSys.visit_ok | with_reducible apply mem_of_ok
    | with_reducible refine MemSys.Ok.of_eq (by with_reducible assumption) ?_ | simp only [MemSys.ok_mk] | split | dsimp only

theorem cachedLoad_ok (ms : MemSys) (w : Who) (ways : Nat) (x : Xlat) (pa : Nat) (n : Nat) (path : Nat) (hms : ms.Ok) :
    (cachedLoad ms w ways x pa n path).1.Ok := by
  unfold cachedLoad
  repeat' first
    | with_reducible assumption | with_reducible intro _ | with_reducible apply MemSys.fill_ok
    | with_reducible apply MemSys.touch_ok | with_reducible apply MemSys.drainWhere_ok
    | with_reducible apply MemSys.substitute_ok | with_reducible apply MemSys.check_ok
    | with_reducible apply MemSys.flushWhere_ok | with_reducible apply mem_of_ok
    | with_reducible refine MemSys.Ok.of_eq (by with_reducible assumption) ?_ | simp only | split | dsimp only

theorem MemSys.combine_ok (ms : MemSys) (core : Nat) (line : Nat) (data : Block) (bits : Block) (packed : Bool)
    (th : Bool) (hms : ms.Ok) :
    (MemSys.combine ms core line data bits packed th).Ok := by
  unfold MemSys.combine
  repeat' first
    | with_reducible assumption | with_reducible intro _ | with_reducible apply MemSys.drainWhere_ok
    | with_reducible apply mem_of_ok | with_reducible refine MemSys.Ok.of_eq (by with_reducible assumption) ?_
    | simp only [MemSys.ok_mk] | split | dsimp only

theorem MemSys.uncombine_ok (ms : MemSys) (core : Nat) (line : Nat) (bits : Block) (hms : ms.Ok) :
    (MemSys.uncombine ms core line bits).Ok := by
  unfold MemSys.uncombine
  repeat' first
    | with_reducible assumption | with_reducible intro _ | with_reducible apply memory_wf_set
    | with_reducible apply memory_wf_filter | with_reducible apply memory_wf_writeMasked | with_reducible apply mem_of_ok
    | with_reducible refine MemSys.Ok.of_eq (by with_reducible assumption) ?_ | simp only [MemSys.ok_mk] | split | dsimp only

theorem cachedStoreBits_ok (ms : MemSys) (w : Who) (ways : Nat) (x : Xlat) (pa : Nat) (data : Block) (bits : Block)
    (path : Nat) (hms : ms.Ok) :
    (cachedStoreBits ms w ways x pa data bits path).1.Ok := by
  unfold cachedStoreBits
  repeat' first
    | with_reducible assumption | with_reducible intro _ | with_reducible apply MemSys.uncombine_ok
    | with_reducible apply MemSys.combine_ok | with_reducible apply MemSys.fill_ok | with_reducible apply MemSys.touch_ok
    | with_reducible apply MemSys.check_ok | with_reducible apply MemSys.recall_ok
    | with_reducible apply MemSys.flushWhere_ok | with_reducible apply MemSys.expel_ok | with_reducible apply mem_of_ok
    | with_reducible refine MemSys.Ok.of_eq (by with_reducible assumption) ?_ | simp only | split | dsimp only

theorem cachedStore_ok (ms : MemSys) (w : Who) (ways : Nat) (x : Xlat) (pa : Nat) (n : Nat) (v : Nat) (path : Nat)
    (hms : ms.Ok) :
    (cachedStore ms w ways x pa n v path).1.Ok := by
  unfold cachedStore
  repeat' first
    | with_reducible assumption | with_reducible intro _ | with_reducible apply cachedStoreBits_ok
    | with_reducible apply mem_of_ok | with_reducible refine MemSys.Ok.of_eq (by with_reducible assumption) ?_
    | simp only [MemSys.ok_mk] | split | dsimp only

theorem updateOnly_ok (ms : MemSys) (w : Who) (ways : Nat) (x : Xlat) (op : AtOp) (w8 : Bool) (v : Nat) (hms : ms.Ok) :
    (updateOnly ms w ways x op w8 v).1.Ok := by
  unfold updateOnly
  repeat' first
    | with_reducible assumption | with_reducible intro _ | with_reducible apply MemSys.touch_ok
    | with_reducible apply MemSys.room_ok | with_reducible apply MemSys.drainWhere_ok | with_reducible apply MemSys.check_ok
    | with_reducible apply MemSys.flushWhere_ok | with_reducible apply foldl_ms_ok | with_reducible apply foldl_ms_fst_ok
    | with_reducible apply memory_wf_foldl | with_reducible apply mem_of_ok
    | with_reducible refine MemSys.Ok.of_eq (by with_reducible assumption) ?_ | simp only | split | dsimp only

theorem MemSys.drainMerge_ok (ms : MemSys) (core : Nat) (hms : ms.Ok) :
    (MemSys.drainMerge ms core).Ok := by
  unfold MemSys.drainMerge
  repeat' first
    | with_reducible assumption | with_reducible intro _ | with_reducible apply MemSys.drainWc_ok
    | with_reducible apply MemSys.flushWhere_ok | with_reducible apply mem_of_ok
    | with_reducible refine MemSys.Ok.of_eq (by with_reducible assumption) ?_ | simp only [MemSys.ok_mk] | split | dsimp only

theorem MemSys.writeBack_ok (ms : MemSys) (core : Nat) (p : L1Line → Bool) (hms : ms.Ok) :
    (MemSys.writeBack ms core p).Ok := by
  unfold MemSys.writeBack
  repeat' first
    | with_reducible assumption | with_reducible intro _ | with_reducible apply MemSys.flushWhere_ok
    | with_reducible apply mem_of_ok | with_reducible refine MemSys.Ok.of_eq (by with_reducible assumption) ?_
    | simp only [MemSys.ok_mk] | split | dsimp only

theorem MemSys.release_ok (ms : MemSys) (core : Nat) (scope : Nat) (all : Bool) (hms : ms.Ok) :
    (MemSys.release ms core scope all).Ok := by
  unfold MemSys.release
  repeat' first
    | with_reducible assumption | with_reducible intro _ | with_reducible apply MemSys.writeBack_ok
    | with_reducible apply MemSys.drainWc_ok | with_reducible apply MemSys.flushWhere_ok | with_reducible apply mem_of_ok
    | with_reducible refine MemSys.Ok.of_eq (by with_reducible assumption) ?_ | simp only | split | dsimp only

theorem MemSys.completeFlush_ok (ms : MemSys) (core : Nat) (hms : ms.Ok) :
    (MemSys.completeFlush ms core).Ok := by
  unfold MemSys.completeFlush
  repeat' first
    | with_reducible assumption | with_reducible intro _ | with_reducible apply MemSys.writeBack_ok
    | with_reducible apply MemSys.drainMerge_ok | with_reducible apply mem_of_ok
    | with_reducible refine MemSys.Ok.of_eq (by with_reducible assumption) ?_ | simp only [MemSys.ok_mk] | split | dsimp only

theorem MemSys.moveBoundary_ok (ms : MemSys) (core : Nat) (m : Nat) (hms : ms.Ok) :
    (MemSys.moveBoundary ms core m).Ok := by
  unfold MemSys.moveBoundary
  repeat' first
    | with_reducible assumption | with_reducible intro _ | with_reducible apply MemSys.flushWhere_ok
    | with_reducible apply mem_of_ok | with_reducible refine MemSys.Ok.of_eq (by with_reducible assumption) ?_
    | simp only [MemSys.ok_mk] | split | dsimp only

theorem MemSys.clearBlocks_ok (ms : MemSys) (a : Nat) (n : Nat) (hms : ms.Ok) :
    (MemSys.clearBlocks ms a n).Ok := by
  unfold MemSys.clearBlocks
  repeat' first
    | with_reducible assumption | with_reducible intro _ | with_reducible apply foldl_ms_ok
    | with_reducible apply foldl_ms_fst_ok | with_reducible apply memory_wf_foldl | with_reducible apply memory_wf_set
    | with_reducible apply memory_wf_filter | with_reducible apply memory_wf_writeMasked | with_reducible apply mem_of_ok
    | with_reducible refine MemSys.Ok.of_eq (by with_reducible assumption) ?_ | simp only [MemSys.ok_mk] | split | dsimp only

theorem MemSys.flushFrame_ok (ms : MemSys) (a : Nat) (n : Nat) (hms : ms.Ok) :
    (MemSys.flushFrame ms a n).Ok := by
  unfold MemSys.flushFrame
  repeat' first
    | with_reducible assumption | with_reducible intro _ | with_reducible apply MemSys.flushWhere_ok
    | with_reducible apply foldl_ms_ok | with_reducible apply foldl_ms_fst_ok | with_reducible apply memory_wf_foldl
    | with_reducible apply mem_of_ok | with_reducible refine MemSys.Ok.of_eq (by with_reducible assumption) ?_
    | simp only [MemSys.ok_mk] | split | dsimp only

theorem MemSys.moveBlocks_ok (ms : MemSys) (die : Nat) (src : Nat) (dst : Nat) (n : Nat) (hms : ms.Ok) :
    (MemSys.moveBlocks ms die src dst n).Ok := by
  unfold MemSys.moveBlocks
  repeat' first
    | with_reducible assumption | with_reducible intro _ | with_reducible apply MemSys.clearBlocks_ok
    | with_reducible apply MemSys.flushWhere_ok | with_reducible apply MemSys.visit_ok | with_reducible apply foldl_ms_ok
    | with_reducible apply foldl_ms_fst_ok | with_reducible apply memory_wf_foldl | with_reducible apply memory_wf_set
    | with_reducible apply memory_wf_filter | with_reducible apply memory_wf_writeMasked | with_reducible apply mem_of_ok
    | with_reducible refine MemSys.Ok.of_eq (by with_reducible assumption) ?_ | simp only [MemSys.ok_mk] | split | dsimp only

theorem MemSys.deniedLines_ok (ms : MemSys) (w : Who) (a : Nat) (n : Nat) (k : AccessKind) (hms : ms.Ok) :
    (MemSys.deniedLines ms w a n k).1.Ok := by
  unfold MemSys.deniedLines
  repeat' first
    | with_reducible assumption | with_reducible intro _ | with_reducible apply MemSys.check_ok
    | with_reducible apply foldl_ms_ok | with_reducible apply foldl_ms_fst_ok | with_reducible apply memory_wf_foldl
    | with_reducible apply mem_of_ok | with_reducible refine MemSys.Ok.of_eq (by with_reducible assumption) ?_
    | simp only [MemSys.ok_mk] | split | dsimp only

theorem MemSys.copyBlocks_ok (ms : MemSys) (w : Who) (src : Nat) (dst : Nat) (n : Nat) (hms : ms.Ok) :
    (MemSys.copyBlocks ms w src dst n).Ok := by
  unfold MemSys.copyBlocks
  repeat' first
    | with_reducible assumption | with_reducible intro _ | with_reducible apply MemSys.deniedLines_ok
    | with_reducible apply MemSys.moveBlocks_ok | with_reducible apply MemSys.put_ok | with_reducible apply foldl_ms_ok
    | with_reducible apply foldl_ms_fst_ok | with_reducible apply memory_wf_foldl | with_reducible apply mem_of_ok
    | with_reducible refine MemSys.Ok.of_eq (by with_reducible assumption) ?_ | simp only [MemSys.ok_mk] | split | dsimp only

end Sys2Proof.Machine
end

