-- ==== Sys2Proof/Laws/Regs.lean ====
section
/-!
SUPPORT. Cores and the register file: what a read gives after a write.
-/

namespace Sys2Proof.Machine

/-! ### Cores -/

@[simp] theorem State.core_setCore (s : State) (k : Nat) (c : Core) : (s.setCore k c).core k = c := by
  simp [State.core, State.setCore]

theorem State.core_setCore_other (s : State) {k j : Nat} (c : Core) (h : j ≠ k) : (s.setCore k c).core j = s.core j := by
  simp [State.core, State.setCore, SMap.get_set, h]

theorem State.modCore_eq (s : State) (k : Nat) (f : Core → Core) : s.modCore k f = s.setCore k (f (s.core k)) := rfl

theorem SMap.insert_insert {β : Type} (m : SMap β) (k : Nat) (v w : β) :
    SMap.insert (SMap.insert m k v) k w = SMap.insert m k w := by
  induction m with
  | nil => simp [SMap.insert]
  | cons e m ih =>
    obtain ⟨a, x⟩ := e
    by_cases h1 : k < a
    · simp [SMap.insert, h1]
    · by_cases h2 : k = a
      · simp [SMap.insert, h2]
      · simp [SMap.insert, h1, h2, ih]

/-! ### The register file -/

/-- No pending write of the same bundle and place stands in a higher slot. -/
def RegFile.Last (r : RegFile) (p : PWrite) : Prop := ∀ e ∈ r.pend, e.key = p.key → e.trig = p.trig → e.slot ≤ p.slot

theorem pendInsert_last (p : PWrite) (l : List PWrite) (h : ∀ e ∈ l, e.key = p.key → e.trig = p.trig → e.slot ≤ p.slot) :
    pendInsert p l = l ++ [p] := by
  induction l with
  | nil => rfl
  | cons e l ih =>
    have h1 := h e (List.mem_cons_self ..)
    have h2 : ¬ (e.trig = p.trig ∧ p.slot < e.slot ∧ e.key = p.key) := by
      rintro ⟨ht, hs, hk⟩; have := h1 hk ht; omega
    simp only [pendInsert, h2, if_false, List.cons_append, ih fun e he => h e (List.mem_cons_of_mem _ he)]

theorem RegFile.push_pend (r : RegFile) (p : PWrite) (h : r.Last p) : (r.push p).pend = r.pend ++ [p] :=
  pendInsert_last p r.pend h

@[simp] theorem RegFile.push_base (r : RegFile) (p : PWrite) : (r.push p).base = r.base := rfl
@[simp] theorem RegFile.push_handler (r : RegFile) (p : PWrite) : (r.push p).handler = r.handler := rfl

/-- A read after a write. -/
theorem RegFile.read_push (r : RegFile) (p : PWrite) (h : r.Last p) (k m blk : Nat) :
    (r.push p).read k m blk =
      if p.key = k ∧ p.visible m blk = true then applyOp p.op (r.read k m blk) p.val else r.read k m blk := by
  simp [RegFile.read, RegFile.push_pend r p h, List.foldl_append]

theorem RegFile.ready_push (r : RegFile) (p : PWrite) (h : r.Last p) (k m blk : Nat) :
    (r.push p).ready k m blk = (r.ready k m blk && (p.key != k || !p.visible m blk || p.landed)) := by
  simp [RegFile.ready, RegFile.push_pend r p h, List.all_append]

theorem RegFile.bad_push (r : RegFile) (p : PWrite) (h : r.Last p) (k m blk : Nat) :
    (r.push p).bad k m blk = if p.key = k ∧ p.visible m blk = true then if p.op = .put then p.bad else p.bad <|> r.bad k m blk else r.bad k m blk := by
  simp [RegFile.bad, RegFile.push_pend r p h, List.foldl_append]

/-- The write of an operation of fixed latency is `Wrote`. -/
theorem Core.write_wrote (c : Core) (sl : Slot) (l : Loc) (op : WriteOp) (v : Vec) (d : Nat) (h : c.FirstAt sl l) :
    c.Wrote l op v d (c.write sl l op v d) := by
  refine ⟨rfl, rfl, fun key m blk => ?_⟩
  have hl : c.regs.Last
      { id := c.regs.nextId, key := c.key l, op := op, val := v, trig := c.ctl.bcount, slot := sl.num
        vis := c.ctl.bcount + d, blk := c.ctl.blk, later := false, landed := true, load := false, bad := none } := h
  simp only [Core.write, RegFile.read_push _ _ hl, RegFile.ready_push _ _ hl, RegFile.bad_push _ _ hl, PWrite.visible,
    Bool.not_false, Bool.true_or, Bool.and_true, decide_eq_true_eq, Bool.or_true, eq_comm (a := key), true_and]
  by_cases hs : c.key l = key ∧ c.ctl.bcount + d ≤ m <;> by_cases ho : op = .put <;> simp [hs, ho]

/-- A write leaves the writes of other places where they are. -/
theorem Core.FirstAt.write {c : Core} {sl sl' : Slot} {l l' : Loc} {op : WriteOp} {v : Vec} {d : Nat} (h : c.FirstAt sl l)
    (hs : sl'.num ≤ sl.num ∨ c.key l ≠ c.key l') (h' : c.FirstAt sl' l') : (c.write sl' l' op v d).FirstAt sl l := by
  intro e he hk ht
  simp only [Core.write, RegFile.push] at he
  rw [pendInsert_last (h := by exact h'), List.mem_append] at he
  rcases he with he | he
  · exact h e he hk ht
  · obtain rfl := List.mem_singleton.1 he
    rcases hs with hs | hs
    · exact hs
    · exact absurd hk.symm hs

@[simp] theorem Core.pop_regs (c : Core) : c.pop.regs = c.regs := rfl
@[simp] theorem Core.pop_key (c : Core) (l : Loc) : c.pop.key l = c.key l := rfl
@[simp] theorem Core.pop_bcount (c : Core) : c.pop.ctl.bcount = c.ctl.bcount := rfl
@[simp] theorem Core.pop_blk (c : Core) : c.pop.ctl.blk = c.ctl.blk := rfl
@[simp] theorem Core.pop_rd (c : Core) (l : Loc) : c.pop.rd l = c.rd l := rfl
@[simp] theorem Core.pop_port (c : Core) (sl : Slot) (n : Nat) : c.pop.port sl n = c.port sl n := rfl
@[simp] theorem Core.pop_portW (c : Core) (sl : Slot) (n : Nat) : c.pop.portW sl n = c.portW sl n := rfl
@[simp] theorem Core.pop_la (c : Core) (n : Nat) : c.pop.la n = c.la n := rfl
@[simp] theorem Core.pop_trap (c : Core) : c.pop.trap = c.trap := rfl
@[simp] theorem Core.pop_firstAt (c : Core) (sl : Slot) (l : Loc) : c.pop.FirstAt sl l ↔ c.FirstAt sl l := Iff.rfl

/-! ### Triggers that pass -/

/-- What a trigger that passes does. -/
theorem triggerOr_passes {s : State} {sl : Slot} {dk : DKind} {g : Guard} {src : Src} {need : Core → Bool}
    {act : State → Nat → Core → Vec → Option State} {reads : Core → List Loc} (h : s.PassesWith sl g src (reads s.me))
    (hn : need s.me = true) :
    triggerOr s sl dk g src need act reads =
      .next ((act (s.setCore s.curCore s.me.pop) s.curCore s.me.pop (s.value sl src dk)).getD s) := by
  obtain ⟨h1, h2, h3, h4, h5, h6⟩ := h
  simp only [State.me] at h1 h2 h3 h4 h5 h6 hn
  simp [triggerOr, h1, h2, h3, h4, h5, h6, hn, State.me, State.value]

theorem trigger_passes {s : State} {sl : Slot} {dk : DKind} {g : Guard} {src : Src} {need : Core → Bool}
    {act : State → Nat → Core → Vec → State} {reads : Core → List Loc} (h : s.PassesWith sl g src (reads s.me))
    (hn : need s.me = true) :
    trigger s sl dk g src need act reads =
      .next (act (s.setCore s.curCore s.me.pop) s.curCore s.me.pop (s.value sl src dk)) := by
  simp [trigger, triggerOr_passes h hn]

theorem SMap.erase_erase {β : Type} (m : SMap β) (k : Nat) : SMap.erase (SMap.erase m k) k = SMap.erase m k := by
  simp [SMap.erase]

theorem SMap.erase_insert {β : Type} (m : SMap β) (k : Nat) (v : β) : SMap.erase (SMap.insert m k v) k = SMap.erase m k := by
  induction m with
  | nil => simp [SMap.insert, SMap.erase]
  | cons e m ih =>
    obtain ⟨a, x⟩ := e
    simp only [SMap.erase] at ih ⊢
    by_cases h1 : k < a
    · simp [SMap.insert, h1]
    · by_cases h2 : k = a
      · simp [SMap.insert, h2]
      · simp [SMap.insert, h1, h2, List.filter_cons, ih]

theorem SMap.insert_erase {β : Type} (m : SMap β) (k : Nat) (v : β) (h : SMap.rising none m = true) :
    SMap.insert (SMap.erase m k) k v = SMap.insert m k v := by
  induction m with
  | nil => rfl
  | cons e m ih =>
    obtain ⟨a, x⟩ := e
    obtain ⟨ha, hm⟩ := (SMap.rising_cons _ _ _).1 h
    have keep : ∀ l, k ≤ l → SMap.Above l m → SMap.erase m k = m := fun l hl hA =>
      List.filter_eq_self.2 fun e he => by have := hA e he; simp; omega
    have ih := ih hm
    simp only [SMap.erase, List.filter_cons] at ih ⊢
    by_cases h2 : k = a
    · subst h2
      have := keep k (Nat.le_refl _) ha
      simp only [SMap.erase] at this
      simp only [bne_self_eq_false, Bool.false_eq_true, if_false, this, SMap.insert, Nat.lt_irrefl, if_true]
      cases m with
      | nil => rfl
      | cons e m => obtain ⟨b, y⟩ := e; have : k < b := ha _ (List.mem_cons_self ..); simp [SMap.insert, this]
    · have hne : (a != k) = true := by simp [Ne.symm h2]
      simp only [hne, if_true, SMap.insert, h2, if_false]
      split
      · rename_i hk
        have := keep a (Nat.le_of_lt hk) ha
        simp only [SMap.erase] at this
        rw [this]
      · rw [ih]

/-- A second write of a key replaces the first, in a map whose keys rise. -/
theorem SMap.set_set {β : Type} [DecidableEq β] {d : β} {m : SMap β} (k : Nat) (v w : β) (h : SMap.rising none m = true) :
    SMap.set d (SMap.set d m k v) k w = SMap.set d m k w := by
  unfold SMap.set
  split <;> split <;> simp [SMap.erase_erase, SMap.erase_insert, SMap.insert_insert, SMap.insert_erase _ _ _ h]

end Sys2Proof.Machine
end

