-- ==== Sys2Proof/Laws/State.lean ====
section
/-!
SUPPORT. What an update of a record leaves: one lemma for each field that it does not touch, and what the field that it
touches reads as.
-/

namespace Sys2Proof.Machine

/-! ### Updates of the state -/

/-! `setCore` -/

@[simp] theorem State.setCore_agenda (s : State) (k : Nat) (c : Core) : (s.setCore k c).agenda = s.agenda := rfl
@[simp] theorem State.setCore_curCore (s : State) (k : Nat) (c : Core) : (s.setCore k c).curCore = s.curCore := rfl
@[simp] theorem State.setCore_fresh (s : State) (k : Nat) (c : Core) : (s.setCore k c).fresh = s.fresh := rfl
@[simp] theorem State.setCore_now (s : State) (k : Nat) (c : Core) : (s.setCore k c).now = s.now := rfl
@[simp] theorem State.setCore_ms (s : State) (k : Nat) (c : Core) : (s.setCore k c).ms = s.ms := rfl
@[simp] theorem State.setCore_sched (s : State) (k : Nat) (c : Core) : (s.setCore k c).sched = s.sched := rfl
@[simp] theorem State.setCore_pwr (s : State) (k : Nat) (c : Core) : (s.setCore k c).pwr = s.pwr := rfl
@[simp] theorem State.setCore_tide (s : State) (k : Nat) (c : Core) : (s.setCore k c).tide = s.tide := rfl
@[simp] theorem State.setCore_fab (s : State) (k : Nat) (c : Core) : (s.setCore k c).fab = s.fab := rfl
@[simp] theorem State.setCore_sto (s : State) (k : Nat) (c : Core) : (s.setCore k c).sto = s.sto := rfl
@[simp] theorem State.setCore_boot (s : State) (k : Nat) (c : Core) : (s.setCore k c).boot = s.boot := rfl
@[simp] theorem State.setCore_pcie (s : State) (k : Nat) (c : Core) : (s.setCore k c).pcie = s.pcie := rfl
@[simp] theorem State.setCore_committed (s : State) (k : Nat) (c : Core) : (s.setCore k c).committed = s.committed := rfl
@[simp] theorem State.setCore_image (s : State) (k : Nat) (c : Core) : (s.setCore k c).image = s.image := rfl

/-! `modCore` -/

@[simp] theorem State.modCore_agenda (s : State) (k : Nat) (f : Core → Core) : (s.modCore k f).agenda = s.agenda := rfl
@[simp] theorem State.modCore_curCore (s : State) (k : Nat) (f : Core → Core) : (s.modCore k f).curCore = s.curCore := rfl
@[simp] theorem State.modCore_fresh (s : State) (k : Nat) (f : Core → Core) : (s.modCore k f).fresh = s.fresh := rfl
@[simp] theorem State.modCore_now (s : State) (k : Nat) (f : Core → Core) : (s.modCore k f).now = s.now := rfl
@[simp] theorem State.modCore_ms (s : State) (k : Nat) (f : Core → Core) : (s.modCore k f).ms = s.ms := rfl
@[simp] theorem State.modCore_sched (s : State) (k : Nat) (f : Core → Core) : (s.modCore k f).sched = s.sched := rfl
@[simp] theorem State.modCore_pwr (s : State) (k : Nat) (f : Core → Core) : (s.modCore k f).pwr = s.pwr := rfl
@[simp] theorem State.modCore_tide (s : State) (k : Nat) (f : Core → Core) : (s.modCore k f).tide = s.tide := rfl
@[simp] theorem State.modCore_fab (s : State) (k : Nat) (f : Core → Core) : (s.modCore k f).fab = s.fab := rfl
@[simp] theorem State.modCore_sto (s : State) (k : Nat) (f : Core → Core) : (s.modCore k f).sto = s.sto := rfl
@[simp] theorem State.modCore_boot (s : State) (k : Nat) (f : Core → Core) : (s.modCore k f).boot = s.boot := rfl
@[simp] theorem State.modCore_pcie (s : State) (k : Nat) (f : Core → Core) : (s.modCore k f).pcie = s.pcie := rfl
@[simp] theorem State.modCore_committed (s : State) (k : Nat) (f : Core → Core) : (s.modCore k f).committed = s.committed := rfl
@[simp] theorem State.modCore_image (s : State) (k : Nat) (f : Core → Core) : (s.modCore k f).image = s.image := rfl

/-! `modCtl` -/

@[simp] theorem State.modCtl_agenda (s : State) (k : Nat) (f : Control → Control) : (s.modCtl k f).agenda = s.agenda := rfl
@[simp] theorem State.modCtl_curCore (s : State) (k : Nat) (f : Control → Control) : (s.modCtl k f).curCore = s.curCore := rfl
@[simp] theorem State.modCtl_fresh (s : State) (k : Nat) (f : Control → Control) : (s.modCtl k f).fresh = s.fresh := rfl
@[simp] theorem State.modCtl_now (s : State) (k : Nat) (f : Control → Control) : (s.modCtl k f).now = s.now := rfl
@[simp] theorem State.modCtl_ms (s : State) (k : Nat) (f : Control → Control) : (s.modCtl k f).ms = s.ms := rfl
@[simp] theorem State.modCtl_sched (s : State) (k : Nat) (f : Control → Control) : (s.modCtl k f).sched = s.sched := rfl
@[simp] theorem State.modCtl_pwr (s : State) (k : Nat) (f : Control → Control) : (s.modCtl k f).pwr = s.pwr := rfl
@[simp] theorem State.modCtl_tide (s : State) (k : Nat) (f : Control → Control) : (s.modCtl k f).tide = s.tide := rfl
@[simp] theorem State.modCtl_fab (s : State) (k : Nat) (f : Control → Control) : (s.modCtl k f).fab = s.fab := rfl
@[simp] theorem State.modCtl_sto (s : State) (k : Nat) (f : Control → Control) : (s.modCtl k f).sto = s.sto := rfl
@[simp] theorem State.modCtl_boot (s : State) (k : Nat) (f : Control → Control) : (s.modCtl k f).boot = s.boot := rfl
@[simp] theorem State.modCtl_pcie (s : State) (k : Nat) (f : Control → Control) : (s.modCtl k f).pcie = s.pcie := rfl
@[simp] theorem State.modCtl_committed (s : State) (k : Nat) (f : Control → Control) : (s.modCtl k f).committed = s.committed := rfl
@[simp] theorem State.modCtl_image (s : State) (k : Nat) (f : Control → Control) : (s.modCtl k f).image = s.image := rfl

/-! `modMx` -/

@[simp] theorem State.modMx_agenda (s : State) (k : Nat) (f : Matrix → Matrix) : (s.modMx k f).agenda = s.agenda := rfl
@[simp] theorem State.modMx_curCore (s : State) (k : Nat) (f : Matrix → Matrix) : (s.modMx k f).curCore = s.curCore := rfl
@[simp] theorem State.modMx_fresh (s : State) (k : Nat) (f : Matrix → Matrix) : (s.modMx k f).fresh = s.fresh := rfl
@[simp] theorem State.modMx_now (s : State) (k : Nat) (f : Matrix → Matrix) : (s.modMx k f).now = s.now := rfl
@[simp] theorem State.modMx_ms (s : State) (k : Nat) (f : Matrix → Matrix) : (s.modMx k f).ms = s.ms := rfl
@[simp] theorem State.modMx_sched (s : State) (k : Nat) (f : Matrix → Matrix) : (s.modMx k f).sched = s.sched := rfl
@[simp] theorem State.modMx_pwr (s : State) (k : Nat) (f : Matrix → Matrix) : (s.modMx k f).pwr = s.pwr := rfl
@[simp] theorem State.modMx_tide (s : State) (k : Nat) (f : Matrix → Matrix) : (s.modMx k f).tide = s.tide := rfl
@[simp] theorem State.modMx_fab (s : State) (k : Nat) (f : Matrix → Matrix) : (s.modMx k f).fab = s.fab := rfl
@[simp] theorem State.modMx_sto (s : State) (k : Nat) (f : Matrix → Matrix) : (s.modMx k f).sto = s.sto := rfl
@[simp] theorem State.modMx_boot (s : State) (k : Nat) (f : Matrix → Matrix) : (s.modMx k f).boot = s.boot := rfl
@[simp] theorem State.modMx_pcie (s : State) (k : Nat) (f : Matrix → Matrix) : (s.modMx k f).pcie = s.pcie := rfl
@[simp] theorem State.modMx_committed (s : State) (k : Nat) (f : Matrix → Matrix) : (s.modMx k f).committed = s.committed := rfl
@[simp] theorem State.modMx_image (s : State) (k : Nat) (f : Matrix → Matrix) : (s.modMx k f).image = s.image := rfl

/-! `tick` -/

@[simp] theorem State.tick_agenda (s : State) : s.tick.agenda = s.agenda := rfl
@[simp] theorem State.tick_curCore (s : State) : s.tick.curCore = s.curCore := rfl
@[simp] theorem State.tick_now (s : State) : s.tick.now = s.now := rfl
@[simp] theorem State.tick_ms (s : State) : s.tick.ms = s.ms := rfl
@[simp] theorem State.tick_cores (s : State) : s.tick.cores = s.cores := rfl
@[simp] theorem State.tick_sched (s : State) : s.tick.sched = s.sched := rfl
@[simp] theorem State.tick_pwr (s : State) : s.tick.pwr = s.pwr := rfl
@[simp] theorem State.tick_tide (s : State) : s.tick.tide = s.tide := rfl
@[simp] theorem State.tick_fab (s : State) : s.tick.fab = s.fab := rfl
@[simp] theorem State.tick_sto (s : State) : s.tick.sto = s.sto := rfl
@[simp] theorem State.tick_boot (s : State) : s.tick.boot = s.boot := rfl
@[simp] theorem State.tick_pcie (s : State) : s.tick.pcie = s.pcie := rfl
@[simp] theorem State.tick_committed (s : State) : s.tick.committed = s.committed := rfl
@[simp] theorem State.tick_image (s : State) : s.tick.image = s.image := rfl

/-! `setStream` -/

@[simp] theorem State.setStream_agenda (s : State) (n : Nat) (x : Stream) : (s.setStream n x).agenda = s.agenda := rfl
@[simp] theorem State.setStream_curCore (s : State) (n : Nat) (x : Stream) : (s.setStream n x).curCore = s.curCore := rfl
@[simp] theorem State.setStream_fresh (s : State) (n : Nat) (x : Stream) : (s.setStream n x).fresh = s.fresh := rfl
@[simp] theorem State.setStream_now (s : State) (n : Nat) (x : Stream) : (s.setStream n x).now = s.now := rfl
@[simp] theorem State.setStream_ms (s : State) (n : Nat) (x : Stream) : (s.setStream n x).ms = s.ms := rfl
@[simp] theorem State.setStream_cores (s : State) (n : Nat) (x : Stream) : (s.setStream n x).cores = s.cores := rfl
@[simp] theorem State.setStream_sched_en (s : State) (n : Nat) (x : Stream) : (s.setStream n x).sched.en = s.sched.en := rfl
@[simp] theorem State.setStream_sched_stab (s : State) (n : Nat) (x : Stream) : (s.setStream n x).sched.stab = s.sched.stab := rfl
@[simp] theorem State.setStream_sched_dqsb (s : State) (n : Nat) (x : Stream) : (s.setStream n x).sched.dqsb = s.sched.dqsb := rfl
@[simp] theorem State.setStream_sched_schErr (s : State) (n : Nat) (x : Stream) : (s.setStream n x).sched.schErr = s.sched.schErr := rfl
@[simp] theorem State.setStream_sched_ctxb (s : State) (n : Nat) (x : Stream) : (s.setStream n x).sched.ctxb = s.sched.ctxb := rfl
@[simp] theorem State.setStream_sched_shsb (s : State) (n : Nat) (x : Stream) : (s.setStream n x).sched.shsb = s.sched.shsb := rfl
@[simp] theorem State.setStream_sched_killing (s : State) (n : Nat) (x : Stream) : (s.setStream n x).sched.killing = s.sched.killing := rfl
@[simp] theorem State.setStream_sched_slots (s : State) (n : Nat) (x : Stream) : (s.setStream n x).sched.slots = s.sched.slots := rfl
@[simp] theorem State.setStream_sched_ready (s : State) (n : Nat) (x : Stream) : (s.setStream n x).sched.ready = s.sched.ready := rfl
@[simp] theorem State.setStream_sched_deque (s : State) (n : Nat) (x : Stream) : (s.setStream n x).sched.deque = s.sched.deque := rfl
@[simp] theorem State.setStream_sched_spill (s : State) (n : Nat) (x : Stream) : (s.setStream n x).sched.spill = s.sched.spill := rfl
@[simp] theorem State.setStream_sched_share (s : State) (n : Nat) (x : Stream) : (s.setStream n x).sched.share = s.sched.share := rfl
@[simp] theorem State.setStream_sched_crews (s : State) (n : Nat) (x : Stream) : (s.setStream n x).sched.crews = s.sched.crews := rfl
@[simp] theorem State.setStream_sched_nextCrew (s : State) (n : Nat) (x : Stream) : (s.setStream n x).sched.nextCrew = s.sched.nextCrew := rfl
@[simp] theorem State.setStream_sched_frames (s : State) (n : Nat) (x : Stream) : (s.setStream n x).sched.frames = s.sched.frames := rfl
@[simp] theorem State.setStream_sched_serial (s : State) (n : Nat) (x : Stream) : (s.setStream n x).sched.serial = s.sched.serial := rfl
@[simp] theorem State.setStream_sched_quantum (s : State) (n : Nat) (x : Stream) : (s.setStream n x).sched.quantum = s.sched.quantum := rfl
@[simp] theorem State.setStream_sched_quanta (s : State) (n : Nat) (x : Stream) : (s.setStream n x).sched.quanta = s.sched.quanta := rfl
@[simp] theorem State.setStream_sched_abandoned (s : State) (n : Nat) (x : Stream) : (s.setStream n x).sched.abandoned = s.sched.abandoned := rfl
@[simp] theorem State.setStream_sched_kept (s : State) (n : Nat) (x : Stream) : (s.setStream n x).sched.kept = s.sched.kept := rfl
@[simp] theorem State.setStream_pwr (s : State) (n : Nat) (x : Stream) : (s.setStream n x).pwr = s.pwr := rfl
@[simp] theorem State.setStream_tide (s : State) (n : Nat) (x : Stream) : (s.setStream n x).tide = s.tide := rfl
@[simp] theorem State.setStream_fab (s : State) (n : Nat) (x : Stream) : (s.setStream n x).fab = s.fab := rfl
@[simp] theorem State.setStream_sto (s : State) (n : Nat) (x : Stream) : (s.setStream n x).sto = s.sto := rfl
@[simp] theorem State.setStream_boot (s : State) (n : Nat) (x : Stream) : (s.setStream n x).boot = s.boot := rfl
@[simp] theorem State.setStream_pcie (s : State) (n : Nat) (x : Stream) : (s.setStream n x).pcie = s.pcie := rfl
@[simp] theorem State.setStream_committed (s : State) (n : Nat) (x : Stream) : (s.setStream n x).committed = s.committed := rfl
@[simp] theorem State.setStream_image (s : State) (n : Nat) (x : Stream) : (s.setStream n x).image = s.image := rfl

/-! `setSlot` -/

@[simp] theorem State.setSlot_agenda (s : State) (h : Nat) (x : Option StreamSlot) : (s.setSlot h x).agenda = s.agenda := rfl
@[simp] theorem State.setSlot_curCore (s : State) (h : Nat) (x : Option StreamSlot) : (s.setSlot h x).curCore = s.curCore := rfl
@[simp] theorem State.setSlot_fresh (s : State) (h : Nat) (x : Option StreamSlot) : (s.setSlot h x).fresh = s.fresh := rfl
@[simp] theorem State.setSlot_now (s : State) (h : Nat) (x : Option StreamSlot) : (s.setSlot h x).now = s.now := rfl
@[simp] theorem State.setSlot_ms (s : State) (h : Nat) (x : Option StreamSlot) : (s.setSlot h x).ms = s.ms := rfl
@[simp] theorem State.setSlot_cores (s : State) (h : Nat) (x : Option StreamSlot) : (s.setSlot h x).cores = s.cores := rfl
@[simp] theorem State.setSlot_sched_en (s : State) (h : Nat) (x : Option StreamSlot) : (s.setSlot h x).sched.en = s.sched.en := rfl
@[simp] theorem State.setSlot_sched_stab (s : State) (h : Nat) (x : Option StreamSlot) : (s.setSlot h x).sched.stab = s.sched.stab := rfl
@[simp] theorem State.setSlot_sched_dqsb (s : State) (h : Nat) (x : Option StreamSlot) : (s.setSlot h x).sched.dqsb = s.sched.dqsb := rfl
@[simp] theorem State.setSlot_sched_schErr (s : State) (h : Nat) (x : Option StreamSlot) : (s.setSlot h x).sched.schErr = s.sched.schErr := rfl
@[simp] theorem State.setSlot_sched_ctxb (s : State) (h : Nat) (x : Option StreamSlot) : (s.setSlot h x).sched.ctxb = s.sched.ctxb := rfl
@[simp] theorem State.setSlot_sched_shsb (s : State) (h : Nat) (x : Option StreamSlot) : (s.setSlot h x).sched.shsb = s.sched.shsb := rfl
@[simp] theorem State.setSlot_sched_killing (s : State) (h : Nat) (x : Option StreamSlot) : (s.setSlot h x).sched.killing = s.sched.killing := rfl
@[simp] theorem State.setSlot_sched_streams (s : State) (h : Nat) (x : Option StreamSlot) : (s.setSlot h x).sched.streams = s.sched.streams := rfl
@[simp] theorem State.setSlot_sched_ready (s : State) (h : Nat) (x : Option StreamSlot) : (s.setSlot h x).sched.ready = s.sched.ready := rfl
@[simp] theorem State.setSlot_sched_deque (s : State) (h : Nat) (x : Option StreamSlot) : (s.setSlot h x).sched.deque = s.sched.deque := rfl
@[simp] theorem State.setSlot_sched_spill (s : State) (h : Nat) (x : Option StreamSlot) : (s.setSlot h x).sched.spill = s.sched.spill := rfl
@[simp] theorem State.setSlot_sched_share (s : State) (h : Nat) (x : Option StreamSlot) : (s.setSlot h x).sched.share = s.sched.share := rfl
@[simp] theorem State.setSlot_sched_crews (s : State) (h : Nat) (x : Option StreamSlot) : (s.setSlot h x).sched.crews = s.sched.crews := rfl
@[simp] theorem State.setSlot_sched_nextCrew (s : State) (h : Nat) (x : Option StreamSlot) : (s.setSlot h x).sched.nextCrew = s.sched.nextCrew := rfl
@[simp] theorem State.setSlot_sched_frames (s : State) (h : Nat) (x : Option StreamSlot) : (s.setSlot h x).sched.frames = s.sched.frames := rfl
@[simp] theorem State.setSlot_sched_serial (s : State) (h : Nat) (x : Option StreamSlot) : (s.setSlot h x).sched.serial = s.sched.serial := rfl
@[simp] theorem State.setSlot_sched_quantum (s : State) (h : Nat) (x : Option StreamSlot) : (s.setSlot h x).sched.quantum = s.sched.quantum := rfl
@[simp] theorem State.setSlot_sched_quanta (s : State) (h : Nat) (x : Option StreamSlot) : (s.setSlot h x).sched.quanta = s.sched.quanta := rfl
@[simp] theorem State.setSlot_sched_abandoned (s : State) (h : Nat) (x : Option StreamSlot) : (s.setSlot h x).sched.abandoned = s.sched.abandoned := rfl
@[simp] theorem State.setSlot_sched_kept (s : State) (h : Nat) (x : Option StreamSlot) : (s.setSlot h x).sched.kept = s.sched.kept := rfl
@[simp] theorem State.setSlot_pwr (s : State) (h : Nat) (x : Option StreamSlot) : (s.setSlot h x).pwr = s.pwr := rfl
@[simp] theorem State.setSlot_tide (s : State) (h : Nat) (x : Option StreamSlot) : (s.setSlot h x).tide = s.tide := rfl
@[simp] theorem State.setSlot_fab (s : State) (h : Nat) (x : Option StreamSlot) : (s.setSlot h x).fab = s.fab := rfl
@[simp] theorem State.setSlot_sto (s : State) (h : Nat) (x : Option StreamSlot) : (s.setSlot h x).sto = s.sto := rfl
@[simp] theorem State.setSlot_boot (s : State) (h : Nat) (x : Option StreamSlot) : (s.setSlot h x).boot = s.boot := rfl
@[simp] theorem State.setSlot_pcie (s : State) (h : Nat) (x : Option StreamSlot) : (s.setSlot h x).pcie = s.pcie := rfl
@[simp] theorem State.setSlot_committed (s : State) (h : Nat) (x : Option StreamSlot) : (s.setSlot h x).committed = s.committed := rfl
@[simp] theorem State.setSlot_image (s : State) (h : Nat) (x : Option StreamSlot) : (s.setSlot h x).image = s.image := rfl

/-! `setReady` -/

@[simp] theorem State.setReady_agenda (s : State) (cl p : Nat) (l : List Ready) : (s.setReady cl p l).agenda = s.agenda := rfl
@[simp] theorem State.setReady_curCore (s : State) (cl p : Nat) (l : List Ready) : (s.setReady cl p l).curCore = s.curCore := rfl
@[simp] theorem State.setReady_fresh (s : State) (cl p : Nat) (l : List Ready) : (s.setReady cl p l).fresh = s.fresh := rfl
@[simp] theorem State.setReady_now (s : State) (cl p : Nat) (l : List Ready) : (s.setReady cl p l).now = s.now := rfl
@[simp] theorem State.setReady_ms (s : State) (cl p : Nat) (l : List Ready) : (s.setReady cl p l).ms = s.ms := rfl
@[simp] theorem State.setReady_cores (s : State) (cl p : Nat) (l : List Ready) : (s.setReady cl p l).cores = s.cores := rfl
@[simp] theorem State.setReady_sched_en (s : State) (cl p : Nat) (l : List Ready) : (s.setReady cl p l).sched.en = s.sched.en := rfl
@[simp] theorem State.setReady_sched_stab (s : State) (cl p : Nat) (l : List Ready) : (s.setReady cl p l).sched.stab = s.sched.stab := rfl
@[simp] theorem State.setReady_sched_dqsb (s : State) (cl p : Nat) (l : List Ready) : (s.setReady cl p l).sched.dqsb = s.sched.dqsb := rfl
@[simp] theorem State.setReady_sched_schErr (s : State) (cl p : Nat) (l : List Ready) : (s.setReady cl p l).sched.schErr = s.sched.schErr := rfl
@[simp] theorem State.setReady_sched_ctxb (s : State) (cl p : Nat) (l : List Ready) : (s.setReady cl p l).sched.ctxb = s.sched.ctxb := rfl
@[simp] theorem State.setReady_sched_shsb (s : State) (cl p : Nat) (l : List Ready) : (s.setReady cl p l).sched.shsb = s.sched.shsb := rfl
@[simp] theorem State.setReady_sched_killing (s : State) (cl p : Nat) (l : List Ready) : (s.setReady cl p l).sched.killing = s.sched.killing := rfl
@[simp] theorem State.setReady_sched_slots (s : State) (cl p : Nat) (l : List Ready) : (s.setReady cl p l).sched.slots = s.sched.slots := rfl
@[simp] theorem State.setReady_sched_streams (s : State) (cl p : Nat) (l : List Ready) : (s.setReady cl p l).sched.streams = s.sched.streams := rfl
@[simp] theorem State.setReady_sched_deque (s : State) (cl p : Nat) (l : List Ready) : (s.setReady cl p l).sched.deque = s.sched.deque := rfl
@[simp] theorem State.setReady_sched_spill (s : State) (cl p : Nat) (l : List Ready) : (s.setReady cl p l).sched.spill = s.sched.spill := rfl
@[simp] theorem State.setReady_sched_share (s : State) (cl p : Nat) (l : List Ready) : (s.setReady cl p l).sched.share = s.sched.share := rfl
@[simp] theorem State.setReady_sched_crews (s : State) (cl p : Nat) (l : List Ready) : (s.setReady cl p l).sched.crews = s.sched.crews := rfl
@[simp] theorem State.setReady_sched_nextCrew (s : State) (cl p : Nat) (l : List Ready) : (s.setReady cl p l).sched.nextCrew = s.sched.nextCrew := rfl
@[simp] theorem State.setReady_sched_frames (s : State) (cl p : Nat) (l : List Ready) : (s.setReady cl p l).sched.frames = s.sched.frames := rfl
@[simp] theorem State.setReady_sched_serial (s : State) (cl p : Nat) (l : List Ready) : (s.setReady cl p l).sched.serial = s.sched.serial := rfl
@[simp] theorem State.setReady_sched_quantum (s : State) (cl p : Nat) (l : List Ready) : (s.setReady cl p l).sched.quantum = s.sched.quantum := rfl
@[simp] theorem State.setReady_sched_quanta (s : State) (cl p : Nat) (l : List Ready) : (s.setReady cl p l).sched.quanta = s.sched.quanta := rfl
@[simp] theorem State.setReady_sched_abandoned (s : State) (cl p : Nat) (l : List Ready) : (s.setReady cl p l).sched.abandoned = s.sched.abandoned := rfl
@[simp] theorem State.setReady_sched_kept (s : State) (cl p : Nat) (l : List Ready) : (s.setReady cl p l).sched.kept = s.sched.kept := rfl
@[simp] theorem State.setReady_pwr (s : State) (cl p : Nat) (l : List Ready) : (s.setReady cl p l).pwr = s.pwr := rfl
@[simp] theorem State.setReady_tide (s : State) (cl p : Nat) (l : List Ready) : (s.setReady cl p l).tide = s.tide := rfl
@[simp] theorem State.setReady_fab (s : State) (cl p : Nat) (l : List Ready) : (s.setReady cl p l).fab = s.fab := rfl
@[simp] theorem State.setReady_sto (s : State) (cl p : Nat) (l : List Ready) : (s.setReady cl p l).sto = s.sto := rfl
@[simp] theorem State.setReady_boot (s : State) (cl p : Nat) (l : List Ready) : (s.setReady cl p l).boot = s.boot := rfl
@[simp] theorem State.setReady_pcie (s : State) (cl p : Nat) (l : List Ready) : (s.setReady cl p l).pcie = s.pcie := rfl
@[simp] theorem State.setReady_committed (s : State) (cl p : Nat) (l : List Ready) : (s.setReady cl p l).committed = s.committed := rfl
@[simp] theorem State.setReady_image (s : State) (cl p : Nat) (l : List Ready) : (s.setReady cl p l).image = s.image := rfl

/-! `setDeque` -/

@[simp] theorem State.setDeque_agenda (s : State) (k : Nat) (d : List ReadyRec) : (s.setDeque k d).agenda = s.agenda := rfl
@[simp] theorem State.setDeque_curCore (s : State) (k : Nat) (d : List ReadyRec) : (s.setDeque k d).curCore = s.curCore := rfl
@[simp] theorem State.setDeque_fresh (s : State) (k : Nat) (d : List ReadyRec) : (s.setDeque k d).fresh = s.fresh := rfl
@[simp] theorem State.setDeque_now (s : State) (k : Nat) (d : List ReadyRec) : (s.setDeque k d).now = s.now := rfl
@[simp] theorem State.setDeque_ms (s : State) (k : Nat) (d : List ReadyRec) : (s.setDeque k d).ms = s.ms := rfl
@[simp] theorem State.setDeque_cores (s : State) (k : Nat) (d : List ReadyRec) : (s.setDeque k d).cores = s.cores := rfl
@[simp] theorem State.setDeque_sched_en (s : State) (k : Nat) (d : List ReadyRec) : (s.setDeque k d).sched.en = s.sched.en := rfl
@[simp] theorem State.setDeque_sched_stab (s : State) (k : Nat) (d : List ReadyRec) : (s.setDeque k d).sched.stab = s.sched.stab := rfl
@[simp] theorem State.setDeque_sched_dqsb (s : State) (k : Nat) (d : List ReadyRec) : (s.setDeque k d).sched.dqsb = s.sched.dqsb := rfl
@[simp] theorem State.setDeque_sched_schErr (s : State) (k : Nat) (d : List ReadyRec) : (s.setDeque k d).sched.schErr = s.sched.schErr := rfl
@[simp] theorem State.setDeque_sched_ctxb (s : State) (k : Nat) (d : List ReadyRec) : (s.setDeque k d).sched.ctxb = s.sched.ctxb := rfl
@[simp] theorem State.setDeque_sched_shsb (s : State) (k : Nat) (d : List ReadyRec) : (s.setDeque k d).sched.shsb = s.sched.shsb := rfl
@[simp] theorem State.setDeque_sched_killing (s : State) (k : Nat) (d : List ReadyRec) : (s.setDeque k d).sched.killing = s.sched.killing := rfl
@[simp] theorem State.setDeque_sched_slots (s : State) (k : Nat) (d : List ReadyRec) : (s.setDeque k d).sched.slots = s.sched.slots := rfl
@[simp] theorem State.setDeque_sched_streams (s : State) (k : Nat) (d : List ReadyRec) : (s.setDeque k d).sched.streams = s.sched.streams := rfl
@[simp] theorem State.setDeque_sched_ready (s : State) (k : Nat) (d : List ReadyRec) : (s.setDeque k d).sched.ready = s.sched.ready := rfl
@[simp] theorem State.setDeque_sched_spill (s : State) (k : Nat) (d : List ReadyRec) : (s.setDeque k d).sched.spill = s.sched.spill := rfl
@[simp] theorem State.setDeque_sched_share (s : State) (k : Nat) (d : List ReadyRec) : (s.setDeque k d).sched.share = s.sched.share := rfl
@[simp] theorem State.setDeque_sched_crews (s : State) (k : Nat) (d : List ReadyRec) : (s.setDeque k d).sched.crews = s.sched.crews := rfl
@[simp] theorem State.setDeque_sched_nextCrew (s : State) (k : Nat) (d : List ReadyRec) : (s.setDeque k d).sched.nextCrew = s.sched.nextCrew := rfl
@[simp] theorem State.setDeque_sched_frames (s : State) (k : Nat) (d : List ReadyRec) : (s.setDeque k d).sched.frames = s.sched.frames := rfl
@[simp] theorem State.setDeque_sched_serial (s : State) (k : Nat) (d : List ReadyRec) : (s.setDeque k d).sched.serial = s.sched.serial := rfl
@[simp] theorem State.setDeque_sched_quantum (s : State) (k : Nat) (d : List ReadyRec) : (s.setDeque k d).sched.quantum = s.sched.quantum := rfl
@[simp] theorem State.setDeque_sched_quanta (s : State) (k : Nat) (d : List ReadyRec) : (s.setDeque k d).sched.quanta = s.sched.quanta := rfl
@[simp] theorem State.setDeque_sched_abandoned (s : State) (k : Nat) (d : List ReadyRec) : (s.setDeque k d).sched.abandoned = s.sched.abandoned := rfl
@[simp] theorem State.setDeque_sched_kept (s : State) (k : Nat) (d : List ReadyRec) : (s.setDeque k d).sched.kept = s.sched.kept := rfl
@[simp] theorem State.setDeque_pwr (s : State) (k : Nat) (d : List ReadyRec) : (s.setDeque k d).pwr = s.pwr := rfl
@[simp] theorem State.setDeque_tide (s : State) (k : Nat) (d : List ReadyRec) : (s.setDeque k d).tide = s.tide := rfl
@[simp] theorem State.setDeque_fab (s : State) (k : Nat) (d : List ReadyRec) : (s.setDeque k d).fab = s.fab := rfl
@[simp] theorem State.setDeque_sto (s : State) (k : Nat) (d : List ReadyRec) : (s.setDeque k d).sto = s.sto := rfl
@[simp] theorem State.setDeque_boot (s : State) (k : Nat) (d : List ReadyRec) : (s.setDeque k d).boot = s.boot := rfl
@[simp] theorem State.setDeque_pcie (s : State) (k : Nat) (d : List ReadyRec) : (s.setDeque k d).pcie = s.pcie := rfl
@[simp] theorem State.setDeque_committed (s : State) (k : Nat) (d : List ReadyRec) : (s.setDeque k d).committed = s.committed := rfl
@[simp] theorem State.setDeque_image (s : State) (k : Nat) (d : List ReadyRec) : (s.setDeque k d).image = s.image := rfl

/-! `setSpilled` -/

@[simp] theorem State.setSpilled_agenda (s : State) (k : Nat) (n : Nat) : (s.setSpilled k n).agenda = s.agenda := rfl
@[simp] theorem State.setSpilled_curCore (s : State) (k : Nat) (n : Nat) : (s.setSpilled k n).curCore = s.curCore := rfl
@[simp] theorem State.setSpilled_fresh (s : State) (k : Nat) (n : Nat) : (s.setSpilled k n).fresh = s.fresh := rfl
@[simp] theorem State.setSpilled_now (s : State) (k : Nat) (n : Nat) : (s.setSpilled k n).now = s.now := rfl
@[simp] theorem State.setSpilled_ms (s : State) (k : Nat) (n : Nat) : (s.setSpilled k n).ms = s.ms := rfl
@[simp] theorem State.setSpilled_cores (s : State) (k : Nat) (n : Nat) : (s.setSpilled k n).cores = s.cores := rfl
@[simp] theorem State.setSpilled_sched_en (s : State) (k : Nat) (n : Nat) : (s.setSpilled k n).sched.en = s.sched.en := rfl
@[simp] theorem State.setSpilled_sched_stab (s : State) (k : Nat) (n : Nat) : (s.setSpilled k n).sched.stab = s.sched.stab := rfl
@[simp] theorem State.setSpilled_sched_dqsb (s : State) (k : Nat) (n : Nat) : (s.setSpilled k n).sched.dqsb = s.sched.dqsb := rfl
@[simp] theorem State.setSpilled_sched_schErr (s : State) (k : Nat) (n : Nat) : (s.setSpilled k n).sched.schErr = s.sched.schErr := rfl
@[simp] theorem State.setSpilled_sched_ctxb (s : State) (k : Nat) (n : Nat) : (s.setSpilled k n).sched.ctxb = s.sched.ctxb := rfl
@[simp] theorem State.setSpilled_sched_shsb (s : State) (k : Nat) (n : Nat) : (s.setSpilled k n).sched.shsb = s.sched.shsb := rfl
@[simp] theorem State.setSpilled_sched_killing (s : State) (k : Nat) (n : Nat) : (s.setSpilled k n).sched.killing = s.sched.killing := rfl
@[simp] theorem State.setSpilled_sched_slots (s : State) (k : Nat) (n : Nat) : (s.setSpilled k n).sched.slots = s.sched.slots := rfl
@[simp] theorem State.setSpilled_sched_streams (s : State) (k : Nat) (n : Nat) : (s.setSpilled k n).sched.streams = s.sched.streams := rfl
@[simp] theorem State.setSpilled_sched_ready (s : State) (k : Nat) (n : Nat) : (s.setSpilled k n).sched.ready = s.sched.ready := rfl
@[simp] theorem State.setSpilled_sched_deque (s : State) (k : Nat) (n : Nat) : (s.setSpilled k n).sched.deque = s.sched.deque := rfl
@[simp] theorem State.setSpilled_sched_share (s : State) (k : Nat) (n : Nat) : (s.setSpilled k n).sched.share = s.sched.share := rfl
@[simp] theorem State.setSpilled_sched_crews (s : State) (k : Nat) (n : Nat) : (s.setSpilled k n).sched.crews = s.sched.crews := rfl
@[simp] theorem State.setSpilled_sched_nextCrew (s : State) (k : Nat) (n : Nat) : (s.setSpilled k n).sched.nextCrew = s.sched.nextCrew := rfl
@[simp] theorem State.setSpilled_sched_frames (s : State) (k : Nat) (n : Nat) : (s.setSpilled k n).sched.frames = s.sched.frames := rfl
@[simp] theorem State.setSpilled_sched_serial (s : State) (k : Nat) (n : Nat) : (s.setSpilled k n).sched.serial = s.sched.serial := rfl
@[simp] theorem State.setSpilled_sched_quantum (s : State) (k : Nat) (n : Nat) : (s.setSpilled k n).sched.quantum = s.sched.quantum := rfl
@[simp] theorem State.setSpilled_sched_quanta (s : State) (k : Nat) (n : Nat) : (s.setSpilled k n).sched.quanta = s.sched.quanta := rfl
@[simp] theorem State.setSpilled_sched_abandoned (s : State) (k : Nat) (n : Nat) : (s.setSpilled k n).sched.abandoned = s.sched.abandoned := rfl
@[simp] theorem State.setSpilled_sched_kept (s : State) (k : Nat) (n : Nat) : (s.setSpilled k n).sched.kept = s.sched.kept := rfl
@[simp] theorem State.setSpilled_pwr (s : State) (k : Nat) (n : Nat) : (s.setSpilled k n).pwr = s.pwr := rfl
@[simp] theorem State.setSpilled_tide (s : State) (k : Nat) (n : Nat) : (s.setSpilled k n).tide = s.tide := rfl
@[simp] theorem State.setSpilled_fab (s : State) (k : Nat) (n : Nat) : (s.setSpilled k n).fab = s.fab := rfl
@[simp] theorem State.setSpilled_sto (s : State) (k : Nat) (n : Nat) : (s.setSpilled k n).sto = s.sto := rfl
@[simp] theorem State.setSpilled_boot (s : State) (k : Nat) (n : Nat) : (s.setSpilled k n).boot = s.boot := rfl
@[simp] theorem State.setSpilled_pcie (s : State) (k : Nat) (n : Nat) : (s.setSpilled k n).pcie = s.pcie := rfl
@[simp] theorem State.setSpilled_committed (s : State) (k : Nat) (n : Nat) : (s.setSpilled k n).committed = s.committed := rfl
@[simp] theorem State.setSpilled_image (s : State) (k : Nat) (n : Nat) : (s.setSpilled k n).image = s.image := rfl

/-! `setFrame` -/

@[simp] theorem State.setFrame_agenda (s : State) (x k f : Nat) (c : Option Core) : (s.setFrame x k f c).agenda = s.agenda := rfl
@[simp] theorem State.setFrame_curCore (s : State) (x k f : Nat) (c : Option Core) : (s.setFrame x k f c).curCore = s.curCore := rfl
@[simp] theorem State.setFrame_fresh (s : State) (x k f : Nat) (c : Option Core) : (s.setFrame x k f c).fresh = s.fresh := rfl
@[simp] theorem State.setFrame_now (s : State) (x k f : Nat) (c : Option Core) : (s.setFrame x k f c).now = s.now := rfl
@[simp] theorem State.setFrame_ms (s : State) (x k f : Nat) (c : Option Core) : (s.setFrame x k f c).ms = s.ms := rfl
@[simp] theorem State.setFrame_cores (s : State) (x k f : Nat) (c : Option Core) : (s.setFrame x k f c).cores = s.cores := rfl
@[simp] theorem State.setFrame_sched_en (s : State) (x k f : Nat) (c : Option Core) : (s.setFrame x k f c).sched.en = s.sched.en := rfl
@[simp] theorem State.setFrame_sched_stab (s : State) (x k f : Nat) (c : Option Core) : (s.setFrame x k f c).sched.stab = s.sched.stab := rfl
@[simp] theorem State.setFrame_sched_dqsb (s : State) (x k f : Nat) (c : Option Core) : (s.setFrame x k f c).sched.dqsb = s.sched.dqsb := rfl
@[simp] theorem State.setFrame_sched_schErr (s : State) (x k f : Nat) (c : Option Core) : (s.setFrame x k f c).sched.schErr = s.sched.schErr := rfl
@[simp] theorem State.setFrame_sched_ctxb (s : State) (x k f : Nat) (c : Option Core) : (s.setFrame x k f c).sched.ctxb = s.sched.ctxb := rfl
@[simp] theorem State.setFrame_sched_shsb (s : State) (x k f : Nat) (c : Option Core) : (s.setFrame x k f c).sched.shsb = s.sched.shsb := rfl
@[simp] theorem State.setFrame_sched_killing (s : State) (x k f : Nat) (c : Option Core) : (s.setFrame x k f c).sched.killing = s.sched.killing := rfl
@[simp] theorem State.setFrame_sched_slots (s : State) (x k f : Nat) (c : Option Core) : (s.setFrame x k f c).sched.slots = s.sched.slots := rfl
@[simp] theorem State.setFrame_sched_streams (s : State) (x k f : Nat) (c : Option Core) : (s.setFrame x k f c).sched.streams = s.sched.streams := rfl
@[simp] theorem State.setFrame_sched_ready (s : State) (x k f : Nat) (c : Option Core) : (s.setFrame x k f c).sched.ready = s.sched.ready := rfl
@[simp] theorem State.setFrame_sched_deque (s : State) (x k f : Nat) (c : Option Core) : (s.setFrame x k f c).sched.deque = s.sched.deque := rfl
@[simp] theorem State.setFrame_sched_spill (s : State) (x k f : Nat) (c : Option Core) : (s.setFrame x k f c).sched.spill = s.sched.spill := rfl
@[simp] theorem State.setFrame_sched_share (s : State) (x k f : Nat) (c : Option Core) : (s.setFrame x k f c).sched.share = s.sched.share := rfl
@[simp] theorem State.setFrame_sched_crews (s : State) (x k f : Nat) (c : Option Core) : (s.setFrame x k f c).sched.crews = s.sched.crews := rfl
@[simp] theorem State.setFrame_sched_nextCrew (s : State) (x k f : Nat) (c : Option Core) : (s.setFrame x k f c).sched.nextCrew = s.sched.nextCrew := rfl
@[simp] theorem State.setFrame_sched_serial (s : State) (x k f : Nat) (c : Option Core) : (s.setFrame x k f c).sched.serial = s.sched.serial := rfl
@[simp] theorem State.setFrame_sched_quantum (s : State) (x k f : Nat) (c : Option Core) : (s.setFrame x k f c).sched.quantum = s.sched.quantum := rfl
@[simp] theorem State.setFrame_sched_quanta (s : State) (x k f : Nat) (c : Option Core) : (s.setFrame x k f c).sched.quanta = s.sched.quanta := rfl
@[simp] theorem State.setFrame_sched_abandoned (s : State) (x k f : Nat) (c : Option Core) : (s.setFrame x k f c).sched.abandoned = s.sched.abandoned := rfl
@[simp] theorem State.setFrame_sched_kept (s : State) (x k f : Nat) (c : Option Core) : (s.setFrame x k f c).sched.kept = s.sched.kept := rfl
@[simp] theorem State.setFrame_pwr (s : State) (x k f : Nat) (c : Option Core) : (s.setFrame x k f c).pwr = s.pwr := rfl
@[simp] theorem State.setFrame_tide (s : State) (x k f : Nat) (c : Option Core) : (s.setFrame x k f c).tide = s.tide := rfl
@[simp] theorem State.setFrame_fab (s : State) (x k f : Nat) (c : Option Core) : (s.setFrame x k f c).fab = s.fab := rfl
@[simp] theorem State.setFrame_sto (s : State) (x k f : Nat) (c : Option Core) : (s.setFrame x k f c).sto = s.sto := rfl
@[simp] theorem State.setFrame_boot (s : State) (x k f : Nat) (c : Option Core) : (s.setFrame x k f c).boot = s.boot := rfl
@[simp] theorem State.setFrame_pcie (s : State) (x k f : Nat) (c : Option Core) : (s.setFrame x k f c).pcie = s.pcie := rfl
@[simp] theorem State.setFrame_committed (s : State) (x k f : Nat) (c : Option Core) : (s.setFrame x k f c).committed = s.committed := rfl
@[simp] theorem State.setFrame_image (s : State) (x k f : Nat) (c : Option Core) : (s.setFrame x k f c).image = s.image := rfl

/-! `modCrew` -/

@[simp] theorem State.modCrew_agenda (s : State) (id : Nat) (f : Crew → Crew) : (s.modCrew id f).agenda = s.agenda := rfl
@[simp] theorem State.modCrew_curCore (s : State) (id : Nat) (f : Crew → Crew) : (s.modCrew id f).curCore = s.curCore := rfl
@[simp] theorem State.modCrew_fresh (s : State) (id : Nat) (f : Crew → Crew) : (s.modCrew id f).fresh = s.fresh := rfl
@[simp] theorem State.modCrew_now (s : State) (id : Nat) (f : Crew → Crew) : (s.modCrew id f).now = s.now := rfl
@[simp] theorem State.modCrew_ms (s : State) (id : Nat) (f : Crew → Crew) : (s.modCrew id f).ms = s.ms := rfl
@[simp] theorem State.modCrew_cores (s : State) (id : Nat) (f : Crew → Crew) : (s.modCrew id f).cores = s.cores := rfl
@[simp] theorem State.modCrew_sched_en (s : State) (id : Nat) (f : Crew → Crew) : (s.modCrew id f).sched.en = s.sched.en := rfl
@[simp] theorem State.modCrew_sched_stab (s : State) (id : Nat) (f : Crew → Crew) : (s.modCrew id f).sched.stab = s.sched.stab := rfl
@[simp] theorem State.modCrew_sched_dqsb (s : State) (id : Nat) (f : Crew → Crew) : (s.modCrew id f).sched.dqsb = s.sched.dqsb := rfl
@[simp] theorem State.modCrew_sched_schErr (s : State) (id : Nat) (f : Crew → Crew) : (s.modCrew id f).sched.schErr = s.sched.schErr := rfl
@[simp] theorem State.modCrew_sched_ctxb (s : State) (id : Nat) (f : Crew → Crew) : (s.modCrew id f).sched.ctxb = s.sched.ctxb := rfl
@[simp] theorem State.modCrew_sched_shsb (s : State) (id : Nat) (f : Crew → Crew) : (s.modCrew id f).sched.shsb = s.sched.shsb := rfl
@[simp] theorem State.modCrew_sched_killing (s : State) (id : Nat) (f : Crew → Crew) : (s.modCrew id f).sched.killing = s.sched.killing := rfl
@[simp] theorem State.modCrew_sched_slots (s : State) (id : Nat) (f : Crew → Crew) : (s.modCrew id f).sched.slots = s.sched.slots := rfl
@[simp] theorem State.modCrew_sched_streams (s : State) (id : Nat) (f : Crew → Crew) : (s.modCrew id f).sched.streams = s.sched.streams := rfl
@[simp] theorem State.modCrew_sched_ready (s : State) (id : Nat) (f : Crew → Crew) : (s.modCrew id f).sched.ready = s.sched.ready := rfl
@[simp] theorem State.modCrew_sched_deque (s : State) (id : Nat) (f : Crew → Crew) : (s.modCrew id f).sched.deque = s.sched.deque := rfl
@[simp] theorem State.modCrew_sched_spill (s : State) (id : Nat) (f : Crew → Crew) : (s.modCrew id f).sched.spill = s.sched.spill := rfl
@[simp] theorem State.modCrew_sched_share (s : State) (id : Nat) (f : Crew → Crew) : (s.modCrew id f).sched.share = s.sched.share := rfl
@[simp] theorem State.modCrew_sched_nextCrew (s : State) (id : Nat) (f : Crew → Crew) : (s.modCrew id f).sched.nextCrew = s.sched.nextCrew := rfl
@[simp] theorem State.modCrew_sched_frames (s : State) (id : Nat) (f : Crew → Crew) : (s.modCrew id f).sched.frames = s.sched.frames := rfl
@[simp] theorem State.modCrew_sched_serial (s : State) (id : Nat) (f : Crew → Crew) : (s.modCrew id f).sched.serial = s.sched.serial := rfl
@[simp] theorem State.modCrew_sched_quantum (s : State) (id : Nat) (f : Crew → Crew) : (s.modCrew id f).sched.quantum = s.sched.quantum := rfl
@[simp] theorem State.modCrew_sched_quanta (s : State) (id : Nat) (f : Crew → Crew) : (s.modCrew id f).sched.quanta = s.sched.quanta := rfl
@[simp] theorem State.modCrew_sched_abandoned (s : State) (id : Nat) (f : Crew → Crew) : (s.modCrew id f).sched.abandoned = s.sched.abandoned := rfl
@[simp] theorem State.modCrew_sched_kept (s : State) (id : Nat) (f : Crew → Crew) : (s.modCrew id f).sched.kept = s.sched.kept := rfl
@[simp] theorem State.modCrew_pwr (s : State) (id : Nat) (f : Crew → Crew) : (s.modCrew id f).pwr = s.pwr := rfl
@[simp] theorem State.modCrew_tide (s : State) (id : Nat) (f : Crew → Crew) : (s.modCrew id f).tide = s.tide := rfl
@[simp] theorem State.modCrew_fab (s : State) (id : Nat) (f : Crew → Crew) : (s.modCrew id f).fab = s.fab := rfl
@[simp] theorem State.modCrew_sto (s : State) (id : Nat) (f : Crew → Crew) : (s.modCrew id f).sto = s.sto := rfl
@[simp] theorem State.modCrew_boot (s : State) (id : Nat) (f : Crew → Crew) : (s.modCrew id f).boot = s.boot := rfl
@[simp] theorem State.modCrew_pcie (s : State) (id : Nat) (f : Crew → Crew) : (s.modCrew id f).pcie = s.pcie := rfl
@[simp] theorem State.modCrew_committed (s : State) (id : Nat) (f : Crew → Crew) : (s.modCrew id f).committed = s.committed := rfl
@[simp] theorem State.modCrew_image (s : State) (id : Nat) (f : Crew → Crew) : (s.modCrew id f).image = s.image := rfl

/-! `schedErr` -/

@[simp] theorem State.schedErr_agenda (s : State) : s.schedErr.agenda = s.agenda := rfl
@[simp] theorem State.schedErr_curCore (s : State) : s.schedErr.curCore = s.curCore := rfl
@[simp] theorem State.schedErr_fresh (s : State) : s.schedErr.fresh = s.fresh := rfl
@[simp] theorem State.schedErr_now (s : State) : s.schedErr.now = s.now := rfl
@[simp] theorem State.schedErr_ms (s : State) : s.schedErr.ms = s.ms := rfl
@[simp] theorem State.schedErr_cores (s : State) : s.schedErr.cores = s.cores := rfl
@[simp] theorem State.schedErr_sched_en (s : State) : s.schedErr.sched.en = s.sched.en := rfl
@[simp] theorem State.schedErr_sched_stab (s : State) : s.schedErr.sched.stab = s.sched.stab := rfl
@[simp] theorem State.schedErr_sched_dqsb (s : State) : s.schedErr.sched.dqsb = s.sched.dqsb := rfl
@[simp] theorem State.schedErr_sched_ctxb (s : State) : s.schedErr.sched.ctxb = s.sched.ctxb := rfl
@[simp] theorem State.schedErr_sched_shsb (s : State) : s.schedErr.sched.shsb = s.sched.shsb := rfl
@[simp] theorem State.schedErr_sched_killing (s : State) : s.schedErr.sched.killing = s.sched.killing := rfl
@[simp] theorem State.schedErr_sched_slots (s : State) : s.schedErr.sched.slots = s.sched.slots := rfl
@[simp] theorem State.schedErr_sched_streams (s : State) : s.schedErr.sched.streams = s.sched.streams := rfl
@[simp] theorem State.schedErr_sched_ready (s : State) : s.schedErr.sched.ready = s.sched.ready := rfl
@[simp] theorem State.schedErr_sched_deque (s : State) : s.schedErr.sched.deque = s.sched.deque := rfl
@[simp] theorem State.schedErr_sched_spill (s : State) : s.schedErr.sched.spill = s.sched.spill := rfl
@[simp] theorem State.schedErr_sched_share (s : State) : s.schedErr.sched.share = s.sched.share := rfl
@[simp] theorem State.schedErr_sched_crews (s : State) : s.schedErr.sched.crews = s.sched.crews := rfl
@[simp] theorem State.schedErr_sched_nextCrew (s : State) : s.schedErr.sched.nextCrew = s.sched.nextCrew := rfl
@[simp] theorem State.schedErr_sched_frames (s : State) : s.schedErr.sched.frames = s.sched.frames := rfl
@[simp] theorem State.schedErr_sched_serial (s : State) : s.schedErr.sched.serial = s.sched.serial := rfl
@[simp] theorem State.schedErr_sched_quantum (s : State) : s.schedErr.sched.quantum = s.sched.quantum := rfl
@[simp] theorem State.schedErr_sched_quanta (s : State) : s.schedErr.sched.quanta = s.sched.quanta := rfl
@[simp] theorem State.schedErr_sched_abandoned (s : State) : s.schedErr.sched.abandoned = s.sched.abandoned := rfl
@[simp] theorem State.schedErr_sched_kept (s : State) : s.schedErr.sched.kept = s.sched.kept := rfl
@[simp] theorem State.schedErr_pwr (s : State) : s.schedErr.pwr = s.pwr := rfl
@[simp] theorem State.schedErr_tide (s : State) : s.schedErr.tide = s.tide := rfl
@[simp] theorem State.schedErr_fab (s : State) : s.schedErr.fab = s.fab := rfl
@[simp] theorem State.schedErr_sto (s : State) : s.schedErr.sto = s.sto := rfl
@[simp] theorem State.schedErr_boot (s : State) : s.schedErr.boot = s.boot := rfl
@[simp] theorem State.schedErr_pcie (s : State) : s.schedErr.pcie = s.pcie := rfl
@[simp] theorem State.schedErr_committed (s : State) : s.schedErr.committed = s.committed := rfl
@[simp] theorem State.schedErr_image (s : State) : s.schedErr.image = s.image := rfl

/-! `send` -/

@[simp] theorem State.send_agenda (s : State) (d : Nat) (m : Msg) : (s.send d m).agenda = s.agenda := rfl
@[simp] theorem State.send_curCore (s : State) (d : Nat) (m : Msg) : (s.send d m).curCore = s.curCore := rfl
@[simp] theorem State.send_fresh (s : State) (d : Nat) (m : Msg) : (s.send d m).fresh = s.fresh := rfl
@[simp] theorem State.send_now (s : State) (d : Nat) (m : Msg) : (s.send d m).now = s.now := rfl
@[simp] theorem State.send_ms (s : State) (d : Nat) (m : Msg) : (s.send d m).ms = s.ms := rfl
@[simp] theorem State.send_cores (s : State) (d : Nat) (m : Msg) : (s.send d m).cores = s.cores := rfl
@[simp] theorem State.send_sched (s : State) (d : Nat) (m : Msg) : (s.send d m).sched = s.sched := rfl
@[simp] theorem State.send_pwr (s : State) (d : Nat) (m : Msg) : (s.send d m).pwr = s.pwr := rfl
@[simp] theorem State.send_tide (s : State) (d : Nat) (m : Msg) : (s.send d m).tide = s.tide := rfl
@[simp] theorem State.send_fab_devn (s : State) (d : Nat) (m : Msg) : (s.send d m).fab.devn = s.fab.devn := rfl
@[simp] theorem State.send_fab_gtime (s : State) (d : Nat) (m : Msg) : (s.send d m).fab.gtime = s.fab.gtime := rfl
@[simp] theorem State.send_fab_ldown (s : State) (d : Nat) (m : Msg) : (s.send d m).fab.ldown = s.fab.ldown := rfl
@[simp] theorem State.send_fab_sheds (s : State) (d : Nat) (m : Msg) : (s.send d m).fab.sheds = s.fab.sheds := rfl
@[simp] theorem State.send_fab_crbase (s : State) (d : Nat) (m : Msg) : (s.send d m).fab.crbase = s.fab.crbase := rfl
@[simp] theorem State.send_fab_cren (s : State) (d : Nat) (m : Msg) : (s.send d m).fab.cren = s.fab.cren := rfl
@[simp] theorem State.send_fab_crlost (s : State) (d : Nat) (m : Msg) : (s.send d m).fab.crlost = s.fab.crlost := rfl
@[simp] theorem State.send_fab_crpc (s : State) (d : Nat) (m : Msg) : (s.send d m).fab.crpc = s.fab.crpc := rfl
@[simp] theorem State.send_fab_crcc (s : State) (d : Nat) (m : Msg) : (s.send d m).fab.crcc = s.fab.crcc := rfl
@[simp] theorem State.send_fab_ingress (s : State) (d : Nat) (m : Msg) : (s.send d m).fab.ingress = s.fab.ingress := rfl
@[simp] theorem State.send_fab_unacked (s : State) (d : Nat) (m : Msg) : (s.send d m).fab.unacked = s.fab.unacked := rfl
@[simp] theorem State.send_fab_reports (s : State) (d : Nat) (m : Msg) : (s.send d m).fab.reports = s.fab.reports := rfl
@[simp] theorem State.send_fab_paused (s : State) (d : Nat) (m : Msg) : (s.send d m).fab.paused = s.fab.paused := rfl
@[simp] theorem State.send_fab_slew (s : State) (d : Nat) (m : Msg) : (s.send d m).fab.slew = s.fab.slew := rfl
@[simp] theorem State.send_sto (s : State) (d : Nat) (m : Msg) : (s.send d m).sto = s.sto := rfl
@[simp] theorem State.send_boot (s : State) (d : Nat) (m : Msg) : (s.send d m).boot = s.boot := rfl
@[simp] theorem State.send_pcie (s : State) (d : Nat) (m : Msg) : (s.send d m).pcie = s.pcie := rfl
@[simp] theorem State.send_committed (s : State) (d : Nat) (m : Msg) : (s.send d m).committed = s.committed := rfl
@[simp] theorem State.send_image (s : State) (d : Nat) (m : Msg) : (s.send d m).image = s.image := rfl

/-! `setClusterPwr` -/

@[simp] theorem State.setClusterPwr_agenda (s : State) (cl : Nat) (p : ClusterPwr) : (s.setClusterPwr cl p).agenda = s.agenda := rfl
@[simp] theorem State.setClusterPwr_curCore (s : State) (cl : Nat) (p : ClusterPwr) : (s.setClusterPwr cl p).curCore = s.curCore := rfl
@[simp] theorem State.setClusterPwr_fresh (s : State) (cl : Nat) (p : ClusterPwr) : (s.setClusterPwr cl p).fresh = s.fresh := rfl
@[simp] theorem State.setClusterPwr_now (s : State) (cl : Nat) (p : ClusterPwr) : (s.setClusterPwr cl p).now = s.now := rfl
@[simp] theorem State.setClusterPwr_ms (s : State) (cl : Nat) (p : ClusterPwr) : (s.setClusterPwr cl p).ms = s.ms := rfl
@[simp] theorem State.setClusterPwr_cores (s : State) (cl : Nat) (p : ClusterPwr) : (s.setClusterPwr cl p).cores = s.cores := rfl
@[simp] theorem State.setClusterPwr_sched (s : State) (cl : Nat) (p : ClusterPwr) : (s.setClusterPwr cl p).sched = s.sched := rfl
@[simp] theorem State.setClusterPwr_pwr_zones (s : State) (cl : Nat) (p : ClusterPwr) : (s.setClusterPwr cl p).pwr.zones = s.pwr.zones := rfl
@[simp] theorem State.setClusterPwr_pwr_coolMin0 (s : State) (cl : Nat) (p : ClusterPwr) : (s.setClusterPwr cl p).pwr.coolMin0 = s.pwr.coolMin0 := rfl
@[simp] theorem State.setClusterPwr_pwr_coolMin1 (s : State) (cl : Nat) (p : ClusterPwr) : (s.setClusterPwr cl p).pwr.coolMin1 = s.pwr.coolMin1 := rfl
@[simp] theorem State.setClusterPwr_pwr_pump (s : State) (cl : Nat) (p : ClusterPwr) : (s.setClusterPwr cl p).pwr.pump = s.pwr.pump := rfl
@[simp] theorem State.setClusterPwr_pwr_lostFrames (s : State) (cl : Nat) (p : ClusterPwr) : (s.setClusterPwr cl p).pwr.lostFrames = s.pwr.lostFrames := rfl
@[simp] theorem State.setClusterPwr_pwr_unresponsive (s : State) (cl : Nat) (p : ClusterPwr) : (s.setClusterPwr cl p).pwr.unresponsive = s.pwr.unresponsive := rfl
@[simp] theorem State.setClusterPwr_pwr_frameSeq (s : State) (cl : Nat) (p : ClusterPwr) : (s.setClusterPwr cl p).pwr.frameSeq = s.pwr.frameSeq := rfl
@[simp] theorem State.setClusterPwr_pwr_frames (s : State) (cl : Nat) (p : ClusterPwr) : (s.setClusterPwr cl p).pwr.frames = s.pwr.frames := rfl
@[simp] theorem State.setClusterPwr_pwr_awaiting (s : State) (cl : Nat) (p : ClusterPwr) : (s.setClusterPwr cl p).pwr.awaiting = s.pwr.awaiting := rfl
@[simp] theorem State.setClusterPwr_pwr_thermal (s : State) (cl : Nat) (p : ClusterPwr) : (s.setClusterPwr cl p).pwr.thermal = s.pwr.thermal := rfl
@[simp] theorem State.setClusterPwr_pwr_hot (s : State) (cl : Nat) (p : ClusterPwr) : (s.setClusterPwr cl p).pwr.hot = s.pwr.hot := rfl
@[simp] theorem State.setClusterPwr_pwr_window (s : State) (cl : Nat) (p : ClusterPwr) : (s.setClusterPwr cl p).pwr.window = s.pwr.window := rfl
@[simp] theorem State.setClusterPwr_pwr_esw0 (s : State) (cl : Nat) (p : ClusterPwr) : (s.setClusterPwr cl p).pwr.esw0 = s.pwr.esw0 := rfl
@[simp] theorem State.setClusterPwr_pwr_esw1 (s : State) (cl : Nat) (p : ClusterPwr) : (s.setClusterPwr cl p).pwr.esw1 = s.pwr.esw1 := rfl
@[simp] theorem State.setClusterPwr_pwr_tripped (s : State) (cl : Nat) (p : ClusterPwr) : (s.setClusterPwr cl p).pwr.tripped = s.pwr.tripped := rfl
@[simp] theorem State.setClusterPwr_tide (s : State) (cl : Nat) (p : ClusterPwr) : (s.setClusterPwr cl p).tide = s.tide := rfl
@[simp] theorem State.setClusterPwr_fab (s : State) (cl : Nat) (p : ClusterPwr) : (s.setClusterPwr cl p).fab = s.fab := rfl
@[simp] theorem State.setClusterPwr_sto (s : State) (cl : Nat) (p : ClusterPwr) : (s.setClusterPwr cl p).sto = s.sto := rfl
@[simp] theorem State.setClusterPwr_boot (s : State) (cl : Nat) (p : ClusterPwr) : (s.setClusterPwr cl p).boot = s.boot := rfl
@[simp] theorem State.setClusterPwr_pcie (s : State) (cl : Nat) (p : ClusterPwr) : (s.setClusterPwr cl p).pcie = s.pcie := rfl
@[simp] theorem State.setClusterPwr_committed (s : State) (cl : Nat) (p : ClusterPwr) : (s.setClusterPwr cl p).committed = s.committed := rfl
@[simp] theorem State.setClusterPwr_image (s : State) (cl : Nat) (p : ClusterPwr) : (s.setClusterPwr cl p).image = s.image := rfl

/-! `setZone` -/

@[simp] theorem State.setZone_agenda (s : State) (z : Nat) (x : Zone) : (s.setZone z x).agenda = s.agenda := rfl
@[simp] theorem State.setZone_curCore (s : State) (z : Nat) (x : Zone) : (s.setZone z x).curCore = s.curCore := rfl
@[simp] theorem State.setZone_fresh (s : State) (z : Nat) (x : Zone) : (s.setZone z x).fresh = s.fresh := rfl
@[simp] theorem State.setZone_now (s : State) (z : Nat) (x : Zone) : (s.setZone z x).now = s.now := rfl
@[simp] theorem State.setZone_ms (s : State) (z : Nat) (x : Zone) : (s.setZone z x).ms = s.ms := rfl
@[simp] theorem State.setZone_cores (s : State) (z : Nat) (x : Zone) : (s.setZone z x).cores = s.cores := rfl
@[simp] theorem State.setZone_sched (s : State) (z : Nat) (x : Zone) : (s.setZone z x).sched = s.sched := rfl
@[simp] theorem State.setZone_pwr_clusters (s : State) (z : Nat) (x : Zone) : (s.setZone z x).pwr.clusters = s.pwr.clusters := rfl
@[simp] theorem State.setZone_pwr_coolMin0 (s : State) (z : Nat) (x : Zone) : (s.setZone z x).pwr.coolMin0 = s.pwr.coolMin0 := rfl
@[simp] theorem State.setZone_pwr_coolMin1 (s : State) (z : Nat) (x : Zone) : (s.setZone z x).pwr.coolMin1 = s.pwr.coolMin1 := rfl
@[simp] theorem State.setZone_pwr_pump (s : State) (z : Nat) (x : Zone) : (s.setZone z x).pwr.pump = s.pwr.pump := rfl
@[simp] theorem State.setZone_pwr_lostFrames (s : State) (z : Nat) (x : Zone) : (s.setZone z x).pwr.lostFrames = s.pwr.lostFrames := rfl
@[simp] theorem State.setZone_pwr_unresponsive (s : State) (z : Nat) (x : Zone) : (s.setZone z x).pwr.unresponsive = s.pwr.unresponsive := rfl
@[simp] theorem State.setZone_pwr_frameSeq (s : State) (z : Nat) (x : Zone) : (s.setZone z x).pwr.frameSeq = s.pwr.frameSeq := rfl
@[simp] theorem State.setZone_pwr_frames (s : State) (z : Nat) (x : Zone) : (s.setZone z x).pwr.frames = s.pwr.frames := rfl
@[simp] theorem State.setZone_pwr_awaiting (s : State) (z : Nat) (x : Zone) : (s.setZone z x).pwr.awaiting = s.pwr.awaiting := rfl
@[simp] theorem State.setZone_pwr_thermal (s : State) (z : Nat) (x : Zone) : (s.setZone z x).pwr.thermal = s.pwr.thermal := rfl
@[simp] theorem State.setZone_pwr_hot (s : State) (z : Nat) (x : Zone) : (s.setZone z x).pwr.hot = s.pwr.hot := rfl
@[simp] theorem State.setZone_pwr_window (s : State) (z : Nat) (x : Zone) : (s.setZone z x).pwr.window = s.pwr.window := rfl
@[simp] theorem State.setZone_pwr_esw0 (s : State) (z : Nat) (x : Zone) : (s.setZone z x).pwr.esw0 = s.pwr.esw0 := rfl
@[simp] theorem State.setZone_pwr_esw1 (s : State) (z : Nat) (x : Zone) : (s.setZone z x).pwr.esw1 = s.pwr.esw1 := rfl
@[simp] theorem State.setZone_pwr_tripped (s : State) (z : Nat) (x : Zone) : (s.setZone z x).pwr.tripped = s.pwr.tripped := rfl
@[simp] theorem State.setZone_tide (s : State) (z : Nat) (x : Zone) : (s.setZone z x).tide = s.tide := rfl
@[simp] theorem State.setZone_fab (s : State) (z : Nat) (x : Zone) : (s.setZone z x).fab = s.fab := rfl
@[simp] theorem State.setZone_sto (s : State) (z : Nat) (x : Zone) : (s.setZone z x).sto = s.sto := rfl
@[simp] theorem State.setZone_boot (s : State) (z : Nat) (x : Zone) : (s.setZone z x).boot = s.boot := rfl
@[simp] theorem State.setZone_pcie (s : State) (z : Nat) (x : Zone) : (s.setZone z x).pcie = s.pcie := rfl
@[simp] theorem State.setZone_committed (s : State) (z : Nat) (x : Zone) : (s.setZone z x).committed = s.committed := rfl
@[simp] theorem State.setZone_image (s : State) (z : Nat) (x : Zone) : (s.setZone z x).image = s.image := rfl

/-! `modMember` -/

@[simp] theorem State.modMember_agenda (s : State) (d : Nat) (f : TideMember → TideMember) : (s.modMember d f).agenda = s.agenda := rfl
@[simp] theorem State.modMember_curCore (s : State) (d : Nat) (f : TideMember → TideMember) : (s.modMember d f).curCore = s.curCore := rfl
@[simp] theorem State.modMember_fresh (s : State) (d : Nat) (f : TideMember → TideMember) : (s.modMember d f).fresh = s.fresh := rfl
@[simp] theorem State.modMember_now (s : State) (d : Nat) (f : TideMember → TideMember) : (s.modMember d f).now = s.now := rfl
@[simp] theorem State.modMember_ms (s : State) (d : Nat) (f : TideMember → TideMember) : (s.modMember d f).ms = s.ms := rfl
@[simp] theorem State.modMember_cores (s : State) (d : Nat) (f : TideMember → TideMember) : (s.modMember d f).cores = s.cores := rfl
@[simp] theorem State.modMember_sched (s : State) (d : Nat) (f : TideMember → TideMember) : (s.modMember d f).sched = s.sched := rfl
@[simp] theorem State.modMember_pwr (s : State) (d : Nat) (f : TideMember → TideMember) : (s.modMember d f).pwr = s.pwr := rfl
@[simp] theorem State.modMember_tide_group (s : State) (d : Nat) (f : TideMember → TideMember) : (s.modMember d f).tide.group = s.tide.group := rfl
@[simp] theorem State.modMember_tide_leader (s : State) (d : Nat) (f : TideMember → TideMember) : (s.modMember d f).tide.leader = s.tide.leader := rfl
@[simp] theorem State.modMember_tide_en (s : State) (d : Nat) (f : TideMember → TideMember) : (s.modMember d f).tide.en = s.tide.en := rfl
@[simp] theorem State.modMember_tide_limit (s : State) (d : Nat) (f : TideMember → TideMember) : (s.modMember d f).tide.limit = s.tide.limit := rfl
@[simp] theorem State.modMember_tide_late (s : State) (d : Nat) (f : TideMember → TideMember) : (s.modMember d f).tide.late = s.tide.late := rfl
@[simp] theorem State.modMember_tide_fail (s : State) (d : Nat) (f : TideMember → TideMember) : (s.modMember d f).tide.fail = s.tide.fail := rfl
@[simp] theorem State.modMember_tide_state (s : State) (d : Nat) (f : TideMember → TideMember) : (s.modMember d f).tide.state = s.tide.state := rfl
@[simp] theorem State.modMember_tide_ceil (s : State) (d : Nat) (f : TideMember → TideMember) : (s.modMember d f).tide.ceil = s.tide.ceil := rfl
@[simp] theorem State.modMember_tide_seq (s : State) (d : Nat) (f : TideMember → TideMember) : (s.modMember d f).tide.seq = s.tide.seq := rfl
@[simp] theorem State.modMember_tide_joinSent (s : State) (d : Nat) (f : TideMember → TideMember) : (s.modMember d f).tide.joinSent = s.tide.joinSent := rfl
@[simp] theorem State.modMember_tide_joinRound (s : State) (d : Nat) (f : TideMember → TideMember) : (s.modMember d f).tide.joinRound = s.tide.joinRound := rfl
@[simp] theorem State.modMember_tide_leaveRound (s : State) (d : Nat) (f : TideMember → TideMember) : (s.modMember d f).tide.leaveRound = s.tide.leaveRound := rfl
@[simp] theorem State.modMember_tide_evicted (s : State) (d : Nat) (f : TideMember → TideMember) : (s.modMember d f).tide.evicted = s.tide.evicted := rfl
@[simp] theorem State.modMember_tide_stepped (s : State) (d : Nat) (f : TideMember → TideMember) : (s.modMember d f).tide.stepped = s.tide.stepped := rfl
@[simp] theorem State.modMember_tide_own (s : State) (d : Nat) (f : TideMember → TideMember) : (s.modMember d f).tide.own = s.tide.own := rfl
@[simp] theorem State.modMember_tide_beatAt (s : State) (d : Nat) (f : TideMember → TideMember) : (s.modMember d f).tide.beatAt = s.tide.beatAt := rfl
@[simp] theorem State.modMember_tide_syncRound (s : State) (d : Nat) (f : TideMember → TideMember) : (s.modMember d f).tide.syncRound = s.tide.syncRound := rfl
@[simp] theorem State.modMember_fab (s : State) (d : Nat) (f : TideMember → TideMember) : (s.modMember d f).fab = s.fab := rfl
@[simp] theorem State.modMember_sto (s : State) (d : Nat) (f : TideMember → TideMember) : (s.modMember d f).sto = s.sto := rfl
@[simp] theorem State.modMember_boot (s : State) (d : Nat) (f : TideMember → TideMember) : (s.modMember d f).boot = s.boot := rfl
@[simp] theorem State.modMember_pcie (s : State) (d : Nat) (f : TideMember → TideMember) : (s.modMember d f).pcie = s.pcie := rfl
@[simp] theorem State.modMember_committed (s : State) (d : Nat) (f : TideMember → TideMember) : (s.modMember d f).committed = s.committed := rfl
@[simp] theorem State.modMember_image (s : State) (d : Nat) (f : TideMember → TideMember) : (s.modMember d f).image = s.image := rfl

/-! `nextSeq` -/

@[simp] theorem State.nextSeq_agenda (s : State) : s.nextSeq.agenda = s.agenda := rfl
@[simp] theorem State.nextSeq_curCore (s : State) : s.nextSeq.curCore = s.curCore := rfl
@[simp] theorem State.nextSeq_fresh (s : State) : s.nextSeq.fresh = s.fresh := rfl
@[simp] theorem State.nextSeq_now (s : State) : s.nextSeq.now = s.now := rfl
@[simp] theorem State.nextSeq_ms (s : State) : s.nextSeq.ms = s.ms := rfl
@[simp] theorem State.nextSeq_cores (s : State) : s.nextSeq.cores = s.cores := rfl
@[simp] theorem State.nextSeq_sched (s : State) : s.nextSeq.sched = s.sched := rfl
@[simp] theorem State.nextSeq_pwr (s : State) : s.nextSeq.pwr = s.pwr := rfl
@[simp] theorem State.nextSeq_tide_group (s : State) : s.nextSeq.tide.group = s.tide.group := rfl
@[simp] theorem State.nextSeq_tide_leader (s : State) : s.nextSeq.tide.leader = s.tide.leader := rfl
@[simp] theorem State.nextSeq_tide_en (s : State) : s.nextSeq.tide.en = s.tide.en := rfl
@[simp] theorem State.nextSeq_tide_limit (s : State) : s.nextSeq.tide.limit = s.tide.limit := rfl
@[simp] theorem State.nextSeq_tide_late (s : State) : s.nextSeq.tide.late = s.tide.late := rfl
@[simp] theorem State.nextSeq_tide_fail (s : State) : s.nextSeq.tide.fail = s.tide.fail := rfl
@[simp] theorem State.nextSeq_tide_state (s : State) : s.nextSeq.tide.state = s.tide.state := rfl
@[simp] theorem State.nextSeq_tide_ceil (s : State) : s.nextSeq.tide.ceil = s.tide.ceil := rfl
@[simp] theorem State.nextSeq_tide_members (s : State) : s.nextSeq.tide.members = s.tide.members := rfl
@[simp] theorem State.nextSeq_tide_joinSent (s : State) : s.nextSeq.tide.joinSent = s.tide.joinSent := rfl
@[simp] theorem State.nextSeq_tide_joinRound (s : State) : s.nextSeq.tide.joinRound = s.tide.joinRound := rfl
@[simp] theorem State.nextSeq_tide_leaveRound (s : State) : s.nextSeq.tide.leaveRound = s.tide.leaveRound := rfl
@[simp] theorem State.nextSeq_tide_evicted (s : State) : s.nextSeq.tide.evicted = s.tide.evicted := rfl
@[simp] theorem State.nextSeq_tide_stepped (s : State) : s.nextSeq.tide.stepped = s.tide.stepped := rfl
@[simp] theorem State.nextSeq_tide_own (s : State) : s.nextSeq.tide.own = s.tide.own := rfl
@[simp] theorem State.nextSeq_tide_beatAt (s : State) : s.nextSeq.tide.beatAt = s.tide.beatAt := rfl
@[simp] theorem State.nextSeq_tide_syncRound (s : State) : s.nextSeq.tide.syncRound = s.tide.syncRound := rfl
@[simp] theorem State.nextSeq_fab (s : State) : s.nextSeq.fab = s.fab := rfl
@[simp] theorem State.nextSeq_sto (s : State) : s.nextSeq.sto = s.sto := rfl
@[simp] theorem State.nextSeq_boot (s : State) : s.nextSeq.boot = s.boot := rfl
@[simp] theorem State.nextSeq_pcie (s : State) : s.nextSeq.pcie = s.pcie := rfl
@[simp] theorem State.nextSeq_committed (s : State) : s.nextSeq.committed = s.committed := rfl
@[simp] theorem State.nextSeq_image (s : State) : s.nextSeq.image = s.image := rfl

/-! `advance` -/

@[simp] theorem State.advance_agenda (s : State) (n : Nat) : (s.advance n).agenda = s.agenda := rfl
@[simp] theorem State.advance_curCore (s : State) (n : Nat) : (s.advance n).curCore = s.curCore := rfl
@[simp] theorem State.advance_fresh (s : State) (n : Nat) : (s.advance n).fresh = s.fresh := rfl
@[simp] theorem State.advance_ms (s : State) (n : Nat) : (s.advance n).ms = s.ms := rfl
@[simp] theorem State.advance_cores (s : State) (n : Nat) : (s.advance n).cores = s.cores := rfl
@[simp] theorem State.advance_sched (s : State) (n : Nat) : (s.advance n).sched = s.sched := rfl
@[simp] theorem State.advance_pwr (s : State) (n : Nat) : (s.advance n).pwr = s.pwr := rfl
@[simp] theorem State.advance_tide (s : State) (n : Nat) : (s.advance n).tide = s.tide := rfl
@[simp] theorem State.advance_fab_devn (s : State) (n : Nat) : (s.advance n).fab.devn = s.fab.devn := rfl
@[simp] theorem State.advance_fab_ldown (s : State) (n : Nat) : (s.advance n).fab.ldown = s.fab.ldown := rfl
@[simp] theorem State.advance_fab_sheds (s : State) (n : Nat) : (s.advance n).fab.sheds = s.fab.sheds := rfl
@[simp] theorem State.advance_fab_crbase (s : State) (n : Nat) : (s.advance n).fab.crbase = s.fab.crbase := rfl
@[simp] theorem State.advance_fab_cren (s : State) (n : Nat) : (s.advance n).fab.cren = s.fab.cren := rfl
@[simp] theorem State.advance_fab_crlost (s : State) (n : Nat) : (s.advance n).fab.crlost = s.fab.crlost := rfl
@[simp] theorem State.advance_fab_crpc (s : State) (n : Nat) : (s.advance n).fab.crpc = s.fab.crpc := rfl
@[simp] theorem State.advance_fab_crcc (s : State) (n : Nat) : (s.advance n).fab.crcc = s.fab.crcc := rfl
@[simp] theorem State.advance_fab_ingress (s : State) (n : Nat) : (s.advance n).fab.ingress = s.fab.ingress := rfl
@[simp] theorem State.advance_fab_unacked (s : State) (n : Nat) : (s.advance n).fab.unacked = s.fab.unacked := rfl
@[simp] theorem State.advance_fab_outbox (s : State) (n : Nat) : (s.advance n).fab.outbox = s.fab.outbox := rfl
@[simp] theorem State.advance_fab_held (s : State) (n : Nat) : (s.advance n).fab.held = s.fab.held := rfl
@[simp] theorem State.advance_fab_serial (s : State) (n : Nat) : (s.advance n).fab.serial = s.fab.serial := rfl
@[simp] theorem State.advance_fab_reports (s : State) (n : Nat) : (s.advance n).fab.reports = s.fab.reports := rfl
@[simp] theorem State.advance_fab_paused (s : State) (n : Nat) : (s.advance n).fab.paused = s.fab.paused := rfl
@[simp] theorem State.advance_sto (s : State) (n : Nat) : (s.advance n).sto = s.sto := rfl
@[simp] theorem State.advance_boot (s : State) (n : Nat) : (s.advance n).boot = s.boot := rfl
@[simp] theorem State.advance_pcie (s : State) (n : Nat) : (s.advance n).pcie = s.pcie := rfl
@[simp] theorem State.advance_committed (s : State) (n : Nat) : (s.advance n).committed = s.committed := rfl
@[simp] theorem State.advance_image (s : State) (n : Nat) : (s.advance n).image = s.image := rfl

/-! `Core.pop` -/

@[simp] theorem Core.pop_seq (c : Core) : c.pop.seq = c.seq := rfl
@[simp] theorem Core.pop_xroot (c : Core) : c.pop.xroot = c.xroot := rfl
@[simp] theorem Core.pop_xrdt (c : Core) : c.pop.xrdt = c.xrdt := rfl
@[simp] theorem Core.pop_xpool (c : Core) : c.pop.xpool = c.xpool := rfl
@[simp] theorem Core.pop_code (c : Core) : c.pop.code = c.code := rfl
@[simp] theorem Core.pop_hdr (c : Core) : c.pop.hdr = c.hdr := rfl
@[simp] theorem Core.pop_task (c : Core) : c.pop.task = c.task := rfl
@[simp] theorem Core.pop_mx (c : Core) : c.pop.mx = c.mx := rfl
@[simp] theorem Core.pop_cp (c : Core) : c.pop.cp = c.cp := rfl
@[simp] theorem Core.pop_clk (c : Core) : c.pop.clk = c.clk := rfl
@[simp] theorem Core.pop_ways (c : Core) : c.pop.ways = c.ways := rfl
@[simp] theorem Core.pop_scratch (c : Core) : c.pop.scratch = c.scratch := rfl
@[simp] theorem Core.pop_scratchPoison (c : Core) : c.pop.scratchPoison = c.scratchPoison := rfl
@[simp] theorem Core.pop_scratchErr (c : Core) : c.pop.scratchErr = c.scratchErr := rfl
@[simp] theorem Core.pop_lastLaunch (c : Core) : c.pop.lastLaunch = c.lastLaunch := rfl
@[simp] theorem Core.pop_stOut (c : Core) : c.pop.stOut = c.stOut := rfl
@[simp] theorem Core.pop_notices (c : Core) : c.pop.notices = c.notices := rfl
@[simp] theorem Core.pop_arrived (c : Core) : c.pop.arrived = c.arrived := rfl

/-! `Core.finish` -/

@[simp] theorem Core.finish_regs (c : Core) (op : HOp) : (c.finish op).regs = c.regs := rfl
@[simp] theorem Core.finish_seq (c : Core) (op : HOp) : (c.finish op).seq = c.seq := rfl
@[simp] theorem Core.finish_trap (c : Core) (op : HOp) : (c.finish op).trap = c.trap := rfl
@[simp] theorem Core.finish_xroot (c : Core) (op : HOp) : (c.finish op).xroot = c.xroot := rfl
@[simp] theorem Core.finish_xrdt (c : Core) (op : HOp) : (c.finish op).xrdt = c.xrdt := rfl
@[simp] theorem Core.finish_xpool (c : Core) (op : HOp) : (c.finish op).xpool = c.xpool := rfl
@[simp] theorem Core.finish_code (c : Core) (op : HOp) : (c.finish op).code = c.code := rfl
@[simp] theorem Core.finish_hdr (c : Core) (op : HOp) : (c.finish op).hdr = c.hdr := rfl
@[simp] theorem Core.finish_task (c : Core) (op : HOp) : (c.finish op).task = c.task := rfl
@[simp] theorem Core.finish_mx (c : Core) (op : HOp) : (c.finish op).mx = c.mx := rfl
@[simp] theorem Core.finish_cp (c : Core) (op : HOp) : (c.finish op).cp = c.cp := rfl
@[simp] theorem Core.finish_clk (c : Core) (op : HOp) : (c.finish op).clk = c.clk := rfl
@[simp] theorem Core.finish_ways (c : Core) (op : HOp) : (c.finish op).ways = c.ways := rfl
@[simp] theorem Core.finish_scratch (c : Core) (op : HOp) : (c.finish op).scratch = c.scratch := rfl
@[simp] theorem Core.finish_scratchPoison (c : Core) (op : HOp) : (c.finish op).scratchPoison = c.scratchPoison := rfl
@[simp] theorem Core.finish_scratchErr (c : Core) (op : HOp) : (c.finish op).scratchErr = c.scratchErr := rfl
@[simp] theorem Core.finish_lastLaunch (c : Core) (op : HOp) : (c.finish op).lastLaunch = c.lastLaunch := rfl
@[simp] theorem Core.finish_stOut (c : Core) (op : HOp) : (c.finish op).stOut = c.stOut := rfl
@[simp] theorem Core.finish_notices (c : Core) (op : HOp) : (c.finish op).notices = c.notices := rfl
@[simp] theorem Core.finish_arrived (c : Core) (op : HOp) : (c.finish op).arrived = c.arrived := rfl

/-! `Core.popEx` -/

@[simp] theorem Core.popEx_regs (c : Core) : c.popEx.regs = c.regs := rfl
@[simp] theorem Core.popEx_seq (c : Core) : c.popEx.seq = c.seq := rfl
@[simp] theorem Core.popEx_ctl (c : Core) : c.popEx.ctl = c.ctl := rfl
@[simp] theorem Core.popEx_trap (c : Core) : c.popEx.trap = c.trap := rfl
@[simp] theorem Core.popEx_xroot (c : Core) : c.popEx.xroot = c.xroot := rfl
@[simp] theorem Core.popEx_xrdt (c : Core) : c.popEx.xrdt = c.xrdt := rfl
@[simp] theorem Core.popEx_xpool (c : Core) : c.popEx.xpool = c.xpool := rfl
@[simp] theorem Core.popEx_code (c : Core) : c.popEx.code = c.code := rfl
@[simp] theorem Core.popEx_hdr (c : Core) : c.popEx.hdr = c.hdr := rfl
@[simp] theorem Core.popEx_task (c : Core) : c.popEx.task = c.task := rfl
@[simp] theorem Core.popEx_mx (c : Core) : c.popEx.mx = c.mx := rfl
@[simp] theorem Core.popEx_clk (c : Core) : c.popEx.clk = c.clk := rfl
@[simp] theorem Core.popEx_ways (c : Core) : c.popEx.ways = c.ways := rfl
@[simp] theorem Core.popEx_scratch (c : Core) : c.popEx.scratch = c.scratch := rfl
@[simp] theorem Core.popEx_scratchPoison (c : Core) : c.popEx.scratchPoison = c.scratchPoison := rfl
@[simp] theorem Core.popEx_scratchErr (c : Core) : c.popEx.scratchErr = c.scratchErr := rfl
@[simp] theorem Core.popEx_lastLaunch (c : Core) : c.popEx.lastLaunch = c.lastLaunch := rfl
@[simp] theorem Core.popEx_stOut (c : Core) : c.popEx.stOut = c.stOut := rfl
@[simp] theorem Core.popEx_notices (c : Core) : c.popEx.notices = c.notices := rfl
@[simp] theorem Core.popEx_arrived (c : Core) : c.popEx.arrived = c.arrived := rfl

/-! `Core.note` -/

@[simp] theorem Core.note_regs (c : Core) (n : Option Notice) : (c.note n).regs = c.regs := by cases n <;> rfl
@[simp] theorem Core.note_seq (c : Core) (n : Option Notice) : (c.note n).seq = c.seq := by cases n <;> rfl
@[simp] theorem Core.note_ctl (c : Core) (n : Option Notice) : (c.note n).ctl = c.ctl := by cases n <;> rfl
@[simp] theorem Core.note_trap (c : Core) (n : Option Notice) : (c.note n).trap = c.trap := by cases n <;> rfl
@[simp] theorem Core.note_xroot (c : Core) (n : Option Notice) : (c.note n).xroot = c.xroot := by cases n <;> rfl
@[simp] theorem Core.note_xrdt (c : Core) (n : Option Notice) : (c.note n).xrdt = c.xrdt := by cases n <;> rfl
@[simp] theorem Core.note_xpool (c : Core) (n : Option Notice) : (c.note n).xpool = c.xpool := by cases n <;> rfl
@[simp] theorem Core.note_code (c : Core) (n : Option Notice) : (c.note n).code = c.code := by cases n <;> rfl
@[simp] theorem Core.note_hdr (c : Core) (n : Option Notice) : (c.note n).hdr = c.hdr := by cases n <;> rfl
@[simp] theorem Core.note_task (c : Core) (n : Option Notice) : (c.note n).task = c.task := by cases n <;> rfl
@[simp] theorem Core.note_mx (c : Core) (n : Option Notice) : (c.note n).mx = c.mx := by cases n <;> rfl
@[simp] theorem Core.note_cp (c : Core) (n : Option Notice) : (c.note n).cp = c.cp := by cases n <;> rfl
@[simp] theorem Core.note_clk (c : Core) (n : Option Notice) : (c.note n).clk = c.clk := by cases n <;> rfl
@[simp] theorem Core.note_ways (c : Core) (n : Option Notice) : (c.note n).ways = c.ways := by cases n <;> rfl
@[simp] theorem Core.note_scratch (c : Core) (n : Option Notice) : (c.note n).scratch = c.scratch := by cases n <;> rfl
@[simp] theorem Core.note_scratchPoison (c : Core) (n : Option Notice) : (c.note n).scratchPoison = c.scratchPoison := by cases n <;> rfl
@[simp] theorem Core.note_scratchErr (c : Core) (n : Option Notice) : (c.note n).scratchErr = c.scratchErr := by cases n <;> rfl
@[simp] theorem Core.note_lastLaunch (c : Core) (n : Option Notice) : (c.note n).lastLaunch = c.lastLaunch := by cases n <;> rfl
@[simp] theorem Core.note_stOut (c : Core) (n : Option Notice) : (c.note n).stOut = c.stOut := by cases n <;> rfl
@[simp] theorem Core.note_arrived (c : Core) (n : Option Notice) : (c.note n).arrived = c.arrived := by cases n <;> rfl

/-! `Core.pay` -/

@[simp] theorem Core.pay_seq (c : Core) (r : Option Nat) (v : Vec) (b : Option Notice) : (c.pay r v b).seq = c.seq := by cases r <;> rfl
@[simp] theorem Core.pay_ctl (c : Core) (r : Option Nat) (v : Vec) (b : Option Notice) : (c.pay r v b).ctl = c.ctl := by cases r <;> rfl
@[simp] theorem Core.pay_trap (c : Core) (r : Option Nat) (v : Vec) (b : Option Notice) : (c.pay r v b).trap = c.trap := by cases r <;> rfl
@[simp] theorem Core.pay_xroot (c : Core) (r : Option Nat) (v : Vec) (b : Option Notice) : (c.pay r v b).xroot = c.xroot := by cases r <;> rfl
@[simp] theorem Core.pay_xrdt (c : Core) (r : Option Nat) (v : Vec) (b : Option Notice) : (c.pay r v b).xrdt = c.xrdt := by cases r <;> rfl
@[simp] theorem Core.pay_xpool (c : Core) (r : Option Nat) (v : Vec) (b : Option Notice) : (c.pay r v b).xpool = c.xpool := by cases r <;> rfl
@[simp] theorem Core.pay_code (c : Core) (r : Option Nat) (v : Vec) (b : Option Notice) : (c.pay r v b).code = c.code := by cases r <;> rfl
@[simp] theorem Core.pay_hdr (c : Core) (r : Option Nat) (v : Vec) (b : Option Notice) : (c.pay r v b).hdr = c.hdr := by cases r <;> rfl
@[simp] theorem Core.pay_task (c : Core) (r : Option Nat) (v : Vec) (b : Option Notice) : (c.pay r v b).task = c.task := by cases r <;> rfl
@[simp] theorem Core.pay_mx (c : Core) (r : Option Nat) (v : Vec) (b : Option Notice) : (c.pay r v b).mx = c.mx := by cases r <;> rfl
@[simp] theorem Core.pay_cp (c : Core) (r : Option Nat) (v : Vec) (b : Option Notice) : (c.pay r v b).cp = c.cp := by cases r <;> rfl
@[simp] theorem Core.pay_clk (c : Core) (r : Option Nat) (v : Vec) (b : Option Notice) : (c.pay r v b).clk = c.clk := by cases r <;> rfl
@[simp] theorem Core.pay_ways (c : Core) (r : Option Nat) (v : Vec) (b : Option Notice) : (c.pay r v b).ways = c.ways := by cases r <;> rfl
@[simp] theorem Core.pay_scratch (c : Core) (r : Option Nat) (v : Vec) (b : Option Notice) : (c.pay r v b).scratch = c.scratch := by cases r <;> rfl
@[simp] theorem Core.pay_scratchPoison (c : Core) (r : Option Nat) (v : Vec) (b : Option Notice) : (c.pay r v b).scratchPoison = c.scratchPoison := by cases r <;> rfl
@[simp] theorem Core.pay_scratchErr (c : Core) (r : Option Nat) (v : Vec) (b : Option Notice) : (c.pay r v b).scratchErr = c.scratchErr := by cases r <;> rfl
@[simp] theorem Core.pay_lastLaunch (c : Core) (r : Option Nat) (v : Vec) (b : Option Notice) : (c.pay r v b).lastLaunch = c.lastLaunch := by cases r <;> rfl
@[simp] theorem Core.pay_stOut (c : Core) (r : Option Nat) (v : Vec) (b : Option Notice) : (c.pay r v b).stOut = c.stOut := by cases r <;> rfl
@[simp] theorem Core.pay_notices (c : Core) (r : Option Nat) (v : Vec) (b : Option Notice) : (c.pay r v b).notices = c.notices := by cases r <;> rfl
@[simp] theorem Core.pay_arrived (c : Core) (r : Option Nat) (v : Vec) (b : Option Notice) : (c.pay r v b).arrived = c.arrived := by cases r <;> rfl

/-! `Core.promise` -/

@[simp] theorem Core.promise_seq (c : Core) (r : Option Nat) (v : Vec) (b : Option Notice) : (c.promise r v b).seq = c.seq := by cases r <;> rfl
@[simp] theorem Core.promise_ctl (c : Core) (r : Option Nat) (v : Vec) (b : Option Notice) : (c.promise r v b).ctl = c.ctl := by cases r <;> rfl
@[simp] theorem Core.promise_trap (c : Core) (r : Option Nat) (v : Vec) (b : Option Notice) : (c.promise r v b).trap = c.trap := by cases r <;> rfl
@[simp] theorem Core.promise_xroot (c : Core) (r : Option Nat) (v : Vec) (b : Option Notice) : (c.promise r v b).xroot = c.xroot := by cases r <;> rfl
@[simp] theorem Core.promise_xrdt (c : Core) (r : Option Nat) (v : Vec) (b : Option Notice) : (c.promise r v b).xrdt = c.xrdt := by cases r <;> rfl
@[simp] theorem Core.promise_xpool (c : Core) (r : Option Nat) (v : Vec) (b : Option Notice) : (c.promise r v b).xpool = c.xpool := by cases r <;> rfl
@[simp] theorem Core.promise_code (c : Core) (r : Option Nat) (v : Vec) (b : Option Notice) : (c.promise r v b).code = c.code := by cases r <;> rfl
@[simp] theorem Core.promise_hdr (c : Core) (r : Option Nat) (v : Vec) (b : Option Notice) : (c.promise r v b).hdr = c.hdr := by cases r <;> rfl
@[simp] theorem Core.promise_task (c : Core) (r : Option Nat) (v : Vec) (b : Option Notice) : (c.promise r v b).task = c.task := by cases r <;> rfl
@[simp] theorem Core.promise_mx (c : Core) (r : Option Nat) (v : Vec) (b : Option Notice) : (c.promise r v b).mx = c.mx := by cases r <;> rfl
@[simp] theorem Core.promise_cp (c : Core) (r : Option Nat) (v : Vec) (b : Option Notice) : (c.promise r v b).cp = c.cp := by cases r <;> rfl
@[simp] theorem Core.promise_clk (c : Core) (r : Option Nat) (v : Vec) (b : Option Notice) : (c.promise r v b).clk = c.clk := by cases r <;> rfl
@[simp] theorem Core.promise_ways (c : Core) (r : Option Nat) (v : Vec) (b : Option Notice) : (c.promise r v b).ways = c.ways := by cases r <;> rfl
@[simp] theorem Core.promise_scratch (c : Core) (r : Option Nat) (v : Vec) (b : Option Notice) : (c.promise r v b).scratch = c.scratch := by cases r <;> rfl
@[simp] theorem Core.promise_scratchPoison (c : Core) (r : Option Nat) (v : Vec) (b : Option Notice) : (c.promise r v b).scratchPoison = c.scratchPoison := by cases r <;> rfl
@[simp] theorem Core.promise_scratchErr (c : Core) (r : Option Nat) (v : Vec) (b : Option Notice) : (c.promise r v b).scratchErr = c.scratchErr := by cases r <;> rfl
@[simp] theorem Core.promise_lastLaunch (c : Core) (r : Option Nat) (v : Vec) (b : Option Notice) : (c.promise r v b).lastLaunch = c.lastLaunch := by cases r <;> rfl
@[simp] theorem Core.promise_stOut (c : Core) (r : Option Nat) (v : Vec) (b : Option Notice) : (c.promise r v b).stOut = c.stOut := by cases r <;> rfl
@[simp] theorem Core.promise_notices (c : Core) (r : Option Nat) (v : Vec) (b : Option Notice) : (c.promise r v b).notices = c.notices := by cases r <;> rfl
@[simp] theorem Core.promise_arrived (c : Core) (r : Option Nat) (v : Vec) (b : Option Notice) : (c.promise r v b).arrived = c.arrived := by cases r <;> rfl

/-! `countCycle` -/

@[simp] theorem State.countCycle_agenda (s : State) (k e : Nat) (b : Bool) : (s.countCycle k e b).agenda = s.agenda := rfl
@[simp] theorem State.countCycle_curCore (s : State) (k e : Nat) (b : Bool) : (s.countCycle k e b).curCore = s.curCore := rfl
@[simp] theorem State.countCycle_fresh (s : State) (k e : Nat) (b : Bool) : (s.countCycle k e b).fresh = s.fresh := rfl
@[simp] theorem State.countCycle_now (s : State) (k e : Nat) (b : Bool) : (s.countCycle k e b).now = s.now := rfl
@[simp] theorem State.countCycle_ms (s : State) (k e : Nat) (b : Bool) : (s.countCycle k e b).ms = s.ms := rfl
@[simp] theorem State.countCycle_sched (s : State) (k e : Nat) (b : Bool) : (s.countCycle k e b).sched = s.sched := rfl
@[simp] theorem State.countCycle_pwr (s : State) (k e : Nat) (b : Bool) : (s.countCycle k e b).pwr = s.pwr := rfl
@[simp] theorem State.countCycle_tide (s : State) (k e : Nat) (b : Bool) : (s.countCycle k e b).tide = s.tide := rfl
@[simp] theorem State.countCycle_fab (s : State) (k e : Nat) (b : Bool) : (s.countCycle k e b).fab = s.fab := rfl
@[simp] theorem State.countCycle_sto (s : State) (k e : Nat) (b : Bool) : (s.countCycle k e b).sto = s.sto := rfl
@[simp] theorem State.countCycle_boot (s : State) (k e : Nat) (b : Bool) : (s.countCycle k e b).boot = s.boot := rfl
@[simp] theorem State.countCycle_pcie (s : State) (k e : Nat) (b : Bool) : (s.countCycle k e b).pcie = s.pcie := rfl
@[simp] theorem State.countCycle_committed (s : State) (k e : Nat) (b : Bool) : (s.countCycle k e b).committed = s.committed := rfl
@[simp] theorem State.countCycle_image (s : State) (k e : Nat) (b : Bool) : (s.countCycle k e b).image = s.image := rfl

/-! `Core.setQuay` -/

@[simp] theorem Core.setQuay_regs (c : Core) (q : Nat) (x : Quay) : (c.setQuay q x).regs = c.regs := rfl
@[simp] theorem Core.setQuay_seq (c : Core) (q : Nat) (x : Quay) : (c.setQuay q x).seq = c.seq := rfl
@[simp] theorem Core.setQuay_ctl (c : Core) (q : Nat) (x : Quay) : (c.setQuay q x).ctl = c.ctl := rfl
@[simp] theorem Core.setQuay_trap (c : Core) (q : Nat) (x : Quay) : (c.setQuay q x).trap = c.trap := rfl
@[simp] theorem Core.setQuay_xroot (c : Core) (q : Nat) (x : Quay) : (c.setQuay q x).xroot = c.xroot := rfl
@[simp] theorem Core.setQuay_xrdt (c : Core) (q : Nat) (x : Quay) : (c.setQuay q x).xrdt = c.xrdt := rfl
@[simp] theorem Core.setQuay_xpool (c : Core) (q : Nat) (x : Quay) : (c.setQuay q x).xpool = c.xpool := rfl
@[simp] theorem Core.setQuay_code (c : Core) (q : Nat) (x : Quay) : (c.setQuay q x).code = c.code := rfl
@[simp] theorem Core.setQuay_hdr (c : Core) (q : Nat) (x : Quay) : (c.setQuay q x).hdr = c.hdr := rfl
@[simp] theorem Core.setQuay_task (c : Core) (q : Nat) (x : Quay) : (c.setQuay q x).task = c.task := rfl
@[simp] theorem Core.setQuay_mx (c : Core) (q : Nat) (x : Quay) : (c.setQuay q x).mx = c.mx := rfl
@[simp] theorem Core.setQuay_clk (c : Core) (q : Nat) (x : Quay) : (c.setQuay q x).clk = c.clk := rfl
@[simp] theorem Core.setQuay_ways (c : Core) (q : Nat) (x : Quay) : (c.setQuay q x).ways = c.ways := rfl
@[simp] theorem Core.setQuay_scratch (c : Core) (q : Nat) (x : Quay) : (c.setQuay q x).scratch = c.scratch := rfl
@[simp] theorem Core.setQuay_scratchPoison (c : Core) (q : Nat) (x : Quay) : (c.setQuay q x).scratchPoison = c.scratchPoison := rfl
@[simp] theorem Core.setQuay_scratchErr (c : Core) (q : Nat) (x : Quay) : (c.setQuay q x).scratchErr = c.scratchErr := rfl
@[simp] theorem Core.setQuay_lastLaunch (c : Core) (q : Nat) (x : Quay) : (c.setQuay q x).lastLaunch = c.lastLaunch := rfl
@[simp] theorem Core.setQuay_stOut (c : Core) (q : Nat) (x : Quay) : (c.setQuay q x).stOut = c.stOut := rfl
@[simp] theorem Core.setQuay_notices (c : Core) (q : Nat) (x : Quay) : (c.setQuay q x).notices = c.notices := rfl
@[simp] theorem Core.setQuay_arrived (c : Core) (q : Nat) (x : Quay) : (c.setQuay q x).arrived = c.arrived := rfl

/-! `MemSys.setLines` -/

@[simp] theorem MemSys.setLines_mem (ms : MemSys) (k : Nat) (l : List L1Line) : (ms.setLines k l).mem = ms.mem := rfl
@[simp] theorem MemSys.setLines_poison (ms : MemSys) (k : Nat) (l : List L1Line) : (ms.setLines k l).poison = ms.poison := rfl
@[simp] theorem MemSys.setLines_tags (ms : MemSys) (k : Nat) (l : List L1Line) : (ms.setLines k l).tags = ms.tags := rfl
@[simp] theorem MemSys.setLines_dirtyPacks (ms : MemSys) (k : Nat) (l : List L1Line) : (ms.setLines k l).dirtyPacks = ms.dirtyPacks := rfl
@[simp] theorem MemSys.setLines_wc (ms : MemSys) (k : Nat) (l : List L1Line) : (ms.setLines k l).wc = ms.wc := rfl
@[simp] theorem MemSys.setLines_icache (ms : MemSys) (k : Nat) (l : List L1Line) : (ms.setLines k l).icache = ms.icache := rfl
@[simp] theorem MemSys.setLines_bec (ms : MemSys) (k : Nat) (l : List L1Line) : (ms.setLines k l).bec = ms.bec := rfl
@[simp] theorem MemSys.setLines_tlb (ms : MemSys) (k : Nat) (l : List L1Line) : (ms.setLines k l).tlb = ms.tlb := rfl
@[simp] theorem MemSys.setLines_tlb2 (ms : MemSys) (k : Nat) (l : List L1Line) : (ms.setLines k l).tlb2 = ms.tlb2 := rfl
@[simp] theorem MemSys.setLines_walk (ms : MemSys) (k : Nat) (l : List L1Line) : (ms.setLines k l).walk = ms.walk := rfl
@[simp] theorem MemSys.setLines_invals (ms : MemSys) (k : Nat) (l : List L1Line) : (ms.setLines k l).invals = ms.invals := rfl
@[simp] theorem MemSys.setLines_nextInval (ms : MemSys) (k : Nat) (l : List L1Line) : (ms.setLines k l).nextInval = ms.nextInval := rfl
@[simp] theorem MemSys.setLines_targets (ms : MemSys) (k : Nat) (l : List L1Line) : (ms.setLines k l).targets = ms.targets := rfl
@[simp] theorem MemSys.setLines_moors (ms : MemSys) (k : Nat) (l : List L1Line) : (ms.setLines k l).moors = ms.moors := rfl
@[simp] theorem MemSys.setLines_part (ms : MemSys) (k : Nat) (l : List L1Line) : (ms.setLines k l).part = ms.part := rfl
@[simp] theorem MemSys.setLines_l2busy (ms : MemSys) (k : Nat) (l : List L1Line) : (ms.setLines k l).l2busy = ms.l2busy := rfl
@[simp] theorem MemSys.setLines_l2ref (ms : MemSys) (k : Nat) (l : List L1Line) : (ms.setLines k l).l2ref = ms.l2ref := rfl
@[simp] theorem MemSys.setLines_l2mfull (ms : MemSys) (k : Nat) (l : List L1Line) : (ms.setLines k l).l2mfull = ms.l2mfull := rfl
@[simp] theorem MemSys.setLines_rr (ms : MemSys) (k : Nat) (l : List L1Line) : (ms.setLines k l).rr = ms.rr := rfl
@[simp] theorem MemSys.setLines_rrCount (ms : MemSys) (k : Nat) (l : List L1Line) : (ms.setLines k l).rrCount = ms.rrCount := rfl
@[simp] theorem MemSys.setLines_l2 (ms : MemSys) (k : Nat) (l : List L1Line) : (ms.setLines k l).l2 = ms.l2 := rfl
@[simp] theorem MemSys.setLines_misses (ms : MemSys) (k : Nat) (l : List L1Line) : (ms.setLines k l).misses = ms.misses := rfl
@[simp] theorem MemSys.setLines_rawPacks (ms : MemSys) (k : Nat) (l : List L1Line) : (ms.setLines k l).rawPacks = ms.rawPacks := rfl
@[simp] theorem MemSys.setLines_cows (ms : MemSys) (k : Nat) (l : List L1Line) : (ms.setLines k l).cows = ms.cows := rfl
@[simp] theorem MemSys.setLines_psub (ms : MemSys) (k : Nat) (l : List L1Line) : (ms.setLines k l).psub = ms.psub := rfl
@[simp] theorem MemSys.setLines_corrected (ms : MemSys) (k : Nat) (l : List L1Line) : (ms.setLines k l).corrected = ms.corrected := rfl

/-! ### The field that an update touches -/

@[simp] theorem State.stream_setStream (s : State) (n : Nat) (x : Stream) : (s.setStream n x).stream n = x := SMap.get_set_same _ _ _ _

theorem State.stream_setStream_other (s : State) {n m : Nat} (x : Stream) (h : m ≠ n) : (s.setStream n x).stream m = s.stream m :=
  SMap.get_set_other _ _ _ h

@[simp] theorem State.slotOf_setSlot (s : State) (h : Nat) (x : Option StreamSlot) : (s.setSlot h x).slotOf h = x :=
  SMap.get_set_same _ _ _ _

theorem State.slotOf_setSlot_other (s : State) {h i : Nat} (x : Option StreamSlot) (hi : i ≠ h) : (s.setSlot h x).slotOf i = s.slotOf i :=
  SMap.get_set_other _ _ _ hi

@[simp] theorem State.dequeOf_setDeque (s : State) (k : Nat) (d : List ReadyRec) : (s.setDeque k d).dequeOf k = d :=
  SMap.get_set_same _ _ _ _

@[simp] theorem State.spilled_setSpilled (s : State) (k n : Nat) : (s.setSpilled k n).spilled k = n := SMap.get_set_same _ _ _ _

@[simp] theorem State.readyOf_setReady (s : State) (cl p : Nat) (l : List Ready) : (s.setReady cl p l).readyOf cl p = l :=
  SMap.get_set_same _ _ _ _

@[simp] theorem State.frameOf_setFrame (s : State) (x k f : Nat) (c : Option Core) : (s.setFrame x k f c).frameOf x k f = c :=
  SMap.get_set_same _ _ _ _

@[simp] theorem State.clusterPwr_setClusterPwr (s : State) (cl : Nat) (p : ClusterPwr) : (s.setClusterPwr cl p).clusterPwr cl = p :=
  SMap.get_set_same _ _ _ _

theorem State.clusterPwr_setClusterPwr_other (s : State) {cl d : Nat} (p : ClusterPwr) (h : d ≠ cl) :
    (s.setClusterPwr cl p).clusterPwr d = s.clusterPwr d := SMap.get_set_other _ _ _ h

@[simp] theorem State.zone_setZone (s : State) (z : Nat) (x : Zone) : (s.setZone z x).zone z = x := SMap.get_set_same _ _ _ _

theorem State.zone_setZone_other (s : State) {z y : Nat} (x : Zone) (h : y ≠ z) : (s.setZone z x).zone y = s.zone y :=
  SMap.get_set_other _ _ _ h

/-- A message for which nothing on its link waits leaves at once. -/
theorem State.send_outbox (s : State) (d : Nat) (m : Msg) (h : s.holdsFor d = none) :
    (s.send d m).fab.outbox = s.fab.outbox ++ [(d, m)] := by simp [State.send, h]


@[simp] theorem State.tick_fresh (s : State) : s.tick.fresh = s.fresh + 1 := rfl

@[simp] theorem State.core_modCore (s : State) (k : Nat) (f : Core → Core) : (s.modCore k f).core k = f (s.core k) := by
  simp [State.modCore]

theorem State.core_countCycle (s : State) (k e : Nat) (b : Bool) : (s.countCycle k e b).core k =
    { s.core k with clk := (s.core k).clk.count (s.pwr.window - 32000) s.now e b } := by simp [State.countCycle, State.modCore]

theorem State.core_modCore_other (s : State) {k j : Nat} (f : Core → Core) (h : j ≠ k) : (s.modCore k f).core j = s.core j :=
  s.core_setCore_other _ h

theorem Core.notices_note (c : Core) (n : Option Notice) : (c.note n).notices = c.notices ++ n.toList := by cases n <;> simp [Core.note]

end Sys2Proof.Machine
end

