-- ==== Sys2Proof/Laws/Xlate.lean ====
section
/-!
SUPPORT. Every operation of Machine/Xlate.lean keeps memory in its canonical form: walks, pools, structure accesses and
regions.
-/

namespace Sys2Proof.Machine

theorem structRead_ok (ms : MemSys) (w : Who) (pa : Nat) (n : Nat) (lvl : Nat) (hms : ms.Ok) :
    (structRead ms w pa n lvl).1.Ok := by
  unfold structRead
  repeat' first
    | with_reducible assumption | with_reducible intro _ | with_reducible apply MemSys.check_ok
    | with_reducible apply MemSys.recall_ok | with_reducible apply MemSys.visit_ok | with_reducible apply mem_of_ok
    | with_reducible refine MemSys.Ok.of_eq (by with_reducible assumption) ?_ | simp only | split | dsimp only

theorem MemSys.writeAs_ok (ms : MemSys) (die : Nat) (mid : Nat) (pa : Nat) (n : Nat) (v : Nat) (hms : ms.Ok) :
    (MemSys.writeAs ms die mid pa n v).Ok := by
  unfold MemSys.writeAs
  repeat' first
    | with_reducible assumption | with_reducible intro _ | with_reducible apply MemSys.openHome_ok
    | with_reducible apply MemSys.check_ok | with_reducible apply MemSys.putHome_ok | with_reducible apply mem_of_ok
    | with_reducible refine MemSys.Ok.of_eq (by with_reducible assumption) ?_ | simp only | split | dsimp only

theorem MemSys.structWrite_ok (ms : MemSys) (w : Who) (pa : Nat) (n : Nat) (v : Nat) (hms : ms.Ok) :
    (MemSys.structWrite ms w pa n v).Ok := by
  unfold MemSys.structWrite
  repeat' first
    | with_reducible assumption | with_reducible intro _ | with_reducible apply MemSys.writeAs_ok
    | with_reducible apply mem_of_ok | with_reducible refine MemSys.Ok.of_eq (by with_reducible assumption) ?_
    | simp only [MemSys.ok_mk] | split | dsimp only

theorem MemSys.hwWrite_ok (ms : MemSys) (pa : Nat) (n : Nat) (v : Nat) (hms : ms.Ok) :
    (MemSys.hwWrite ms pa n v).Ok := by
  unfold MemSys.hwWrite
  repeat' first
    | with_reducible assumption | with_reducible intro _ | with_reducible apply MemSys.writeAs_ok
    | with_reducible apply mem_of_ok | with_reducible refine MemSys.Ok.of_eq (by with_reducible assumption) ?_
    | simp only [MemSys.ok_mk] | split | dsimp only

theorem MemSys.hwRead_ok (ms : MemSys) (pa : Nat) (n : Nat) (hms : ms.Ok) :
    (MemSys.hwRead ms pa n).1.Ok := by
  unfold MemSys.hwRead
  repeat' first
    | with_reducible assumption | with_reducible intro _ | with_reducible apply MemSys.check_ok
    | with_reducible apply MemSys.recall_ok | with_reducible apply MemSys.visit_ok | with_reducible apply mem_of_ok
    | with_reducible refine MemSys.Ok.of_eq (by with_reducible assumption) ?_ | simp only | split | dsimp only

theorem entryRead_ok (ms : MemSys) (w : Who) (pa : Nat) (lvl : Nat) (hms : ms.Ok) :
    (entryRead ms w pa lvl).1.Ok := by
  unfold entryRead
  repeat' first
    | with_reducible assumption | with_reducible intro _ | with_reducible apply structRead_ok
    | with_reducible apply mem_of_ok | with_reducible refine MemSys.Ok.of_eq (by with_reducible assumption) ?_
    | simp only [MemSys.ok_mk] | split | dsimp only

theorem walkFrom_ok (w : Who) (va : Nat) (a2 : Nat) (a3 : MemSys) (a4 : Nat) (ha3 : a3.Ok) :
    (walkFrom w va a2 a3 a4).1.Ok := by
  induction a2 generalizing w va a3 a4 with
  | zero =>
    unfold walkFrom
    repeat' first
      | with_reducible assumption | with_reducible intro _ | dsimp only | with_reducible apply ih
      | with_reducible apply entryRead_ok | with_reducible apply mem_of_ok
      | with_reducible refine MemSys.Ok.of_eq (by with_reducible assumption) ?_ | simp only [MemSys.ok_mk] | split
  | succ n ih =>
    unfold walkFrom
    repeat' first
      | with_reducible assumption | with_reducible intro _ | dsimp only | with_reducible apply ih
      | with_reducible apply entryRead_ok | with_reducible apply mem_of_ok
      | with_reducible refine MemSys.Ok.of_eq (by with_reducible assumption) ?_ | simp only [MemSys.ok_mk] | split

theorem walk_ok (ms : MemSys) (w : Who) (va : Nat) (hms : ms.Ok) :
    (walk ms w va).1.Ok := by
  unfold walk
  repeat' first
    | with_reducible assumption | with_reducible intro _ | with_reducible apply walkFrom_ok | with_reducible apply mem_of_ok
    | with_reducible refine MemSys.Ok.of_eq (by with_reducible assumption) ?_ | simp only [MemSys.ok_mk] | split | dsimp only

theorem tlbFill_ok (ms : MemSys) (w : Who) (fetch : Bool) (e : TlbEntry) (hms : ms.Ok) :
    (tlbFill ms w fetch e).Ok := by
  unfold tlbFill
  repeat' first
    | with_reducible assumption | with_reducible intro _ | with_reducible apply mem_of_ok
    | with_reducible refine MemSys.Ok.of_eq (by with_reducible assumption) ?_ | simp only [MemSys.ok_mk] | split | dsimp only

theorem lookupLeaf_ok (ms : MemSys) (w : Who) (fetch : Bool) (va : Nat) (hms : ms.Ok) :
    (lookupLeaf ms w fetch va).1.Ok := by
  unfold lookupLeaf
  repeat' first
    | with_reducible assumption | with_reducible intro _ | with_reducible apply tlbFill_ok | with_reducible apply walk_ok
    | with_reducible apply mem_of_ok | with_reducible refine MemSys.Ok.of_eq (by with_reducible assumption) ?_
    | simp only [MemSys.ok_mk] | split | dsimp only

theorem readPool_ok (ms : MemSys) (w : Who) (idx : Nat) (hms : ms.Ok) :
    (readPool ms w idx).1.Ok := by
  unfold readPool
  repeat' first
    | with_reducible assumption | with_reducible intro _ | with_reducible apply structRead_ok
    | with_reducible apply mem_of_ok | with_reducible refine MemSys.Ok.of_eq (by with_reducible assumption) ?_
    | simp only | split | dsimp only

theorem MemSys.showFrame_ok (ms : MemSys) (core : Nat) (a : Nat) (n : Nat) (hms : ms.Ok) :
    (MemSys.showFrame ms core a n).Ok := by
  unfold MemSys.showFrame
  repeat' first
    | with_reducible assumption | with_reducible intro _ | with_reducible apply MemSys.drainWhere_ok
    | with_reducible apply MemSys.flushWhere_ok | with_reducible apply mem_of_ok
    | with_reducible refine MemSys.Ok.of_eq (by with_reducible assumption) ?_ | simp only [MemSys.ok_mk] | split | dsimp only

theorem MemSys.entryInvalidate_ok (ms : MemSys) (pa : Nat) (hms : ms.Ok) :
    (MemSys.entryInvalidate ms pa).Ok := by
  unfold MemSys.entryInvalidate
  repeat' first
    | with_reducible assumption | with_reducible intro _ | with_reducible apply MemSys.showFrame_ok
    | with_reducible apply foldl_ms_ok | with_reducible apply foldl_ms_fst_ok | with_reducible apply memory_wf_foldl
    | with_reducible apply memory_wf_set | with_reducible apply memory_wf_filter | with_reducible apply memory_wf_writeMasked
    | with_reducible apply mem_of_ok | with_reducible refine MemSys.Ok.of_eq (by with_reducible assumption) ?_
    | simp only [MemSys.ok_mk] | split | dsimp only

theorem MemSys.becFill_ok (ms : MemSys) (w : Who) (p : Pool) (pa : Nat) (entry : Nat) (right : Bool) (hms : ms.Ok) :
    (MemSys.becFill ms w p pa entry right).Ok := by
  unfold MemSys.becFill
  repeat' first
    | with_reducible assumption | with_reducible intro _ | with_reducible apply memory_wf_set
    | with_reducible apply memory_wf_filter | with_reducible apply memory_wf_writeMasked | with_reducible apply mem_of_ok
    | with_reducible refine MemSys.Ok.of_eq (by with_reducible assumption) ?_ | simp only [MemSys.ok_mk] | split | dsimp only

theorem poolPop_ok (ms : MemSys) (w : Who) (p : Pool) (hms : ms.Ok) :
    (poolPop ms w p).1.Ok := by
  unfold poolPop
  repeat' first
    | with_reducible assumption | with_reducible intro _ | with_reducible apply MemSys.structWrite_ok
    | with_reducible apply mem_of_ok | with_reducible refine MemSys.Ok.of_eq (by with_reducible assumption) ?_
    | simp only [MemSys.ok_mk] | split | dsimp only

theorem poolErr_ok (ms : MemSys) (w : Who) (p : Pool) (hms : ms.Ok) :
    (poolErr ms w p).Ok := by
  unfold poolErr
  repeat' first
    | with_reducible assumption | with_reducible intro _ | with_reducible apply MemSys.structWrite_ok
    | with_reducible apply mem_of_ok | with_reducible refine MemSys.Ok.of_eq (by with_reducible assumption) ?_
    | simp only [MemSys.ok_mk] | split | dsimp only

theorem releaseBlock_ok (ms : MemSys) (w : Who) (p : Pool) (i : Nat) (hms : ms.Ok) :
    (releaseBlock ms w p i).Ok := by
  unfold releaseBlock
  repeat' first
    | with_reducible assumption | with_reducible intro _ | with_reducible apply poolErr_ok
    | with_reducible apply MemSys.structWrite_ok | with_reducible apply MemSys.flushFrame_ok
    | with_reducible apply memory_wf_set | with_reducible apply memory_wf_filter | with_reducible apply memory_wf_writeMasked
    | with_reducible apply mem_of_ok | with_reducible refine MemSys.Ok.of_eq (by with_reducible assumption) ?_
    | simp only [MemSys.ok_mk] | split | dsimp only

theorem copyOnWrite_ok (ms : MemSys) (w : Who) (p : Pool) (ea : Nat) (old : Nat) (hms : ms.Ok) :
    (copyOnWrite ms w p ea old).1.Ok := by
  unfold copyOnWrite
  repeat' first
    | with_reducible assumption | with_reducible intro _ | with_reducible apply poolPop_ok
    | with_reducible apply MemSys.entryInvalidate_ok | with_reducible apply MemSys.structWrite_ok
    | with_reducible apply MemSys.copyBlocks_ok | with_reducible apply mem_of_ok
    | with_reducible refine MemSys.Ok.of_eq (by with_reducible assumption) ?_ | simp only [MemSys.ok_mk] | split | dsimp only

theorem payCow_ok (ms : MemSys) (d : CowDebt) (hms : ms.Ok) :
    (payCow ms d).Ok := by
  unfold payCow
  repeat' first
    | with_reducible assumption | with_reducible intro _ | with_reducible apply releaseBlock_ok
    | with_reducible apply MemSys.structWrite_ok | with_reducible apply mem_of_ok
    | with_reducible refine MemSys.Ok.of_eq (by with_reducible assumption) ?_ | simp only | split | dsimp only

theorem MemSys.payCows_ok (ms : MemSys) (hms : ms.Ok) :
    (MemSys.payCows ms).Ok := by
  unfold MemSys.payCows
  repeat' first
    | with_reducible assumption | with_reducible intro _ | with_reducible apply payCow_ok | with_reducible apply foldl_ms_ok
    | with_reducible apply foldl_ms_fst_ok | with_reducible apply memory_wf_foldl | with_reducible apply mem_of_ok
    | with_reducible refine MemSys.Ok.of_eq (by with_reducible assumption) ?_ | simp only [MemSys.ok_mk] | split | dsimp only

theorem poolDecide_ok (ms : MemSys) (w : Who) (va : Nat) (p : Pool) (ea : Nat) (e : Nat) (hms : ms.Ok) :
    (poolDecide ms w va p ea e).1.Ok := by
  unfold poolDecide
  repeat' first
    | with_reducible assumption | with_reducible intro _ | with_reducible apply copyOnWrite_ok
    | with_reducible apply poolPop_ok | with_reducible apply MemSys.becFill_ok
    | with_reducible apply MemSys.entryInvalidate_ok | with_reducible apply MemSys.structWrite_ok
    | with_reducible apply structRead_ok | with_reducible apply MemSys.clearBlocks_ok | with_reducible apply mem_of_ok
    | with_reducible refine MemSys.Ok.of_eq (by with_reducible assumption) ?_ | simp only | split | dsimp only

theorem pooledAddress_ok (ms : MemSys) (w : Who) (va : Nat) (leaf : BitVec 64) (off : Nat) (kind : XKind) (hms : ms.Ok) :
    (pooledAddress ms w va leaf off kind).1.Ok := by
  unfold pooledAddress
  repeat' first
    | with_reducible assumption | with_reducible intro _ | with_reducible apply poolDecide_ok
    | with_reducible apply MemSys.becFill_ok | with_reducible apply readPool_ok | with_reducible apply structRead_ok
    | with_reducible apply mem_of_ok | with_reducible refine MemSys.Ok.of_eq (by with_reducible assumption) ?_
    | simp only | split | dsimp only

theorem remoteOf_ok (ms : MemSys) (w : Who) (va : Nat) (leaf : BitVec 64) (hms : ms.Ok) :
    (remoteOf ms w va leaf).1.Ok := by
  unfold remoteOf
  repeat' first
    | with_reducible assumption | with_reducible intro _ | with_reducible apply structRead_ok
    | with_reducible apply mem_of_ok | with_reducible refine MemSys.Ok.of_eq (by with_reducible assumption) ?_
    | simp only [MemSys.ok_mk] | split | dsimp only

theorem leafFor_ok (ms : MemSys) (w : Who) (va : Nat) (kind : XKind) (hms : ms.Ok) :
    (leafFor ms w va kind).1.Ok := by
  unfold leafFor
  repeat' first
    | with_reducible assumption | with_reducible intro _ | with_reducible apply lookupLeaf_ok
    | with_reducible apply mem_of_ok | with_reducible refine MemSys.Ok.of_eq (by with_reducible assumption) ?_
    | simp only [MemSys.ok_mk] | split | dsimp only

theorem translateFor_ok (ms : MemSys) (w : Who) (va : Nat) (kind : XKind) (hms : ms.Ok) :
    (translateFor ms w va kind).1.Ok := by
  unfold translateFor
  repeat' first
    | with_reducible assumption | with_reducible intro _ | with_reducible apply leafFor_ok | with_reducible apply remoteOf_ok
    | with_reducible apply pooledAddress_ok | with_reducible apply mem_of_ok
    | with_reducible refine MemSys.Ok.of_eq (by with_reducible assumption) ?_ | simp only | split | dsimp only

theorem translate_ok (ms : MemSys) (w : Who) (va : Nat) (kind : XKind) (hms : ms.Ok) :
    (translate ms w va kind).1.Ok := by
  unfold translate
  repeat' first
    | with_reducible assumption | with_reducible intro _ | with_reducible apply translateFor_ok
    | with_reducible apply MemSys.payCows_ok | with_reducible apply mem_of_ok
    | with_reducible refine MemSys.Ok.of_eq (by with_reducible assumption) ?_ | simp only [MemSys.ok_mk] | split | dsimp only

theorem translateAll_ok (w : Who) (kind : XKind) (a2 : List Nat) (a3 : MemSys) (ha3 : a3.Ok) :
    (translateAll w kind a2 a3).1.Ok := by
  induction a2 generalizing w kind a3 with
  | nil =>
    unfold translateAll
    repeat' first
      | with_reducible assumption | with_reducible intro _ | dsimp only | with_reducible apply ih
      | with_reducible apply translate_ok | with_reducible apply mem_of_ok
      | with_reducible refine MemSys.Ok.of_eq (by with_reducible assumption) ?_ | simp only [MemSys.ok_mk] | split
  | cons x l ih =>
    unfold translateAll
    repeat' first
      | with_reducible assumption | with_reducible intro _ | dsimp only | with_reducible apply ih
      | with_reducible apply translate_ok | with_reducible apply mem_of_ok
      | with_reducible refine MemSys.Ok.of_eq (by with_reducible assumption) ?_ | simp only [MemSys.ok_mk] | split

theorem translateBare_ok (ms : MemSys) (w : Who) (va : Nat) (hms : ms.Ok) :
    (translateBare ms w va).1.Ok := by
  unfold translateBare
  repeat' first
    | with_reducible assumption | with_reducible intro _ | with_reducible apply remoteOf_ok
    | with_reducible apply pooledAddress_ok | with_reducible apply lookupLeaf_ok | with_reducible apply mem_of_ok
    | with_reducible refine MemSys.Ok.of_eq (by with_reducible assumption) ?_ | simp only [MemSys.ok_mk] | split | dsimp only

theorem eachPage_ok (w : Who) (f : Nat → Nat → MemSys → MemSys) (stop : Nat) (a3 : Nat) (a4 : Nat) (a5 : MemSys) (hf : (∀
    (y0 : Nat) (y1 : Nat) (y2 : MemSys), y2.Ok → (f y0 y1 y2).Ok)) (ha5 : a5.Ok) :
    (eachPage w f stop a3 a4 a5).Ok := by
  induction a3 generalizing w stop a4 a5 with
  | zero =>
    unfold eachPage
    repeat' first
      | with_reducible assumption | with_reducible intro _ | dsimp only | with_reducible apply ih
      | with_reducible apply translateBare_ok | with_reducible apply hf | with_reducible apply mem_of_ok
      | with_reducible refine MemSys.Ok.of_eq (by with_reducible assumption) ?_ | simp only [MemSys.ok_mk] | split
  | succ n ih =>
    unfold eachPage
    repeat' first
      | with_reducible assumption | with_reducible intro _ | dsimp only | with_reducible apply ih
      | with_reducible apply translateBare_ok | with_reducible apply hf | with_reducible apply mem_of_ok
      | with_reducible refine MemSys.Ok.of_eq (by with_reducible assumption) ?_ | simp only [MemSys.ok_mk] | split

theorem MemSys.evictRegion_ok (ms : MemSys) (w : Who) (va : Nat) (len : Nat) (hms : ms.Ok) :
    (MemSys.evictRegion ms w va len).Ok := by
  unfold MemSys.evictRegion
  repeat' first
    | with_reducible assumption | with_reducible intro _ | with_reducible apply eachPage_ok
    | with_reducible apply MemSys.flushWhere_ok | with_reducible apply mem_of_ok
    | with_reducible refine MemSys.Ok.of_eq (by with_reducible assumption) ?_ | simp only [MemSys.ok_mk] | split | dsimp only

theorem MemSys.writeBackRegion_ok (ms : MemSys) (w : Who) (va : Nat) (len : Nat) (hms : ms.Ok) :
    (MemSys.writeBackRegion ms w va len).Ok := by
  unfold MemSys.writeBackRegion
  repeat' first
    | with_reducible assumption | with_reducible intro _ | with_reducible apply eachPage_ok
    | with_reducible apply MemSys.drainWhere_ok | with_reducible apply MemSys.flushWhere_ok | with_reducible apply mem_of_ok
    | with_reducible refine MemSys.Ok.of_eq (by with_reducible assumption) ?_ | simp only [MemSys.ok_mk] | split | dsimp only

theorem poolEntry_ok (ms : MemSys) (w : Who) (va : Nat) (hms : ms.Ok) :
    (poolEntry ms w va).1.Ok := by
  unfold poolEntry
  repeat' first
    | with_reducible assumption | with_reducible intro _ | with_reducible apply leafFor_ok | with_reducible apply readPool_ok
    | with_reducible apply mem_of_ok | with_reducible refine MemSys.Ok.of_eq (by with_reducible assumption) ?_
    | simp only | split | dsimp only

theorem poolRead_ok (ms : MemSys) (w : Who) (p : Pool) (ea : Nat) (hms : ms.Ok) :
    (poolRead ms w p ea).1.Ok := by
  unfold poolRead
  repeat' first
    | with_reducible assumption | with_reducible intro _ | with_reducible apply structRead_ok
    | with_reducible apply mem_of_ok | with_reducible refine MemSys.Ok.of_eq (by with_reducible assumption) ?_
    | simp only [MemSys.ok_mk] | split | dsimp only

theorem poolShare_ok (ms : MemSys) (w : Who) (dx : Xlat) (sx : Xlat) (dp : Nat) (sp : Nat) (hms : ms.Ok) :
    (poolShare ms w dx sx dp sp).1.Ok := by
  unfold poolShare
  repeat' first
    | with_reducible assumption | with_reducible intro _ | with_reducible apply poolRead_ok
    | with_reducible apply MemSys.entryInvalidate_ok | with_reducible apply readPool_ok
    | with_reducible apply MemSys.structWrite_ok | with_reducible apply structRead_ok | with_reducible apply mem_of_ok
    | with_reducible refine MemSys.Ok.of_eq (by with_reducible assumption) ?_ | simp only | split | dsimp only

theorem poolDrop_ok (ms : MemSys) (w : Who) (dx : Xlat) (dp : Nat) (hms : ms.Ok) :
    (poolDrop ms w dx dp).1.Ok := by
  unfold poolDrop
  repeat' first
    | with_reducible assumption | with_reducible intro _ | with_reducible apply poolRead_ok
    | with_reducible apply releaseBlock_ok | with_reducible apply poolErr_ok | with_reducible apply MemSys.entryInvalidate_ok
    | with_reducible apply readPool_ok | with_reducible apply MemSys.structWrite_ok | with_reducible apply structRead_ok
    | with_reducible apply mem_of_ok | with_reducible refine MemSys.Ok.of_eq (by with_reducible assumption) ?_
    | simp only | split | dsimp only

theorem poolAlloc_ok (ms : MemSys) (w : Who) (dx : Xlat) (dp : Nat) (hms : ms.Ok) :
    (poolAlloc ms w dx dp).1.Ok := by
  unfold poolAlloc
  repeat' first
    | with_reducible assumption | with_reducible intro _ | with_reducible apply poolRead_ok | with_reducible apply poolPop_ok
    | with_reducible apply MemSys.entryInvalidate_ok | with_reducible apply readPool_ok
    | with_reducible apply MemSys.structWrite_ok | with_reducible apply structRead_ok
    | with_reducible apply MemSys.clearBlocks_ok | with_reducible apply mem_of_ok
    | with_reducible refine MemSys.Ok.of_eq (by with_reducible assumption) ?_ | simp only | split | dsimp only

theorem fetchBlock_ok (io : Nat → Nat) (ms : MemSys) (w : Who) (x : Xlat) (pa : Nat) (hms : ms.Ok) :
    (fetchBlock io ms w x pa).1.Ok := by
  unfold fetchBlock
  repeat' first
    | with_reducible assumption | with_reducible intro _ | with_reducible apply homeRead_ok
    | with_reducible apply MemSys.check_ok | with_reducible apply mem_of_ok
    | with_reducible refine MemSys.Ok.of_eq (by with_reducible assumption) ?_ | simp only | split | dsimp only

theorem fetchLine_ok (io : Nat → Nat) (ms : MemSys) (w : Who) (va : Nat) (hms : ms.Ok) :
    (fetchLine io ms w va).1.Ok := by
  unfold fetchLine
  repeat' first
    | with_reducible assumption | with_reducible intro _ | with_reducible apply fetchBlock_ok
    | with_reducible apply translate_ok | with_reducible apply mem_of_ok
    | with_reducible refine MemSys.Ok.of_eq (by with_reducible assumption) ?_ | simp only [MemSys.ok_mk] | split | dsimp only

theorem fetchParcel_ok (io : Nat → Nat) (ms : MemSys) (w : Who) (va : Nat) (hms : ms.Ok) :
    (fetchParcel io ms w va).1.Ok := by
  unfold fetchParcel
  repeat' first
    | with_reducible assumption | with_reducible intro _ | with_reducible apply fetchLine_ok | with_reducible apply mem_of_ok
    | with_reducible refine MemSys.Ok.of_eq (by with_reducible assumption) ?_ | simp only | split | dsimp only

theorem fetchBlocks_ok (io : Nat → Nat) (w : Who) (a2 : Nat) (a3 : Nat) (a4 : MemSys) (ha4 : a4.Ok) :
    (fetchBlocks io w a2 a3 a4).1.Ok := by
  induction a2 generalizing w a3 a4 with
  | zero =>
    unfold fetchBlocks
    repeat' first
      | with_reducible assumption | with_reducible intro _ | dsimp only | with_reducible apply ih
      | with_reducible apply fetchBlock_ok | with_reducible apply translate_ok | with_reducible apply mem_of_ok
      | with_reducible refine MemSys.Ok.of_eq (by with_reducible assumption) ?_ | simp only [MemSys.ok_mk] | split
  | succ n ih =>
    unfold fetchBlocks
    repeat' first
      | with_reducible assumption | with_reducible intro _ | dsimp only | with_reducible apply ih
      | with_reducible apply fetchBlock_ok | with_reducible apply translate_ok | with_reducible apply mem_of_ok
      | with_reducible refine MemSys.Ok.of_eq (by with_reducible assumption) ?_ | simp only [MemSys.ok_mk] | split

theorem MemSys.observe_ok (ms : MemSys) (i : Inval) (u : Nat) (hms : ms.Ok) :
    (MemSys.observe ms i u).Ok := by
  unfold MemSys.observe
  repeat' first
    | with_reducible assumption | with_reducible intro _ | with_reducible apply walk_ok | with_reducible apply memory_wf_set
    | with_reducible apply memory_wf_filter | with_reducible apply memory_wf_writeMasked | with_reducible apply mem_of_ok
    | with_reducible refine MemSys.Ok.of_eq (by with_reducible assumption) ?_ | simp only [MemSys.ok_mk] | split | dsimp only

theorem MemSys.finishInval_ok (ms : MemSys) (frames : List (Nat × Nat)) (hms : ms.Ok) :
    (MemSys.finishInval ms frames).Ok := by
  unfold MemSys.finishInval
  repeat' first
    | with_reducible assumption | with_reducible intro _ | with_reducible apply MemSys.flushFrame_ok
    | with_reducible apply MemSys.drainWc_ok | with_reducible apply MemSys.flushWhere_ok | with_reducible apply foldl_ms_ok
    | with_reducible apply foldl_ms_fst_ok | with_reducible apply memory_wf_foldl | with_reducible apply mem_of_ok
    | with_reducible refine MemSys.Ok.of_eq (by with_reducible assumption) ?_ | simp only [MemSys.ok_mk] | split | dsimp only

end Sys2Proof.Machine
end

