-- ==== Sys2Proof/Laws/Ops.lean ====
section
/-!
SUPPORT. The shared operations of Machine/Ops.lean: what each leaves as it was, and that each keeps memory and the list
of cores in canonical form.
-/

namespace Sys2Proof.Machine

/-! ### The canonical form -/

theorem State.setCore_ok {s : State} (k : Nat) (c : Core) (h : s.Ok) : (s.setCore k c).Ok := ⟨h.1, SMap.wf_set k c h.2⟩

theorem State.modCore_ok {s : State} (k : Nat) (f : Core → Core) (h : s.Ok) : (s.modCore k f).Ok := State.setCore_ok k _ h

theorem State.withMs_ok {s : State} {ms : MemSys} (h : s.Ok) (hm : ms.Ok) : State.Ok { s with ms := ms } := ⟨hm, h.2⟩

theorem State.tick_ok {s : State} (h : s.Ok) : s.tick.Ok := h

theorem State.after_ok {s : State} (f : Core → Core) (h : s.Ok) : (s.after f).Ok := State.setCore_ok _ _ h

theorem SMap.rising_map {β : Type} (f : β → β) (l : Option Nat) (m : SMap β) (h : SMap.rising l m = true) :
    SMap.rising l (m.map fun e => (e.1, f e.2)) = true := by
  induction m generalizing l with
  | nil => rfl
  | cons e m ih =>
    simp only [SMap.rising, List.map_cons, Bool.and_eq_true] at h ⊢
    exact ⟨h.1, ih _ h.2⟩

theorem State.mapCores_ok {s : State} (f : Core → Core) (h : s.Ok) : (s.mapCores f).Ok := by
  refine ⟨h.1, ?_⟩
  unfold State.mapCores SMap.mapVals
  rw [SMap.wf_iff]
  refine ⟨SMap.rising_filter _ (SMap.rising_map f none _ ((SMap.wf_iff _ _).1 h.2).1), fun e he => ?_⟩
  simpa using (List.mem_filter.mp he).2

theorem State.askPreempt_ok {s : State} (p : Core → Bool) (h : s.Ok) : (s.askPreempt p).Ok := State.mapCores_ok _ h

theorem readHeader_ok {ms : MemSys} (w : Who) (addr : Nat) (h : ms.Ok) : (readHeader ms w addr).1.Ok := by
  have hf := fetchBlocks_ok (fun a => freeBytes (Config.pcieRead ms.nextInval) a 64) w 8 addr ms h
  unfold readHeader
  split <;> rename_i e <;> rw [e] at hf <;> exact hf

/-! ### Context entries and exceptions (18 R383, R390) -/

/-- Reading a context entry changes memory's caches alone. -/
theorem State.readCtx_frame (s : State) (n : Nat) : (s.readCtx n).1 = { s with ms := (s.readCtx n).1.ms } := by
  unfold State.readCtx
  generalize s.ms.hwRead (s.ctxAddr n) 64 = r
  obtain ⟨ms, x⟩ := r
  rfl

theorem State.readCtx_ok {s : State} (n : Nat) (h : s.Ok) : (s.readCtx n).1.Ok := by
  have hr := MemSys.hwRead_ok _ (s.ctxAddr n) 64 h.1
  unfold State.readCtx
  generalize s.ms.hwRead (s.ctxAddr n) 64 = r at hr
  obtain ⟨ms, x⟩ := r
  exact ⟨hr, h.2⟩

/-- Entering a handler changes memory's caches and the one core: its code, and what the exception saves. -/
theorem enterContextHandler_frame (s : State) (k code : Nat) :
    ∃ ms c, enterContextHandler s k code = { s with ms := ms }.setCore k c := by
  unfold enterContextHandler
  obtain ⟨m, hm⟩ : ∃ m, (s.readCtx (s.core k).ctx).1 = { s with ms := m } := ⟨_, State.readCtx_frame s _⟩
  generalize s.readCtx (s.core k).ctx = r at hm
  obtain ⟨t, e⟩ := r
  subst hm
  dsimp only
  split
  · exact ⟨m, _, rfl⟩
  · split <;> exact ⟨_, _, rfl⟩

theorem enterContextHandler_ok {s : State} (k code : Nat) (h : s.Ok) : (enterContextHandler s k code).Ok := by
  have hr := State.readCtx_ok (s.core k).ctx h
  unfold enterContextHandler
  generalize s.readCtx (s.core k).ctx = r at hr
  obtain ⟨t, e⟩ := r
  dsimp only
  split
  · exact State.modCore_ok _ _ hr
  · have hh := readHeader_ok { t.who k with sup := true } e.hcode hr.1
    split <;> exact State.modCore_ok _ _ (State.withMs_ok hr hh)

/-- A fault of a core changes memory's caches and that core alone, whether its handler is entered or its task aborted. -/
theorem takeFault_frame {s : State} (k : Nat) (f : FaultInfo) (hs : s.Ok) : ∃ ms c, takeFault s k f = { s with ms := ms }.setCore k c := by
  unfold takeFault
  dsimp only
  split
  · exact ⟨s.ms, _, rfl⟩
  · obtain ⟨ms, c, h⟩ := enterContextHandler_frame (s.setCore k ((s.core k).abandon.setFault f (s.core k).abandon.ctl.head)) k f.code
    refine ⟨ms, c, h.trans ?_⟩
    simp only [State.setCore, SMap.set_set _ _ _ ((SMap.wf_iff _ _).1 hs.2).1]

theorem takeFault_ok {s : State} (k : Nat) (f : FaultInfo) (h : s.Ok) : (takeFault s k f).Ok := by
  unfold takeFault
  dsimp only
  split
  · exact State.setCore_ok _ _ h
  · exact enterContextHandler_ok _ _ (State.setCore_ok _ _ h)

theorem takeTrap_ok {s : State} (k : Nat) (a : Word) (slot head : Nat) (h : s.Ok) : (takeTrap s k a slot head).Ok := by
  unfold takeTrap
  dsimp only
  split
  · exact State.setCore_ok _ _ h
  · exact enterContextHandler_ok _ _ (State.setCore_ok _ _ h)

theorem takeNotice_ok {s : State} (k : Nat) (n : Notice) (slot bidx : Nat) (h : s.Ok) : (takeNotice s k n slot bidx).Ok :=
  takeFault_ok _ _ (State.modCore_ok _ _ h)

/-! ### Copies owed by a copy-on-write, and messages -/

/-- With no copy owed, paying them changes nothing. -/
@[simp] theorem MemSys.payCows_nil {ms : MemSys} (h : ms.cows = []) : ms.payCows = ms := by
  obtain ⟨⟩ := ms; subst h; rfl

/-- A message that nothing holds leaves at once, and sending it changes the fabric alone. -/
theorem State.send_sent (s : State) (dev : Nat) (m : Msg) (h : s.holdsFor dev = none) :
    s.send dev m = { s with fab := { s.fab with serial := s.fab.serial + 1, outbox := s.fab.outbox ++ [(dev, m)] } } := by
  simp [State.send, h]

@[simp] theorem State.flushHeld_ms (s : State) : s.flushHeld.ms = s.ms := rfl
@[simp] theorem State.flushHeld_cores (s : State) : s.flushHeld.cores = s.cores := rfl

/-- No message that waits is lost when some of them leave. -/
theorem State.flushHeld_keeps (s : State) (h : HeldMsg) (hh : h ∈ s.fab.held) :
    h ∈ s.flushHeld.fab.held ∨ (h.dev, h.msg) ∈ s.flushHeld.fab.outbox := by
  by_cases k : s.stillHeld h = true
  · exact .inl (List.mem_filter.2 ⟨hh, k⟩)
  · exact .inr (List.mem_append.2 (.inr (List.mem_map.2 ⟨h, List.mem_filter.2 ⟨hh, by simpa using k⟩, rfl⟩)))

/-- A message of a device that is no member changes nothing by being heard. -/
theorem State.heard_stranger (s : State) (dev : Nat) (h : ∀ m ∈ s.tide.members, m.dev ≠ dev) : s.heard dev = s := by
  unfold State.heard
  rw [if_neg]
  simpa using h

end Sys2Proof.Machine
end

