-- ==== Sys2Proof/Laws/PerInstr.lean ====
section
/-! SUPPORT. One law for every row of the opcode table. Family `F`: the source field of a well-formed instruction's
encoding is a well-formed source, so that decoding its field gives it back (06 R165, 07 R198). -/

namespace Sys2Proof.Laws.F

/-- What the family says of an instruction: if it has an encoding and is well-formed, the source it is encoded with is
well-formed. Events of the machine's own have no encoding. -/
def Statement (i : Instr) : Prop :=
  match encodeParts i with
  | none => True
  | some p => wellFormed i = true → p.2.2.1.ok = true

/-- The first half of a conjunction of checks. -/
theorem first_check {a b : Bool} (h : (a && b) = true) : a = true := by
  cases a
  · exact h
  · rfl

theorem move (x0 : Slot) (x1 : Guard) (x2 : Src) (x3 : Dst) : Statement (.move x0 x1 x2 x3) := first_check
theorem ix1Add (x0 : Guard) (x1 : Src) : Statement (.ix1Add x0 x1) := id
theorem ix1Sub (x0 : Guard) (x1 : Src) : Statement (.ix1Sub x0 x1) := id
theorem ix1Adds (x0 : Guard) (x1 : Src) : Statement (.ix1Adds x0 x1) := id
theorem ix1Subs (x0 : Guard) (x1 : Src) : Statement (.ix1Subs x0 x1) := id
theorem ix1And (x0 : Guard) (x1 : Src) : Statement (.ix1And x0 x1) := id
theorem ix1Or (x0 : Guard) (x1 : Src) : Statement (.ix1Or x0 x1) := id
theorem ix1Xor (x0 : Guard) (x1 : Src) : Statement (.ix1Xor x0 x1) := id
theorem ix1Andn (x0 : Guard) (x1 : Src) : Statement (.ix1Andn x0 x1) := id
theorem ix1Shl (x0 : Guard) (x1 : Src) : Statement (.ix1Shl x0 x1) := id
theorem ix1Shr (x0 : Guard) (x1 : Src) : Statement (.ix1Shr x0 x1) := id
theorem ix1Sar (x0 : Guard) (x1 : Src) : Statement (.ix1Sar x0 x1) := id
theorem ix1Rol (x0 : Guard) (x1 : Src) : Statement (.ix1Rol x0 x1) := id
theorem ix1Min (x0 : Guard) (x1 : Src) : Statement (.ix1Min x0 x1) := id
theorem ix1Max (x0 : Guard) (x1 : Src) : Statement (.ix1Max x0 x1) := id
theorem ix1Minu (x0 : Guard) (x1 : Src) : Statement (.ix1Minu x0 x1) := id
theorem ix1Maxu (x0 : Guard) (x1 : Src) : Statement (.ix1Maxu x0 x1) := id
theorem ix1Clts (x0 : Guard) (x1 : Src) : Statement (.ix1Clts x0 x1) := id
theorem ix1Cltu (x0 : Guard) (x1 : Src) : Statement (.ix1Cltu x0 x1) := id
theorem ix1Ceq (x0 : Guard) (x1 : Src) : Statement (.ix1Ceq x0 x1) := id
theorem ix1Cne (x0 : Guard) (x1 : Src) : Statement (.ix1Cne x0 x1) := id
theorem ix1Cles (x0 : Guard) (x1 : Src) : Statement (.ix1Cles x0 x1) := id
theorem ix1Cleu (x0 : Guard) (x1 : Src) : Statement (.ix1Cleu x0 x1) := id
theorem ix1Shl8 (x0 : Guard) (x1 : Src) : Statement (.ix1Shl8 x0 x1) := id
theorem ix1Shl16 (x0 : Guard) (x1 : Src) : Statement (.ix1Shl16 x0 x1) := id
theorem ix1Shl32 (x0 : Guard) (x1 : Src) : Statement (.ix1Shl32 x0 x1) := id
theorem ix1Shr8 (x0 : Guard) (x1 : Src) : Statement (.ix1Shr8 x0 x1) := id
theorem ix1Shr16 (x0 : Guard) (x1 : Src) : Statement (.ix1Shr16 x0 x1) := id
theorem ix1Shr32 (x0 : Guard) (x1 : Src) : Statement (.ix1Shr32 x0 x1) := id
theorem ix1Sar8 (x0 : Guard) (x1 : Src) : Statement (.ix1Sar8 x0 x1) := id
theorem ix1Sar16 (x0 : Guard) (x1 : Src) : Statement (.ix1Sar16 x0 x1) := id
theorem ix1Sar32 (x0 : Guard) (x1 : Src) : Statement (.ix1Sar32 x0 x1) := id
theorem ix1Add8 (x0 : Guard) (x1 : Src) : Statement (.ix1Add8 x0 x1) := id
theorem ix1Add16 (x0 : Guard) (x1 : Src) : Statement (.ix1Add16 x0 x1) := id
theorem ix1Add32 (x0 : Guard) (x1 : Src) : Statement (.ix1Add32 x0 x1) := id
theorem ix1Mul (x0 : Guard) (x1 : Src) : Statement (.ix1Mul x0 x1) := id
theorem ix1Mulu (x0 : Guard) (x1 : Src) : Statement (.ix1Mulu x0 x1) := id
theorem ix1Div (x0 : Guard) (x1 : Src) : Statement (.ix1Div x0 x1) := id
theorem ix1Divu (x0 : Guard) (x1 : Src) : Statement (.ix1Divu x0 x1) := id
theorem ix1Rem (x0 : Guard) (x1 : Src) : Statement (.ix1Rem x0 x1) := id
theorem ix1Remu (x0 : Guard) (x1 : Src) : Statement (.ix1Remu x0 x1) := id
theorem ix1Bext (x0 : Guard) (x1 : Src) : Statement (.ix1Bext x0 x1) := id
theorem ix1Bexts (x0 : Guard) (x1 : Src) : Statement (.ix1Bexts x0 x1) := id
theorem ix1Bins (x0 : Guard) (x1 : Src) : Statement (.ix1Bins x0 x1) := id
theorem ix1Clz (x0 : Guard) (x1 : Src) : Statement (.ix1Clz x0 x1) := id
theorem ix1Ctz (x0 : Guard) (x1 : Src) : Statement (.ix1Ctz x0 x1) := id
theorem ix1Popc (x0 : Guard) (x1 : Src) : Statement (.ix1Popc x0 x1) := id
theorem ix1Brev (x0 : Guard) (x1 : Src) : Statement (.ix1Brev x0 x1) := id
theorem ix1Bswap (x0 : Guard) (x1 : Src) : Statement (.ix1Bswap x0 x1) := id
theorem sfx5Add (x0 : Guard) (x1 : Src) : Statement (.sfx5Add x0 x1) := id
theorem sfx5Sub (x0 : Guard) (x1 : Src) : Statement (.sfx5Sub x0 x1) := id
theorem sfx5Adds (x0 : Guard) (x1 : Src) : Statement (.sfx5Adds x0 x1) := id
theorem sfx5Subs (x0 : Guard) (x1 : Src) : Statement (.sfx5Subs x0 x1) := id
theorem sfx5And (x0 : Guard) (x1 : Src) : Statement (.sfx5And x0 x1) := id
theorem sfx5Or (x0 : Guard) (x1 : Src) : Statement (.sfx5Or x0 x1) := id
theorem sfx5Xor (x0 : Guard) (x1 : Src) : Statement (.sfx5Xor x0 x1) := id
theorem sfx5Andn (x0 : Guard) (x1 : Src) : Statement (.sfx5Andn x0 x1) := id
theorem sfx5Shl (x0 : Guard) (x1 : Src) : Statement (.sfx5Shl x0 x1) := id
theorem sfx5Shr (x0 : Guard) (x1 : Src) : Statement (.sfx5Shr x0 x1) := id
theorem sfx5Sar (x0 : Guard) (x1 : Src) : Statement (.sfx5Sar x0 x1) := id
theorem sfx5Rol (x0 : Guard) (x1 : Src) : Statement (.sfx5Rol x0 x1) := id
theorem sfx5Min (x0 : Guard) (x1 : Src) : Statement (.sfx5Min x0 x1) := id
theorem sfx5Max (x0 : Guard) (x1 : Src) : Statement (.sfx5Max x0 x1) := id
theorem sfx5Minu (x0 : Guard) (x1 : Src) : Statement (.sfx5Minu x0 x1) := id
theorem sfx5Maxu (x0 : Guard) (x1 : Src) : Statement (.sfx5Maxu x0 x1) := id
theorem sfx5Clts (x0 : Guard) (x1 : Src) : Statement (.sfx5Clts x0 x1) := id
theorem sfx5Cltu (x0 : Guard) (x1 : Src) : Statement (.sfx5Cltu x0 x1) := id
theorem sfx5Ceq (x0 : Guard) (x1 : Src) : Statement (.sfx5Ceq x0 x1) := id
theorem sfx5Cne (x0 : Guard) (x1 : Src) : Statement (.sfx5Cne x0 x1) := id
theorem sfx5Cles (x0 : Guard) (x1 : Src) : Statement (.sfx5Cles x0 x1) := id
theorem sfx5Cleu (x0 : Guard) (x1 : Src) : Statement (.sfx5Cleu x0 x1) := id
theorem sfx5Shl8 (x0 : Guard) (x1 : Src) : Statement (.sfx5Shl8 x0 x1) := id
theorem sfx5Shl16 (x0 : Guard) (x1 : Src) : Statement (.sfx5Shl16 x0 x1) := id
theorem sfx5Shl32 (x0 : Guard) (x1 : Src) : Statement (.sfx5Shl32 x0 x1) := id
theorem sfx5Shr8 (x0 : Guard) (x1 : Src) : Statement (.sfx5Shr8 x0 x1) := id
theorem sfx5Shr16 (x0 : Guard) (x1 : Src) : Statement (.sfx5Shr16 x0 x1) := id
theorem sfx5Shr32 (x0 : Guard) (x1 : Src) : Statement (.sfx5Shr32 x0 x1) := id
theorem sfx5Sar8 (x0 : Guard) (x1 : Src) : Statement (.sfx5Sar8 x0 x1) := id
theorem sfx5Sar16 (x0 : Guard) (x1 : Src) : Statement (.sfx5Sar16 x0 x1) := id
theorem sfx5Sar32 (x0 : Guard) (x1 : Src) : Statement (.sfx5Sar32 x0 x1) := id
theorem sfx5Add8 (x0 : Guard) (x1 : Src) : Statement (.sfx5Add8 x0 x1) := id
theorem sfx5Add16 (x0 : Guard) (x1 : Src) : Statement (.sfx5Add16 x0 x1) := id
theorem sfx5Add32 (x0 : Guard) (x1 : Src) : Statement (.sfx5Add32 x0 x1) := id
theorem vexAdd (x0 : VexUnit) (x1 : Width) (x2 : Guard) (x3 : Src) : Statement (.vexAdd x0 x1 x2 x3) := id
theorem vexSub (x0 : VexUnit) (x1 : Width) (x2 : Guard) (x3 : Src) : Statement (.vexSub x0 x1 x2 x3) := id
theorem vexAdds (x0 : VexUnit) (x1 : Width) (x2 : Guard) (x3 : Src) : Statement (.vexAdds x0 x1 x2 x3) := id
theorem vexSubs (x0 : VexUnit) (x1 : Width) (x2 : Guard) (x3 : Src) : Statement (.vexSubs x0 x1 x2 x3) := id
theorem vexMin (x0 : VexUnit) (x1 : Width) (x2 : Guard) (x3 : Src) : Statement (.vexMin x0 x1 x2 x3) := id
theorem vexMax (x0 : VexUnit) (x1 : Width) (x2 : Guard) (x3 : Src) : Statement (.vexMax x0 x1 x2 x3) := id
theorem vexAbs (x0 : VexUnit) (x1 : Width) (x2 : Guard) (x3 : Src) : Statement (.vexAbs x0 x1 x2 x3) := id
theorem vexNeg (x0 : VexUnit) (x1 : Width) (x2 : Guard) (x3 : Src) : Statement (.vexNeg x0 x1 x2 x3) := id
theorem vexAnd (x0 : VexUnit) (x1 : Width) (x2 : Guard) (x3 : Src) : Statement (.vexAnd x0 x1 x2 x3) := id
theorem vexOr (x0 : VexUnit) (x1 : Width) (x2 : Guard) (x3 : Src) : Statement (.vexOr x0 x1 x2 x3) := id
theorem vexXor (x0 : VexUnit) (x1 : Width) (x2 : Guard) (x3 : Src) : Statement (.vexXor x0 x1 x2 x3) := id
theorem vexAndn (x0 : VexUnit) (x1 : Width) (x2 : Guard) (x3 : Src) : Statement (.vexAndn x0 x1 x2 x3) := id
theorem vexShl (x0 : VexUnit) (x1 : Width) (x2 : Guard) (x3 : Src) : Statement (.vexShl x0 x1 x2 x3) := id
theorem vexShr (x0 : VexUnit) (x1 : Width) (x2 : Guard) (x3 : Src) : Statement (.vexShr x0 x1 x2 x3) := id
theorem vexSar (x0 : VexUnit) (x1 : Width) (x2 : Guard) (x3 : Src) : Statement (.vexSar x0 x1 x2 x3) := id
theorem vexMul (x0 : VexUnit) (x1 : Width) (x2 : Guard) (x3 : Src) : Statement (.vexMul x0 x1 x2 x3) := id
theorem vexFma (x0 : VexUnit) (x1 : Width) (x2 : Guard) (x3 : Src) : Statement (.vexFma x0 x1 x2 x3) := id
theorem vexFms (x0 : VexUnit) (x1 : Width) (x2 : Guard) (x3 : Src) : Statement (.vexFms x0 x1 x2 x3) := id
theorem vexFnma (x0 : VexUnit) (x1 : Width) (x2 : Guard) (x3 : Src) : Statement (.vexFnma x0 x1 x2 x3) := id
theorem vexCeq (x0 : VexUnit) (x1 : Width) (x2 : Guard) (x3 : Src) : Statement (.vexCeq x0 x1 x2 x3) := id
theorem vexCne (x0 : VexUnit) (x1 : Width) (x2 : Guard) (x3 : Src) : Statement (.vexCne x0 x1 x2 x3) := id
theorem vexClt (x0 : VexUnit) (x1 : Width) (x2 : Guard) (x3 : Src) : Statement (.vexClt x0 x1 x2 x3) := id
theorem vexCle (x0 : VexUnit) (x1 : Width) (x2 : Guard) (x3 : Src) : Statement (.vexCle x0 x1 x2 x3) := id
theorem vexCdet (x0 : VexUnit) (x1 : Width) (x2 : Guard) (x3 : Src) : Statement (.vexCdet x0 x1 x2 x3) := id
theorem vexSel (x0 : VexUnit) (x1 : Width) (x2 : Guard) (x3 : Src) : Statement (.vexSel x0 x1 x2 x3) := id
theorem vexCvt (x0 : VexUnit) (x1 : Width) (x2 : Guard) (x3 : Src) : Statement (.vexCvt x0 x1 x2 x3) := id
theorem vexPerm (x0 : VexUnit) (x1 : Width) (x2 : Guard) (x3 : Src) : Statement (.vexPerm x0 x1 x2 x3) := id
theorem vexBcast (x0 : VexUnit) (x1 : Width) (x2 : Guard) (x3 : Src) : Statement (.vexBcast x0 x1 x2 x3) := id
theorem vexSlide (x0 : VexUnit) (x1 : Width) (x2 : Guard) (x3 : Src) : Statement (.vexSlide x0 x1 x2 x3) := id
theorem vexRsum (x0 : VexUnit) (x1 : Width) (x2 : Guard) (x3 : Src) : Statement (.vexRsum x0 x1 x2 x3) := id
theorem vexRmin (x0 : VexUnit) (x1 : Width) (x2 : Guard) (x3 : Src) : Statement (.vexRmin x0 x1 x2 x3) := id
theorem vexRmax (x0 : VexUnit) (x1 : Width) (x2 : Guard) (x3 : Src) : Statement (.vexRmax x0 x1 x2 x3) := id
theorem vtset (x0 : VexUnit) (x1 : Guard) (x2 : Src) : Statement (.vtset x0 x1 x2) := id
theorem vtget (x0 : VexUnit) (x1 : Guard) (x2 : Src) : Statement (.vtget x0 x1 x2) := id
theorem vtthr (x0 : VexUnit) (x1 : Guard) (x2 : Src) : Statement (.vtthr x0 x1 x2) := id
theorem vtclr (x0 : VexUnit) (x1 : Guard) (x2 : Src) : Statement (.vtclr x0 x1 x2) := id
theorem kand (x0 : VexUnit) (x1 : Guard) (x2 : Src) : Statement (.kand x0 x1 x2) := id
theorem kor (x0 : VexUnit) (x1 : Guard) (x2 : Src) : Statement (.kor x0 x1 x2) := id
theorem kxor (x0 : VexUnit) (x1 : Guard) (x2 : Src) : Statement (.kxor x0 x1 x2) := id
theorem kandn (x0 : VexUnit) (x1 : Guard) (x2 : Src) : Statement (.kandn x0 x1 x2) := id
theorem knot (x0 : VexUnit) (x1 : Guard) (x2 : Src) : Statement (.knot x0 x1 x2) := id
theorem kgen (x0 : VexUnit) (x1 : Guard) (x2 : Src) : Statement (.kgen x0 x1 x2) := id
theorem kpopc (x0 : VexUnit) (x1 : Guard) (x2 : Src) : Statement (.kpopc x0 x1 x2) := id
theorem kffs (x0 : VexUnit) (x1 : Guard) (x2 : Src) : Statement (.kffs x0 x1 x2) := id
theorem sfx5Rcp (x0 : Width) (x1 : Guard) (x2 : Src) : Statement (.sfx5Rcp x0 x1 x2) := id
theorem sfx5Rsqrt (x0 : Width) (x1 : Guard) (x2 : Src) : Statement (.sfx5Rsqrt x0 x1 x2) := id
theorem sfx5Sqrt (x0 : Width) (x1 : Guard) (x2 : Src) : Statement (.sfx5Sqrt x0 x1 x2) := id
theorem sfx5Div (x0 : Width) (x1 : Guard) (x2 : Src) : Statement (.sfx5Div x0 x1 x2) := id
theorem sfx5Exp2 (x0 : Width) (x1 : Guard) (x2 : Src) : Statement (.sfx5Exp2 x0 x1 x2) := id
theorem sfx5Log2 (x0 : Width) (x1 : Guard) (x2 : Src) : Statement (.sfx5Log2 x0 x1 x2) := id
theorem sfx5Tanh (x0 : Width) (x1 : Guard) (x2 : Src) : Statement (.sfx5Tanh x0 x1 x2) := id
theorem sfx5Sigm (x0 : Width) (x1 : Guard) (x2 : Src) : Statement (.sfx5Sigm x0 x1 x2) := id
theorem sfx5Sinpi (x0 : Width) (x1 : Guard) (x2 : Src) : Statement (.sfx5Sinpi x0 x1 x2) := id
theorem sfx5Cospi (x0 : Width) (x1 : Guard) (x2 : Src) : Statement (.sfx5Cospi x0 x1 x2) := id
theorem ctlLvl (x0 : Guard) (x1 : Src) : Statement (.ctlLvl x0 x1) := id
theorem ctlCabase (x0 : Guard) (x1 : Src) : Statement (.ctlCabase x0 x1) := id
theorem ctlCastr (x0 : Guard) (x1 : Src) : Statement (.ctlCastr x0 x1) := id
theorem ctlLoop (x0 : Guard) (x1 : Src) : Statement (.ctlLoop x0 x1) := id
theorem ctlBsel (x0 : Guard) (x1 : Src) : Statement (.ctlBsel x0 x1) := id
theorem ctlWait (x0 : Guard) (x1 : Src) : Statement (.ctlWait x0 x1) := id
theorem ctlFork (x0 : Guard) (x1 : Src) : Statement (.ctlFork x0 x1) := id
theorem ctlJoin (x0 : Guard) (x1 : Src) : Statement (.ctlJoin x0 x1) := id
theorem ctlSpawn (x0 : Guard) (x1 : Src) : Statement (.ctlSpawn x0 x1) := id
theorem ctlLaunch (x0 : Guard) (x1 : Src) : Statement (.ctlLaunch x0 x1) := id
theorem ctlDone (x0 : Guard) (x1 : Src) : Statement (.ctlDone x0 x1) := id
theorem ctlBar (x0 : Guard) (x1 : Src) : Statement (.ctlBar x0 x1) := id
theorem ctlSrd (x0 : Guard) (x1 : Src) : Statement (.ctlSrd x0 x1) := id
theorem ctlSwr (x0 : Guard) (x1 : Src) : Statement (.ctlSwr x0 x1) := id
theorem ctlTrap (x0 : Guard) (x1 : Src) : Statement (.ctlTrap x0 x1) := id
theorem ctlRfe (x0 : Guard) (x1 : Src) : Statement (.ctlRfe x0 x1) := id
theorem ctlPark (x0 : Guard) (x1 : Src) : Statement (.ctlPark x0 x1) := id
theorem ctlAbort (x0 : Guard) (x1 : Src) : Statement (.ctlAbort x0 x1) := id
theorem ctlYield (x0 : Guard) (x1 : Src) : Statement (.ctlYield x0 x1) := id
theorem ctlUnpark (x0 : Guard) (x1 : Src) : Statement (.ctlUnpark x0 x1) := id
theorem ctlClkset (x0 : Guard) (x1 : Src) : Statement (.ctlClkset x0 x1) := id
theorem ctlVset (x0 : Guard) (x1 : Src) : Statement (.ctlVset x0 x1) := id
theorem ctlClkrd (x0 : Guard) (x1 : Src) : Statement (.ctlClkrd x0 x1) := id
theorem ctlSwsel (x0 : Guard) (x1 : Src) : Statement (.ctlSwsel x0 x1) := id
theorem exitBr (x0 : ExitSlot) (x1 : Guard) (x2 : Src) : Statement (.exitBr x0 x1 x2) := id
theorem exitJmp (x0 : ExitSlot) (x1 : Guard) (x2 : Src) : Statement (.exitJmp x0 x1 x2) := id
theorem exitCall (x0 : ExitSlot) (x1 : Guard) (x2 : Src) : Statement (.exitCall x0 x1 x2) := id
theorem exitCalla (x0 : ExitSlot) (x1 : Guard) (x2 : Src) : Statement (.exitCalla x0 x1 x2) := id
theorem exitRet (x0 : ExitSlot) (x1 : Guard) (x2 : Src) : Statement (.exitRet x0 x1 x2) := id
theorem ls2LdB (x0 : Guard) (x1 : Src) : Statement (.ls2LdB x0 x1) := id
theorem ls2LdH (x0 : Guard) (x1 : Src) : Statement (.ls2LdH x0 x1) := id
theorem ls2LdW (x0 : Guard) (x1 : Src) : Statement (.ls2LdW x0 x1) := id
theorem ls2LdD (x0 : Guard) (x1 : Src) : Statement (.ls2LdD x0 x1) := id
theorem ls2LdBs (x0 : Guard) (x1 : Src) : Statement (.ls2LdBs x0 x1) := id
theorem ls2LdHs (x0 : Guard) (x1 : Src) : Statement (.ls2LdHs x0 x1) := id
theorem ls2LdWs (x0 : Guard) (x1 : Src) : Statement (.ls2LdWs x0 x1) := id
theorem ls2SldB (x0 : Guard) (x1 : Src) : Statement (.ls2SldB x0 x1) := id
theorem ls2SldH (x0 : Guard) (x1 : Src) : Statement (.ls2SldH x0 x1) := id
theorem ls2SldW (x0 : Guard) (x1 : Src) : Statement (.ls2SldW x0 x1) := id
theorem ls2SldD (x0 : Guard) (x1 : Src) : Statement (.ls2SldD x0 x1) := id
theorem ls2SldBs (x0 : Guard) (x1 : Src) : Statement (.ls2SldBs x0 x1) := id
theorem ls2SldHs (x0 : Guard) (x1 : Src) : Statement (.ls2SldHs x0 x1) := id
theorem ls2SldWs (x0 : Guard) (x1 : Src) : Statement (.ls2SldWs x0 x1) := id
theorem ls2LdioB (x0 : Guard) (x1 : Src) : Statement (.ls2LdioB x0 x1) := id
theorem ls2LdioH (x0 : Guard) (x1 : Src) : Statement (.ls2LdioH x0 x1) := id
theorem ls2LdioW (x0 : Guard) (x1 : Src) : Statement (.ls2LdioW x0 x1) := id
theorem ls2LdioD (x0 : Guard) (x1 : Src) : Statement (.ls2LdioD x0 x1) := id
theorem ls2StB (x0 : Guard) (x1 : Src) : Statement (.ls2StB x0 x1) := id
theorem ls2StH (x0 : Guard) (x1 : Src) : Statement (.ls2StH x0 x1) := id
theorem ls2StW (x0 : Guard) (x1 : Src) : Statement (.ls2StW x0 x1) := id
theorem ls2StD (x0 : Guard) (x1 : Src) : Statement (.ls2StD x0 x1) := id
theorem ls2SstB (x0 : Guard) (x1 : Src) : Statement (.ls2SstB x0 x1) := id
theorem ls2SstH (x0 : Guard) (x1 : Src) : Statement (.ls2SstH x0 x1) := id
theorem ls2SstW (x0 : Guard) (x1 : Src) : Statement (.ls2SstW x0 x1) := id
theorem ls2SstD (x0 : Guard) (x1 : Src) : Statement (.ls2SstD x0 x1) := id
theorem ls2AtAdd (x0 : Guard) (x1 : Src) : Statement (.ls2AtAdd x0 x1) := first_check
theorem ls2AtAnd (x0 : Guard) (x1 : Src) : Statement (.ls2AtAnd x0 x1) := first_check
theorem ls2AtOr (x0 : Guard) (x1 : Src) : Statement (.ls2AtOr x0 x1) := first_check
theorem ls2AtXor (x0 : Guard) (x1 : Src) : Statement (.ls2AtXor x0 x1) := first_check
theorem ls2AtMin (x0 : Guard) (x1 : Src) : Statement (.ls2AtMin x0 x1) := first_check
theorem ls2AtMax (x0 : Guard) (x1 : Src) : Statement (.ls2AtMax x0 x1) := first_check
theorem ls2AtMinu (x0 : Guard) (x1 : Src) : Statement (.ls2AtMinu x0 x1) := first_check
theorem ls2AtMaxu (x0 : Guard) (x1 : Src) : Statement (.ls2AtMaxu x0 x1) := first_check
theorem ls2AtFadd (x0 : Guard) (x1 : Src) : Statement (.ls2AtFadd x0 x1) := first_check
theorem ls2AtSwp (x0 : Guard) (x1 : Src) : Statement (.ls2AtSwp x0 x1) := first_check
theorem ls2AtCas (x0 : Guard) (x1 : Src) : Statement (.ls2AtCas x0 x1) := first_check
theorem ls2LdAcq (x0 : Guard) (x1 : Src) : Statement (.ls2LdAcq x0 x1) := first_check
theorem ls2StRel (x0 : Guard) (x1 : Src) : Statement (.ls2StRel x0 x1) := first_check
theorem ls2Acq (x0 : Guard) (x1 : Src) : Statement (.ls2Acq x0 x1) := first_check
theorem ls2Rel (x0 : Guard) (x1 : Src) : Statement (.ls2Rel x0 x1) := first_check
theorem ls2Fence (x0 : Guard) (x1 : Src) : Statement (.ls2Fence x0 x1) := first_check
theorem ls2Moor (x0 : Guard) (x1 : Src) : Statement (.ls2Moor x0 x1) := id
theorem ls2Unmoor (x0 : Guard) (x1 : Src) : Statement (.ls2Unmoor x0 x1) := id
theorem ls2PoolShare (x0 : Guard) (x1 : Src) : Statement (.ls2PoolShare x0 x1) := id
theorem ls2PoolDrop (x0 : Guard) (x1 : Src) : Statement (.ls2PoolDrop x0 x1) := id
theorem ls2PoolAlloc (x0 : Guard) (x1 : Src) : Statement (.ls2PoolAlloc x0 x1) := id
theorem ls2Xlinv (x0 : Guard) (x1 : Src) : Statement (.ls2Xlinv x0 x1) := first_check
theorem ls2Xlwait (x0 : Guard) (x1 : Src) : Statement (.ls2Xlwait x0 x1) := id
theorem ls2Icinv (x0 : Guard) (x1 : Src) : Statement (.ls2Icinv x0 x1) := id
theorem ls2Cwb (x0 : Guard) (x1 : Src) : Statement (.ls2Cwb x0 x1) := id
theorem ls2Cinv (x0 : Guard) (x1 : Src) : Statement (.ls2Cinv x0 x1) := id
theorem ls2Ea0 (x0 : Guard) (x1 : Src) : Statement (.ls2Ea0 x0 x1) := id
theorem ls2Ea1 (x0 : Guard) (x1 : Src) : Statement (.ls2Ea1 x0 x1) := id
theorem ls2Ea2 (x0 : Guard) (x1 : Src) : Statement (.ls2Ea2 x0 x1) := id
theorem ls2Ea3 (x0 : Guard) (x1 : Src) : Statement (.ls2Ea3 x0 x1) := id
theorem ls2Ea4 (x0 : Guard) (x1 : Src) : Statement (.ls2Ea4 x0 x1) := id
theorem ls2Ea5 (x0 : Guard) (x1 : Src) : Statement (.ls2Ea5 x0 x1) := id
theorem ls2Ea6 (x0 : Guard) (x1 : Src) : Statement (.ls2Ea6 x0 x1) := id
theorem mx6Tld (x0 : Guard) (x1 : Src) : Statement (.mx6Tld x0 x1) := id
theorem mx6Tldv (x0 : Guard) (x1 : Src) : Statement (.mx6Tldv x0 x1) := id
theorem mx6Tst (x0 : Guard) (x1 : Src) : Statement (.mx6Tst x0 x1) := id
theorem mx6Trd (x0 : Guard) (x1 : Src) : Statement (.mx6Trd x0 x1) := id
theorem mx6Shset (x0 : Guard) (x1 : Src) : Statement (.mx6Shset x0 x1) := id
theorem mx6Shget (x0 : Guard) (x1 : Src) : Statement (.mx6Shget x0 x1) := id
theorem mx6Step (x0 : Guard) (x1 : Src) : Statement (.mx6Step x0 x1) := id
theorem mx6Azero (x0 : Guard) (x1 : Src) : Statement (.mx6Azero x0 x1) := id
theorem mx6Ard (x0 : Guard) (x1 : Src) : Statement (.mx6Ard x0 x1) := id
theorem mx6Awr (x0 : Guard) (x1 : Src) : Statement (.mx6Awr x0 x1) := id
theorem mx6Acvt (x0 : Guard) (x1 : Src) : Statement (.mx6Acvt x0 x1) := id
theorem mx6Acvts (x0 : Guard) (x1 : Src) : Statement (.mx6Acvts x0 x1) := id
theorem mx6Aldq (x0 : Guard) (x1 : Src) : Statement (.mx6Aldq x0 x1) := id
theorem mx6Bchain (x0 : Guard) (x1 : Src) : Statement (.mx6Bchain x0 x1) := id
theorem mx6Bsend (x0 : Guard) (x1 : Src) : Statement (.mx6Bsend x0 x1) := id
theorem mx6Bwait (x0 : Guard) (x1 : Src) : Statement (.mx6Bwait x0 x1) := id
theorem mx6Bfree (x0 : Guard) (x1 : Src) : Statement (.mx6Bfree x0 x1) := id
theorem mx6Bsts (x0 : Guard) (x1 : Src) : Statement (.mx6Bsts x0 x1) := id
theorem mx6Rsts (x0 : Guard) (x1 : Src) : Statement (.mx6Rsts x0 x1) := id
theorem mx6Rclr (x0 : Guard) (x1 : Src) : Statement (.mx6Rclr x0 x1) := id
theorem ex7Vld32 (x0 : Guard) (x1 : Src) : Statement (.ex7Vld32 x0 x1) := id
theorem ex7Vld64 (x0 : Guard) (x1 : Src) : Statement (.ex7Vld64 x0 x1) := id
theorem ex7Vld128 (x0 : Guard) (x1 : Src) : Statement (.ex7Vld128 x0 x1) := id
theorem ex7Svld32 (x0 : Guard) (x1 : Src) : Statement (.ex7Svld32 x0 x1) := id
theorem ex7Svld64 (x0 : Guard) (x1 : Src) : Statement (.ex7Svld64 x0 x1) := id
theorem ex7Svld128 (x0 : Guard) (x1 : Src) : Statement (.ex7Svld128 x0 x1) := id
theorem ex7Eld (x0 : Guard) (x1 : Src) : Statement (.ex7Eld x0 x1) := id
theorem ex7Vst32 (x0 : Guard) (x1 : Src) : Statement (.ex7Vst32 x0 x1) := id
theorem ex7Vst64 (x0 : Guard) (x1 : Src) : Statement (.ex7Vst64 x0 x1) := id
theorem ex7Vst128 (x0 : Guard) (x1 : Src) : Statement (.ex7Vst128 x0 x1) := id
theorem ex7Svst32 (x0 : Guard) (x1 : Src) : Statement (.ex7Svst32 x0 x1) := id
theorem ex7Svst64 (x0 : Guard) (x1 : Src) : Statement (.ex7Svst64 x0 x1) := id
theorem ex7Svst128 (x0 : Guard) (x1 : Src) : Statement (.ex7Svst128 x0 x1) := id
theorem ex7Est (x0 : Guard) (x1 : Src) : Statement (.ex7Est x0 x1) := id
theorem ex7Lavg (x0 : Guard) (x1 : Src) : Statement (.ex7Lavg x0 x1) := id
theorem ex7LavgHome (x0 : Guard) (x1 : Src) : Statement (.ex7LavgHome x0 x1) := id
theorem ex7LavgRow (x0 : Guard) (x1 : Src) : Statement (.ex7LavgRow x0 x1) := id
theorem ex7LavgRowHome (x0 : Guard) (x1 : Src) : Statement (.ex7LavgRowHome x0 x1) := id
theorem ex7Ldet (x0 : Guard) (x1 : Src) : Statement (.ex7Ldet x0 x1) := id
theorem ex7LdetHome (x0 : Guard) (x1 : Src) : Statement (.ex7LdetHome x0 x1) := id
theorem ex7Trst (x0 : Guard) (x1 : Src) : Statement (.ex7Trst x0 x1) := id
theorem ex7Tdld (x0 : Guard) (x1 : Src) : Statement (.ex7Tdld x0 x1) := id
theorem ex7QSet (x0 : Guard) (x1 : Src) : Statement (.ex7QSet x0 x1) := id
theorem ex7QPush (x0 : Guard) (x1 : Src) : Statement (.ex7QPush x0 x1) := id
theorem ex7QPop (x0 : Guard) (x1 : Src) : Statement (.ex7QPop x0 x1) := id
theorem ex7QAdv (x0 : Guard) (x1 : Src) : Statement (.ex7QAdv x0 x1) := id
theorem ex7QSts (x0 : Guard) (x1 : Src) : Statement (.ex7QSts x0 x1) := id
theorem ex7CpReg (x0 : Guard) (x1 : Src) : Statement (.ex7CpReg x0 x1) := id
theorem ex7CpGo (x0 : Guard) (x1 : Src) : Statement (.ex7CpGo x0 x1) := id
theorem ex7CpDrain (x0 : Guard) (x1 : Src) : Statement (.ex7CpDrain x0 x1) := id
theorem ex7CpSts (x0 : Guard) (x1 : Src) : Statement (.ex7CpSts x0 x1) := id
theorem ex7SqPost (x0 : Guard) (x1 : Src) : Statement (.ex7SqPost x0 x1) := id
theorem ex7SqCqack (x0 : Guard) (x1 : Src) : Statement (.ex7SqCqack x0 x1) := id
theorem blockEntry (x0 : Nat) : Statement (.blockEntry x0) := trivial
theorem bundlePass (x0 : Nat) : Statement (.bundlePass x0) := trivial
theorem resultLanding (x0 : Nat) (x1 : Nat) : Statement (.resultLanding x0 x1) := trivial
theorem blockCommit (x0 : Nat) : Statement (.blockCommit x0) := trivial
theorem denialNotice (x0 : Nat) : Statement (.denialNotice x0) := trivial
theorem poisonNotice (x0 : Nat) : Statement (.poisonNotice x0) := trivial
theorem iterationBoundary (x0 : Nat) : Statement (.iterationBoundary x0) := trivial
theorem tableWalk (x0 : Nat) : Statement (.tableWalk x0) := trivial
theorem walkQueueRetry (x0 : Nat) : Statement (.walkQueueRetry x0) := trivial
theorem invalidationObserved (x0 : Nat) (x1 : Nat) : Statement (.invalidationObserved x0 x1) := trivial
theorem invalidationComplete (x0 : Nat) : Statement (.invalidationComplete x0) := trivial
theorem copyOnWrite (x0 : Nat) (x1 : Nat) : Statement (.copyOnWrite x0 x1) := trivial
theorem entryInvalidation (x0 : Nat) : Statement (.entryInvalidation x0) := trivial
theorem l1Fill (x0 : Nat) (x1 : Nat) : Statement (.l1Fill x0 x1) := trivial
theorem atomicAtHome (x0 : Nat) : Statement (.atomicAtHome x0) := trivial
theorem treeUpdate (x0 : Nat) : Statement (.treeUpdate x0) := trivial
theorem packWrite (x0 : Nat) : Statement (.packWrite x0) := trivial
theorem hbmScrub (x0 : Nat) : Statement (.hbmScrub x0) := trivial
theorem pcieRequesterAccess (x0 : Nat) (x1 : Nat) (x2 : Nat) (x3 : Nat) (x4 : Bool) (x5 : BitVec 1024) : Statement (.pcieRequesterAccess x0 x1 x2 x3 x4 x5) := trivial
theorem fabricRemoteAccess (x0 : Nat) (x1 : Nat) (x2 : Nat) (x3 : Nat) (x4 : AccessKind) (x5 : PackMode) (x6 : BitVec 1024) : Statement (.fabricRemoteAccess x0 x1 x2 x3 x4 x5 x6) := trivial
theorem atinvWrite (x0 : Nat) (x1 : BitVec 64) : Statement (.atinvWrite x0 x1) := trivial
theorem atinvComplete (x0 : Nat) : Statement (.atinvComplete x0) := trivial
theorem l2modeWrite (x0 : BitVec 64) : Statement (.l2modeWrite x0) := trivial
theorem l2modeSwitchEnd : Statement .l2modeSwitchEnd := trivial
theorem rrctlWrite (x0 : Nat) (x1 : BitVec 64) : Statement (.rrctlWrite x0 x1) := trivial
theorem killctlWrite (x0 : BitVec 64) : Statement (.killctlWrite x0) := trivial
theorem killAbortTimeout (x0 : Nat) : Statement (.killAbortTimeout x0) := trivial
theorem killComplete : Statement .killComplete := trivial
theorem registerWrite (x0 : Nat) (x1 : BitVec 64) : Statement (.registerWrite x0 x1) := trivial
theorem coreTakeWork (x0 : Nat) : Statement (.coreTakeWork x0) := trivial
theorem scratchpadZeroing (x0 : Nat) : Statement (.scratchpadZeroing x0) := trivial
theorem taskStart (x0 : Nat) : Statement (.taskStart x0) := trivial
theorem launchStart (x0 : Nat) : Statement (.launchStart x0) := trivial
theorem crewAdmission : Statement .crewAdmission := trivial
theorem recordComplete (x0 : Nat) : Statement (.recordComplete x0) := trivial
theorem copyRecordRun (x0 : Nat) : Statement (.copyRecordRun x0) := trivial
theorem shareReport (x0 : Nat) (x1 : Nat) : Statement (.shareReport x0 x1) := trivial
theorem launchComplete (x0 : Nat) : Statement (.launchComplete x0) := trivial
theorem quantumBoundary : Statement .quantumBoundary := trivial
theorem streamMap : Statement .streamMap := trivial
theorem preemptionTaken (x0 : Nat) : Statement (.preemptionTaken x0) := trivial
theorem stubTimeout (x0 : Nat) : Statement (.stubTimeout x0) := trivial
theorem yieldSave (x0 : Nat) : Statement (.yieldSave x0) := trivial
theorem frameResume (x0 : Nat) : Statement (.frameResume x0) := trivial
theorem parkInPlace (x0 : Nat) : Statement (.parkInPlace x0) := trivial
theorem barrierComplete (x0 : Nat) : Statement (.barrierComplete x0) := trivial
theorem waitReady (x0 : Nat) : Statement (.waitReady x0) := trivial
theorem drainComplete (x0 : Nat) : Statement (.drainComplete x0) := trivial
theorem matrixCommandFire (x0 : Nat) : Statement (.matrixCommandFire x0) := trivial
theorem residueRetry (x0 : Nat) (x1 : Bool) : Statement (.residueRetry x0 x1) := trivial
theorem ex7CommandFire (x0 : Nat) : Statement (.ex7CommandFire x0) := trivial
theorem nestCopyEmit (x0 : Nat) (x1 : Nat) : Statement (.nestCopyEmit x0 x1) := trivial
theorem addOnRowApply (x0 : Nat) (x1 : Nat) : Statement (.addOnRowApply x0 x1) := trivial
theorem basinRowArrival (x0 : Nat) (x1 : Nat) : Statement (.basinRowArrival x0 x1) := trivial
theorem chainBroken (x0 : Nat) (x1 : Nat) : Statement (.chainBroken x0 x1) := trivial
theorem voltageSettled (x0 : Nat) : Statement (.voltageSettled x0) := trivial
theorem sampleWindowBoundary (x0 : List Nat) : Statement (.sampleWindowBoundary x0) := trivial
theorem thermalLimitChange (x0 : Nat) (x1 : Nat) : Statement (.thermalLimitChange x0 x1) := trivial
theorem emergencySave : Statement .emergencySave := trivial
theorem powerCut : Statement .powerCut := trivial
theorem roundBoundary : Statement .roundBoundary := trivial
theorem noticeEffect : Statement .noticeEffect := trivial
theorem heartbeatSend : Statement .heartbeatSend := trivial
theorem silenceTimeout (x0 : Nat) : Statement (.silenceTimeout x0) := trivial
theorem evictTimeout (x0 : Nat) : Statement (.evictTimeout x0) := trivial
theorem joinTimeout : Statement .joinTimeout := trivial
theorem tidectlWrite (x0 : BitVec 64) : Statement (.tidectlWrite x0) := trivial
theorem timeSyncSend : Statement .timeSyncSend := trivial
theorem heartbeat (x0 : Msg) : Statement (.heartbeat x0) := trivial
theorem notice (x0 : Msg) : Statement (.notice x0) := trivial
theorem release (x0 : Msg) : Statement (.release x0) := trivial
theorem joinReq (x0 : Msg) : Statement (.joinReq x0) := trivial
theorem joinAck (x0 : Msg) (x1 : List (BitVec 64)) : Statement (.joinAck x0 x1) := trivial
theorem join (x0 : Msg) : Statement (.join x0) := trivial
theorem leave (x0 : Msg) : Statement (.leave x0) := trivial
theorem evict (x0 : Msg) : Statement (.evict x0) := trivial
theorem timeReq (x0 : Msg) : Statement (.timeReq x0) := trivial
theorem timeRsp (x0 : Msg) : Statement (.timeRsp x0) := trivial
theorem flow (x0 : Nat) (x1 : Nat) : Statement (.flow x0 x1) := trivial
theorem ack (x0 : Nat) : Statement (.ack x0) := trivial
theorem ackTimeout : Statement .ackTimeout := trivial
theorem valveRefresh (x0 : Nat) (x1 : Nat) : Statement (.valveRefresh x0 x1) := trivial
theorem launch (x0 : Nat) (x1 : Msg) : Statement (.launch x0 x1) := trivial
theorem complete (x0 : Msg) : Statement (.complete x0) := trivial
theorem fault (x0 : Msg) : Statement (.fault x0) := trivial
theorem mgmtRegisterRead (x0 : Msg) : Statement (.mgmtRegisterRead x0) := trivial
theorem mgmtRegisterWrite (x0 : Msg) : Statement (.mgmtRegisterWrite x0) := trivial
theorem mgmtAttestation (x0 : Msg) (x1 : BitVec 256) : Statement (.mgmtAttestation x0 x1) := trivial
theorem mgmtRestart (x0 : Msg) : Statement (.mgmtRestart x0) := trivial
theorem mgmtStatus (x0 : Msg) : Statement (.mgmtStatus x0) := trivial
theorem linkLaneShed (x0 : Nat) : Statement (.linkLaneShed x0) := trivial
theorem linkDown (x0 : Nat) : Statement (.linkDown x0) := trivial
theorem reset : Statement .reset := trivial
theorem accessAtTarget (x0 : Nat) : Statement (.accessAtTarget x0) := trivial
theorem eccError (x0 : EccUnit) (x1 : Nat) (x2 : Bool) : Statement (.eccError x0 x1 x2) := trivial
theorem linkResume (x0 : Nat) : Statement (.linkResume x0) := trivial
theorem voltageLoweringDone (x0 : Nat) : Statement (.voltageLoweringDone x0) := trivial
theorem icinvComplete (x0 : Nat) : Statement (.icinvComplete x0) := trivial
theorem unknownMessageType (x0 : Msg) : Statement (.unknownMessageType x0) := trivial

end Sys2Proof.Laws.F
end

