-- ==== Sys2Proof/Laws/Still.lean ====
section
/-!
SUPPORT. Packs of memory that stand still (`MemSys.Settled`): what an access brings about in the caches, evictions, recalls
and fetched windows among it, leaves their bytes and their poison as they were.
-/

namespace Sys2Proof.Machine

/-- Pack `q` stands still in `m`, and reads as it did in `m0`. -/
def MemSys.Still (m0 : MemSys) (q : Nat) (m : MemSys) : Prop :=
  m.Settled q ∧ ∀ b, b / 256 = q → m.byte b = m0.byte b ∧ m.poisoned b = m0.poisoned b

theorem MemSys.Still.refl {m : MemSys} {q : Nat} (h : m.Settled q) : MemSys.Still m q m := ⟨h, fun _ _ => ⟨rfl, rfl⟩⟩

variable {m0 : MemSys} {q : Nat}

theorem still_foldl {α : Type} {f : MemSys → α → MemSys} {m : MemSys} {l : List α}
    (hf : ∀ m x, x ∈ l → MemSys.Still m0 q m → MemSys.Still m0 q (f m x)) (h : MemSys.Still m0 q m) :
    MemSys.Still m0 q (l.foldl f m) := by
  induction l generalizing m with
  | nil => exact h
  | cons x l ih => exact ih (fun m y hy => hf m y (List.mem_cons_of_mem _ hy)) (hf m x List.mem_cons_self h)

theorem ite_still {c : Prop} [Decidable c] {a b : MemSys} (ha : MemSys.Still m0 q a) (hb : MemSys.Still m0 q b) :
    MemSys.Still m0 q (if c then a else b) := by split <;> assumption

/-- A change of what is neither memory nor a level-1 cache. -/
theorem MemSys.Still.congr {m m' : MemSys} (h : MemSys.Still m0 q m) (e1 : m'.mem = m.mem) (e2 : m'.poison = m.poison)
    (e3 : m'.tags = m.tags) (e4 : m'.dirtyPacks = m.dirtyPacks) (e5 : m'.l1 = m.l1) : MemSys.Still m0 q m' := by
  unfold MemSys.Still MemSys.Settled MemSys.lines MemSys.byte MemSys.absent MemSys.poisoned at *
  rw [e1, e2, e3, e4, e5]; exact h

theorem MemSys.lines_setLines (m : MemSys) (k j : Nat) (ls : List L1Line) :
    (m.setLines k ls).lines j = if j = k then ls else m.lines j := by simp [MemSys.setLines, MemSys.lines, SMap.get_set]

theorem MemSys.Still.calm {m : MemSys} (h : MemSys.Still m0 q m) {k : Nat} {l : L1Line} (hl : l ∈ m.lines k) (hq : l.line / 4 = q) :
    l.pending = false := h.1.2 k l hl hq

theorem MemSys.setLines_still {m : MemSys} (k : Nat) (ls : List L1Line) (hl : ∀ l ∈ ls, l.line / 4 = q → l.pending = false)
    (h : MemSys.Still m0 q m) : MemSys.Still m0 q (m.setLines k ls) := by
  refine ⟨⟨h.1.1, fun j l hj hq => ?_⟩, h.2⟩
  rw [MemSys.lines_setLines] at hj
  split at hj
  · exact hl l hj hq
  · exact h.1.2 j l hj hq

theorem MemSys.setLines_filter_still {m : MemSys} (k : Nat) (p : L1Line → Bool) (h : MemSys.Still m0 q m) :
    MemSys.Still m0 q (m.setLines k ((m.lines k).filter p)) :=
  MemSys.setLines_still k _ (fun _ hl hq => h.calm (List.mem_filter.1 hl).1 hq) h

theorem MemSys.put_lines (m : MemSys) (a n v mask : Nat) (packed bad : Bool) : (m.put a n v mask packed bad).l1 = m.l1 := by
  unfold MemSys.put MemSys.setPoison
  dsimp only
  split
  · rfl
  · split <;> rfl

theorem setInsert_contains (l : List Nat) (k j : Nat) : (setInsert l k).contains j = (decide (j = k) || l.contains j) := by
  induction l with
  | nil => simp [setInsert]
  | cons x l ih =>
    unfold setInsert
    split
    · simp
    · split
      · subst_vars; simp
      · rw [List.contains_cons, ih, List.contains_cons]
        cases (j == x) <;> cases decide (j = k) <;> rfl

theorem MemSys.setPoison_poisoned (m : MemSys) (a b : Nat) (p : Bool) (h : b / 64 ≠ a / 64) : (m.setPoison a p).poisoned b = m.poisoned b := by
  unfold MemSys.setPoison MemSys.poisoned
  cases p
  · simp only [Bool.false_eq_true, if_false]
    rw [Bool.eq_iff_iff]
    simp [List.mem_filter, h]
  · rw [if_pos rfl]
    show (setInsert m.poison (a / 64)).contains (b / 64) = _
    rw [setInsert_contains, decide_eq_false h, Bool.false_or]

theorem MemSys.put_still {m : MemSys} (a n v mask : Nat) (packed bad : Bool) (ha : a % 256 + n ≤ 256) (hq : a / 256 ≠ q)
    (h : MemSys.Still m0 q m) : MemSys.Still m0 q (m.put a n v mask packed bad) := by
  refine ⟨⟨?_, fun k l hl => ?_⟩, fun b hb => ⟨?_, ?_⟩⟩
  · have hd : ∃ x, (m.put a n v mask packed bad).dirtyPacks = SMap.insert m.dirtyPacks (a / 256) x := by
      unfold MemSys.put MemSys.setPoison
      dsimp only
      split
      · exact ⟨_, rfl⟩
      · split <;> exact ⟨_, rfl⟩
    obtain ⟨x, hd⟩ := hd
    rw [hd, SMap.get_insert, if_neg (fun e => hq e.symm)]
    exact h.1.1
  · rw [MemSys.lines, MemSys.put_lines] at hl
    exact h.1.2 k l hl
  · rw [MemSys.put_byte _ _ _ _ _ _ _ _ ha, if_neg (by omega)]
    exact (h.2 b hb).1
  · rw [← (h.2 b hb).2]
    have hne : b / 64 ≠ a / 64 := by omega
    unfold MemSys.put
    dsimp only
    split
    · rw [MemSys.setPoison_poisoned _ _ _ _ hne]; rfl
    · split
      · rw [MemSys.setPoison_poisoned _ _ _ _ hne]; rfl
      · rfl

theorem MemSys.merge_still {m : MemSys} (line : Nat) (v bits : Block) (packed bad : Bool) (hq : line / 4 ≠ q)
    (h : MemSys.Still m0 q m) : MemSys.Still m0 q (m.merge line v bits packed bad) :=
  MemSys.put_still _ _ _ _ _ _ (by omega) (by omega) h

theorem MemSys.putLine_still {m : MemSys} (l : L1Line) (hl : l.line / 4 = q → l.pending = false) (h : MemSys.Still m0 q m) :
    MemSys.Still m0 q (m.putLine l) := by
  unfold MemSys.putLine
  by_cases hq : l.line / 4 = q
  · have := hl hq
    unfold L1Line.pending LineState.pending at this
    split <;> simp_all
  · split
    · exact MemSys.merge_still _ _ _ _ _ hq h
    · exact MemSys.put_still _ _ _ _ _ _ (by omega) (by omega) h
    · exact h

theorem MemSys.expelWith_still {m : MemSys} (f : Nat → MemSys → L1Line → MemSys) (line : Nat) (own : Option Nat)
    (hf : ∀ c m l, (l.line / 4 = q → l.pending = false) → MemSys.Still m0 q m → MemSys.Still m0 q (f c m l))
    (h : MemSys.Still m0 q m) : MemSys.Still m0 q (m.expelWith f line own) := by
  unfold MemSys.expelWith
  refine still_foldl (fun m c _ hm => ?_) h
  dsimp only
  split
  · exact hm
  · refine still_foldl (fun m' l hl hm' => ?_) hm
    exact MemSys.setLines_filter_still _ _ (hf _ _ _ (fun hq => hm.calm (List.mem_filter.1 hl).1 hq) hm')

theorem SMap.get_foldl_filter (l : List Nat) (keep : Nat → Bool) (r : Nat → Nat → Bool) (m : List Host.Cell) (b : Nat)
    (hk : ∀ i ∈ l, keep i = true ∨ r i b = false) :
    SMap.get emptyByte (l.foldl (fun m i => if keep i then m else m.filter fun e => !r i e.1) m) b = SMap.get emptyByte m b := by
  induction l generalizing m with
  | nil => rfl
  | cons i l ih =>
    rw [List.foldl_cons, ih _ fun j hj => hk j (List.mem_cons_of_mem _ hj)]
    split
    · rfl
    · rcases hk i List.mem_cons_self with h | h
      · contradiction
      · exact SMap.get_filter_of_keep _ _ _ _ fun v => by simp [h]

theorem MemSys.packWrite_still {m : MemSys} (p : Nat) (h : MemSys.Still m0 q m) : MemSys.Still m0 q (m.packWrite p) := by
  unfold MemSys.packWrite
  split
  · exact h
  · rename_i raw hraw
    have hk : ∀ b, b / 256 = q → ∀ i ∈ upto 0 4, m.kept raw (4 * p + i) = true ∨
        (decide (256 * p + 64 * i ≤ b) && decide (b < 256 * p + 64 * i + 64)) = false := by
      intro b hb i hi
      by_cases hp : p = q
      · subst hp
        left
        cases raw
        · exact absurd hraw h.1.1
        · rfl
      · right
        have : i = 0 ∨ i = 1 ∨ i = 2 ∨ i = 3 := by simpa [upto] using hi
        simp only [Bool.and_eq_false_iff, decide_eq_false_iff_not]
        omega
    refine ⟨⟨?_, h.1.2⟩, fun b hb => ⟨?_, (h.2 b hb).2⟩⟩
    · by_cases hp : q = p
      · subst hp; rw [SMap.get_erase_same]; simp
      · rw [SMap.erase, SMap.get_filter_of_keep _ _ _ _ fun v => by simp [hp]]; exact h.1.1
    · rw [← (h.2 b hb).1]
      unfold MemSys.byte
      have hmem := SMap.get_foldl_filter (upto 0 4) (fun i => m.kept raw (4 * p + i))
        (fun i b => decide (256 * p + 64 * i ≤ b) && decide (b < 256 * p + 64 * i + 64)) m.mem b (hk b hb)
      by_cases hp : q = p
      · subst hp
        have hkr : ∀ i, m.kept raw (4 * q + i) = true := by
          intro i
          cases raw
          · exact absurd hraw h.1.1
          · rfl
        have ha : m.absent b = false := by simp [MemSys.absent, hb, hraw]
        rw [ha]
        rw [if_neg, if_neg (by simp)]
        · exact hmem
        · have hi : b / 64 % 4 < 4 := Nat.mod_lt _ (by decide)
          simp only [MemSys.absent, hb, SMap.get_erase_same, SMap.get_set_same, hkr, Option.isNone_none, Bool.true_and, Bool.not_eq_true',
            Bool.not_eq_false]
          revert hi
          generalize b / 64 % 4 = i
          intro hi
          match i, hi with
          | 0, _ => decide
          | 1, _ => decide
          | 2, _ => decide
          | 3, _ => decide
      · have e : ∀ (m' : MemSys), m'.dirtyPacks = SMap.erase m.dirtyPacks p → (∃ t, m'.tags = SMap.set 15 m.tags p t) →
            m'.absent b = m.absent b := by
          rintro m' e1 ⟨t, e2⟩
          unfold MemSys.absent
          rw [e1, e2, hb, SMap.get_set_other _ _ _ hp, SMap.erase, SMap.get_filter_of_keep _ _ _ _ fun v => by simp [hp]]
        rw [e _ rfl ⟨_, rfl⟩]
        split
        · rfl
        · exact hmem

theorem MemSys.setSlice_still {m : MemSys} (sl : Nat) (ls : List L2Line) (h : MemSys.Still m0 q m) :
    MemSys.Still m0 q (m.setSlice sl ls) := h.congr rfl rfl rfl rfl rfl

theorem MemSys.evict_still {m : MemSys} (sl line : Nat) (h : MemSys.Still m0 q m) : MemSys.Still m0 q (m.evict sl line) :=
  MemSys.packWrite_still _ (MemSys.setSlice_still _ _ (MemSys.expelWith_still _ _ _ (fun _ _ _ hl hm => MemSys.putLine_still _ hl hm) h))

theorem MemSys.makeWay_still {m : MemSys} (sl line : Nat) (cls : Option Nat) (h : MemSys.Still m0 q m) :
    MemSys.Still m0 q (m.makeWay sl line cls).1 := by
  unfold MemSys.makeWay
  dsimp only
  split
  · exact h
  · split
    · exact h
    · split
      · exact MemSys.evict_still _ _ h
      · exact h

theorem MemSys.occupy_still {m : MemSys} (sl : Nat) (cls : Option Nat) (line : Nat) (h : MemSys.Still m0 q m) :
    MemSys.Still m0 q (MemSys.occupy sl cls m line) := by
  unfold MemSys.occupy
  dsimp only
  split
  · split
    · exact MemSys.setSlice_still _ _ (MemSys.makeWay_still _ _ _ (MemSys.setSlice_still _ _ h))
    · exact MemSys.setSlice_still _ _ h
  · exact MemSys.setSlice_still _ _ (MemSys.makeWay_still _ _ _ h)

theorem MemSys.classOf_still {m : MemSys} (count : Bool) (sl pa : Nat) (ns : List Nat) (h : MemSys.Still m0 q m) :
    MemSys.Still m0 q (m.classOf count sl pa ns).1 := by
  induction ns generalizing m with
  | nil => exact h
  | cons n ns ih =>
    unfold MemSys.classOf
    dsimp only
    split
    · exact h.congr rfl rfl rfl rfl rfl
    · exact ih h

theorem MemSys.leavePartitions_still {m : MemSys} (die line : Nat) (h : MemSys.Still m0 q m) :
    MemSys.Still m0 q (m.leavePartitions die line) := by
  unfold MemSys.leavePartitions
  dsimp only
  split
  · exact (MemSys.packWrite_still (line / 4) h).congr rfl rfl rfl rfl rfl
  · exact h

theorem MemSys.freshPack_still {m : MemSys} (sl p : Nat) (h : MemSys.Still m0 q m) : MemSys.Still m0 q (m.freshPack sl p) := by
  unfold MemSys.freshPack
  exact ite_still h (h.congr rfl rfl rfl rfl rfl)

theorem MemSys.reach_still {m : MemSys} (count : Bool) (die pa : Nat) (th write : Bool) (h : MemSys.Still m0 q m) :
    MemSys.Still m0 q (MemSys.reach count m die pa th write) := by
  unfold MemSys.reach
  refine ite_still h ?_
  dsimp only
  have h1 := MemSys.classOf_still count (homeSlice m die pa th) pa (if m.rr = [] then [] else upto 0 8) h
  have h2 := ite_still (c := (write && (m.classOf count (homeSlice m die pa th) pa (if m.rr = [] then [] else upto 0 8)).1.part) = true)
    (MemSys.leavePartitions_still die (pa / 64) h1) h1
  exact ite_still (MemSys.occupy_still _ _ _ h2)
    (still_foldl (fun _ _ _ hm => MemSys.occupy_still _ _ _ hm) (MemSys.freshPack_still _ _ h2))

theorem MemSys.visit_still {m : MemSys} (die pa : Nat) (th write : Bool) (h : MemSys.Still m0 q m) :
    MemSys.Still m0 q (m.visit die pa th write) := MemSys.reach_still _ _ _ _ _ h

theorem MemSys.fillPack_still {m : MemSys} (p : Nat) (h : MemSys.Still m0 q m) : MemSys.Still m0 q (m.fillPack p) :=
  still_foldl (fun _ _ _ hm => still_foldl (fun _ _ _ hm' => MemSys.occupy_still _ _ _ hm') hm) h

theorem MemSys.sendLine_still {m : MemSys} (core : Nat) (l : L1Line) (hl : l.line / 4 = q → l.pending = false) (h : MemSys.Still m0 q m) :
    MemSys.Still m0 q (MemSys.sendLine core m l) := by
  unfold MemSys.sendLine
  dsimp only
  have hv := MemSys.visit_still (core / 64) (64 * l.line) l.th true h
  split
  · exact ite_still (MemSys.putLine_still _ hl hv) (MemSys.fillPack_still _ (MemSys.putLine_still _ hl hv))
  · exact hv

theorem MemSys.expel_still {m : MemSys} (line : Nat) (own : Option Nat) (h : MemSys.Still m0 q m) : MemSys.Still m0 q (m.expel line own) :=
  MemSys.expelWith_still _ _ _ (fun _ _ _ hl hm => MemSys.sendLine_still _ _ hl hm) h

theorem MemSys.flushLine_still {m : MemSys} (core : Nat) (drop : Bool) (l : L1Line) (hl : l.line / 4 = q → l.pending = false)
    (h : MemSys.Still m0 q m) : MemSys.Still m0 q (MemSys.flushLine core drop m l) := by
  unfold MemSys.flushLine
  dsimp only
  have h1 : MemSys.Still m0 q (if l.pending = true then MemSys.sendLine core (if l.coh = true then m.expel l.line (some core) else m) l else m) := by
    split
    · refine MemSys.sendLine_still _ _ hl ?_
      split
      · exact MemSys.expel_still _ _ h
      · exact h
    · exact h
  refine MemSys.setLines_still _ _ (fun k hk hq => ?_) h1
  obtain ⟨j, hj, e⟩ := List.mem_filterMap.1 hk
  by_cases hjq : j.line / 4 = q
  · have hc := h1.calm hj hjq
    by_cases hjl : j.line = l.line
    · rw [if_pos hjl] at e
      have hlp := hl (by rw [← hjl]; exact hjq)
      unfold L1Line.settled at e
      split at e
      · cases e
      · cases e
        unfold L1Line.pending at *
        cases hs : l.st <;> simp_all [LineState.pending]
    · rw [if_neg hjl] at e; cases e; exact hc
  · exfalso
    split at e
    · unfold L1Line.settled at e
      split at e
      · cases e
      · cases e; simp_all
    · cases e; exact hjq hq

theorem MemSys.flushWhere_still {m : MemSys} (core : Nat) (p : L1Line → Bool) (drop : Bool) (h : MemSys.Still m0 q m) :
    MemSys.Still m0 q (m.flushWhere core p drop) :=
  still_foldl (fun _ _ hl hm => MemSys.flushLine_still _ _ _ (fun hq => h.calm (List.mem_filter.1 hl).1 hq) hm) h

theorem MemSys.recall_still {m : MemSys} (line : Nat) (h : MemSys.Still m0 q m) : MemSys.Still m0 q (m.recall line) :=
  still_foldl (fun _ _ _ hm => MemSys.flushWhere_still _ _ _ hm) h

theorem MemSys.openHome_still {m : MemSys} (die pa : Nat) (th : Bool) (own : Option Nat) (h : MemSys.Still m0 q m) :
    MemSys.Still m0 q (m.openHome die pa th own) := MemSys.visit_still _ _ _ _ (MemSys.expel_still _ _ h)

theorem MemSys.targets_still {m : MemSys} (t : SMap Target) (h : MemSys.Still m0 q m) : MemSys.Still m0 q { m with targets := t } :=
  h.congr rfl rfl rfl rfl rfl

theorem MemSys.cacheWindows_still {m : MemSys} (tn mid : Nat) (h : MemSys.Still m0 q m) : MemSys.Still m0 q (m.cacheWindows tn mid) := by
  unfold MemSys.cacheWindows
  extract_lets t
  split
  · exact MemSys.targets_still _ (still_foldl (fun _ _ _ hm => MemSys.visit_still _ _ _ _ (MemSys.recall_still _ hm)) h)
  · exact h

theorem MemSys.deny_still {m : MemSys} (tn mid pa : Nat) (k : AccessKind) (unpop : Bool) (h : MemSys.Still m0 q m) :
    MemSys.Still m0 q (m.deny tn mid pa k unpop) := h.congr rfl rfl rfl rfl rfl

theorem MemSys.check_still {m : MemSys} (die mid pa : Nat) (k : AccessKind) (th : Bool) (h : MemSys.Still m0 q m) :
    MemSys.Still m0 q (m.check die mid pa k th).1 := by
  unfold MemSys.check
  dsimp only
  split
  · exact MemSys.deny_still _ _ _ _ _ h
  · exact MemSys.deny_still _ _ _ _ _ h
  · split
    · exact MemSys.cacheWindows_still _ _ h
    · exact MemSys.deny_still _ _ _ _ _ (MemSys.cacheWindows_still _ _ h)

/-- A read at a home leaves every byte of a pack that stands still. -/
theorem homeRead_still {m : MemSys} (w : Who) (x : Xlat) (pa n path : Nat) (kind : AccessKind) (h : MemSys.Still m0 q m) :
    MemSys.Still m0 q (homeRead m w x pa n path kind).1 := by
  have h1 := MemSys.check_still w.die w.mid pa kind (leafTh x.leaf) h
  unfold homeRead
  dsimp only
  split
  · exact h1
  · split
    · exact h1
    · have h2 := MemSys.visit_still w.die pa (leafTh x.leaf) false (MemSys.recall_still (pa / 64) h1)
      split
      · split
        · exact h2.congr rfl rfl rfl rfl rfl
        · exact h2
      · exact h2

theorem MemSys.refresh_byte (m : MemSys) (core line b : Nat) : (m.refresh core line).byte b = m.byte b := by
  unfold MemSys.refresh
  split <;> rfl

/-- A write at a home that has its frame leaves every other byte of a pack that stands still. -/
theorem MemSys.putHome_byte {m : MemSys} (a n v mask : Nat) (packed bad : Bool) (b : Nat) (ha : a % 256 + n ≤ 256)
    (hb : b < a ∨ a + n ≤ b) (hs : m.Settled (b / 256)) : (m.putHome a n v mask packed bad).byte b = m.byte b := by
  have hput : (m.put a n v mask packed bad).byte b = m.byte b := by rw [MemSys.put_byte _ _ _ _ _ _ _ _ ha, if_neg (by omega)]
  unfold MemSys.putHome
  dsimp only
  split
  · exact hput
  · rename_i hp
    have hd : (m.put a n v mask packed bad).dirtyPacks = SMap.insert m.dirtyPacks (a / 256) (some true) := by
      have hf : packed = false := by simpa using hp
      subst hf
      unfold MemSys.put MemSys.setPoison
      dsimp only
      split
      · rfl
      · split <;> rfl
    have hset : (m.put a n v mask packed bad).Settled (b / 256) := by
      refine ⟨?_, fun k l hl => ?_⟩
      · rw [hd, SMap.get_insert]
        split
        · simp
        · exact hs.1
      · rw [MemSys.lines, MemSys.put_lines] at hl
        exact hs.2 k l hl
    rw [((MemSys.fillPack_still (a / 256) (MemSys.Still.refl hset)).2 b rfl).1, hput]

/-- A write at a home within one pack leaves every other byte of a pack that stands still. -/
theorem homeWrite_byte {ms m : MemSys} {w : Who} {x : Xlat} {pa n v mask path : Nat} {bad : Bool} {d : Option Notice} (hn : pa % 256 + n ≤ 256)
    (h : homeWrite ms w x pa n v mask path bad = (m, d)) (b : Nat) (hb : b < pa ∨ pa + n ≤ b) (hs : ms.Settled (b / 256)) :
    m.byte b = ms.byte b := by
  have h1 := MemSys.check_still w.die w.mid pa .write (leafTh x.leaf) (MemSys.Still.refl hs)
  unfold homeWrite at h
  dsimp only at h
  split at h
  · cases h; exact (h1.2 b rfl).1
  · split at h
    · cases h; exact (h1.2 b rfl).1
    · have h2 := MemSys.openHome_still w.die pa (leafTh x.leaf) (writerOf w path) h1
      have h3 := MemSys.putHome_byte pa n v mask (leafPk x.leaf) bad b hn hb h2.1
      cases h
      rw [← (h2.2 b rfl).1, ← h3]
      split
      · exact MemSys.refresh_byte _ _ _ _
      · rfl

end Sys2Proof.Machine
end

