-- ==== Sys2Proof/Tests/Slice0.lean ====
section
/-!
SUPPORT. Tests of the author's own: ill-formed instructions that the checks refuse, words written out from the encoding
tables of the spec, a step, and for every statement with hypotheses a state and operands that meet them.
-/

namespace Sys2Proof.Tests

-- One theorem after another: each kernel evaluation otherwise holds a thread of its own.
set_option Elab.async false

open Sys2Proof.Machine

/-! ### Well-formedness: one ill-formed term for each check -/

theorem test_special_out_of_range_refused :
    wellFormed (.ix1Add .always (.special (.tc 3))) = false ∧ wellFormed (.ix1Add .always (.special (.li 6))) = false ∧
    wellFormed (.ix1Add .always (.special (.tc 2))) = true ∧ wellFormed (.ix1Add .always (.special (.li 5))) = true := by decide

/-- Atomics take their control word as an immediate (08 R205). -/
theorem test_control_word_no_immediate_refused :
    wellFormed (.ls2AtAdd .always (.sreg 0)) = false ∧ wellFormed (.ls2Fence .always (.result false)) = false ∧
    wellFormed (.ls2Xlinv .always (.pred 0)) = false ∧ wellFormed (.ls2AtAdd .always (.short 4)) = true := by decide

/-- Slots 3 and 4 alone name the other file (06 R160); a unit has the operand ports of 07 R190. -/
theorem test_destination_refused :
    wellFormed (.move .s2 .always (.short 0) (.otherSreg 0)) = false ∧
    wellFormed (.move .s5 .always (.short 0) (.otherVreg 0)) = false ∧
    wellFormed (.move .s1 .always (.short 0) (.oport 2)) = false ∧ wellFormed (.move .s1 .always (.short 0) (.oport 1)) = true ∧
    wellFormed (.move .s0 .always (.short 0) (.pairedOport 2)) = false ∧
    wellFormed (.move .s3 .always (.short 0) (.otherSreg 31)) = true := by decide

theorem test_event_place_refused :
    wellFormed (.blockEntry 256) = false ∧ wellFormed (.copyOnWrite 0 (2 ^ 64)) = false ∧ wellFormed (.tableWalk 4) = false ∧
    wellFormed (.entryInvalidation (2 ^ 44)) = false ∧ wellFormed (.packWrite (2 ^ 36)) = false ∧
    wellFormed (.hbmScrub (2 ^ 38)) = false ∧ wellFormed (.atinvComplete 184) = false ∧ wellFormed (.launchStart 4096) = false ∧
    wellFormed (.shareReport 64 0) = false ∧ wellFormed (.shareReport 0 32) = false ∧ wellFormed (.rrctlWrite (2 ^ 44) 0) = false ∧
    wellFormed (.nestCopyEmit 0 8) = false ∧ wellFormed (.chainBroken 0 8) = false := by decide

theorem test_event_value_refused :
    wellFormed (.pcieRequesterAccess 4 0 0 1 true 0) = false ∧ wellFormed (.pcieRequesterAccess 0 65536 0 1 true 0) = false ∧
    wellFormed (.pcieRequesterAccess 0 0 0 129 true 0) = false ∧ wellFormed (.fabricRemoteAccess 32 0 0 1 .read .raw 0) = false ∧
    wellFormed (.voltageSettled 32) = false ∧ wellFormed (.thermalLimitChange 16 0) = false ∧ wellFormed (.flow 0 256) = false ∧
    wellFormed (.ack 256) = false ∧ wellFormed (.silenceTimeout 65536) = false ∧ wellFormed (.linkDown 32) = false ∧
    wellFormed (.eccError .hbmBlock (2 ^ 44) false) = false := by decide

/-! ### Decoding: words written out from the encoding tables (guard, source, destination) -/

/-- 06 R164 to R169: sb3 from the short immediate -1 under q2; sb7 from k5; an operand port of the paired unit from its result s. -/
theorem test_decode_move :
    decodeParcel .s4 0b10010_1111111111_0_00000011 = some (.move .s4 (.q 2) (.short 0x1FF) (.sreg 3)) ∧
    decodeParcel .s3 0b00000_0000111101_0_01000111 = some (.move .s3 .always (.mask 5) (.otherSreg 7)) ∧
    decodeParcel .s2 0b00000_0001100001_0_10100011 = some (.move .s2 .always (.pairedResult true) (.pairedOport 3)) ∧
    decodeParcel .s2 0b00001_0000000000_0_00000000 = none := by decide +kernel

/-- 10 R257 to R260. -/
theorem test_decode_integer :
    decodeParcel .s1 0b00000_0000000111_1_01011000 = some (.ix1Bswap .always (.sreg 7)) ∧
    decodeParcel .s1 0b01001_0010011000_1_01000101 = some (.ix1Divu (.p 1) (.special .rcyc)) ∧
    decodeParcel .s5 0b00000_0001000001_1_11101110 = some (.sfx5Add32 .always (.result true)) ∧
    decodeParcel .s1 0b00000_0000000111_1_00100011 = none := by decide +kernel

/-- 11 R283, R291, R292: the functions with each width, the type and mask functions, the special functions. -/
theorem test_decode_vector :
    decodeParcel .s3 0b00000_0000100001_1_10011100 = some (.vexCdet .vex3 .w1024 .always (.vreg 1)) ∧
    decodeParcel .s4 0b00000_0000100001_1_00101010 = some (.vexSlide .vex4 .w256 .always (.vreg 1)) ∧
    decodeParcel .s4 0b00000_1000000000_1_11000000 = some (.vtset .vex4 .always (.short 0)) ∧
    decodeParcel .s3 0b00000_0000111000_1_11001111 = some (.kffs .vex3 .always (.mask 0)) ∧
    decodeParcel .s5 0b00000_0000100000_1_01001001 = some (.sfx5Cospi .w512 .always (.vreg 0)) := by decide +kernel

/-- 10 R262, R271; 18 R382; 20 R407. -/
theorem test_decode_control :
    decodeParcel .s0 0b00000_1000000000_1_00100000 = some (.ctlWait .always (.short 0)) ∧
    decodeParcel .s0 0b00000_0000000001_1_01110011 = some (.ctlSwsel .always (.sreg 1)) ∧
    decodeParcel .s2 0b11000_0100000100_1_11110010 = some (.exitCall .ls2 (.notP 0) (.long .w1w0)) ∧
    decodeParcel .s1 0b00000_0000011111_1_11110100 = some (.exitRet .ix1 .always (.sreg 31)) := by decide +kernel

/-- 08 R209, R220, 05 R140; 13 R320, 14 R326; 08 R216, 15 R362, R366. -/
theorem test_decode_units :
    decodeParcel .s2 0b00000_1000000011_1_01010001 = some (.ls2StRel .always (.short 3)) ∧
    decodeParcel .s2 0b00000_0000000010_1_01110110 = some (.ls2Ea6 .always (.sreg 2)) ∧
    decodeParcel .s6 0b00000_0000000010_1_01010000 = some (.mx6Bchain .always (.sreg 2)) ∧
    decodeParcel .s6 0b00000_1000000001_1_01110001 = some (.mx6Rclr .always (.short 1)) ∧
    decodeParcel .s7 0b00000_0000000100_1_00100101 = some (.ex7LdetHome .always (.sreg 4)) ∧
    decodeParcel .s7 0b00000_0000000100_1_01000011 = some (.ex7QAdv .always (.sreg 4)) ∧
    decodeParcel .s7 0b00000_0000000100_1_10010001 = some (.ex7SqCqack .always (.sreg 4)) := by decide +kernel

/-- 06 R162: the header parcel. -/
theorem test_decode_header :
    decodeHeader 0b10000001_00000010_1_0_11_0101 =
      { pres := 0x81, sync := 0x02, stop := true, x := false, nli := 3, rq := 5 } := by decide

/-- The encoder gives the words back. -/
theorem test_encode :
    encode (.ix1Divu (.p 1) (.special .rcyc)) = some (.s1, 0b01001_0010011000_1_01000101) ∧
    encode (.exitCall .ls2 (.notP 0) (.long .w1w0)) = some (.s2, 0b11000_0100000100_1_11110010) ∧
    encode (.move .s3 .always (.mask 5) (.otherSreg 7)) = some (.s3, 0b00000_0000111101_0_01000111) ∧
    encode (.blockEntry 0) = none := by decide +kernel

/-- The word of `ix1.bswap`, as the opcode table numbers its bits. -/
theorem test_decode_table_word : decodeTableWord 24 0x000158 = some (.ix1Bswap .always (.sreg 0)) := by decide +kernel


/-! Each instruction with an encoding, by the word that the opcode table gives it, with the short immediate 5 as its source. -/

theorem test_words_of_ctl : ∀ e ∈ ([
     (0x040B00, .ctlLvl .always (.short 5)), (0x040B01, .ctlCabase .always (.short 5)),
     (0x040B02, .ctlCastr .always (.short 5)), (0x040B08, .ctlLoop .always (.short 5)),
     (0x040B10, .ctlBsel .always (.short 5)), (0x040B20, .ctlWait .always (.short 5)),
     (0x040B30, .ctlFork .always (.short 5)), (0x040B31, .ctlJoin .always (.short 5)),
     (0x040B32, .ctlSpawn .always (.short 5)), (0x040B33, .ctlLaunch .always (.short 5)),
     (0x040B34, .ctlDone .always (.short 5)), (0x040B38, .ctlBar .always (.short 5)),
     (0x040B50, .ctlSrd .always (.short 5)), (0x040B51, .ctlSwr .always (.short 5)),
     (0x040B52, .ctlTrap .always (.short 5)), (0x040B53, .ctlRfe .always (.short 5)),
     (0x040B54, .ctlPark .always (.short 5)), (0x040B55, .ctlAbort .always (.short 5)),
     (0x040B56, .ctlYield .always (.short 5)), (0x040B57, .ctlUnpark .always (.short 5)),
     (0x040B70, .ctlClkset .always (.short 5)), (0x040B71, .ctlVset .always (.short 5)),
     (0x040B72, .ctlClkrd .always (.short 5)), (0x040B73, .ctlSwsel .always (.short 5)),
     (0x040BF0, .exitBr .ctl .always (.short 5)), (0x040BF1, .exitJmp .ctl .always (.short 5)),
     (0x040BF2, .exitCall .ctl .always (.short 5)), (0x040BF3, .exitCalla .ctl .always (.short 5)),
     (0x040BF4, .exitRet .ctl .always (.short 5))] : List (Parcel × Instr)), decodeParcel .s0 e.1 = some e.2 := by
  decide +kernel

theorem test_words_of_ix1 : ∀ e ∈ ([
     (0x040B00, .ix1Add .always (.short 5)), (0x040B01, .ix1Sub .always (.short 5)),
     (0x040B02, .ix1Adds .always (.short 5)), (0x040B03, .ix1Subs .always (.short 5)),
     (0x040B04, .ix1And .always (.short 5)), (0x040B05, .ix1Or .always (.short 5)),
     (0x040B06, .ix1Xor .always (.short 5)), (0x040B07, .ix1Andn .always (.short 5)),
     (0x040B08, .ix1Shl .always (.short 5)), (0x040B09, .ix1Shr .always (.short 5)),
     (0x040B0A, .ix1Sar .always (.short 5)), (0x040B0B, .ix1Rol .always (.short 5)),
     (0x040B0C, .ix1Min .always (.short 5)), (0x040B0D, .ix1Max .always (.short 5)),
     (0x040B0E, .ix1Minu .always (.short 5)), (0x040B0F, .ix1Maxu .always (.short 5)),
     (0x040B10, .ix1Clts .always (.short 5)), (0x040B11, .ix1Cltu .always (.short 5)),
     (0x040B12, .ix1Ceq .always (.short 5)), (0x040B13, .ix1Cne .always (.short 5)),
     (0x040B14, .ix1Cles .always (.short 5)), (0x040B15, .ix1Cleu .always (.short 5)),
     (0x040B20, .ix1Shl8 .always (.short 5)), (0x040B21, .ix1Shl16 .always (.short 5)),
     (0x040B22, .ix1Shl32 .always (.short 5)), (0x040B24, .ix1Shr8 .always (.short 5)),
     (0x040B25, .ix1Shr16 .always (.short 5)), (0x040B26, .ix1Shr32 .always (.short 5)),
     (0x040B28, .ix1Sar8 .always (.short 5)), (0x040B29, .ix1Sar16 .always (.short 5)),
     (0x040B2A, .ix1Sar32 .always (.short 5)), (0x040B2C, .ix1Add8 .always (.short 5)),
     (0x040B2D, .ix1Add16 .always (.short 5)), (0x040B2E, .ix1Add32 .always (.short 5)),
     (0x040B40, .ix1Mul .always (.short 5)), (0x040B41, .ix1Mulu .always (.short 5)),
     (0x040B44, .ix1Div .always (.short 5)), (0x040B45, .ix1Divu .always (.short 5)),
     (0x040B46, .ix1Rem .always (.short 5)), (0x040B47, .ix1Remu .always (.short 5)),
     (0x040B50, .ix1Bext .always (.short 5)), (0x040B51, .ix1Bexts .always (.short 5)),
     (0x040B52, .ix1Bins .always (.short 5)), (0x040B54, .ix1Clz .always (.short 5)),
     (0x040B55, .ix1Ctz .always (.short 5)), (0x040B56, .ix1Popc .always (.short 5)),
     (0x040B57, .ix1Brev .always (.short 5)), (0x040B58, .ix1Bswap .always (.short 5))] : List (Parcel × Instr)), decodeParcel .s1 e.1 = some e.2 := by
  decide +kernel

theorem test_words_of_ls2 : ∀ e ∈ ([
     (0x040B00, .ls2LdB .always (.short 5)), (0x040B01, .ls2LdH .always (.short 5)),
     (0x040B02, .ls2LdW .always (.short 5)), (0x040B03, .ls2LdD .always (.short 5)),
     (0x040B04, .ls2LdBs .always (.short 5)), (0x040B05, .ls2LdHs .always (.short 5)),
     (0x040B06, .ls2LdWs .always (.short 5)), (0x040B08, .ls2SldB .always (.short 5)),
     (0x040B09, .ls2SldH .always (.short 5)), (0x040B0A, .ls2SldW .always (.short 5)),
     (0x040B0B, .ls2SldD .always (.short 5)), (0x040B0C, .ls2SldBs .always (.short 5)),
     (0x040B0D, .ls2SldHs .always (.short 5)), (0x040B0E, .ls2SldWs .always (.short 5)),
     (0x040B10, .ls2LdioB .always (.short 5)), (0x040B11, .ls2LdioH .always (.short 5)),
     (0x040B12, .ls2LdioW .always (.short 5)), (0x040B13, .ls2LdioD .always (.short 5)),
     (0x040B20, .ls2StB .always (.short 5)), (0x040B21, .ls2StH .always (.short 5)),
     (0x040B22, .ls2StW .always (.short 5)), (0x040B23, .ls2StD .always (.short 5)),
     (0x040B28, .ls2SstB .always (.short 5)), (0x040B29, .ls2SstH .always (.short 5)),
     (0x040B2A, .ls2SstW .always (.short 5)), (0x040B2B, .ls2SstD .always (.short 5)),
     (0x040B30, .ls2AtAdd .always (.short 5)), (0x040B31, .ls2AtAnd .always (.short 5)),
     (0x040B32, .ls2AtOr .always (.short 5)), (0x040B33, .ls2AtXor .always (.short 5)),
     (0x040B34, .ls2AtMin .always (.short 5)), (0x040B35, .ls2AtMax .always (.short 5)),
     (0x040B36, .ls2AtMinu .always (.short 5)), (0x040B37, .ls2AtMaxu .always (.short 5)),
     (0x040B38, .ls2AtFadd .always (.short 5)), (0x040B39, .ls2AtSwp .always (.short 5)),
     (0x040B3A, .ls2AtCas .always (.short 5)), (0x040B50, .ls2LdAcq .always (.short 5)),
     (0x040B51, .ls2StRel .always (.short 5)), (0x040B52, .ls2Acq .always (.short 5)),
     (0x040B53, .ls2Rel .always (.short 5)), (0x040B54, .ls2Fence .always (.short 5)),
     (0x040B55, .ls2Moor .always (.short 5)), (0x040B56, .ls2Unmoor .always (.short 5)),
     (0x040B60, .ls2PoolShare .always (.short 5)), (0x040B61, .ls2PoolDrop .always (.short 5)),
     (0x040B62, .ls2PoolAlloc .always (.short 5)), (0x040B64, .ls2Xlinv .always (.short 5)),
     (0x040B65, .ls2Xlwait .always (.short 5)), (0x040B66, .ls2Icinv .always (.short 5)),
     (0x040B68, .ls2Cwb .always (.short 5)), (0x040B69, .ls2Cinv .always (.short 5)),
     (0x040B70, .ls2Ea0 .always (.short 5)), (0x040B71, .ls2Ea1 .always (.short 5)),
     (0x040B72, .ls2Ea2 .always (.short 5)), (0x040B73, .ls2Ea3 .always (.short 5)),
     (0x040B74, .ls2Ea4 .always (.short 5)), (0x040B75, .ls2Ea5 .always (.short 5)),
     (0x040B76, .ls2Ea6 .always (.short 5))] : List (Parcel × Instr)), decodeParcel .s2 e.1 = some e.2 := by
  decide +kernel

theorem test_words_of_vex3 : ∀ e ∈ ([
     (0x040B80, .vexAdd .vex3 .w1024 .always (.short 5)), (0x040B81, .vexSub .vex3 .w1024 .always (.short 5)),
     (0x040B82, .vexAdds .vex3 .w1024 .always (.short 5)), (0x040B83, .vexSubs .vex3 .w1024 .always (.short 5)),
     (0x040B84, .vexMin .vex3 .w1024 .always (.short 5)), (0x040B85, .vexMax .vex3 .w1024 .always (.short 5)),
     (0x040B86, .vexAbs .vex3 .w1024 .always (.short 5)), (0x040B87, .vexNeg .vex3 .w1024 .always (.short 5)),
     (0x040B88, .vexAnd .vex3 .w1024 .always (.short 5)), (0x040B89, .vexOr .vex3 .w1024 .always (.short 5)),
     (0x040B8A, .vexXor .vex3 .w1024 .always (.short 5)), (0x040B8B, .vexAndn .vex3 .w1024 .always (.short 5)),
     (0x040B8C, .vexShl .vex3 .w1024 .always (.short 5)), (0x040B8D, .vexShr .vex3 .w1024 .always (.short 5)),
     (0x040B8E, .vexSar .vex3 .w1024 .always (.short 5)), (0x040B90, .vexMul .vex3 .w1024 .always (.short 5)),
     (0x040B91, .vexFma .vex3 .w1024 .always (.short 5)), (0x040B92, .vexFms .vex3 .w1024 .always (.short 5)),
     (0x040B93, .vexFnma .vex3 .w1024 .always (.short 5)), (0x040B98, .vexCeq .vex3 .w1024 .always (.short 5)),
     (0x040B99, .vexCne .vex3 .w1024 .always (.short 5)), (0x040B9A, .vexClt .vex3 .w1024 .always (.short 5)),
     (0x040B9B, .vexCle .vex3 .w1024 .always (.short 5)), (0x040B9C, .vexCdet .vex3 .w1024 .always (.short 5)),
     (0x040B9D, .vexSel .vex3 .w1024 .always (.short 5)), (0x040BA0, .vexCvt .vex3 .w1024 .always (.short 5)),
     (0x040BA8, .vexPerm .vex3 .w1024 .always (.short 5)), (0x040BA9, .vexBcast .vex3 .w1024 .always (.short 5)),
     (0x040BAA, .vexSlide .vex3 .w1024 .always (.short 5)), (0x040BB0, .vexRsum .vex3 .w1024 .always (.short 5)),
     (0x040BB1, .vexRmin .vex3 .w1024 .always (.short 5)), (0x040BB2, .vexRmax .vex3 .w1024 .always (.short 5)),
     (0x040BC0, .vtset .vex3 .always (.short 5)), (0x040BC1, .vtget .vex3 .always (.short 5)),
     (0x040BC2, .vtthr .vex3 .always (.short 5)), (0x040BC3, .vtclr .vex3 .always (.short 5)),
     (0x040BC8, .kand .vex3 .always (.short 5)), (0x040BC9, .kor .vex3 .always (.short 5)),
     (0x040BCA, .kxor .vex3 .always (.short 5)), (0x040BCB, .kandn .vex3 .always (.short 5)),
     (0x040BCC, .knot .vex3 .always (.short 5)), (0x040BCD, .kgen .vex3 .always (.short 5)),
     (0x040BCE, .kpopc .vex3 .always (.short 5)), (0x040BCF, .kffs .vex3 .always (.short 5))] : List (Parcel × Instr)), decodeParcel .s3 e.1 = some e.2 := by
  decide +kernel

theorem test_words_of_sfx5 : ∀ e ∈ ([
     (0x040BC0, .sfx5Add .always (.short 5)), (0x040BC1, .sfx5Sub .always (.short 5)),
     (0x040BC2, .sfx5Adds .always (.short 5)), (0x040BC3, .sfx5Subs .always (.short 5)),
     (0x040BC4, .sfx5And .always (.short 5)), (0x040BC5, .sfx5Or .always (.short 5)),
     (0x040BC6, .sfx5Xor .always (.short 5)), (0x040BC7, .sfx5Andn .always (.short 5)),
     (0x040BC8, .sfx5Shl .always (.short 5)), (0x040BC9, .sfx5Shr .always (.short 5)),
     (0x040BCA, .sfx5Sar .always (.short 5)), (0x040BCB, .sfx5Rol .always (.short 5)),
     (0x040BCC, .sfx5Min .always (.short 5)), (0x040BCD, .sfx5Max .always (.short 5)),
     (0x040BCE, .sfx5Minu .always (.short 5)), (0x040BCF, .sfx5Maxu .always (.short 5)),
     (0x040BD0, .sfx5Clts .always (.short 5)), (0x040BD1, .sfx5Cltu .always (.short 5)),
     (0x040BD2, .sfx5Ceq .always (.short 5)), (0x040BD3, .sfx5Cne .always (.short 5)),
     (0x040BD4, .sfx5Cles .always (.short 5)), (0x040BD5, .sfx5Cleu .always (.short 5)),
     (0x040BE0, .sfx5Shl8 .always (.short 5)), (0x040BE1, .sfx5Shl16 .always (.short 5)),
     (0x040BE2, .sfx5Shl32 .always (.short 5)), (0x040BE4, .sfx5Shr8 .always (.short 5)),
     (0x040BE5, .sfx5Shr16 .always (.short 5)), (0x040BE6, .sfx5Shr32 .always (.short 5)),
     (0x040BE8, .sfx5Sar8 .always (.short 5)), (0x040BE9, .sfx5Sar16 .always (.short 5)),
     (0x040BEA, .sfx5Sar32 .always (.short 5)), (0x040BEC, .sfx5Add8 .always (.short 5)),
     (0x040BED, .sfx5Add16 .always (.short 5)), (0x040BEE, .sfx5Add32 .always (.short 5)),
     (0x040B80, .sfx5Rcp .w1024 .always (.short 5)), (0x040B81, .sfx5Rsqrt .w1024 .always (.short 5)),
     (0x040B82, .sfx5Sqrt .w1024 .always (.short 5)), (0x040B83, .sfx5Div .w1024 .always (.short 5)),
     (0x040B84, .sfx5Exp2 .w1024 .always (.short 5)), (0x040B85, .sfx5Log2 .w1024 .always (.short 5)),
     (0x040B86, .sfx5Tanh .w1024 .always (.short 5)), (0x040B87, .sfx5Sigm .w1024 .always (.short 5)),
     (0x040B88, .sfx5Sinpi .w1024 .always (.short 5)), (0x040B89, .sfx5Cospi .w1024 .always (.short 5))] : List (Parcel × Instr)), decodeParcel .s5 e.1 = some e.2 := by
  decide +kernel

theorem test_words_of_mx6 : ∀ e ∈ ([
     (0x040B00, .mx6Tld .always (.short 5)), (0x040B01, .mx6Tldv .always (.short 5)),
     (0x040B02, .mx6Tst .always (.short 5)), (0x040B03, .mx6Trd .always (.short 5)),
     (0x040B08, .mx6Shset .always (.short 5)), (0x040B09, .mx6Shget .always (.short 5)),
     (0x040B20, .mx6Step .always (.short 5)), (0x040B30, .mx6Azero .always (.short 5)),
     (0x040B31, .mx6Ard .always (.short 5)), (0x040B32, .mx6Awr .always (.short 5)),
     (0x040B33, .mx6Acvt .always (.short 5)), (0x040B34, .mx6Acvts .always (.short 5)),
     (0x040B35, .mx6Aldq .always (.short 5)), (0x040B50, .mx6Bchain .always (.short 5)),
     (0x040B51, .mx6Bsend .always (.short 5)), (0x040B52, .mx6Bwait .always (.short 5)),
     (0x040B53, .mx6Bfree .always (.short 5)), (0x040B54, .mx6Bsts .always (.short 5)),
     (0x040B70, .mx6Rsts .always (.short 5)), (0x040B71, .mx6Rclr .always (.short 5))] : List (Parcel × Instr)), decodeParcel .s6 e.1 = some e.2 := by
  decide +kernel

theorem test_words_of_ex7 : ∀ e ∈ ([
     (0x040B00, .ex7Vld32 .always (.short 5)), (0x040B01, .ex7Vld64 .always (.short 5)),
     (0x040B02, .ex7Vld128 .always (.short 5)), (0x040B04, .ex7Svld32 .always (.short 5)),
     (0x040B05, .ex7Svld64 .always (.short 5)), (0x040B06, .ex7Svld128 .always (.short 5)),
     (0x040B08, .ex7Eld .always (.short 5)), (0x040B10, .ex7Vst32 .always (.short 5)),
     (0x040B11, .ex7Vst64 .always (.short 5)), (0x040B12, .ex7Vst128 .always (.short 5)),
     (0x040B14, .ex7Svst32 .always (.short 5)), (0x040B15, .ex7Svst64 .always (.short 5)),
     (0x040B16, .ex7Svst128 .always (.short 5)), (0x040B18, .ex7Est .always (.short 5)),
     (0x040B20, .ex7Lavg .always (.short 5)), (0x040B21, .ex7LavgHome .always (.short 5)),
     (0x040B22, .ex7LavgRow .always (.short 5)), (0x040B23, .ex7LavgRowHome .always (.short 5)),
     (0x040B24, .ex7Ldet .always (.short 5)), (0x040B25, .ex7LdetHome .always (.short 5)),
     (0x040B28, .ex7Trst .always (.short 5)), (0x040B30, .ex7Tdld .always (.short 5)),
     (0x040B40, .ex7QSet .always (.short 5)), (0x040B41, .ex7QPush .always (.short 5)),
     (0x040B42, .ex7QPop .always (.short 5)), (0x040B43, .ex7QAdv .always (.short 5)),
     (0x040B44, .ex7QSts .always (.short 5)), (0x040B60, .ex7CpReg .always (.short 5)),
     (0x040B61, .ex7CpGo .always (.short 5)), (0x040B62, .ex7CpDrain .always (.short 5)),
     (0x040B63, .ex7CpSts .always (.short 5)), (0x040B90, .ex7SqPost .always (.short 5)),
     (0x040B91, .ex7SqCqack .always (.short 5))] : List (Parcel × Instr)), decodeParcel .s7 e.1 = some e.2 := by
  decide +kernel

/-! ### Helper states -/

/-- A task on core 0. -/
def task : Task :=
  { ctx := 0, trec := 0x200000, owner := some 1, crew := none, rank := 0, crewn := 1, tc := (0, 0, 0), record := false, origin := 0
    code := 0x1000, sup := false, creatorSup := false, rst := false, spw := 0 }

/-- Core 0 as given, everything else as after reset; it is core 0's turn. -/
def onCore (c : Core) : State := State.reset.setCore 0 c

/-- A core whose places hold the given values. -/
def holding (l : List (Loc × Vec)) : Core :=
  { regs := { base := l.foldl (fun b e => SMap.set 0 b (e.1.key false) e.2) [] } }

/-- A core with one pending write of a place, made by an earlier block and visible now. -/
def pending (l : Loc) (landed : Bool) (bad : Option Notice) : Core :=
  { regs := { pend := [{ id := 0, key := l.key false, op := .put, val := 0, trig := 0, slot := 2, vis := 0, blk := 0, later := false
                         landed := landed, load := true, bad := bad }], nextId := 1 }
    ctl := { bcount := 1 } }

/-- A core with a control part. -/
def ctl (c : Control) : Core := { ctl := c }

def supervisor (tl : Bool) : Core := { trap := { sup := true, tl := tl } }

/-- A leaf of 1 TiB at address 0: coherent, with every right, for user mode. -/
def userLeaf : BitVec 64 := 0x7F9

/-- The same for supervisor mode, which fetches from no page of user mode. -/
def supLeaf : BitVec 64 := 0x5F9

/-- Memory whose first TiB of virtual addresses is the first TiB of physical addresses, for core 0 with ASID 0. -/
def mapped (leaf : BitVec 64) : MemSys :=
  let e : TlbEntry := { asid := 0, va := 0, size := 14, leaf := leaf, level := 3 }
  { tlb := [(0, [e]), (256, [e])] }

/-- Core 0 as given, with that memory. -/
def onMapped (c : Core) : State := { onCore c with ms := mapped userLeaf }

theorem ok_of {α ε β : Type} (r : α × Except ε β) (p : α → β → Bool)
    (h : (match r.2 with | .ok b => p r.1 b | .error _ => false) = true) : ∃ a b, r = (a, .ok b) ∧ p a b = true := by
  obtain ⟨a, b | b⟩ := r
  · simp at h
  · exact ⟨a, b, rfl, h⟩

theorem error_of {α ε β : Type} (r : α × Except ε β)
    (h : (match r.2 with | .ok _ => false | .error _ => true) = true) : ∃ a e, r = (a, .error e) := by
  obtain ⟨a, b | b⟩ := r
  · exact ⟨a, b, rfl⟩
  · simp at h

theorem stop_of {ε β : Type} (r : Except ε β) (p : ε → Bool)
    (h : (match r with | .ok _ => false | .error e => p e) = true) : ∃ e, r = .error e ∧ p e = true := by
  cases r with
  | ok b => simp at h
  | error e => exact ⟨e, rfl, h⟩

theorem next_of (o : Out) (p : State → Bool) (h : (match o with | .next t => p t | _ => false) = true) :
    ∃ t, o = .next t ∧ p t = true := by
  cases o with
  | next t => exact ⟨t, rfl, h⟩
  | fault f => simp at h
  | refused r => simp at h

/-! ### A step -/

/-- `ix1.add` of 1 to the largest word, in a bundle of its own: the sum wraps and the carry is 1 (10 R257). -/
theorem test_add_wraps :
    ∃ t, exec (.ix1Add .always (.short 1)) (onCore (holding [(.oport 1 0, wordVec (BitVec.allOnes 64))])) = .next t ∧
      (((t.core 0).regs.read 178 1 0 == 0) && ((t.core 0).regs.read 179 1 0 == 1)) = true :=
  next_of _ _ (by decide +kernel)

/-- A division by zero gives all ones (10 R259). -/
theorem test_divide_by_zero :
    ∃ t, exec (.ix1Div .always (.short 5)) (onCore (holding [])) = .next t ∧
      ((t.core 0).regs.read 178 1 0 == wordVec (BitVec.allOnes 64)) = true :=
  next_of _ _ (by decide +kernel)

/-- A step runs the instruction that `withFetchWord` has stored. -/
theorem test_step_runs_word : ∃ t, step (State.reset.withFetchWord 24 0x000158) = .next t ∧ (t.me.regs.nextId == 1) = true :=
  next_of _ _ (by decide +kernel)

/-! ### The hypotheses of the statements are met -/

theorem test_reset_ok : State.reset.Ok := ⟨rfl, rfl⟩

theorem test_hyp_O2_O3 : wellFormed (.ix1Divu (.p 1) (.special .plvl)) = true ∧
    encode (.ix1Divu (.p 1) (.special .plvl)) = some (.s1, 0b01001_0010011001_1_01000101) ∧
    decodeParcel .s1 0b01001_0010011001_1_01000101 = some (.ix1Divu (.p 1) (.special .plvl)) := by decide +kernel

/-- The bundle holds `ix1.add`; the machine is in the run phase. -/
def running : State := onCore (ctl { phase := .run, todo := [(.s1, 0b00000_1000000001_1_00000000)] })

theorem test_hyp_O4_parcel : running.agenda = [] ∧ running.boot = .running ∧ running.curCore < 256 ∧ running.me.ctl.phase = .run ∧
    running.pausedBy (clusterOf running.curCore) = false ∧ running.me.ctl.waiting = none ∧ running.me.ctl.todo.head? = some (.s1, 0b00000_1000000001_1_00000000) ∧
    decodeParcel .s1 0b00000_1000000001_1_00000000 = some (.ix1Add .always (.short 1)) ∧
    ∃ t, exec (.ix1Add .always (.short 1)) running = .next t ∧ decide ((t.core 0).ctl.todo ≠ running.me.ctl.todo) = true := by
  refine ⟨rfl, rfl, by decide, rfl, by decide +kernel, rfl, rfl, by decide +kernel, next_of _ _ (by decide +kernel)⟩

/-- `ix1.add` of sa31, which has not landed. -/
def stalling : State :=
  let c := pending (.sreg false 31) false none
  onCore { c with ctl := { c.ctl with phase := .run, todo := [(.s1, 0b00000_0000011111_1_00000000)] } }

theorem test_hyp_O4_waits : stalling.agenda = [] ∧ stalling.boot = .running ∧ stalling.curCore < 256 ∧ stalling.me.ctl.phase = .run ∧
    stalling.me.ctl.waiting = none ∧ stalling.me.ctl.todo.head? = some (.s1, 0b00000_0000011111_1_00000000) ∧
    decodeParcel .s1 0b00000_0000011111_1_00000000 = some (.ix1Add .always (.sreg 31)) ∧
    ∃ t, exec (.ix1Add .always (.sreg 31)) stalling = .next t ∧
      decide ((t.core stalling.curCore).ctl.todo = stalling.me.ctl.todo) = true :=
  ⟨rfl, rfl, by decide, rfl, rfl, rfl, by decide +kernel, next_of _ _ (by decide +kernel)⟩

theorem test_hyp_O4_paused : ({ running with now := 511, pwr := { clusters := [(0, { duty := 7 })] } }).pausedBy (clusterOf 0) = true ∧
    ({ running with now := 511, pwr := { clusters := [(0, { duty := 7 })] } }).agenda = [] ∧
    ({ running with now := 511, pwr := { clusters := [(0, { duty := 7 })] } }).boot = .running := by decide +kernel

theorem test_hyp_O4_event : ({ State.reset with agenda := [.blockEntry 255] }).agenda = .blockEntry 255 :: [] ∧
    encode (.blockEntry 255) = none := ⟨rfl, rfl⟩

theorem test_hyp_O7 : State.reset.Ok ∧ ∃ t, step State.reset = .next t ∧ true = true := ⟨⟨rfl, rfl⟩, next_of _ _ (by decide +kernel)⟩

theorem test_hyp_O9 : encodeParts (.ix1Add (.p 7) (.short 1)) = some (.s1, .p 7, .short 1, 0x100) ∧
    State.reset.me.guardReady (.p 7) = true ∧ State.reset.me.guardBad (.p 7) = none ∧ State.reset.me.guard (.p 7) = false := by
  decide +kernel

/-- A held trigger with a false guard, with room for its entry or without. -/
def guarded (full : Bool) : State :=
  onCore (ctl { phase := .run, todo := [(.s2, 0b01111_0000000001_1_00100011)], held := if full then 32 else 31 })

theorem test_hyp_O9_held : ∀ full, encode (.ls2StD (.p 7) (.sreg 1)) = some (.s2, 0b01111_0000000001_1_00100011) ∧
    (guarded full).me.ctl.todo.head? = some (.s2, 0b01111_0000000001_1_00100011) ∧
    isHeld (.s2, 0b01111_0000000001_1_00100011) = true ∧ (guarded full).me.guardReady (.p 7) = true ∧
    (guarded full).me.guardBad (.p 7) = none ∧ (guarded full).me.guard (.p 7) = false ∧ (guarded full).me.ctl.deferred = none ∧
    (full = !decide ((guarded full).me.ctl.store.length + (guarded full).me.ctl.final.length + (guarded full).me.ctl.held < 32)) := by
  decide +kernel

theorem test_hyp_O10_guard : encodeParts (.ix1Add (.p 7) (.short 1)) = some (.s1, .p 7, .short 1, 0x100) ∧
    (onCore (pending (.pred 7) false none)).me.ctl.exit = none ∧
    (onCore (pending (.pred 7) false none)).me.guardReady (.p 7) = false := by decide +kernel

theorem test_hyp_O10_source : encodeParts (.ix1Add .always (.sreg 31)) = some (.s1, .always, .sreg 31, 0x100) ∧
    (onCore (pending (.sreg false 31) false none)).me.ctl.exit = none ∧
    (onCore (pending (.sreg false 31) false none)).me.guardBad .always = none ∧
    (onCore (pending (.sreg false 31) false none)).me.ctl.deferred = none ∧
    (onCore (pending (.sreg false 31) false none)).me.guard .always = true ∧
    (onCore (pending (.sreg false 31) false none)).me.srcReady .s1 (.sreg 31) = false := by decide +kernel

/-- An `xlwait` of the same block, with an invalidation of its context outstanding. -/
def xlWaiting : State :=
  { onCore (ctl { phase := .run, store := [{
      op := .xlwait none, slot := 2, bundle := 0, blk := 0, sup := false, rid := none, released := false }] }) with
    ms := { invals := [{ id := 0, core := 0, ctx := 0, scope := 0, asid := 0, base := 0, len := 64, seen := [] }] } }

theorem test_hyp_O10_xlwait : xlWaiting.Passes .s2 .always (.short 8) ∧ xlWaiting.Passes .s7 .always (.short 8) ∧ xlWaiting.xlWaits xlWaiting.curCore = true ∧
    xlWaiting.me.storeRoom = true := by unfold State.Passes State.PassesWith; decide +kernel

/-- A read of sa31 consumes poison. -/
def poisoned : State := onCore (pending (.sreg false 31) true (some (poisonNotice 64 0 1)))

theorem test_hyp_O11_O12_bad : encodeParts (.ix1Add .always (.sreg 31)) = some (.s1, .always, .sreg 31, 0x100) ∧
    (0x100 : BitVec 9).getLsbD 8 = true ∧ poisoned.me.ctl.exit = none ∧ poisoned.me.ctl.deferred = none ∧
    poisoned.me.guardReady .always = true ∧ poisoned.me.guardBad .always = none ∧ poisoned.me.guard .always = true ∧
    poisoned.me.srcReady .s1 (.sreg 31) = true ∧ poisoned.me.operandBad .s1 (.sreg 31) [] = some (poisonNotice 64 0 1) ∧
    poisoned.me.srcBad .s1 (.sreg 31) = some (poisonNotice 64 0 1) := by decide +kernel

/-- The unit of a trigger with room for it, and a full one. -/
theorem test_hyp_O11_room : unitReady (.ix1Add .always (.sreg 31)) poisoned.me = true ∧
    unitReady (.ls2StD .always (.sreg 31)) poisoned.me = true ∧
    unitReady (.ls2StD .always (.sreg 31)) (ctl { held := 32 }) = false := by decide +kernel

/-- An operand port that carries poison, beside a clean source; and a predicate that does, as the guard of a move. -/
theorem test_hyp_O11_port_O12_guard :
    (onCore (pending (.oport 1 1) true (some (poisonNotice 64 0 1)))).me.operandBad .s1 (.short 1) [] = some (poisonNotice 64 0 1) ∧
    (onCore (pending (.pred 7) true (some (poisonNotice 64 0 1)))).me.guardReady (.p 7) = true ∧
    (onCore (pending (.pred 7) true (some (poisonNotice 64 0 1)))).me.guardBad (.p 7) = some (poisonNotice 64 0 1) := by decide +kernel

theorem test_hyp_O12_move : State.reset.Moves .s3 .always (.vreg 15) ∧
    State.reset.me.FirstAt .s3 (dstLoc .s3 (.otherVreg 0)).1 := by unfold State.Moves Core.FirstAt; decide +kernel

/-- O14, O15 and O33: the operations of slots 1, 2 and 5 with their results, and O12's destinations, at reset. -/
theorem test_hyp_O14_O15_O33 : State.reset.Passes .s1 .always (.short 1) ∧ State.reset.Passes .s5 .always (.vreg 0) ∧
    State.reset.Passes .s2 .always (.sreg 0) ∧ State.reset.me.FirstAt .s1 (.rport 1 false) ∧
    State.reset.me.FirstAt .s1 (.rport 1 true) ∧ State.reset.me.FirstAt .s5 (.rport 5 true) ∧
    State.reset.me.FirstAt .s2 (.rport 2 true) := by
  unfold State.Passes State.PassesWith Core.FirstAt; decide +kernel

theorem test_hyp_O13_O16 : (15 < 16) ∧ 64 ∈ [8, 16, 32, 64] ∧ (0 < 64 / 64) ∧ 7 < 64 / 8 ∧ (63 < 64) ∧
    (BitVec.allOnes 64).getLsbD 63 = true := by decide

/-- Lanes of `vex4` with signed bytes. -/
def byteLanes : LaneIn := laneIn (holding []) .s4 0 .w1024 (.int 8 true) (BitVec.allOnes 1024)

theorem test_hyp_O17 : (∀ j, ((fun _ => { r := 255 } : Nat → Lane) j).r < 2 ^ 8) ∧ byteLanes.fmt = .int 8 true ∧ byteLanes.ew = 8 :=
  ⟨fun _ => by simp, by decide +kernel⟩

/-- Lanes of `vex4` in FP32: 1 in lane 0, or a NaN. -/
def floatLanes (v : Vec) : LaneIn := laneIn (holding []) .s4 0 .w1024 .fp32 v

theorem test_hyp_O17_numbers : (3 : Nat) ≠ 0 ∧ (floatLanes 0x3F800000).fmt = .fp32 ∧ (floatLanes 0x3F800000).ew = 32 ∧
    (decodeNum .fp32 ((floatLanes 0x3F800000).la 0)).isFin = true ∧ (decodeNum .fp32 ((floatLanes 0x3F800000).lb 0)).isFin = true ∧
    (decodeNum .fp32 ((floatLanes 0x3F800000).lcv 0)).isFin = true ∧
    (decodeNum .fp32 (((floatLanes 0x3F800000).vt.extractLsb' 32 32).toNat)).isFin = true ∧
    (floatLanes 0x7FC00000).fmt = .fp32 ∧ (floatLanes 0x7FC00000).ew = 32 ∧ (decodeNum .fp32 ((floatLanes 0x7FC00000).la 0)).isNan = true := by
  decide +kernel

/-- The formats of O18: fields of a code; a number inside the range of FP16, one above it and one below. -/
theorem test_hyp_O18_numbers : 31 < 2 ^ 5 ∧ 1023 < 2 ^ 10 ∧ Fmt.fp16.low ≤ (Exact.fin false 3 (-1)).value ∧
    (Exact.fin false 3 (-1)).value ≤ Fmt.fp16.top ∧ Fmt.fp16.top < (Exact.fin false 1 16).value ∧
    (Exact.fin true 1 16).value < Fmt.fp16.low ∧ (Fmt.int 8 true).top + 1 ≤ (Exact.fin false 1 7).value ∧
    (Exact.fin true 129 0).value ≤ (Fmt.int 8 true).low - 1 ∧ (Fmt.t6 1 ≠ Fmt.fp32) := by
  have h : Fmt.fp16.maxFinite = .fin false 2047 5 := by decide +kernel
  have i : (Fmt.int 8 true).maxFinite = .fin false 127 0 := by decide +kernel
  have j : minInt 8 true = -128 := by decide +kernel
  refine ⟨by decide, by decide, ?_, ?_, ?_, ?_, ?_, ?_, by decide⟩ <;> simp only [Fmt.low, Fmt.top, h, i, j, Exact.value] <;> norm_num

/-- O18, O20 and the results of O21: a vector unit at reset, whose VT names FP32 with no lane masked off. -/
theorem test_hyp_O18_O20_O21 : (∀ always, State.reset.PassesWith VexUnit.vex4.slot .always (.vreg 15)
      (laneReads VexUnit.vex4.slot 3 always State.reset.me)) ∧ State.reset.PassesWith VexUnit.vex4.slot .always (.vreg 15) [.vt] ∧
    State.reset.Passes VexUnit.vex4.slot .always (.vreg 15) ∧
    State.reset.me.FirstResults VexUnit.vex4.slot ∧ laneOk (State.reset.me.portW VexUnit.vex4.slot 3) = true ∧
    elemType (vtEt State.reset.me.vtNow) = some .fp32 ∧ elemType (laneTT (State.reset.me.portW VexUnit.vex4.slot 3)) = some .fp32 ∧
    Accepts.fp.ok .fp32 = true ∧ Accepts.intFp.ok .fp32 = true ∧ State.reset.me.isReady .vt = true := by
  unfold State.Passes State.PassesWith Core.FirstResults Core.FirstAt; decide +kernel

theorem test_hyp_O19 : State.reset.PassesWith .s5 .always (.vreg 15) (laneReads .s5 2 false State.reset.me) ∧
    State.reset.me.FirstResults .s5 ∧
    laneOk (State.reset.me.portW .s5 2) = true ∧ elemType (vtEt State.reset.me.vtNow) = some .fp32 := by
  unfold State.PassesWith Core.FirstResults Core.FirstAt; decide +kernel

/-- 3 and 2 in FP32. -/
theorem test_hyp_O19_numbers : (decodeNum .fp32 0x40400000).isFin = true ∧ (decodeNum .fp32 0x40000000).isFin = true ∧
    0 < Fmt.fp32.value 0x40400000 ∧ Fmt.fp32.value 0x40000000 ≠ 0 := by
  have h3 : decodeNum .fp32 0x40400000 = .fin false 12582912 (-22) := by decide +kernel
  have h2 : decodeNum .fp32 0x40000000 = .fin false 8388608 (-22) := by decide +kernel
  refine ⟨by rw [h3]; rfl, by rw [h2]; rfl, ?_, ?_⟩
  · rw [Fmt.value, h3]; norm_num [Exact.value]
  · rw [Fmt.value, h2]; norm_num [Exact.value]

/-- A lane control word with a reserved bit. -/
def badLanes : State := onCore (holding [(.oport 4 3, 0x200000)])

theorem test_hyp_O20_operand :
    badLanes.PassesWith VexUnit.vex4.slot .always (.vreg 15) (laneReads VexUnit.vex4.slot 3 false badLanes.me) ∧
    ∃ a, vecCheck badLanes.me (badLanes.me.portW VexUnit.vex4.slot 3) .any = .error a ∧ (a == 0x200000) = true := by
  refine ⟨by unfold State.PassesWith; decide +kernel, stop_of _ _ (by decide +kernel)⟩

/-- `vtset` admits 0 and refuses a reserved bit (11 R279). -/
theorem test_hyp_O21_branches : vtWrites.map (fun e => (e.2.2 0, e.2.2 (BitVec.allOnes 64))) =
    [(true, false), (true, false), (true, false)] := by decide +kernel

theorem test_hyp_O22 : State.reset.Passes .s0 .always (.short 0) ∧ (∀ n < 8, State.reset.me.FirstAt .s0 (.tsh n)) ∧
    State.reset.me.FirstAt .s0 (.rport 0 false) ∧ State.reset.me.FirstAt .s0 (.rport 0 true) := by
  unfold State.Passes State.PassesWith Core.FirstAt; decide +kernel

theorem test_hyp_O23 : State.reset.Passes ExitSlot.ls2.slot .always (.short 0x1FF) ∧ State.reset.me.ctl.exit = none ∧
    State.reset.me.FirstAt ExitSlot.ls2.slot (.sreg false 31) ∧ (onCore (ctl { exit := some 0 })).me.ctl.exit.isSome = true := by
  unfold State.Passes State.PassesWith Core.FirstAt; decide +kernel

theorem test_hyp_O24 : State.reset.Passes .s0 .always (.short 0) ∧ State.reset.me.FirstAt .s0 (.trip 5) ∧
    State.reset.me.FirstAt .s0 (.cb 7) ∧ State.reset.me.FirstAt .s0 (.cs 0 5) := by
  unfold State.Passes State.PassesWith Core.FirstAt; decide +kernel

theorem test_hyp_O25 : (onMapped {}).Ok ∧ (onMapped {}).Passes .s0 .always (.short 64) ∧ (onMapped {}).me.storeRoom = true ∧
    ((onMapped {}).word .s0 (.short 64)).toNat % 64 = 0 ∧ ((onMapped {}).me.portW .s0 0).toNat < 2 ^ 12 ∧
    ∃ ms x, translate (onMapped {}).ms ((onMapped {}).who 0) 64 .atomic = (ms, .ok x) ∧ (x.pa == 64) = true := by
  refine ⟨by unfold State.Ok MemSys.Ok; decide +kernel, by unfold State.Passes State.PassesWith; decide +kernel, by decide +kernel, by decide +kernel, by decide +kernel,
    ok_of _ _ (by decide +kernel)⟩

theorem test_hyp_O25_faults : (onCore (holding [(.oport 0 0, 0x1000)])).Passes .s0 .always (.short 63) ∧
    (onCore (holding [(.oport 0 0, 0x1000)])).me.storeRoom = true ∧
    ((onCore (holding [(.oport 0 0, 0x1000)])).word .s0 (.short 63)).toNat % 64 ≠ 0 ∧
    (State.reset.word .s0 (.short 63)).toNat % 64 ≠ 0 ∧ (State.reset.me.portW .s0 0).toNat < 2 ^ 12 ∧
    2 ^ 12 ≤ ((onCore (holding [(.oport 0 0, 0x1000)])).me.portW .s0 0).toNat := by
  unfold State.Passes State.PassesWith; decide +kernel

/-- O26 and O27's second part at reset; a task in its stub. -/
theorem test_hyp_O26 : State.reset.Passes .s0 .always (.short 6) ∧ State.reset.me.storeRoom = true ∧
    (onCore { trap := { preempt := .stub 3 0 } }).me.trap.preempt = .stub 3 0 ∧
    (onCore { trap := { preempt := .stub 3 0 } }).Passes .s0 .always (.short 6) := by
  unfold State.Passes State.PassesWith; decide +kernel

theorem test_hyp_O27 : (∀ tl, (onCore (supervisor tl)).Passes .s0 .always (.short 255) ∧ (onCore (supervisor tl)).me.storeRoom = true ∧
      (onCore (supervisor tl)).me.trap.tl = tl ∧ (onCore (supervisor tl)).me.trap.sup = true ∧
      ((onCore (supervisor tl)).word .s0 (.short 255)).toNat < 2 ^ 8) ∧ State.reset.me.trap.sup = false := by
  unfold State.Passes State.PassesWith; decide +kernel

theorem test_hyp_O28_read : State.reset.Passes .s0 .always (.short 0x20) ∧ State.reset.me.FirstAt .s0 (.rport 0 false) ∧
    (State.reset.word .s0 (.short 0x20)).toNat = 0x020 ∧ (onCore (supervisor true)).Passes .s0 .always (.short 0x12) := by
  unfold State.Passes State.PassesWith Core.FirstAt; decide +kernel

/-- FRAME in a stub; a number that names no register; XROOT in user mode; TSTAT with a reserved bit. -/
theorem test_hyp_O28_frame : (onCore { trap := { preempt := .stub 3 0 } }).Passes .s0 .always (.short 0x31) ∧
    (onCore { trap := { preempt := .stub 3 0 } }).me.trap.preempt = .stub 3 0 ∧
    ((onCore { trap := { preempt := .stub 3 0 } }).word .s0 (.short 0x31)).toNat = 0x031 ∧
    (onCore { trap := { preempt := .stub 3 0 } }).me.FirstAt .s0 (.rport 0 false) := by
  unfold State.Passes State.PassesWith Core.FirstAt; decide +kernel

theorem test_hyp_O28_faults : State.reset.Passes .s0 .always (.short 0) ∧ State.reset.me.trap.sup = false ∧
    ((State.reset.word .s0 (.short 0)).extractLsb' 0 12).toNat ∈ [0x000, 0x001, 0x002, 0x010, 0x011, 0x012] ∧
    State.reset.Passes .s0 .always (.short 0x13) ∧
    ((State.reset.word .s0 (.short 0x13)).extractLsb' 0 12).toNat ∉ [0x000, 0x001, 0x002, 0x010, 0x011, 0x012, 0x020, 0x030, 0x031] ∧
    (onCore (holding [(.sreg false 1, wordVec 0x1020)])).Passes .s0 .always (.sreg 1) ∧
    ((onCore (holding [(.sreg false 1, wordVec 0x1020)])).word .s0 (.sreg 1)).extractLsb' 12 52 ≠ 0 := by
  unfold State.Passes State.PassesWith; decide +kernel

/-- A write of FPC. -/
theorem test_hyp_O28_write : (onCore { holding [(.oport 0 0, 0x12)] with trap := { sup := true } }).Passes .s0 .always (.short 0) ∧
    ((onCore { holding [(.oport 0 0, 0x12)] with trap := { sup := true } }).me.portW .s0 0).toNat = 0x012 ∧
    sysReserved 0x012 0 = false ∧ (onCore (holding [(.oport 0 0, 0x12)])).Passes .s0 .always (.short 0) ∧
    ((onCore (holding [])).me.entry .s0 (.swr 0x012 7) none).op = .swr 0x012 7 := by
  unfold State.Passes State.PassesWith; decide +kernel

/-- O29 to O35 and O38: what the units of slots 2, 6 and 7 need, at reset. -/
theorem test_hyp_O29_to_O38_rooms : State.reset.Passes .s2 .always (.short 7) ∧ State.reset.me.ldRoom = true ∧
    State.reset.me.storeRoom = true ∧ State.reset.me.loadRoom = true ∧ State.reset.xlWaits State.reset.curCore = false ∧
    State.reset.Passes .s7 .always (.short 32) ∧
    State.reset.me.exLoadRoom = true ∧ State.reset.me.exRoom = true ∧ State.reset.Passes .s6 .always (.short 1) ∧
    State.reset.me.mxRoom = true ∧ ((upto 0 8).all fun n => State.reset.me.isReady (.tsh n)) = true := by
  unfold State.Passes State.PassesWith; decide +kernel

/-- 63 stores that are not performed. -/
def manyStores : State := onMapped { stOut := List.replicate 63 0 }

theorem test_hyp_O30 : ∀ many : Bool, let s := if many then manyStores else onMapped {}
    s.Ok ∧ s.Passes .s2 .always (.short 8) ∧ s.me.storeRoom = true ∧ s.xlWaits s.curCore = false ∧
    (s.word .s2 (.short 8) + s.me.portW .s2 0).toNat = 8 ∧ ∃ ms x, translate s.ms (s.who s.curCore) 8 .store = (ms, .ok x) ∧
      (x.pa == 8) = true := by
  intro many
  cases many <;> exact ⟨by unfold State.Ok MemSys.Ok; decide +kernel, by unfold State.Passes State.PassesWith; decide +kernel, by decide +kernel,
    by decide +kernel, by decide +kernel, ok_of _ _ (by decide +kernel)⟩

/-- 63 stores in the copy engine's queue, which no performance of counted stores makes room for. -/
def fullStores : State :=
  onMapped { cp := { queue := List.replicate 63 { op := .svstore 4 0 0, slot := 7, bundle := 0, blk := 0, sup := false, rid := none, released := true } } }

theorem test_hyp_O30_full : fullStores.storeFull fullStores.curCore = true ∧ fullStores.Passes .s2 .always (.short 8) ∧
    fullStores.Passes .s7 .always (.short 8) ∧ (onMapped {}).storeFull 0 = false ∧ manyStores.storeFull 0 = false ∧
    State.reset.storeFull State.reset.curCore = false := by
  unfold State.Passes State.PassesWith; decide +kernel

theorem test_hyp_O30_bounds : (onMapped {}).stCounted < 63 ∧ 63 ≤ manyStores.stCounted ∧
    (State.reset.word .s2 (.short 7) + State.reset.me.portW .s2 0).toNat % 8 ≠ 0 := by decide +kernel

/-- A pool of one block, whose table and descriptor stand at address 0. -/
def pooled : State :=
  let m := (mapped 0x27F9).put 0 64 (2 ^ 64 + 2 ^ 224) (2 ^ 64 - 1) false false
  { onCore {} with ms := m }

theorem test_hyp_O33 : pooled.Ok ∧ pooled.Passes .s2 .always (.short 8) ∧ pooled.me.storeRoom = true ∧ pooled.xlWaits pooled.curCore = false ∧ State.reset.me.trap.sup = false ∧
    (onCore (supervisor false)).me.trap.sup = true ∧ (onCore (supervisor false)).Passes .s2 .always (.short 3) ∧
    ∃ m1 x, poolEntry pooled.ms (pooled.who 0) (pooled.word .s2 (.short 8)).toNat = (m1, .ok x) ∧
      (x.map Prod.snd == some 0 && (match (poolEntry m1 (pooled.who 0) (pooled.me.portW .s2 0).toNat).2 with | .ok _ => true | .error _ => false)) = true := by
  refine ⟨by unfold State.Ok MemSys.Ok; decide +kernel, by unfold State.Passes State.PassesWith; decide +kernel, by decide +kernel, by decide +kernel, by decide +kernel, by decide +kernel,
    by unfold State.Passes State.PassesWith; decide +kernel, ok_of _ _ (by decide +kernel)⟩

/-- A page that is not pooled. -/
theorem test_hyp_O33_unpooled : ∃ ms x, poolEntry (onMapped {}).ms ((onMapped {}).who 0) 8 = (ms, .ok x) ∧ (x == none) = true :=
  ok_of _ _ (by decide +kernel)

theorem test_hyp_O34 : ((onCore (holding [])).me.entry .s2 (.sstore 8 0 5) none).op = .sstore 8 0 5 ∧
    8 ∈ [4, 8] ∧ (2 ^ 64 - 1) < 2 ^ (8 * 8) := ⟨rfl, by decide, by decide⟩

/-- The operand ports of an element access of one coefficient of the 16-bit class, in FP16. -/
def elements (store : Bool) : State :=
  onMapped (holding [(.oport 7 2, 1), (.oport 7 3, if store then 0x1001 else 1)])

theorem test_hyp_O36_elements : ∀ store, (elements store).Ok ∧ (elements store).Passes .s7 .always (.short 64) ∧
    ((elements store).me.portW .s7 2).toNat = 1 ∧ ((elements store).word .s7 (.short 64)).toNat % 64 = 0 ∧
    ((elements store).me.portW .s7 3).toNat = (if store then 1 + 2 ^ 8 * 0x10 else 1) ∧ codeInClass 1 0x10 = true ∧
    (elements store).me.exLoadRoom = true ∧ (elements store).me.exRoom = true ∧ (elements store).xlWaits (elements store).curCore = false ∧
    ∃ ms xs, translateAll ((elements store).who 0) (if store then .store else .load)
      (elementBlocks 64 ((elements store).me.portW .s7 1).toNat 1 1) (elements store).ms = (ms, .ok xs) ∧ (xs.length == 1) = true := by
  intro store
  cases store <;> exact ⟨by unfold State.Ok MemSys.Ok; decide +kernel, by unfold State.Passes State.PassesWith; decide +kernel, by decide +kernel,
    by decide +kernel, by decide +kernel, by decide +kernel, by decide +kernel, by decide +kernel, by decide +kernel,
    ok_of _ _ (by decide +kernel)⟩

/-- A descriptor register with a valid tree of one level: 16-bit class, FP16, arity 2. -/
def treeValue : Vec :=
  BitVec.ofNat 1024 (2 ^ 256 + 2 ^ 128 + 2 ^ 64 * (2 ^ 44 + 2 ^ 40 + 2 ^ 36 + 2 ^ 16 + 1))

def tree : State := onMapped (holding [(.td 0, treeValue), (.oport 7 1, 0x10)])

theorem test_hyp_O36_tree : treeDescOk (treeValue.setWidth 256) = true ∧ tree.Passes .s7 .always (.short 0) ∧
    tree.me.exLoadRoom = true ∧ tree.me.exRoom = true ∧ tree.xlWaits tree.curCore = false ∧
    tree.me.isReady (.td (selTd (tree.me.portW .s7 1))) = true ∧ tree.me.badAt (.td (selTd (tree.me.portW .s7 1))) = none ∧
    (tree.me.rd (.td (selTd (tree.me.portW .s7 1)))).getLsbD 256 = true ∧ selReserved (tree.me.portW .s7 1) = false ∧
    (∀ f ∈ [TreeForm.average, .row, .detail, .update],
      treeOperandBad f (treeDesc (treeValue.setWidth 256)) (tree.me.portW .s7 1) (tree.word .s7 (.short 0)) = none) := by
  unfold State.Passes State.PassesWith; decide +kernel

theorem test_hyp_O36_room : tree.storeFull tree.curCore = false ∧ (elements true).storeFull (elements true).curCore = false := by
  decide +kernel

theorem test_hyp_O36_blocks (f : TreeForm) (kd : XKind) :
    ∃ ms xs, translateAll (tree.who 0) (if kd = .atomic then .atomic else .load)
      ((treeBlockNums f (treeDesc (treeValue.setWidth 256)) 1 { x := 0, y := 0 } 0).map fun b => (64 * b) % 2 ^ 64) tree.ms = (ms, .ok xs) ∧
      (xs.length == 1) = true := by
  cases f <;> cases kd <;> exact ok_of _ _ (by decide +kernel)

/-- A reserved bit of the selector; a descriptor that is not valid, at reset. -/
theorem test_hyp_O36_faults : selReserved ((onCore (holding [(.oport 7 1, 8)])).me.portW .s7 1) = true ∧
    (onCore (holding [(.oport 7 1, 8)])).Passes .s7 .always (.short 0) ∧ selReserved (State.reset.me.portW .s7 1) = false ∧
    wfield (State.reset.word .s7 (.short 0)) 63 32 = 0 ∧ (State.reset.me.rd (.td 0)).getLsbD 256 = false := by
  unfold State.Passes State.PassesWith; decide +kernel

theorem test_hyp_O37_nest : State.reset.Passes .s7 .always (.short 7) ∧ (upto 0 8).all State.reset.me.nestReady = true ∧
    State.reset.me.nestRoom = true ∧ State.reset.xlWaits State.reset.curCore = false ∧ (State.reset.word .s7 (.short 7)).toNat < 8 ∧ nestBad State.reset.me (State.reset.me.nestRegs 7) = none ∧
    ¬(nestMode (State.reset.me.nestRegs 7) = 2 ∨ nestMode (State.reset.me.nestRegs 7) = 3) := by
  unfold State.Passes State.PassesWith; decide +kernel

/-- At reset storage is off: a post is owed its refusal. An acknowledgement of one completion. -/
theorem test_hyp_O37_storage : (State.reset.word .s7 (.short 1)).toNat < 256 ∧ 255 < (State.reset.word .s7 (.short 0x1FF)).toNat ∧
    ¬(sqOpen State.reset (State.reset.ms.hwRead (State.reset.sqAddr 1) 64).2 State.reset.me.ctx State.reset.me.trap.sup = true ∧
      (sqWord (State.reset.ms.hwRead (State.reset.sqAddr 1) 64).2 5).testBit 3 = true) ∧
    (State.reset.me.portW .s7 1).toNat < 256 ∧ (State.reset.word .s7 (.short 1)).extractLsb' 28 36 = 0 ∧
    (State.reset.word .s7 (.short 1)).extractLsb' 12 4 = 0 ∧ (State.reset.word .s7 (.short 1)).extractLsb' 0 12 ≠ 0 ∧
    sqOpen State.reset (State.reset.ms.hwRead (State.reset.sqAddr 0) 64).2 State.reset.me.ctx State.reset.me.trap.sup = false := by
  decide +kernel

/-- Context 0 with a handler whose code object stands at 0x1000: one parcel, every latency 1. -/
def handlerMem : MemSys :=
  ((mapped supLeaf).put 0 64 (2 ^ 192 * 0x1000 + 2 ^ 256) (2 ^ 64 - 1) false false).put 0x1000 64
    (0x6A3C91E500010000 + 2 ^ 64 + 2 ^ 128 * 0x01010101010101010101010101010101) (2 ^ 64 - 1) false false

def handled : State := { State.reset with ms := handlerMem }

theorem test_hyp_O39 : handled.Ok ∧ (handled.core 0).trap.tl = false ∧ (handled.readCtx (handled.core 0).ctx).2.hcode ≠ 0 ∧
    ∃ ms obj, readHeader (handled.readCtx (handled.core 0).ctx).1.ms { handled.who 0 with sup := true }
      (handled.readCtx (handled.core 0).ctx).2.hcode = (ms, .ok obj) ∧ obj.isSome = true := by
  refine ⟨by unfold State.Ok MemSys.Ok; decide +kernel, by decide +kernel, by decide +kernel, ok_of _ _ (by decide +kernel)⟩

theorem test_hyp_O39_fields : let f : FaultInfo := { code := 255, kind := 3, lvl := 7, ch := 15, slot := 7 }
    f.code < 256 ∧ f.kind < 4 ∧ f.lvl < 8 ∧ f.ch < 16 ∧ f.slot < 8 := by decide

theorem test_hyp_O40 : ((onCore (supervisor true)).core 0).trap.tl = true := by decide +kernel

/-- Each ending of a committed block. -/
theorem test_hyp_O41 : ∀ f ∈ [[HOp.rfe], [.park], [.yield 3], [.abort], [.done], []],
    ((onCore (ctl { phase := .release, final := f })).core 0).ctl.phase = .release ∧
    ((onCore (ctl { phase := .release, final := f })).core 0).ctl.store = [] ∧
    ((onCore (ctl { phase := .release, final := f })).core 0).ctl.iterate = false ∧
    ((onCore (ctl { phase := .release, final := f })).core 0).ctl.final = f := by decide +kernel

theorem test_hyp_O41_trap : ((onCore (ctl { phase := .release, final := [.trap 9] })).core 0).ctl.phase = .release ∧
    ((onCore (ctl { phase := .release, final := [.trap 9] })).core 0).trap.tl = false ∧
    (onCore (ctl { phase := .release, final := [.trap 9] })).Ok ∧
    ((onCore (ctl { phase := .release, final := [.trap 9] })).readCtx 0).2.hcode = 0 := by
  unfold State.Ok MemSys.Ok; decide +kernel

/-- An access to the last byte of a block: done under MID 0, denied under MID 1 with the table disabled (01 R37). -/
def byteXlat : Xlat := { va := 63, pa := 63, leaf := userLeaf, dev := none, hole := false }

/-- Memory without level-1 copies and dirty packs stands still. -/
theorem settled_of (ms : MemSys) (q : Nat) (h1 : ms.l1 = []) (h2 : SMap.get none ms.dirtyPacks q ≠ some false) : ms.Settled q :=
  ⟨h2, fun k l hl => by simp [MemSys.lines, h1, SMap.get] at hl⟩

theorem test_hyp_O42 : inAperture 63 = true ∧ (∀ l ∈ ({} : MemSys).lines 0, l.line / 4 = 63 / 256 → l.pending = false) ∧ ({} : MemSys).Ok ∧ 63 % 64 + 1 ≤ 64 ∧ 63 % 256 + 1 ≤ 256 ∧ ({} : MemSys).Settled 0 ∧
    (homeWrite {} (State.reset.who 0) byteXlat 63 1 5 (2 ^ 1 - 1) 1 false).2 = none ∧
    (homeWrite {} { State.reset.who 0 with xrdt := 0x0000100000000000 } byteXlat 63 1 5 1 1 false).2.isSome = true :=
  ⟨by decide +kernel, by decide +kernel, rfl, by decide, by decide, settled_of _ _ rfl (by decide), by decide +kernel, by decide +kernel⟩

/-- A code object whose only bundle is an exit bundle without moves. -/
def oneBlock : State :=
  { onCore { code := { addr := 0x1000, npar := 1 }, ctl := { phase := .head } } with
    ms := (mapped userLeaf).put 0x1200 3 0x40 7 false false }

theorem test_hyp_O43_entry : oneBlock.Ok ∧ (oneBlock.core 0).ctl.phase = .head ∧ (oneBlock.core 0).draining = false ∧
    (oneBlock.core 0).preemptHere = false ∧ (oneBlock.core 0).clk.entering = false ∧ (oneBlock.core 0).ctl.negative = false ∧
    (oneBlock.core 0).ctl.head < (oneBlock.core 0).code.npar ∧ (oneBlock.core 0).rangeLost = false ∧ (oneBlock.core 0).atBoundary = none ∧
    ∃ ms fs, blockBundles (oneBlock.modCore 0 fun c => { c with clk := { c.clk with entering := false } }) 0 = (ms, .ok fs) ∧
      (firstIllegal 63 0 fs == none && (match fs with | [f] => !(oneBlock.core 0).stopped f.bundle | _ => false)) = true := by
  refine ⟨by unfold State.Ok MemSys.Ok; decide +kernel, by decide +kernel, by decide +kernel, by decide +kernel, by decide +kernel, by decide +kernel,
    by decide +kernel, by decide +kernel, by decide +kernel, ok_of _ _ (by decide +kernel)⟩

/-- A bundle passes, the last of its block or not. -/
theorem test_hyp_O43_pass : ∀ bs ∈ [[], [({} : Control).cur]],
    ((onCore (ctl { phase := .run, bundles := bs })).core 0).ctl.phase = .run ∧
    ((onCore (ctl { phase := .run, bundles := bs })).core 0).ctl.todo = [] ∧
    ((onCore (ctl { phase := .run, bundles := bs })).core 0).ctl.waiting = none ∧
    ((onCore (ctl { phase := .run, bundles := bs })).core 0).ctl.deferred = none ∧
    ((onCore (ctl { phase := .run, bundles := bs })).core 0).ctl.bundles = bs ∧
    ((onCore (ctl { phase := .run, bundles := bs })).core 0).stopped ({} : Control).cur = false := by decide +kernel

/-- A held operation of core 0, released. -/
def released (op : HOp) (rid : Option Nat) : Held :=
  { op := op, slot := 2, bundle := 0, blk := 0, sup := false, rid := rid, released := true }

/-- A barrier at the head of the block store buffer, of a task alone and of a member of a crew. -/
def atBar (alone : Bool) : State :=
  onCore { task := some (if alone then task else { task with crew := some 5, crewn := 2 })
           ctl := { phase := .release, store := [released .bar none] } }

theorem test_hyp_O41_bar : ∀ alone, ((atBar alone).core 0).ctl.phase = .release ∧
    ((atBar alone).core 0).ctl.store = released .bar none :: [] ∧ (released .bar none).released = true ∧
    ((atBar alone).core 0).waitsEx (released .bar none) = false := by decide +kernel

/-- A block with a held store, and a nest to quay 3 behind it in the copy engine's queue. -/
def nestEntry : Held := { released (.cpGo 7 [0, 3, 0x800] 0) none with released := false }

def committing : Core := { ctl { phase := .commit, store := [released (.xlwait none) none] } with cp := { queue := [nestEntry] } }

theorem test_hyp_O44_commit : committing.ctl.phase = .commit ∧ committing.commitLanded = true ∧ committing.endsTask = false ∧
    committing.ctl.loop = none ∧ committing.ctl.store ≠ [] ∧ committing.cp.queue = [] ++ [nestEntry] ∧ nestEntry.released = false ∧
    nestDk [0, 3, 0x800] = 2 := by decide +kernel

/-- A store of core 0 that a remote home has not acknowledged. -/
def sent : Unacked := { core := 0, mid := 0, dev := 3, pa := 64, store := true, path := 1, rid := none }

def sending : State := { State.reset with fab := { unacked := [(31, [sent])] } }

theorem test_hyp_O44_unacked : (∀ link ∈ [31, unorderedLink],
      let s : State := { State.reset with fab := { unacked := [(link, [sent])] } }
      (link, [sent]) ∈ s.fab.unacked ∧ (link = unorderedLink ∨ SMap.get 0 s.fab.paused link = 0)) ∧ [sent] = [] ++ sent :: [] ∧
    sent.core = 0 ∧ sent.rid = none ∧
    ((sending.core 0).regs.pend.any fun p => p.id == 0) = false ∧
    (sending.fab.unacked.any fun e => e.2.any fun v => v.rid == some 0) = false := by decide +kernel

theorem test_hyp_O44_landing : ∃ p ∈ (pending (.rport 2 false) false none).regs.pend, p.load = true ∧ p.later = false ∧ p.landed = false ∧
    (pending (.rport 2 false) false none).waitingLoad p.id = none :=
  ⟨_, List.mem_singleton.2 rfl, rfl, rfl, rfl, rfl⟩

/-- Level 0 of one with two trips, at the end of its first. -/
def looping : State := onCore { holding [(.trip 0, 2)] with seq := { lv := 1 }, ctl := { phase := .iter } }

theorem test_hyp_O44_iteration : looping.Ok ∧ (looping.core 0).ctl.phase = .iter ∧ (looping.core 0).ctl.final = [] ∧ 0 < (looping.core 0).seq.lv ∧
    (looping.core 0).seq.li = 0 :: [0, 0, 0, 0, 0] ∧ 0 + 1 < ((looping.core 0).rd (.trip 0)).toNat := by
  unfold State.Ok MemSys.Ok; decide +kernel

/-- A wait for every counter at 0, with or without a limit for `st`. -/
def waiting (w : Nat) : State := onCore (ctl { phase := .run, waiting := some w })

theorem test_hyp_O44_wait : ∀ w ∈ [0, 63 * 64],
    let t := if field w 6 6 < 63 then performStores (waiting w) 0 else waiting w
    let d := t.core 0
    ((waiting w).core 0).ctl.waiting = some w ∧ ((waiting w).core 0).ctl.phase = .run ∧ d.ld ≤ field w 0 6 ∧
    d.st + t.treesOut 0 ≤ field w 6 6 ∧ d.cpCount ≤ field w 12 6 ∧ d.tl ≤ field w 18 6 ∧ d.notices = [] ∧ d.mx.fp = false ∧
    d.cp.qflt.getLsbD 7 = false ∧ d.cp.chans = [] := by decide +kernel

theorem test_hyp_O44_notice : ∀ i ∈ [(Instr.denialNotice 0, denied 64 0 1), (.poisonNotice 0, poisonNotice 64 0 1)],
    (i.1, i.2.code) ∈ [(Instr.denialNotice 0, 0x0C), (.poisonNotice 0, 0x70)] ∧ i.2.seen = false ∧
    (({} : Core).note (some i.2)).notices = [] ++ i.2 :: [] := by decide +kernel

/-- Core 0 with two held operations. -/
def storing (op : HOp) : State := onMapped (ctl { phase := .release, store := [released op (some 0), released (.xlwait none) none] })

theorem test_hyp_O45 : ∀ op ∈ [HOp.sstore 8 0 5, .atomic .add 4 byteXlat 1 0, .icinv 0 64], (storing op).Ok ∧
    ((storing op).core 0).ctl.store = released op (some 0) :: released (.xlwait none) none :: [] ∧
    (released op (some 0)).released = true ∧ ((storing op).core 0).waitsEx (released op (some 0)) = false ∧
    ((storing op).core 0).ctl.phase ≠ .barrier := by
  unfold State.Ok MemSys.Ok; decide +kernel

/-- A returning atomic without acquire, of 4 bytes at the beginning of memory. -/
theorem test_hyp_O45_atomic : (∀ op, (released op (some 0)).again = false) ∧ Nat.testBit 4 2 = true ∧ Nat.testBit 4 1 = false ∧ byteXlat.dev = none ∧ AtOp.add ≠ .cas ∧ 0 % 4 = 0 ∧
    let r := homeRead ((storing (.xlwait none)).ms.ownHome 0 0 (spanOf 0 4)) ((storing (.xlwait none)).who 0) { byteXlat with va := 0, pa := 0 } 0 4 1 .atomic
    r.2 = .ok 0 ∧ r.1.l1 = [] ∧ r.1.dirtyPacks = [] := ⟨fun _ => rfl, by decide +kernel⟩

/-- Core 0 with a released command at the head of the copy engine's queue. -/
def firing (op : HOp) : State := onMapped { cp := { queue := [released op (some 0)] } }

theorem test_hyp_O46 : ∀ op ∈ [HOp.qset 0 0x0001000000000000, .cpGo 7 [] 0, .cpDrain 7, .trst (treeValue.setWidth 256) 0x10 0 0 [byteXlat]],
    (firing op).Ok ∧ (firing op).pausedBy (clusterOf 0) = false ∧ ((firing op).core 0).exHead = some (released op (some 0)) ∧
    (((firing op).core 0).channel 7).nests.length < 8 ∧ (((firing op).core 0).channel 7).nests = [] ∧ nestMode [] ≠ 1 ∧
    (0x0001000000000000 : Word).getLsbD 56 = false ∧ anyRemote [byteXlat] = none := by
  unfold State.Ok MemSys.Ok; decide +kernel

theorem test_hyp_O46_blocks : (vectorBlocks ((firing (.xlwait none)).who 0) true .atomic 2 [byteXlat] (firing (.xlwait none))).2.2 = none ∧
    anyRemote [{ byteXlat with dev := some 3 }] = some (3, 63) ∧
    ((onCore { cp := { queue := [released (.cpGo 7 [] 0) none], chans := [(7, { fp := true })] } }).core 0).exHead =
      some (released (.cpGo 7 [] 0) none) := by decide +kernel

/-- Core 0 with a nest of one copy on channel 0, after `iter` copies, that has faulted or not. -/
def nesting (regs : List Word) (iter : Nat) (dead : Bool) : State :=
  onMapped { cp := { chans := [(0, { nests := [{ regs := regs, td := 0, sup := false, iter := iter, crc := 0, dead := dead }], fp := dead })] } }

/-- The same with a copy at a remote home. -/
def nestingOut : State := { nesting [] 1 false with fab := { unacked := [(0, [{ sent with ch := some 0 }])] } }

theorem test_hyp_O47 : ((nesting [] 0 true).core 0).pushing 0 = false ∧ ((nesting [] 1 false).core 0).pushing 0 = false ∧
    (nestingOut.core 0).pushing 0 = false ∧ (nesting [] 0 false).pausedBy (clusterOf 0) = false ∧ (((nesting [] 0 true).core 0).channel 0).nests.map Nest.dead = [true] ∧ rowsOut (nesting [] 0 true) 0 0 = false ∧
    (((nesting [] 1 false).core 0).channel 0).nests.map Nest.dead = [false] ∧ nestTotal [] ≤ 1 ∧ rowsOut (nesting [] 1 false) 0 0 = false ∧
    rowsOut nestingOut 0 0 = true ∧ 0 < nestTotal [] ∧ 0 + 1 < nestTotal [0, 0, 0, 1] := by decide +kernel

theorem done_of (e : Emit) (p : State → Bool) (h : (match e with | .done t => p t | _ => false) = true) :
    ∃ t, e = .done t ∧ p t = true := by
  cases e with
  | done t => exact ⟨t, rfl, h⟩
  | wait => simp at h
  | fault t f => simp at h

theorem fault_of (e : Emit) (p : State → Bool) (h : (match e with | .fault t _ => p t | _ => false) = true) :
    ∃ t f, e = .fault t f ∧ p t = true := by
  cases e with
  | fault t f => exact ⟨t, f, rfl, h⟩
  | wait => simp at h
  | done t => simp at h

/-- Two copies of 64 bytes from address 0 to 0; one from an address outside the map. -/
def copyNest : Nest := { regs := [0, 0, 0, 1], td := 0, sup := false, iter := 0, crc := 0, dead := false }

def lostNest : Nest := { copyNest with regs := [0xFF00000000000000] }

theorem test_hyp_O47_done : ∃ t, emitCopy (nesting copyNest.regs 0 false) ((nesting copyNest.regs 0 false).who 0) 0 copyNest = .done t ∧
    ((t.core 0).channel 0 == ((nesting copyNest.regs 0 false).core 0).channel 0 && Memory.wf t.ms.mem && SMap.wf {} t.cores) = true :=
  done_of _ _ (by decide +kernel)

theorem test_hyp_O47_fault : ∃ t f, emitCopy (nesting lostNest.regs 0 false) ((nesting lostNest.regs 0 false).who 0) 0 lostNest = .fault t f ∧
    ((t.core 0).channel 0 == ((nesting lostNest.regs 0 false).core 0).channel 0 && Memory.wf t.ms.mem && SMap.wf {} t.cores &&
      (((t.core 0).channel 0).fp == false) && rowsOut t 0 0 == false) = true := fault_of _ _ (by decide +kernel)

/-- A nest from an empty quay waits. -/
def poppingNest : Nest := { copyNest with regs := [0, 0, 0x200] }

def popping : State :=
  onMapped { cp := { chans := [(0, { nests := [poppingNest] })], quays := [(0, { v := true })] } }

theorem test_hyp_O47_wait : (match emitCopy popping { popping.who 0 with sup := false } 0 poppingNest with | .wait => true | _ => false) = true ∧
    poppingNest.dead = false ∧ poppingNest.iter < nestTotal poppingNest.regs := by decide +kernel

/-- Channel 0 writes an entry into quay 3. -/
def landing : State := onCore { cp := { chans := [(0, {})], quays := [(3, { v := true, coming := [(0, [(5, false)])] })] } }

theorem test_hyp_O47_landing : landing.Ok ∧ ((landing.core 0).channel 0).nests = [] ∧ ((landing.core 0).quay 3).coming = (0, [(5, false)]) :: [] ∧
    (∀ p < 3, ((landing.core 0).quay p).coming = []) := by unfold State.Ok MemSys.Ok; decide +kernel

/-- A row of core 1 on its way to core 0, both of one crew; the source gone or not. -/
def addOn1 : AddOnRow := { src := 1, ch := 0, copy := 0, tile := 0, row := 0, mask := 1, data := [] }

def rowTo0 (gone : Bool) : State :=
  let t := { task with crew := some 5, crewn := 2 }
  (onCore { task := some t, cp := { addOn := [addOn1] }, mx := { lastStep := some 0 } }).setCore 1 (if gone then {} else { task := some t })

theorem test_hyp_O47_row : (rowTo0 false).Ok ∧ (∀ q ∈ ((rowTo0 false).core 0).cp.addOn, rowWanted (rowTo0 false) 0 q = true) ∧
    ((rowTo0 false).core 0).mx.phase ≤ 32 ∧
    (∀ e ∈ [(addOn1, 32), ({ addOn1 with mask := 0x100000 }, 20)],
      [e.1].find? (fun q => q.mask.testBit (e.2 % 32) && !(e.2 == ((rowTo0 false).core 0).mx.phase &&
        ((rowTo0 false).core 0).mx.applied.contains (q.tile % 8))) = some e.1) ∧
    ((rowTo0 false).core 0).mx.lastStep = some (addOn1.tile % 8) ∧ ((rowTo0 false).core 1).task.isSome = true ∧
    (((rowTo0 false).core 1).channel 0).fp = false ∧
    ((rowTo0 true).core 0).cp.addOn.find? (fun r => !rowWanted (rowTo0 true) 0 r) = some addOn1 := by
  unfold State.Ok MemSys.Ok; decide +kernel

/-- A command of the matrix engine. -/
def entry (cmd : MxCmd) (retry : Bool) : MxEntry :=
  { cmd := cmd, word := 0, bundle := 0, blk := 0, rid := none, released := true, row := 0, retry := retry, pass := none }

def matrix (m : Matrix) : State := onCore { mx := m }

theorem test_hyp_O48 : (matrix { queue := [entry (.azero 0) false] }).Ok ∧ (matrix { queue := [entry (.azero 0) false] }).pausedBy (clusterOf 0) = false ∧
    (matrix { queue := [entry (.step 0 1 1) true] }).pausedBy (clusterOf 0) = false ∧
    ((matrix { queue := [entry (.azero 0) false] }).core 0).mx.forwards = [] ∧
    ((matrix { queue := [entry (.azero 0) false] }).core 0).mx.queue = entry (.azero 0) false :: [] ∧
    ((matrix { queue := [entry (.azero 0) false] }).core 0).mxHeld (entry (.azero 0) false) = false ∧
    ((matrix { queue := [entry (.step 0 1 1) true] }).core 0).mx.queue = [] ++ entry (.step 0 1 1) true :: [] ∧
    ((matrix { queue := [entry (.step 0 1 1) true] }).core 0).mx.fp = false ∧ (matrix { queue := [entry (.step 0 1 1) true] }).Ok := by
  unfold State.Ok MemSys.Ok; decide +kernel

/-- A crew of two whose members run on cores 1 and 0, with a chain that ends at core 0. -/
def crew5 (broken : Bool) : Crew :=
  { id := 5, stream := 0, index := 0, size := 2, region := [0, 1], held := [0, 1]
    members := [{ rank := 0, core := 0, ended := false, arrived := 1 }, { rank := 1, core := 1, ended := true, arrived := 0 }]
    admitted := true, released := 0, chains := [(0, some { fan := false, ranks := [1, 0], broken := broken, begun := [], ended := [] })] }

/-- Half a row on its way to an empty receive slot of its chain. -/
def flit : Flit :=
  { crew := 5, ch := 0, pass := 0, row := 95, half := 1, fan := false, src := 1, word := 0, blk := 0, bundle := 0, data := [], bad := false }

def slotOf5 : RecvSlot := { crew := 5, ch := 0, rows := [] }

def receiving : State :=
  { onCore { task := some { task with crew := some 5, crewn := 2 }, mx := { arriving := [flit], recv := [some slotOf5, none, none, none] } } with
    sched := { crews := [crew5 false] } }

theorem test_hyp_O48_flit : receiving.Ok ∧ (receiving.core 0).inCrew 5 = true ∧ (receiving.core 0).mx.arriving = flit :: [] ∧ receiving.stale 0 flit = false ∧
    slotOfChain (receiving.core 0).mx.recv flit.crew flit.ch = some (0, slotOf5) ∧ slotOf5.takes flit = true := by
  unfold State.Ok MemSys.Ok; decide +kernel

/-- Core 0 waits for the rows of the broken chain. -/
def breaking : State :=
  { onCore { task := some { task with crew := some 5, crewn := 2 }, mx := { queue := [{ entry (.bwait 0) false with pass := some 0 }] } } with
    sched := { crews := [crew5 true] } }

theorem test_hyp_O48_chain : ∃ x, breaking.chain 5 0 = some x ∧ x.broken = true ∧ (breaking.core 0).inCrew 5 = true ∧
    breaking.hopAt 5 x 0 = some 1 ∧ x.role 1 = .last ∧
    (breaking.core 0).mx.queue = [] ++ { entry (.bwait 0) false with pass := some 0 } :: [] ∧ passCh 0 = 0 ∧
    (breaking.core 0).mx.fp = false :=
  ⟨{ fan := false, ranks := [1, 0], broken := true, begun := [], ended := [] }, by decide +kernel, rfl, by decide +kernel, by decide +kernel,
    by decide +kernel, by decide +kernel, rfl, by decide +kernel⟩

theorem test_hyp_O48_members : breaking.Ok ∧ ({ entry (.bwait 0) false with pass := some 0 } : MxEntry).released = true ∧
    ({ entry (.bwait 0) false with pass := some 0 } : MxEntry).pass ≠ none := by unfold State.Ok MemSys.Ok; decide +kernel

/-- The numbers of O48: a block in T8, one without a format; terms that lose no bit; shapes and cells inside a tile. -/
theorem test_hyp_O48_numbers : formatOf 0x20 = some (.t8 0, 2) ∧ formatOf 0 = none ∧
    (∀ t ∈ [Exact.fin false 3 0, .fin true 1 (-20)], t.isFin = true) ∧ maxLead [.fin false 3 0, .fin true 1 (-20)] = some 1 ∧
    lost 3 (0 - (1 - 47)) = false ∧ lost 1 (-20 - (1 - 47)) = false ∧ shapeVr 0x6001 ≤ 96 ∧ (95 : Nat) < 96 := by decide +kernel

/-- The next move of core 0 is a load or a store at the given address. -/
def accessing (store : Bool) (a : Word) (ms : MemSys) : State :=
  { onCore { holding [(.sreg false 1, wordVec a)] with
      ctl := { phase := .run, todo := [(.s2, if store then 0b00000_0000000001_1_00100011 else 0b00000_0000000001_1_00000011)] } } with ms := ms }

/-- TLBs of a die that hold a page. -/
def dieMapped : MemSys := { tlb2 := [(0, [{ asid := 0, va := 0, size := 14, leaf := userLeaf, level := 3 }])] }

/-- The miss of that load. -/
def miss8 (retryAt : Option Nat) : Miss := { core := 0, va := 8, fetch := false, sup := false, done := false, retryAt := retryAt }

theorem test_hyp_O49_walk : missesOf (accessing false 8 (mapped userLeaf)) 0 = [] ∧
    (∀ ms ∈ [{}, dieMapped], ((queuedMisses (missesOf (accessing false 8 ms) 0)).take 8).find? (fun m => !m.done) = some (miss8 none)) ∧
    (∃ ms x, lookupLeaf dieMapped ((miss8 none).who State.reset) false 8 = (ms, .ok x) ∧ true = true) ∧
    ∃ ms f, lookupLeaf {} ((miss8 none).who State.reset) false 8 = (ms, .error f) :=
  ⟨by decide +kernel, by decide +kernel, ok_of _ (fun _ _ => true) (by decide +kernel), error_of _ (by decide +kernel)⟩

/-- A miss that found the queue full 64 cycles ago. -/
def retrying (ms : MemSys) : State := accessing false 8 { ms with misses := [(0, [miss8 (some 0)])] }

theorem test_hyp_O49_retry : (∀ ms ∈ [{}, dieMapped], (missesOf (retrying ms) 0).find? (fun m =>
      match m.retryAt with | some t => decide (t ≤ (retrying ms).now) | none => false) = some (miss8 (some 0)) ∧
      hitsDie (retrying ms).ms ((miss8 (some 0)).who (retrying ms)) { va := 8, kind := .load, sup := false } = decide (ms = dieMapped) ∧
      ((missesOf (retrying ms) 0).erase (miss8 (some 0))).any (miss8 (some 0)).same = false ∧
      (queuedMisses (SMap.get [] (retrying ms).ms.misses 0 : List Miss)).length ≤ 72) ∧
    (miss8 (some 0)).core / 64 = 0 := by decide +kernel

def inval (seen : List Nat) : Inval := { id := 3, core := 0, ctx := 0, scope := 0, asid := 0, base := 0, len := 64, seen := seen }

theorem test_hyp_O49_invalidations : [inval []].find? (fun j => j.id == (inval []).id) = some (inval []) ∧
    (∀ u ∈ [255, 511, 515], u < 516 ∧ u ∉ (inval []).seen) ∧
    [inval (upto 0 516)].find? (fun j => j.id == 3) = some (inval (upto 0 516)) ∧ unitCount ≤ (inval (upto 0 516)).seen.length ∧
    State.reset.oldLeft (inval (upto 0 516)) = false ∧ (inval []).seen.length < unitCount ∧
    sending.oldLeft { inval (upto 0 516) with remote := [sent] } = true := by decide +kernel

theorem test_hyp_O49_accesses :
    (pendingAccesses (accessing true 8 (mapped userLeaf)) 0).find? (fun p => p.va == 8 && p.kind == .store) =
      some { va := 8, kind := .store, sup := false } ∧
    (moveAccess (accessing false 8 (mapped userLeaf)) 0).find? (fun p => p.va == 8 && p.kind == .load) =
      some { va := 8, kind := .load, sup := false } ∧
    ∃ ms x, translate (mapped userLeaf) (State.reset.who 0) 8 .load = (ms, .ok x) ∧
      (x.dev == none && x.hole == false && inAperture x.pa &&
        (cachedLoad ms (State.reset.who 0) 0 x x.pa 1 1).2.bad == none) = true :=
  ⟨by decide +kernel, by decide +kernel, ok_of _ _ (by decide +kernel)⟩

/-- A clean copy in slice 127 of level 2. -/
def sliced : MemSys := { l2 := [(127, [{ line := 127, way := 0, kept := none }])] }

theorem test_hyp_O50_levelTwo : (sliced.slice (127 % 128))[127 / 128]? = some { line := 127, way := 0, kept := none } ∧
    SMap.get none sliced.dirtyPacks (127 / 4) = none := by decide +kernel

/-- A dirty pack without a raw write. -/
theorem test_hyp_O50 : ({ State.reset with ms := ({} : MemSys).put 256 1 5 1 true false } : State).Ok ∧
    SMap.get none (({} : MemSys).put 256 1 5 1 true false).dirtyPacks 1 = some false ∧ space (64 * 1342177279) = .hbm ∧
    space (256 * 335544319) = .hbm ∧ (EccUnit.mask, Loc.mask 7) ∈ eccLocs 15 ∧ (EccUnit.port, portLoc 3) ∈ eccLocs 3 ∧
    (SMap.get none ({ slotOf5 with rows := [(191, some { pass := 0, data := [], srcs := 0, bad := false })] } : RecvSlot).rows
      (383 % 192)).isSome = true ∧ 383 / 192 = 1 := by
  unfold State.Ok MemSys.Ok; decide +kernel

/-- Root port 0 and the ingress of link 31 allow their requesters every granule. -/
def allowing : State :=
  let t (mid : Nat) : Target := { en := true, cache := [(32 * mid, BitVec.ofNat 128 (7 + 0xFFFFFFFF * 2 ^ 76))] }
  { State.reset with
    ms := { targets := [(148, t 0x8FF), (183, t 0xFFF)] }, fab := { devn := 7 }, boot := .running }

theorem test_hyp_O51_requesters : allowing.Ok ∧ allowing.boot = .running ∧ space 63 = .hbm ∧ 63 % 64 + 1 ≤ 64 ∧
    allowing.sto.outstanding = [] ∧ allowing.fab.devn ≠ 0xFFFF ∧ allowing.sto.denied.contains (0, 65535) = false ∧
    ({ allowing with sto := { denied := [(0, 65535)] } } : State).sto.denied.contains (0, 65535) = true ∧
    State.reset.holdsFor 9 = none ∧
    (∀ kd ∈ [AccessKind.write, .read], (allowing.ms.checkFrom (148 + 0) 0 (0x800 + 256 * 0 + 65535 % 256) 63 kd).2 = true ∧
      (allowing.ms.checkFrom (152 + 31) (31 / 8) (allowing.ingressMid 31 9) 63 kd).2 = true) := by
  unfold State.Ok MemSys.Ok; decide +kernel

theorem test_hyp_O51_settled : allowing.ms.Settled 0 := settled_of _ _ rfl (by decide)

/-- With the tables disabled each is denied. -/
theorem test_hyp_O51_denied : ∀ kd ∈ [AccessKind.write, .read], (State.reset.ms.checkFrom (148 + 3) 3 0xBFF 63 kd).2 = false ∧
    (State.reset.ms.checkFrom (152 + 31) (31 / 8) (State.reset.ingressMid 31 9) 63 kd).2 = false := by decide +kernel

theorem test_hyp_O51_atinv : (State.reset.target 183).busy = false ∧
    ({ State.reset with ms := { targets := [(183, { busy := true })] } } : State).Ok ∧
    (({ State.reset with ms := { targets := [(183, { busy := true })] } } : State).target 183).busy = true := by
  unfold State.Ok MemSys.Ok; decide +kernel

/-- Shared mode is asked for: the moorings of two dies agree, or clash. -/
def parted (clash : Bool) : State :=
  { State.reset with ms := { part := true, moors := [(0, [{ asid := 1, base := 0, len := 64, bol := 5 }]),
      (3, [{ asid := 1, base := 0, len := 64, bol := if clash then 6 else 5 }])] } }

theorem test_hyp_O51_shared : ∀ clash, (parted clash).ms.l2busy = false ∧ (parted clash).ms.part = true ∧ (0 : Word).getLsbD 0 = false ∧
    (parted clash).resident = false ∧
    ((∃ a ∈ mergedMoors (parted clash).ms.moors, ∃ b ∈ mergedMoors (parted clash).ms.moors, a.asid = b.asid ∧ a.base < b.base + b.len ∧
      b.base < a.base + a.len ∧ a.bol ≠ b.bol) ↔ clash = true) ∧ ¬4096 < (mergedMoors (parted clash).ms.moors).length := by decide +kernel

/-- Range 0 is enabled with 8 ways; 7 more make 15, and 8 more 16. -/
def ranged : State := { State.reset with ms := { rr := [(0, { en := true, ways := 8 })] } }

theorem test_hyp_O51_ways :
    let others := (((List.range 8).filter (· ≠ 7)).map fun j => if (ranged.rangeReg j).en then (ranged.rangeReg j).ways else 0).sum
    others + ((0x701 : Word).extractLsb' 8 4).toNat = 15 ∧ others + ((0x801 : Word).extractLsb' 8 4).toNat = 16 ∧
    ((0x701 : Word).extractLsb' 4 4).toNat < 9 ∧ (0x701 : Word).getLsbD 0 = true ∧ (0x801 : Word).getLsbD 0 = true ∧
    (ranged.rangeReg 7).en = false ∧ (ranged.rangeReg 0).en = true ∧ (ranged.rangeReg 0).ways ≤ 15 := by decide +kernel

theorem test_hyp_O51_level_two : State.reset.ms.l2busy = false ∧ (1 : Word).getLsbD 0 ≠ State.reset.ms.part ∧ State.reset.resident = false ∧
    (onCore { task := some task }).resident = true ∧ (1 : Word).getLsbD 0 = true ∧
    (9 ≤ ((0x91 : Word).extractLsb' 4 4).toNat) ∧ ((0x81 : Word).extractLsb' 4 4).toNat < 9 ∧ (State.reset.rangeReg 7).en = false ∧
    (∀ j < 8, j ≠ 7 → (State.reset.rangeReg j).en = false) ∧
    ({ State.reset with ms := { l2busy := true } } : State).ms.l2busy = true ∧
    (({ State.reset with ms := { rr := [(7, { en := true })] } } : State).rangeReg 7).en = true := by decide +kernel

/-! The scheduler: context 0 at 0x40000 with a code object's mapping and frames from 4 GiB on, stream 1 with a launch record at
0x200000, which is also a copy record when `copy`. -/

def schedMem (copy : Bool) : MemSys :=
  ((({ mapped userLeaf with tlb2 := dieMapped.tlb2 } : MemSys).put 0x40000 64 (2 ^ 256 + 2 ^ 352) (2 ^ 64 - 1) false false).put 0x20020 32 0x200000 (2 ^ 32 - 1) false false).put
    0x200000 64 (if copy then 2 ^ 61 + 2 ^ 128 * 0x300000 + 2 ^ 192 * 0x301000 + 2 ^ 256 * 64 else 0) (2 ^ 64 - 1) false false

def slot1 : StreamSlot := { stream := 1, mappedAt := 0, prevBoundary := false, leaving := none }

/-- The launch that the record describes. -/
def launch1 : Launch := launchOf 0x200000 1 0 false 0 0

/-- Core 0 as given; stream 1 mapped, with its launch in flight or not. -/
def scheduled (c : Core) (flying : Bool) : State :=
  { onCore c with
    ms := schedMem false
    sched := { en := true, stab := 1, ctxb := 1, slots := [(0, some slot1)]
               streams := if flying then [(1, { flight := some launch1 })] else [] } }

def ready : ReadyRec := { addr := 0x200000, ctx := 0, creatorSup := false, owner := some 1, origin := 0, prio := 0, copy := false }

def dealt : State := { scheduled { lastLaunch := some 5 } false with sched := { (scheduled {} false).sched with deque := [(0, [ready])] } }

theorem test_hyp_O52_take : dealt.sched.crews = [] ∧ dealt.pwr.tripped = none ∧ (dealt.core 0).idle = true ∧ frameWaits dealt 0 = false ∧
    dealt.dequeOf 0 = ready :: [] ∧ dealt.takable 0 ready = true ∧ ready.copy = false := by decide +kernel

def dealtCopy : State := { dealt with sched := { dealt.sched with deque := [(0, [{ ready with copy := true }])] } }

theorem test_hyp_O52_take_copy : dealtCopy.sched.crews = [] ∧ dealtCopy.pwr.tripped = none ∧ (dealtCopy.core 0).idle = true ∧
    frameWaits dealtCopy 0 = false ∧ dealtCopy.dequeOf 0 = { ready with copy := true } :: [] ∧
    dealtCopy.takable 0 { ready with copy := true } = true := by decide +kernel

def starting (last : Option Nat) : State :=
  scheduled { task := some task, ctl := { phase := .starting }, lastLaunch := last, hdr := { addr := 0x1000, npar := 1 } } true

theorem test_hyp_O52_start : ((starting none).core 0).task = some task ∧ ((starting none).core 0).ctl.phase = .starting ∧
    ((starting none).core 0).lastLaunch ≠ (starting none).launchSerial task ∧ task.record = false ∧
    ((starting (some 0)).core 0).lastLaunch = (starting (some 0)).launchSerial task ∧
    ∃ s1 o, taskHeader (starting (some 0)) 0 task = (s1, .ok o) ∧ (o.npar == 1) = true :=
  ⟨by decide +kernel, by decide +kernel, by decide +kernel, rfl, by decide +kernel, ok_of _ _ (by decide +kernel)⟩

def launching : State := scheduled {} false

theorem test_hyp_O52_launch : launching.schedOn = true ∧ launching.ms.l2busy = false ∧ launching.runnable 1 = true ∧
    (launching.stream 1).flight = none ∧ (headReady launching 1).2 = true ∧ entryHead ((headReady launching 1).1.streamEntry 1).2 = 0x200000 ∧
    launch1.spw ≤ 12 ∧ launch1.sup = false ∧ launch1.csize ≤ 64 * (allowedDies 0).length ∧
    ∃ ms x, recordRead ((headReady launching 1).1.streamEntry 1).1.ms (launching.ctxWho 0 0 false).2 0x200000 false = (ms, .ok x) ∧ (x.2 == 0) = true :=
  ⟨by decide +kernel, by decide +kernel, by decide +kernel, by decide +kernel, by decide +kernel, by decide +kernel, by decide +kernel,
    by decide +kernel, by decide +kernel, ok_of _ _ (by decide +kernel)⟩

/-- The same, but the record cannot be translated. -/
def lost : State := { launching with ms := { launching.ms with tlb2 := [] } }

theorem test_hyp_O52_lost : lost.schedOn = true ∧ lost.ms.l2busy = false ∧ lost.runnable 1 = true ∧ (lost.stream 1).flight = none ∧
    (headReady lost 1).2 = true ∧
    ∃ ms f, recordRead ((headReady lost 1).1.streamEntry 1).1.ms (lost.ctxWho 0 0 false).2 0x200000 false = (ms, .error f) :=
  ⟨by decide +kernel, by decide +kernel, by decide +kernel, by decide +kernel, by decide +kernel, error_of _ (by decide +kernel)⟩

/-- A crew of stream 1 that holds its two cores. -/
def gathered : State :=
  { scheduled {} true with sched := { (scheduled {} true).sched with crews := [{ crew5 true with stream := 1, admitted := false, members := [] }] } }

theorem test_hyp_O52_crew : reserveAll gathered = gathered ∧ gathered.startsTasks = true ∧
    gathered.sched.crews.find? (fun c => !c.admitted && c.held.length == c.size && gathered.runnable c.stream) =
      some { crew5 true with stream := 1, admitted := false, members := [] } ∧
    (gathered.stream 1).flight = some launch1 ∧ (crew5 true).held.Nodup := by decide +kernel

theorem test_hyp_O52_share : (scheduled {} true).slotOf 0 = some slot1 ∧ ((scheduled {} true).stream 1).flight = some launch1 ∧
    31 / 8 ∈ allowedDies (entryDmask ((scheduled {} true).streamEntry 1).2) ∧ 31 ∉ launch1.reports ∧
    SMap.get 0 (scheduled {} true).sched.share (32 * 1 + 31) = 0 ∧ (scheduled {} true).sched.crews = [] := by decide +kernel

theorem test_hyp_O53_end : ((onCore { task := some task, ctl := { phase := .ending 0 0 } }).core 0).ctl.phase = .ending 0 0 ∧
    ((onCore { task := some task, ctl := { phase := .ending 0 0 } }).core 0).task = some task ∧
    (onCore { task := some task, ctl := { phase := .ending 0 0 } }).accessesLeft 0 = false := by decide +kernel

/-- A copy record of 64 bytes on core 0. -/
def record : RecordCopy :=
  { addr := 0x200000, ctx := 0, sup := false, creatorSup := false, owner := none, origin := 0, src := 0, dst := 0, len := 0, doneBytes := 0
    crc := 0, mode := 0 }

def copying : State := { scheduled { cp := { record := some record } } false with ms := schedMem true }

theorem test_hyp_O53_copy : copying.pausedBy (clusterOf 0) = false ∧ (copying.core 0).cp.record = some record ∧ record.doneBytes = 0 ∧
    ∃ ms x, recordRead copying.ms (copying.ctxWho 0 0 false).2 0x200000 false = (ms, .ok x) ∧
      (recordBad (leafCoh x.1.leaf) x.2 == false && recSup x.2 == false && field (recWord x.2 4) 0 32 == 64 &&
        (match recordBlocks { (copying.ctxWho 0 0 false).2 with sup := false, sched := false } copying false false 1 0x300000 0x301000 0xFFFFFFFF copying with
         | (t, .ok _) => !rowsOut t 0 8
         | (_, .error _) => false)) = true :=
  ⟨by decide +kernel, by decide +kernel, rfl, ok_of _ _ (by decide +kernel)⟩

/-- A copy record that is emitted, with a copy at a remote home or without; one that cannot be read. -/
theorem test_hyp_O53_copied : 0 < ({ record with doneBytes := 64 } : RecordCopy).doneBytes ∧ rowsOut copying 0 8 = false ∧
    rowsOut { copying with fab := { unacked := [(0, [{ sent with ch := some 8 }])] } } 0 8 = true ∧
    ∃ ms f, recordRead { copying.ms with tlb2 := [] } (copying.ctxWho 0 0 false).2 0x200000 false = (ms, .error f) :=
  ⟨by decide, by decide +kernel, by decide +kernel, error_of _ (by decide +kernel)⟩

/-- Every cluster has reported. -/
theorem test_hyp_O53_launch : launch1.stream = 1 ∧ launch1.killed = false ∧
    (∀ d ∈ allowedDies 0, ∀ c < 8, 8 * d + c ∈ ({ launch1 with reports := upto 0 32 } : Launch).reports) := by decide +kernel

/-- The member of crew 5 that has not ended waits at its barrier on core 0. -/
def atBarrier : State :=
  { onCore { task := some { task with crew := some 5 }, ctl := { phase := .barrier } } with sched := { crews := [crew5 true] } }

theorem test_hyp_O53_barrier : atBarrier.crew 5 = some (crew5 true) ∧ (crew5 true).admitted = true ∧ (∃ m ∈ (crew5 true).members, m.ended = false) ∧
    (∀ m ∈ (crew5 true).members, m.ended = true ∨ (crew5 true).released < m.arrived) ∧
    (∀ m ∈ (crew5 true).members, m.ended = false → (atBarrier.core m.core).inCrew 5 = true ∧ (atBarrier.core m.core).ctl.phase = .barrier ∧
      (atBarrier.core m.core).ctl.final = []) := by decide +kernel

/-- A kill in progress, with a command at a drive. -/
def killing (out : List Command) : State := { State.reset with sched := { killing := some (4, 5) }, sto := { outstanding := out } }

/-- A command whose Abort was sent in cycle 0. -/
def command4 : Command := { ctx := 4, queue := 0, cid := 0, abortAt := some 0 }

/-- A row of context 4 on its way to core 0. -/
def killingRow : State := (killing []).setCore 0 { cp := { addOn := [{ addOn1 with ctx := 4 }] } }

theorem test_hyp_O54 : State.reset.Ok ∧ State.reset.sched.killing = none ∧ (killing [command4]).sched.killing ≠ none ∧
    (killing [command4]).sto.outstanding[0]? = some command4 ∧ command4.abortAt = some 0 ∧
    0 + 320000000 ≤ ({ killing [command4] with now := 320000000 } : State).now ∧ (killing [command4]).now < 0 + 320000000 ∧
    (∃ c ∈ (killing [command4]).sto.outstanding, c.ctx = 4) ∧
    (∃ e ∈ killingRow.cores, ∃ r ∈ e.2.cp.addOn, r.ctx = 4) ∧ killingRow.sched.killing = some (4, 5) ∧
    (∀ e ∈ (killing []).cores, ∀ r ∈ e.2.cp.addOn, r.ctx ≠ 4) ∧ (∀ n, ((killing []).target n).en = false) ∧
    (∀ c ∈ (killing []).sto.outstanding, c.ctx ≠ 4) ∧
    (∀ e ∈ (killing []).fab.unacked, ∀ u ∈ e.2, u.ctx ≠ 4) ∧ space ((killing []).ctxAddr 4 + 40) = .hbm ∧ (killing []).ms.targets = [] ∧
    (∃ e ∈ ({ killing [] with fab := { unacked := [(31, [{ sent with ctx := 4 }])] } } : State).fab.unacked, ∃ u ∈ e.2, u.ctx = 4) ∧
    (∀ e ∈ (killing []).cores, ∀ r ∈ e.2.mx.arriving, ((killing []).crew r.crew).isSome = true) := by
  refine ⟨⟨rfl, rfl⟩, rfl, by decide +kernel, by decide +kernel, rfl, by decide, by decide +kernel, ⟨command4, by decide +kernel, rfl⟩, by decide +kernel,
    by decide +kernel, by decide +kernel, fun n => rfl, by decide +kernel, by decide +kernel, by decide +kernel, by decide +kernel, by decide +kernel,
    by decide +kernel⟩

/-- A task of context 4 that a record describes. -/
theorem test_hyp_O54_task : ((onCore { task := some { task with ctx := 4, record := true } }).core 0).task = some { task with ctx := 4, record := true } ∧
    ({ task with ctx := 4, record := true } : Task).record = true := by decide +kernel

/-- Stream 1 has a launch in flight, and waits if `w`. -/
def FlyingOne (w : Bool) (s : State) : Prop :=
  s.mapped 1 = none ∧ (s.stream 1).flight.isSome = true ∧ (w = true → (s.stream 1).waitFrom.isSome = true)

theorem mapped_of {s t : State} (h : t.sched.slots = s.sched.slots) (n : Nat) : t.mapped n = s.mapped n := by
  unfold State.mapped State.slotOf; rw [h]

theorem setStream_get (s : State) (n m : Nat) (x : Stream) : (s.setStream n x).stream m = if m = n then x else s.stream m := by
  unfold State.setStream State.stream
  by_cases h : m = n
  · subst h; rw [if_pos rfl]; exact SMap.get_set_same _ _ _ _
  · rw [if_neg h]; exact SMap.get_set_other _ _ _ h

theorem streamEntry_sched (s : State) (n : Nat) : (s.streamEntry n).1.sched = s.sched := by
  simp only [State.streamEntry]
theorem readCtx_sched (s : State) (n : Nat) : (s.readCtx n).1.sched = s.sched := by
  have h : (s.readCtx n).1 = { s with ms := (s.ms.hwRead (s.ctxAddr n) 64).1 } := by rw [State.readCtx]
  rw [h]
theorem ctxWho_sched (s : State) (k x : Nat) (b : Bool) : (s.ctxWho k x b).1.sched = s.sched := by
  simp only [State.ctxWho, readCtx_sched]

theorem headReady_sched (s : State) (n : Nat) : (headReady s n).1.sched = s.sched := by
  unfold headReady
  split
  rename_i s1 e h1
  have k1 : s1.sched = s.sched := by rw [← streamEntry_sched s n, h1]
  split
  · exact k1
  · split
    rename_i s2 c h2
    have k2 : s2.sched = s1.sched := by rw [← readCtx_sched s1 (entryCtx e), h2]
    split
    · exact k2.trans k1
    · extract_lets va
      split
      rename_i s3 w h3
      have k3 : s3.sched = s2.sched := by rw [← ctxWho_sched s2 0 (entryCtx e) ((s2.stream n).supQueued.contains va), h3]
      split
      · exact k3.trans (k2.trans k1)
      · exact k3.trans (k2.trans k1)

theorem hasWork_sched (s : State) (n : Nat) : (hasWork s n).1.sched = s.sched := by
  unfold hasWork
  split
  · rfl
  · exact headReady_sched s n

theorem refreshWait_flying (s : State) (n : Nat) (w : Bool) (h : FlyingOne w s) : FlyingOne (w || n == 1) (refreshWait s n) := by
  obtain ⟨h1, h2, h3⟩ := h
  have hs := hasWork_sched s n
  unfold refreshWait
  by_cases hn : n = 1
  · subst hn
    rw [h1]
    unfold hasWork
    rw [h2]
    by_cases hw : (s.stream 1).waitFrom.isSome = true
    · simpa [hw, FlyingOne] using And.intro h1 h2
    · simp only [Option.isSome_none, Bool.false_eq_true, if_false, if_true, hw]
      exact ⟨h1, by rw [setStream_get]; simpa using h2, fun _ => by rw [setStream_get]; simp⟩
  · have hb : (n == 1) = false := by simpa using hn
    rw [hb, Bool.or_false]
    generalize hasWork s n = r at hs
    obtain ⟨t, b⟩ := r
    simp only at hs ⊢
    have e : t.stream 1 = s.stream 1 := by unfold State.stream; rw [hs]
    have k : FlyingOne w t := ⟨(mapped_of (by rw [hs]) 1).trans h1, by rw [e]; exact h2, by rw [e]; exact h3⟩
    have g (x : Stream) : FlyingOne w (t.setStream n x) :=
      ⟨k.1, by rw [setStream_get, if_neg (Ne.symm hn)]; exact k.2.1, by rw [setStream_get, if_neg (Ne.symm hn)]; exact k.2.2⟩
    split
    · exact ⟨h1, h2, h3⟩
    · split
      · split
        · exact k
        · exact g _
      · exact g _

/-- A fold over stream numbers 0 to 4095 that brings about what it keeps at number 1. -/
theorem fold_one {α : Type} (f : α → Nat → α) (P : Bool → α → Prop) (h : ∀ a n w, P w a → P (w || n == 1) (f a n)) (a : α) (p : P false a) :
    P true ((upto 0 4096).foldl f a) := by
  have keep : ∀ (l : List Nat) (a : α), P true a → P true (l.foldl f a) := by
    intro l
    induction l with
    | nil => exact fun a p => p
    | cons n l ih => exact fun a p => ih _ (h a n true p)
  rw [show (4096 : Nat) = 4094 + 2 from rfl, upto, upto, List.foldl_cons, List.foldl_cons]
  exact keep _ _ (h _ 1 false (h a 0 false p))

theorem insertWaiting_ne (x : Waiting) (l : List Waiting) : insertWaiting x l ≠ [] := by
  cases l with
  | nil => simp [insertWaiting]
  | cons y l => unfold insertWaiting; split <;> simp

/-- The list holds a stream once stream 1, which waits, has been entered. -/
def Entered (w : Bool) (a : State × List Waiting) : Prop := (a.1.stream 1).waitFrom.isSome = true ∧ (w = true → a.2 ≠ [])

theorem addWaiting_entered (a : State × List Waiting) (n : Nat) (w : Bool) (h : Entered w a) : Entered (w || n == 1) (addWaiting [] a n) := by
  obtain ⟨h1, h2⟩ := h
  unfold addWaiting
  split
  · rename_i t ht
    simp only [List.contains_nil, Bool.false_eq_true, if_false]
    exact ⟨by show ((a.1.streamEntry n).1.stream 1).waitFrom.isSome = true; unfold State.stream; rw [streamEntry_sched]; exact h1,
      fun _ => insertWaiting_ne _ _⟩
  · rename_i ht
    have hn : n ≠ 1 := fun e => by rw [e] at ht; rw [ht] at h1; simp at h1
    exact ⟨h1, fun e => h2 (by simpa [hn] using e)⟩

theorem entered_start (s : State) (h : FlyingOne true s) : Entered false (s, []) := ⟨h.2.2 rfl, nofun⟩

/-- No stream is mapped; stream 1 has a launch in flight. -/
def unmappedFlying : State := { scheduled {} true with sched := { (scheduled {} true).sched with slots := [] } }

/-- No stream is mapped. -/
def Unmapped (_ : Bool) (s : State) : Prop := s.sched.slots = []

theorem refreshWait_unmapped (s : State) (n : Nat) (h : s.sched.slots = []) : (refreshWait s n).sched.slots = [] := by
  have hs := hasWork_sched s n
  unfold refreshWait
  generalize hasWork s n = r at hs
  obtain ⟨t, b⟩ := r
  simp only at hs ⊢
  have g : t.sched.slots = [] := by rw [hs]; exact h
  split
  · exact h
  · split
    · split
      · exact g
      · exact g
    · exact g

theorem test_hyp_O55_map : unmappedFlying.sched.en = true ∧ (∀ i x, unmappedFlying.slotOf i = some x → x.leaving = none) ∧
    (upto 0 64).find? (fun i => (unmappedFlying.slotOf i).isNone) = some 0 ∧
    ∃ s1 w ws, waitingStreams (refreshWaits unmappedFlying) = (s1, w :: ws) := by
  refine ⟨rfl, fun _ _ h => by simp [unmappedFlying, State.slotOf, SMap.get] at h, by decide +kernel, ?_⟩
  have h1 : FlyingOne true (refreshWaits unmappedFlying) :=
    fold_one refreshWait FlyingOne refreshWait_flying _ ⟨by decide +kernel, by decide +kernel, nofun⟩
  have h0 : Unmapped true (refreshWaits unmappedFlying) :=
    fold_one refreshWait Unmapped (fun s n _ h => refreshWait_unmapped s n h) unmappedFlying rfl
  have h2 : Entered true (waitingStreams (refreshWaits unmappedFlying)) := by
    unfold waitingStreams
    rw [show (refreshWaits unmappedFlying).sched.slots = [] from h0]
    exact fold_one (addWaiting []) Entered addWaiting_entered _ (entered_start _ h1)
  generalize waitingStreams (refreshWaits unmappedFlying) = r at h2
  obtain ⟨s1, _ | ⟨w, ws⟩⟩ := r
  · exact absurd rfl (h2.2 rfl)
  · exact ⟨s1, w, ws, rfl⟩

theorem test_hyp_O55_quantum : ({ State.reset with now := 800000 } : State).sched.quantum ≤ ({ State.reset with now := 800000 } : State).now := by decide

/-- A task that is asked to go, with a drain stub. -/
def preempted : State :=
  scheduled { task := some task, trap := { preempt := .pending }, ctl := { phase := .head }, code := { addr := 0x1000, npar := 2, dstub := some 1 } } true

theorem test_hyp_O55_preempt : (preempted.core 0).trap.preempt = .pending ∧ (preempted.core 0).ctl.phase = .head ∧ (preempted.core 0).trap.tl = false ∧
    (freeFrame preempted (preempted.core 0).ctx 0 4 0).2 = some 0 ∧
    ((freeFrame preempted (preempted.core 0).ctx 0 4 0).1.setFst (preempted.core 0).ctx 0 0 3).2 = true ∧
    (preempted.core 0).code.stubFor (preempted.core 0).ctl.head = some 1 := by decide +kernel

/-- A task in its stub, and one that yields. -/
def stubbed (ph : Phase) : State := { scheduled { task := some task, trap := { preempt := .stub 0 0 }, ctl := { phase := ph } } true with now := 128000 }

theorem test_hyp_O55_stub : ((stubbed .head).core 0).trap.preempt = .stub 0 0 ∧ 0 + stubCycles ≤ (stubbed .head).now ∧
    (stubbed .head).engineOut 0 = false ∧
    ({ stubbed .head with sto := { outstanding := [{ command4 with core := 0 }] } } : State).engineOut 0 = true ∧
    ((stubbed .head).core 0).yielded = false ∧ ((stubbed .head).core 0).task = some task ∧ task.crew = none ∧
    ((stubbed (.yielding 1)).core 0).ctl.phase = .yielding 1 ∧ ((stubbed (.yielding 1)).core 0).trap.preempt = .stub 0 0 ∧
    (performStores (stubbed (.yielding 1)) 0).drained 0 = true := by decide +kernel

/-- A frame of core 0 with a saved task of stream 1. -/
def framed : State :=
  let s := scheduled {} true
  { s with ms := s.ms.put 0x100000000 1 1 1 false false
           sched := { s.sched with frames := [(0, some { task := some task, ctl := { phase := .head } })] } }

theorem test_hyp_O55_fst : (framed.fst 0 0 0).2 = some 1 := by decide +kernel

theorem test_hyp_O55_resume : (framed.core 0).idle = true ∧ framed.startsTasks = true ∧
    resumable framed 0 = some (0, 0, { task := some task, ctl := { phase := .head } }) ∧
    ({ task := some task, ctl := { phase := .head } } : Core).ctl.behind = {} := by decide +kernel

theorem test_hyp_O55_park : ((onCore (ctl { phase := .parking })).core 0).ctl.phase = .parking ∧ ((onCore (ctl { phase := .parking })).core 0).noNests = true ∧
    ((onCore (ctl { phase := .parking })).core 0).tl = 0 ∧ ((onCore (ctl { phase := .parking })).core 0).cp.queue = [] := by decide +kernel

/-! Power, tide and fabric. -/

def powered (p : Power) : State := { State.reset with pwr := p }

theorem test_hyp_O56_voltage : ((powered { clusters := [(31, { target := 40, settling := true })] }).clusterPwr 31).settling = true ∧
    ((powered { clusters := [(31, { lowering := true })] }).clusterPwr 31).lowering = true := by decide +kernel

theorem test_hyp_O56_window : ({ State.reset with now := 32000 } : State).Ok ∧
    ({ State.reset with now := 32000 } : State).pwr.window ≤ ({ State.reset with now := 32000 } : State).now ∧
    (∀ cl < 32, (({ State.reset with now := 32000 } : State).clusterPwr cl).plvl ≤ 2) := by
  unfold State.Ok MemSys.Ok; decide +kernel

/-- A frame that is not acknowledged for 100 µs. -/
theorem test_hyp_O56_frames : ((255, 0) : Nat × Nat) ∈ ({ State.reset with now := 3200000, pwr := { awaiting := [(255, 0)] } } : State).pwr.awaiting ∧
    ({ State.reset with now := 3200000, pwr := { awaiting := [(255, 0)] } } : State).pwr.awaiting = (255, 0) :: [] ∧
    0 + 3200000 ≤ ({ State.reset with now := 3200000, pwr := { awaiting := [(255, 0)] } } : State).now := by decide +kernel

/-- Zone 15 at the temperature given. -/
def hot (t : Nat) (tripped : Option Nat) : State := powered { zones := [(15, { temp := t })], tripped := tripped }

theorem test_hyp_O56_trips : (hot 108 none).boot = .running ∧ (hot 108 none).pwr.tripped = none ∧ 108 ≤ (hot 108 none).hottest ∧
    (hot 108 (some 0)).pwr.tripped = some 0 ∧ (hot 108 (some 0)).resident = false ∧ (hot 118 none).boot ≠ .off ∧ 118 ≤ (hot 118 none).hottest := by
  decide +kernel

/-- Device 7 in the given state of the tide, with device 3 and itself as members, at the given group time. -/
def member (last : Nat) : TideMember := { newMember 3 2 last none with release := [(1, 9, 4)] }

def tiding (st : TideState) (ms : List TideMember) (now : Nat) : State :=
  { State.reset with fab := { devn := 7, gtime := now }, tide := { state := st, members := ms, beatAt := 100000 } }

theorem test_hyp_O57_control : (tiding .out [] 0).tide.group < 65536 ∧ (tiding .out [] 0).fab.devn < 65536 ∧ (tiding .out [] 0).tide.state = .out ∧
    (0x0001000700000010 : Word).getLsbD 31 = false ∧ (0x0001000780000010 : Word).getLsbD 31 = true ∧
    ((0x0001000780000010 : Word).extractLsb' 32 16).toNat = (tiding .out [] 0).fab.devn ∧
    ((0x0001000380000010 : Word).extractLsb' 32 16).toNat ≠ (tiding .out [] 0).fab.devn ∧ (0x0001000380000010 : Word).getLsbD 31 = true ∧
    (tiding .out [] 0).holdsFor 3 = none ∧ (tiding .member [member 0] 0).holdsFor 3 = none ∧ (tiding .member [] 0).tide.state = .member := by
  decide +kernel

theorem test_hyp_O57_round : (tiding .member [member 0] 1000000).tide.state = .member ∧
    (∀ m ∈ (tiding .member [member 0] 1000000).tide.members, m.leaves = none) ∧
    member 0 ∈ (tiding .member [member 0] 1000000).tide.members ∧ (member 0).release = [(1, 9, 4)] ∧
    1 ≤ (tiding .member [member 0] 1000000).round := by decide +kernel

/-- Device 7 enters in round 1, its time stepped or not. -/
def joining (stepped : Bool) : State :=
  { tiding .joining [] 1000000 with tide := { (tiding .joining [] 1000000).tide with joinRound := some 1, stepped := stepped } }

theorem test_hyp_O57_joining : ∀ st, (joining st).tide.state = .joining ∧ (joining st).tide.joinRound = some 1 ∧
    1 ≤ (joining st).fab.gtime / 1000000 ∧ (joining st).tide.stepped = st := by decide +kernel

theorem test_hyp_O57_beat : (tiding .leaving [] 100000).inGroup = true ∧
    (tiding .leaving [] 100000).tide.beatAt ≤ (tiding .leaving [] 100000).fab.gtime := by decide +kernel

/-- Device 3 has been silent for 500 µs; for 5 ms, so that device 7 leads. -/
theorem test_hyp_O57_silence :
    (tiding .member [member 0] 500000).tide.members.find? (fun x => x.dev == 3) = some (member 0) ∧
    (tiding .member [member 0] 500000).silent (member 0) = true ∧
    (tiding .member [member 0, newMember 7 2 0 none] 5000000).tide.members.find? (fun x => x.dev == 3) = some (member 0) ∧
    (tiding .member [member 0, newMember 7 2 0 none] 5000000).inGroup = true ∧
    (tiding .member [member 0, newMember 7 2 0 none] 5000000).leader = some 7 ∧
    (tiding .member [member 0, newMember 7 2 0 none] 5000000).isSelf (member 0) = false ∧ (member 0).leaves = none ∧
    (member 0).last + 5000000 ≤ (tiding .member [member 0, newMember 7 2 0 none] 5000000).fab.gtime := by decide +kernel

theorem test_hyp_O57_join : ∀ s ∈ [{ tiding .joining [] 2000000 with tide := { (tiding .joining [] 2000000).tide with joinSent := some 0 } }],
    s.tide.state = .joining ∧ s.tide.joinSent = some 0 ∧ s.tide.joinRound = none ∧ 0 + 2000000 ≤ s.fab.gtime := by decide +kernel

theorem test_hyp_O57_sync : (tiding .member [newMember 3 2 1107000 none] 1107000).tide.syncRound < (tiding .member [newMember 3 2 1107000 none] 1107000).round ∧
    100000 + 1000 * (7 % 512) ≤ (tiding .member [newMember 3 2 1107000 none] 1107000).fab.gtime % 1000000 ∧
    (tiding .member [newMember 3 2 1107000 none] 1107000).leader = some 3 := by decide +kernel

/-- A message of a type from device 3 about a device. -/
def msg (type subj : Nat) : Msg := { w0 := BitVec.ofNat 64 (2 ^ 56 * type + 2 ^ 16 * 3 + subj), w1 := 0, w2 := 0, w3 := 0 }

theorem test_hyp_O58_member : (tiding .member [member 0] 0).serves = true ∧ (∃ y ∈ (tiding .member [member 0] 0).tide.members, y.dev = msgSender (msg 1 0)) ∧
    (∀ t ∈ [1, 2, 3, 4, 5, 6, 7, 8, 9, 10], tideBad (msg t 7) = false ∧ msgType (msg t 7) = t ∧ msgSubj (msg t 7) = 7) ∧ msgSubj (msg 8 9) ≠ 7 ∧
    (tiding .member [newMember 7 2 0 none] 0).inGroup = true ∧ (tiding .member [newMember 7 2 0 none] 0).leader = some 7 ∧
    (tiding .member [member 0] 0).holdsFor (msgSender (msg 1 0)) = none ∧ (tiding .joining [] 0).holdsFor (msgSender (msg 1 0)) = none ∧
    (tiding .member [newMember 7 2 0 none] 0).holdsFor (msgSender (msg 4 7)) = none ∧
    (tiding .joining [] 0).serves = true ∧ (tiding .joining [] 0).tide.state = .joining ∧ (tiding .joining [] 0).tide.joinRound = none ∧
    ((tiding .member [member 0] 0).modMember 3 fun y => { y with last := 0 }).leader ≠ some 7 := by decide +kernel

/-- Device 7 with completions on, the ring empty or full, and a store that device 3 has not acknowledged. -/
def fabric (crpc : Nat) : State :=
  { State.reset with fab := { devn := 7, cren := true, crbase := 1, crpc := crpc
                              unacked := [(31, [{ core := 0, mid := 0, dev := 3, pa := 64, store := true, path := 1, rid := none }])] } }

/-- FAULT with code 1 for address 64; management operations. -/
def faulted : Msg := { w0 := BitVec.ofNat 64 (2 ^ 56 * 0x12 + 2 ^ 16 * 3), w1 := 1, w2 := 64, w3 := 0 }

def managing (op : Nat) : Msg := { w0 := BitVec.ofNat 64 (2 ^ 56 * 0x20 + 2 ^ 16 * 3), w1 := BitVec.ofNat 64 op, w2 := 0xFF002000000, w3 := 0 }

/-- A member that has removed device 3. -/
def removing : State := { tiding .member [] 0 with tide := { (tiding .member [] 0).tide with evicted := [3] } }

theorem test_hyp_O59_ignores : removing.ignores (msgSender (msg 0x10 0)) = true ∧ (fabric 0).ignores (msgSender (msg 0x10 0)) = false ∧
    (fabric 255).ignores (msgSender faulted) = false ∧ ({ State.reset with fab := { devn := 7 } } : State).holdsFor (msgSender (managing 3)) = none ∧
    (∀ y ∈ (fabric 0).tide.members, y.dev ≠ msgSender faulted) := by decide +kernel

theorem test_hyp_O59 : (fabric 255).serves = true ∧ (fabric 255).fab.cren = true ∧ (255 + 65536 - (fabric 255).fab.crcc) % 65536 < 256 ∧
    256 ≤ (256 + 65536 - (fabric 256).fab.crcc) % 65536 ∧ msgReserved (msg 0x10 0) = false ∧ msgType (msg 0x10 0) = 0x10 ∧
    msgReserved (msg 0x11 0) = false ∧ msgType (msg 0x11 0) = 0x11 ∧ msgReserved faulted = false ∧ msgType faulted = 0x12 ∧ wfield faulted.w1 7 0 = 1 ∧
    ((fabric 0).unackedTo (msgSender faulted) faulted.w2.toNat).map (fun e => (e.1, e.2.store, e.2.ch)) = some (31, true, none) ∧
    ((fabric 255).ms.check (stackDie 8416) 0 8416 .write false).2 = true ∧ (1 * 256 + 32 * (255 % 256) = 8416) ∧
    ((fabric 0).checkFirmware 0xFF002000000 .read).2 = true ∧ isRegister 64 = false ∧
    (∀ op ∈ [1, 2, 3, 4, 5], (fabric 0).manages op = true ∧ msgReserved (managing op) = false ∧ msgType (managing op) = 0x20 ∧
      wfield (managing op).w1 7 0 = op ∧ isRegister (managing op).w2.toNat = true) ∧ (fabric 0).windowOn = false ∧
    knownType (msgType (msg 0x0B 0)) = false ∧ msgReserved (msg 0x0B 0) = false := by decide +kernel

/-- Link 31 has paused at cycle 0; 2 µs later it goes down. -/
def pausedAt (now : Nat) : State := { State.reset with now := now, fab := { paused := [(31, 1)] } }

/-- The first lost access of the link that goes down, while others stand. -/
theorem test_hyp_O60_lost :
    (SMap.get [] ({ pausedAt 6400 with fab := { (pausedAt 6400).fab with unacked := [(31, [sent])] } } : State).fab.unacked 31 :
      List Unacked).find? (fun v => v.dev == sent.dev) = some sent ∧
    (pausedAt 6400).fab.ldown ||| (1 <<< 31) ≠ BitVec.allOnes 32 ∧ SMap.get 0 (pausedAt 6400).fab.sheds 31 < 2 := by decide +kernel

theorem test_hyp_O60 : State.reset.fab.ldown.getLsbD 31 = false ∧ SMap.get 0 (pausedAt 6400).fab.paused 31 ≠ 0 ∧
    (pausedAt 6400).now + 1 ≤ SMap.get 0 (pausedAt 6400).fab.paused 31 + pauseCycles ∧
    SMap.get 0 (pausedAt 6400).fab.paused 31 + pauseCycles ≤ (pausedAt 6400).now + 1 := by decide +kernel

end Sys2Proof.Tests
end

section
/-!
PROOFS. What a property of level-1 lines survives: an access, the evictions and recalls that it brings about among it, takes
lines out of the level-1 caches or settles them, and does nothing else to them (04 R98 to R106).
-/

namespace Sys2Proof.Machine

/-- Every level-1 line `l` of every core `k` has `P k l`. -/
def MemSys.LinesHave (P : Nat → L1Line → Prop) (m : MemSys) : Prop := ∀ k, ∀ l ∈ m.lines k, P k l

/-- What holds of a line holds of what stays of it at its home. -/
def SettleClosed (P : Nat → L1Line → Prop) : Prop := ∀ k drop l l', l.settled drop = some l' → P k l → P k l'

/-- What stays of a line at its home is the same line with nothing pending. -/
theorem L1Line.settled_some {l l' : L1Line} {drop : Bool} (h : l.settled drop = some l') :
    l'.line = l.line ∧ l'.coh = l.coh ∧ l'.pending = false := by
  unfold L1Line.settled at h
  split at h
  · cases h
  · rename_i hkeep
    cases h
    refine ⟨rfl, rfl, ?_⟩
    cases hs : l.st
    case dirty => cases hc : l.coh <;> simp [L1Line.pending, LineState.pending]
    case updateOnly => simp [L1Line.isUpdate, hs] at hkeep
    all_goals rfl

theorem foldl_keeps_mem {α β : Type} {J : β → Prop} {f : β → α → β} {l : List α} {m : β}
    (hf : ∀ m, ∀ x ∈ l, J m → J (f m x)) (h : J m) : J (l.foldl f m) :=
  List.foldlRecOn l f h fun m hm x hx => hf m x hx hm

theorem foldl_keeps {α β : Type} {J : β → Prop} {f : β → α → β} {l : List α} {m : β}
    (hf : ∀ m x, J m → J (f m x)) (h : J m) : J (l.foldl f m) := foldl_keeps_mem (fun m x _ => hf m x) h

/-- What one step of a fold brings about and every step keeps holds at its end. -/
theorem foldl_brings {α β : Type} {J : β → Prop} {f : β → α → β} {l : List α} {m : β}
    (hf : ∀ m x, J m → J (f m x)) {x : α} (hx : x ∈ l) (h : ∀ m, J (f m x)) : J (l.foldl f m) := by
  induction l generalizing m with
  | nil => cases hx
  | cons y l ih =>
    rcases List.mem_cons.1 hx with rfl | hx
    · rw [List.foldl_cons]; exact foldl_keeps hf (h m)
    · exact ih hx

theorem SMap.get_of_not_mem {β : Type} {d : β} {m : SMap β} {k : Nat} (h : k ∉ m.map Prod.fst) : SMap.get d m k = d := by
  induction m with
  | nil => rfl
  | cons e m ih =>
    simp only [List.map_cons, List.mem_cons, not_or] at h
    rw [SMap.get, if_neg (Ne.symm h.1), ih h.2]

section
variable {P : Nat → L1Line → Prop} {m m' : MemSys}

/-- A change of what is not a level-1 cache. -/
theorem MemSys.LinesHave.congr (h : m.LinesHave P) (e : m'.l1 = m.l1) : m'.LinesHave P := by
  unfold MemSys.LinesHave MemSys.lines at *
  rw [e]; exact h

theorem ite_linesHave {c : Prop} [Decidable c] (h : m.LinesHave P) (h' : m'.LinesHave P) : (if c then m else m').LinesHave P := by
  split <;> assumption

theorem MemSys.setLines_linesHave (k : Nat) (ls : List L1Line) (hl : ∀ l ∈ ls, P k l) (h : m.LinesHave P) :
    (m.setLines k ls).LinesHave P := by
  intro j l hj
  rw [MemSys.lines_setLines] at hj
  split at hj
  · subst_vars; exact hl l hj
  · exact h j l hj

theorem MemSys.setLines_filter_linesHave (k : Nat) (p : L1Line → Bool) (h : m.LinesHave P) :
    (m.setLines k ((m.lines k).filter p)).LinesHave P :=
  MemSys.setLines_linesHave k _ (fun l hl => h k l (List.mem_filter.1 hl).1) h

theorem MemSys.put_linesHave (a n v mask : Nat) (packed bad : Bool) (h : m.LinesHave P) : (m.put a n v mask packed bad).LinesHave P :=
  h.congr (MemSys.put_lines ..)

theorem MemSys.putLine_linesHave (l : L1Line) (h : m.LinesHave P) : (m.putLine l).LinesHave P := by
  unfold MemSys.putLine MemSys.merge
  split
  · exact MemSys.put_linesHave _ _ _ _ _ _ h
  · exact MemSys.put_linesHave _ _ _ _ _ _ h
  · exact h

theorem MemSys.expelWith_linesHave {f : Nat → MemSys → L1Line → MemSys} (hf : ∀ c m l, m.LinesHave P → (f c m l).LinesHave P)
    (line : Nat) (own : Option Nat) (h : m.LinesHave P) : (m.expelWith f line own).LinesHave P := by
  refine foldl_keeps (fun m c hm => ?_) h
  exact ite_linesHave hm (foldl_keeps (fun m l hm => MemSys.setLines_filter_linesHave _ _ (hf _ _ _ hm)) hm)

theorem MemSys.packWrite_linesHave (p : Nat) (h : m.LinesHave P) : (m.packWrite p).LinesHave P := by
  unfold MemSys.packWrite
  split
  · exact h
  · exact h.congr rfl

theorem MemSys.setSlice_linesHave (sl : Nat) (ls : List L2Line) (h : m.LinesHave P) : (m.setSlice sl ls).LinesHave P := h.congr rfl

theorem MemSys.evict_linesHave (sl line : Nat) (h : m.LinesHave P) : (m.evict sl line).LinesHave P :=
  MemSys.packWrite_linesHave _ (MemSys.setSlice_linesHave _ _
    (MemSys.expelWith_linesHave (fun _ _ l hm => MemSys.putLine_linesHave l hm) _ _ h))

theorem MemSys.makeWay_linesHave (sl line : Nat) (cls : Option Nat) (h : m.LinesHave P) : (m.makeWay sl line cls).1.LinesHave P := by
  unfold MemSys.makeWay
  dsimp only
  split
  · exact h
  · split
    · exact h
    · split
      · exact MemSys.evict_linesHave _ _ h
      · exact h

theorem MemSys.occupy_linesHave (sl : Nat) (cls : Option Nat) (line : Nat) (h : m.LinesHave P) :
    (MemSys.occupy sl cls m line).LinesHave P := by
  have place : ∀ m : MemSys, m.LinesHave P → ∀ ls, ((m.makeWay sl line cls).1.setSlice sl ls).LinesHave P := fun m hm ls =>
    MemSys.setSlice_linesHave _ _ (MemSys.makeWay_linesHave _ _ _ hm)
  unfold MemSys.occupy
  dsimp only
  split
  · split
    · exact place _ (MemSys.setSlice_linesHave _ _ h) _
    · exact MemSys.setSlice_linesHave _ _ h
  · exact place _ h _

theorem MemSys.classOf_linesHave (count : Bool) (sl pa : Nat) (ns : List Nat) (h : m.LinesHave P) :
    (m.classOf count sl pa ns).1.LinesHave P := by
  induction ns with
  | nil => exact h
  | cons n ns ih =>
    unfold MemSys.classOf
    dsimp only
    split
    · exact h.congr rfl
    · exact ih

theorem MemSys.leavePartitions_linesHave (die line : Nat) (h : m.LinesHave P) : (m.leavePartitions die line).LinesHave P :=
  ite_linesHave ((MemSys.packWrite_linesHave (line / 4) h).congr rfl) h

theorem MemSys.freshPack_linesHave (sl p : Nat) (h : m.LinesHave P) : (m.freshPack sl p).LinesHave P :=
  ite_linesHave h (h.congr rfl)

theorem MemSys.visit_linesHave (die pa : Nat) (th write : Bool) (h : m.LinesHave P) : (m.visit die pa th write).LinesHave P := by
  unfold MemSys.visit MemSys.reach
  refine ite_linesHave h ?_
  have h1 := MemSys.classOf_linesHave true (homeSlice m die pa th) pa (if m.rr = [] then [] else upto 0 8) h
  have h2 := fun c [Decidable c] => ite_linesHave (c := c) (MemSys.leavePartitions_linesHave die (pa / 64) h1) h1
  exact ite_linesHave (MemSys.occupy_linesHave _ _ _ (h2 _))
    (foldl_keeps (fun _ _ hm => MemSys.occupy_linesHave _ _ _ hm) (MemSys.freshPack_linesHave _ _ (h2 _)))

theorem MemSys.fillPack_linesHave (p : Nat) (h : m.LinesHave P) : (m.fillPack p).LinesHave P :=
  foldl_keeps (fun _ _ hm => foldl_keeps (fun _ _ hm => MemSys.occupy_linesHave _ _ _ hm) hm) h

theorem MemSys.sendLine_linesHave (core : Nat) (l : L1Line) (h : m.LinesHave P) : (MemSys.sendLine core m l).LinesHave P := by
  have hv := MemSys.visit_linesHave (core / 64) (64 * l.line) l.th true h
  have hp := MemSys.putLine_linesHave l hv
  exact ite_linesHave (ite_linesHave hp (MemSys.fillPack_linesHave _ hp)) hv

theorem MemSys.expel_linesHave (line : Nat) (own : Option Nat) (h : m.LinesHave P) : (m.expel line own).LinesHave P :=
  MemSys.expelWith_linesHave (fun c _ l hm => MemSys.sendLine_linesHave c l hm) _ _ h

theorem MemSys.openHome_linesHave (die pa : Nat) (th : Bool) (own : Option Nat) (h : m.LinesHave P) :
    (m.openHome die pa th own).LinesHave P := MemSys.visit_linesHave _ _ _ _ (MemSys.expel_linesHave _ _ h)

theorem MemSys.targets_linesHave (t : SMap Target) (h : m.LinesHave P) : { m with targets := t }.LinesHave P := h.congr rfl

theorem MemSys.deny_linesHave (tn mid pa : Nat) (k : AccessKind) (unpop : Bool) (h : m.LinesHave P) :
    (m.deny tn mid pa k unpop).LinesHave P := h.congr rfl

theorem MemSys.flushLine_linesHave (hP : SettleClosed P) (core : Nat) (drop : Bool) (l : L1Line) (hl : P core l) (h : m.LinesHave P) :
    (MemSys.flushLine core drop m l).LinesHave P := by
  have hsent : (if l.pending = true then MemSys.sendLine core (if l.coh = true then m.expel l.line (some core) else m) l
      else m).LinesHave P :=
    ite_linesHave (MemSys.sendLine_linesHave _ _ (ite_linesHave (MemSys.expel_linesHave _ _ h) h)) h
  refine MemSys.setLines_linesHave _ _ (fun l' hl' => ?_) hsent
  obtain ⟨j, hj, hjl⟩ := List.mem_filterMap.1 hl'
  split at hjl
  · exact hP _ _ _ _ hjl hl
  · cases hjl; exact hsent _ _ hj

theorem MemSys.flushWhere_linesHave (hP : SettleClosed P) (core : Nat) (p : L1Line → Bool) (drop : Bool) (h : m.LinesHave P) :
    (m.flushWhere core p drop).LinesHave P :=
  foldl_keeps_mem (fun _ l hl hm => MemSys.flushLine_linesHave hP _ _ _ (h _ l (List.mem_filter.1 hl).1) hm) h

theorem MemSys.recall_linesHave (hP : SettleClosed P) (line : Nat) (h : m.LinesHave P) : (m.recall line).LinesHave P :=
  foldl_keeps (fun _ _ hm => MemSys.flushWhere_linesHave hP _ _ _ hm) h

theorem MemSys.cacheWindows_linesHave (hP : SettleClosed P) (tn mid : Nat) (h : m.LinesHave P) : (m.cacheWindows tn mid).LinesHave P := by
  unfold MemSys.cacheWindows
  extract_lets t
  split
  · exact MemSys.targets_linesHave _ (foldl_keeps (fun _ _ hm => MemSys.visit_linesHave _ _ _ _ (MemSys.recall_linesHave hP _ hm)) h)
  · exact h

theorem MemSys.check_linesHave (hP : SettleClosed P) (die mid pa : Nat) (k : AccessKind) (th : Bool) (h : m.LinesHave P) :
    (m.check die mid pa k th).1.LinesHave P := by
  have hw := MemSys.cacheWindows_linesHave hP (targetOf m die pa th) mid h
  unfold MemSys.check
  dsimp only
  split
  · exact MemSys.deny_linesHave _ _ _ _ _ h
  · exact MemSys.deny_linesHave _ _ _ _ _ h
  · split
    · exact hw
    · exact MemSys.deny_linesHave _ _ _ _ _ hw

end

/-! ### Tracked copies of a line that is expelled (04 R106) -/

/-- Core `k` holds no copy of line `line` on a coherent page. -/
def Untracked (k line : Nat) : Nat → L1Line → Prop := fun j l => j = k → l.line = line → l.coh = false

theorem MemSys.setLines_drop_untracked (m : MemSys) (k line : Nat) :
    (m.setLines k ((m.lines k).filter fun l => l.line != line)).LinesHave (Untracked k line) := by
  rintro _ l hl rfl hline
  rw [MemSys.lines_setLines, if_pos rfl] at hl
  exact absurd hline (by simpa using (List.mem_filter.1 hl).2)

/-- A core holds no tracked copy of a line after each one that it held has left, whatever became of what was pending. -/
theorem MemSys.dropLines_untracked (m : MemSys) (f : MemSys → L1Line → MemSys) (k line : Nat) :
    (((m.lines k).filter fun l => l.line == line && l.coh).foldl (fun m l =>
      let m := f m l
      m.setLines k ((m.lines k).filter fun l => l.line != line)) m).LinesHave (Untracked k line) := by
  generalize hgone : (m.lines k).filter (fun l => l.line == line && l.coh) = gone
  cases gone with
  | nil =>
    rintro _ l hl rfl hline
    simpa [hline] using List.filter_eq_nil_iff.1 hgone l hl
  | cons l ls =>
    exact foldl_brings (fun m l _ => MemSys.setLines_drop_untracked (f m l) k line) List.mem_cons_self
      fun m => MemSys.setLines_drop_untracked (f m l) k line

/-- Once a line is expelled, a tracked copy of it stands in the cache of `own` alone. -/
theorem MemSys.expel_untracked (m : MemSys) (line : Nat) {own : Option Nat} {k : Nat} (hk : own ≠ some k) :
    (m.expel line own).LinesHave (Untracked k line) := by
  by_cases hmem : k ∈ m.l1Cores
  · refine foldl_brings (fun m c hm => ?_) hmem (fun m => ?_)
    · exact ite_linesHave hm
        (foldl_keeps (fun m l hm => MemSys.setLines_filter_linesHave _ _ (MemSys.sendLine_linesHave _ _ hm)) hm)
    · rw [if_neg hk]
      exact MemSys.dropLines_untracked m (MemSys.sendLine k) k line
  · refine MemSys.expel_linesHave _ _ fun j l hl hj => ?_
    subst hj
    have hnone : m.lines j = [] := SMap.get_of_not_mem hmem
    simp [hnone] at hl

end Sys2Proof.Machine
end

section
/-!
PROOFS. Room in level 2 after a raw write (03 R84, R85): a pack that a raw write has reached keeps every block when it leaves
level 2, so a line of it keeps its bytes through the evictions that the frames of the rest of the pack bring about.
-/

namespace Sys2Proof.Machine

/-- No core has anything to write back to line `line` from a copy on a coherent page. -/
def Calm (line : Nat) : Nat → L1Line → Prop := fun _ l => l.line = line → l.coh = true → l.pending = false

/-- Line `line` reads in `m` as it did in `m0`, its pack is in raw mode, and no tracked copy of it has anything to write back. -/
structure MemSys.RawLine (m0 : MemSys) (line : Nat) (m : MemSys) : Prop where
  raw : m.rawPacks.contains (line / 4) = true
  mode : (SMap.get none m.dirtyPacks (line / 4) : Option Bool) ≠ some false
  calm : m.LinesHave (Calm line)
  byte : ∀ b, b / 64 = line → m.byte b = m0.byte b

/-- A write leaves its pack in packed mode only if it is itself in packed mode and no raw write has reached the pack (03 R84). -/
theorem MemSys.put_dirtyPacks (m : MemSys) (a n v mask : Nat) (packed bad : Bool) :
    (m.put a n v mask packed bad).dirtyPacks = SMap.insert m.dirtyPacks (a / 256)
      (some (!packed || (SMap.get none m.dirtyPacks (a / 256)).getD false || m.rawPacks.contains (a / 256))) := by
  unfold MemSys.put MemSys.setPoison
  dsimp only
  split
  · rfl
  · split <;> rfl

theorem MemSys.put_rawPacks (m : MemSys) (a n v mask : Nat) (packed bad : Bool) :
    (m.put a n v mask packed bad).rawPacks = if packed then m.rawPacks else setInsert m.rawPacks (a / 256) := by
  unfold MemSys.put MemSys.setPoison
  dsimp only
  split
  · rfl
  · split <;> rfl

theorem MemSys.readN_congr {m m' : MemSys} (h : ∀ b, m'.byte b = m.byte b) (a n : Nat) : m'.readN a n = m.readN a n := by
  induction n generalizing a with
  | zero => rfl
  | succ n ih => rw [MemSys.readN, MemSys.readN, h, ih]

/-- Which blocks a pack keeps does not depend on the level-1 caches. -/
theorem MemSys.kept_withoutLines (m : MemSys) : ({ m with l1 := [] } : MemSys).kept = m.kept := by
  funext raw k
  unfold MemSys.kept MemSys.block
  rw [MemSys.readN_congr (m := m) (m' := { m with l1 := [] }) fun _ => rfl]

/-- A pack that is not in packed mode keeps its bytes when any pack is written back (03 R84). -/
theorem MemSys.packWrite_keeps (m : MemSys) (p q : Nat) (h : (SMap.get none m.dirtyPacks q : Option Bool) ≠ some false) :
    (SMap.get none (m.packWrite p).dirtyPacks q : Option Bool) ≠ some false ∧
      ∀ b, b / 256 = q → (m.packWrite p).byte b = m.byte b := by
  have hset : ({ m with l1 := [] } : MemSys).Settled q := ⟨h, fun k l hl => by cases hl⟩
  have hsame : ({ m with l1 := [] } : MemSys).packWrite p = { m.packWrite p with l1 := [] } := by
    unfold MemSys.packWrite
    simp only [MemSys.kept_withoutLines]
    split <;> rfl
  obtain ⟨⟨hmode, -⟩, hbyte⟩ := MemSys.packWrite_still p (MemSys.Still.refl hset)
  rw [hsame] at hmode hbyte
  exact ⟨hmode, fun b hb => (hbyte b hb).1⟩

theorem MemSys.packWrite_rawPacks (m : MemSys) (p : Nat) : (m.packWrite p).rawPacks = m.rawPacks := by
  unfold MemSys.packWrite
  split <;> rfl

section
variable {m0 m : MemSys} {line : Nat}

theorem MemSys.setSlice_rawLine (sl : Nat) (ls : List L2Line) (h : MemSys.RawLine m0 line m) : MemSys.RawLine m0 line (m.setSlice sl ls) :=
  ⟨h.raw, h.mode, h.calm, h.byte⟩

theorem MemSys.setLines_filter_rawLine (k : Nat) (p : L1Line → Bool) (h : MemSys.RawLine m0 line m) :
    MemSys.RawLine m0 line (m.setLines k ((m.lines k).filter p)) :=
  ⟨h.raw, h.mode, MemSys.setLines_filter_linesHave k p h.calm, h.byte⟩

/-- A write of another line, of the same pack or of another. -/
theorem MemSys.put_rawLine (other v mask : Nat) (packed bad : Bool) (ho : other ≠ line) (h : MemSys.RawLine m0 line m) :
    MemSys.RawLine m0 line (m.put (64 * other) 64 v mask packed bad) where
  raw := by
    rw [MemSys.put_rawPacks]
    split
    · exact h.raw
    · rw [setInsert_contains, h.raw, Bool.or_true]
  mode := by
    rw [MemSys.put_dirtyPacks, SMap.get_insert]
    split
    · rename_i hp
      rw [← hp, h.raw, Bool.or_true]
      simp
    · exact h.mode
  calm := MemSys.put_linesHave _ _ _ _ _ _ h.calm
  byte b hb := by rw [MemSys.put_byte _ _ _ _ _ _ _ _ (by omega), if_neg (by omega), h.byte b hb]

/-- A tracked copy reaches its home: of the line itself, it has nothing to write back. -/
theorem MemSys.putLine_rawLine (l : L1Line) (hl : l.line = line → l.pending = false) (h : MemSys.RawLine m0 line m) :
    MemSys.RawLine m0 line (m.putLine l) := by
  have hne : l.pending = true → l.line ≠ line := fun hp he => by simp [hl he] at hp
  unfold L1Line.pending at hne
  unfold MemSys.putLine MemSys.merge
  cases hs : l.st
  case dirty => exact MemSys.put_rawLine _ _ _ _ _ (hne (by rw [hs]; rfl)) h
  case updateOnly => exact MemSys.put_rawLine _ _ _ _ _ (hne (by rw [hs]; rfl)) h
  all_goals exact h

theorem MemSys.packWrite_rawLine (p : Nat) (h : MemSys.RawLine m0 line m) : MemSys.RawLine m0 line (m.packWrite p) := by
  obtain ⟨hmode, hbyte⟩ := MemSys.packWrite_keeps m p _ h.mode
  exact ⟨by rw [MemSys.packWrite_rawPacks]; exact h.raw, hmode, MemSys.packWrite_linesHave _ h.calm,
    fun b hb => (hbyte b (by omega)).trans (h.byte b hb)⟩

theorem MemSys.evict_rawLine (sl out : Nat) (h : MemSys.RawLine m0 line m) : MemSys.RawLine m0 line (m.evict sl out) := by
  refine MemSys.packWrite_rawLine _ (MemSys.setSlice_rawLine _ _ (foldl_keeps (fun m c hm => ?_) h))
  dsimp only
  rw [if_neg (by simp)]
  refine foldl_keeps_mem (fun m' l hl hm' => MemSys.setLines_filter_rawLine _ _ (MemSys.putLine_rawLine l (fun he => ?_) hm')) hm
  obtain ⟨hmem, hgone⟩ := List.mem_filter.1 hl
  exact hm.calm c l hmem he (Bool.and_eq_true_iff.1 hgone).2

theorem MemSys.makeWay_rawLine (sl other : Nat) (cls : Option Nat) (h : MemSys.RawLine m0 line m) :
    MemSys.RawLine m0 line (m.makeWay sl other cls).1 := by
  unfold MemSys.makeWay
  dsimp only
  split
  · exact h
  · split
    · exact h
    · split
      · exact MemSys.evict_rawLine _ _ h
      · exact h

theorem MemSys.occupy_rawLine (sl : Nat) (cls : Option Nat) (other : Nat) (h : MemSys.RawLine m0 line m) :
    MemSys.RawLine m0 line (MemSys.occupy sl cls m other) := by
  have place : ∀ m, MemSys.RawLine m0 line m → ∀ ls, MemSys.RawLine m0 line ((m.makeWay sl other cls).1.setSlice sl ls) :=
    fun m hm ls => MemSys.setSlice_rawLine _ _ (MemSys.makeWay_rawLine _ _ _ hm)
  unfold MemSys.occupy
  dsimp only
  split
  · split
    · exact place _ (MemSys.setSlice_rawLine _ _ h) _
    · exact MemSys.setSlice_rawLine _ _ h
  · exact place _ h _

theorem MemSys.fillPack_rawLine (p : Nat) (h : MemSys.RawLine m0 line m) : MemSys.RawLine m0 line (m.fillPack p) :=
  foldl_keeps (fun _ _ hm => foldl_keeps (fun _ _ hm => MemSys.occupy_rawLine _ _ _ hm) hm) h

end

/-- A write at a home that has its frame stores into its line what the write itself stores, when no tracked copy of the line
has anything to write back. -/
theorem MemSys.putHome_byte_line (m : MemSys) (a n v mask : Nat) (packed bad : Bool) (b : Nat) (hb : b / 64 = a / 64)
    (hcalm : m.LinesHave (Calm (a / 64))) :
    (m.putHome a n v mask packed bad).byte b = (m.put a n v mask packed bad).byte b := by
  cases packed with
  | true => rfl
  | false =>
    have hpack : a / 64 / 4 = a / 256 := by omega
    have hraw : MemSys.RawLine (m.put a n v mask false bad) (a / 64) (m.put a n v mask false bad) :=
      { raw := by rw [MemSys.put_rawPacks, hpack, if_neg (by decide), setInsert_contains, decide_eq_true rfl, Bool.true_or]
        mode := by rw [MemSys.put_dirtyPacks, hpack, SMap.get_insert]; simp
        calm := MemSys.put_linesHave _ _ _ _ _ _ hcalm
        byte := fun _ _ => rfl }
    exact (MemSys.fillPack_rawLine (a / 256) hraw).byte b hb

end Sys2Proof.Machine
end

section
/-!
PROOFS. Writes at the home of a line: what they store, what they leave and when they are denied (00 R4; 01 R37, R38; 04 R106, R440).
-/

namespace Sys2Proof.Machine

/-! ### Numbers of several bytes (00 R4) -/

/-- Bytes that are those of `v`, lowest first, spell `v`. -/
theorem MemSys.readN_of_bytes (m : MemSys) (n : Nat) : ∀ (a v : Nat), (∀ i < n, m.byte (a + i) = BitVec.ofNat 8 (v >>> (8 * i))) →
    m.readN a n = v % 2 ^ (8 * n) := by
  induction n with
  | zero => intro a v _; simp [MemSys.readN, Nat.mod_one]
  | succ n ih =>
    intro a v h
    have hrest : m.readN (a + 1) n = v / 256 % 2 ^ (8 * n) := by
      refine ih _ _ fun i hi => ?_
      rw [show a + 1 + i = a + (i + 1) by omega, h (i + 1) (by omega), show 8 * (i + 1) = 8 + 8 * i by omega, Nat.shiftRight_add,
        Nat.shiftRight_eq_div_pow v 8]
    have hfirst : (m.byte a).toNat = v % 256 := by simpa using congrArg BitVec.toNat (h 0 (by omega))
    have hpow : 2 ^ (8 * (n + 1)) = 256 * 2 ^ (8 * n) := by rw [Nat.mul_succ, Nat.pow_add, Nat.mul_comm]
    rw [MemSys.readN, hrest, hfirst, hpow, Nat.mod_mul]

/-- A write of every byte reads back as its value, where the bytes read as `put` leaves them. -/
theorem MemSys.readN_of_put (ms m : MemSys) (a n v : Nat) (packed bad : Bool) (hn : a % 256 + n ≤ 256)
    (h : ∀ i < n, m.byte (a + i) = (ms.put a n v (2 ^ n - 1) packed bad).byte (a + i)) : m.readN a n = v % 2 ^ (8 * n) := by
  refine MemSys.readN_of_bytes m n a v fun i hi => ?_
  rw [h i hi, MemSys.put_byte _ _ _ _ _ _ _ _ hn, Nat.add_sub_cancel_left, if_pos]
  exact ⟨by omega, by omega, by simp [hi]⟩

/-! ### Poison (04 R440) -/

theorem MemSys.setPoison_poisoned_same (m : MemSys) (a : Nat) (p : Bool) : (m.setPoison a p).poisoned a = p := by
  unfold MemSys.setPoison MemSys.poisoned
  cases p
  · simp
  · exact (setInsert_contains _ _ _).trans (by simp)

/-- A block written whole carries the poison of its data. -/
theorem MemSys.put_poisoned_whole (m : MemSys) (a v : Nat) (packed bad : Bool) (ha : a % 64 = 0) :
    (m.put a 64 v (2 ^ 64 - 1) packed bad).poisoned a = bad := by
  unfold MemSys.put
  dsimp only
  rw [if_pos ⟨ha, rfl, by decide⟩, MemSys.setPoison_poisoned_same]

/-! ### Accesses that their target allows, and those that it denies (01 R37, R38) -/

/-- What a write at a home can do: its target denies it, or it lies outside the HBM apertures, or it is performed where the
home has been opened for it. -/
theorem homeWrite_cases {ms m : MemSys} {w : Who} {x : Xlat} {pa n v mask path : Nat} {bad : Bool} {d : Option Notice}
    (h : homeWrite ms w x pa n v mask path bad = (m, d)) :
    let c := (ms.check w.die w.mid pa .write (leafTh x.leaf)).1
    (m = c ∧ d = some (denied pa 1 path)) ∨ (m = c ∧ d = none ∧ inAperture pa = false) ∨
    (d = none ∧ ∀ b,
      m.byte b = ((c.openHome w.die pa (leafTh x.leaf) (writerOf w path)).putHome pa n v mask (leafPk x.leaf) bad).byte b) := by
  unfold homeWrite at h
  dsimp only at h ⊢
  split at h
  · cases h; exact .inl ⟨rfl, rfl⟩
  · split at h
    · rename_i hap
      cases h; exact .inr (.inl ⟨rfl, rfl, by simpa using hap⟩)
    · cases h
      refine .inr (.inr ⟨rfl, fun b => ?_⟩)
      split
      · exact MemSys.refresh_byte _ _ _ _
      · rfl

/-- Where a home has been opened for a write, no tracked copy of the line has anything to write back, when the writer's own
level-1 cache had nothing to write back to the pack. -/
theorem MemSys.openHome_calm (ms : MemSys) (w : Who) (pa path : Nat) (k : AccessKind) (th : Bool)
    (hown : ∀ l ∈ ms.lines w.core, l.line / 4 = pa / 256 → l.pending = false) :
    ((ms.check w.die w.mid pa k th).1.openHome w.die pa th (writerOf w path)).LinesHave
      (Calm (pa / 64)) := by
  intro j l hl hline hcoh
  have hclosed : SettleClosed fun j l => j = w.core → l.line / 4 = pa / 256 → l.pending = false :=
    fun _ _ _ _ hs _ _ _ => (L1Line.settled_some hs).2.2
  have hcalm := MemSys.openHome_linesHave w.die pa th (writerOf w path) (MemSys.check_linesHave hclosed w.die w.mid pa k th
    (fun j l hl hj hp => hown l (hj ▸ hl) hp))
  by_cases hj : writerOf w path = some j
  · have hcore : j = w.core := by
      unfold writerOf at hj
      split at hj
      · exact (Option.some.inj hj).symm
      · cases hj
    exact hcalm j l hl hcore (by omega)
  · have hgone := MemSys.visit_linesHave w.die pa th true (MemSys.expel_untracked _ (pa / 64) hj) j l hl rfl hline
    rw [hcoh] at hgone; cases hgone

/-- A write at a home that its target allows reads back. -/
theorem homeWrite_readN {ms m : MemSys} {w : Who} {x : Xlat} {pa n v path : Nat} {bad : Bool} (hn : pa % 64 + n ≤ 64)
    (hap : inAperture pa = true) (hown : ∀ l ∈ ms.lines w.core, l.line / 4 = pa / 256 → l.pending = false)
    (h : homeWrite ms w x pa n v (2 ^ n - 1) path bad = (m, none)) : m.readN pa n = v % 2 ^ (8 * n) := by
  rcases homeWrite_cases h with ⟨-, hd⟩ | ⟨-, -, hout⟩ | ⟨-, hbyte⟩
  · cases hd
  · rw [hap] at hout; cases hout
  · exact MemSys.readN_of_put _ m pa n v (leafPk x.leaf) bad (by omega) fun i hi =>
      (hbyte (pa + i)).trans (MemSys.putHome_byte_line _ _ _ _ _ _ _ _ (by omega) (MemSys.openHome_calm ms w pa path _ _ hown))

/-- A write at a home that its target denies leaves a pack that stands still as it was. -/
theorem homeWrite_denied {ms m : MemSys} {w : Who} {x : Xlat} {pa n v mask path : Nat} {bad : Bool} {d : Notice}
    (h : homeWrite ms w x pa n v mask path bad = (m, some d)) :
    d = denied pa 1 path ∧ ∀ q, ms.Settled q → MemSys.Still ms q m := by
  rcases homeWrite_cases h with ⟨hm, hd⟩ | ⟨-, hd, -⟩ | ⟨hd, -⟩
  · exact ⟨Option.some.inj hd, fun q hq => hm ▸ MemSys.check_still _ _ _ _ _ (MemSys.Still.refl hq)⟩
  · cases hd
  · cases hd

end Sys2Proof.Machine

/-! ### The obligations -/

namespace Sys2Proof.Proofs.Scope

open Sys2Proof.Machine

/-- Settles O42: a write within one pack by what a byte reads as after it (`put_byte`); an access that its target allows by
what room for its pack leaves of its line (`homeWrite_readN`), and of every other byte of a pack that stands still. -/
theorem homeWrite : Obligations.HomeWrite := by
  unfold Obligations.HomeWrite
  refine ⟨fun ms a n v mask packed bad hms => ?_, fun ms m w x pa n v path bad hms hn hap hown h => ?_,
    fun ms m w x pa n v mask path bad d h => ?_⟩
  · have hbyte := fun b hn => MemSys.put_byte ms a n v mask packed bad b hn
    refine ⟨MemSys.put_ok _ _ _ _ _ _ _ hms, fun hn i hi => ?_, fun hn b hb => ?_, fun hn hmask => ?_, fun ha hn hmask => ?_⟩
    · rw [hbyte _ hn, Nat.add_sub_cancel_left]
      simp [hi]
    · rw [hbyte _ hn, if_neg (by omega)]
    · subst hmask
      exact MemSys.readN_of_put ms _ a n v packed bad hn fun _ _ => rfl
    · subst hn hmask
      exact MemSys.put_poisoned_whole ms a v packed bad ha
  · refine ⟨MemSys.Ok.of_eq h (homeWrite_ok _ _ _ _ _ _ _ _ _ hms), homeWrite_readN hn hap hown h, fun b hb hs => ?_⟩
    exact homeWrite_byte (by omega) h b hb hs
  · obtain ⟨rfl, hstill⟩ := homeWrite_denied h
    exact ⟨fun b hs => (hstill _ hs).2 b rfl, rfl, rfl⟩

/-- Settles O5: reset leaves every register at the default of its field, and the maps of memory, cores and clusters empty. -/
theorem resetValues : Obligations.ResetValues := by
  unfold Obligations.ResetValues
  have hbyte : ∀ a, State.reset.ms.byte a = 0 := fun _ => ite_self 0
  have hcore : ∀ k, State.reset.core k = {} := fun _ => rfl
  exact ⟨rfl, rfl, rfl, rfl, rfl, rfl, hbyte, fun _ => rfl, fun _ => rfl, rfl, rfl, rfl, rfl,
    fun k => by rw [hcore k]; exact ⟨rfl, rfl, rfl, rfl⟩⟩

end Sys2Proof.Proofs.Scope
end

section
/-! PROOFS. Outcomes whose state is in canonical form, and the rules for the shapes that the model's definitions share.

Each operation of the model has below one lemma `f_ok`: it keeps the canonical form. A few proofs first put a variable `g` in the
place of an operation they call, of which they keep only that it keeps the canonical form: the kernel would otherwise unfold that
operation when it compares the two sides of an unfolding. -/

namespace Sys2Proof.Machine

/-- The state of an outcome is in canonical form. -/
def Out.Ok : Out → Prop
  | .next t => t.Ok
  | _ => True

/-- So is the state that an operation answers where it can act. -/
def OptOk : Option State → Prop
  | some t => t.Ok
  | none => True

/-- So is the state that goes with an answer. -/
def OptFstOk {α : Type} : Option (State × α) → Prop
  | some r => r.1.Ok
  | none => True

/-- So is the state of a computation that does not fail. -/
def ExceptOk {ε : Type} : Except ε State → Prop
  | .ok t => t.Ok
  | .error _ => True

/-- So is the state that a nest's copy leaves. -/
def Emit.Ok : Emit → Prop
  | .wait => True
  | .fault t _ => t.Ok
  | .done t => t.Ok

/-- So is the state that a matrix command leaves. -/
def MxTry.Ok : MxTry → Prop
  | .wait => True
  | .fault t _ => t.Ok
  | .keep t _ => t.Ok
  | .done t => t.Ok

theorem OptFstOk.of_eq {α : Type} {o : Option (State × α)} {t : State} {a : α} (h : o = some (t, a)) (ho : OptFstOk o) :
    t.Ok := by
  subst h; exact ho

theorem ExceptOk.of_eq {ε : Type} {o : Except ε State} {t : State} (h : o = .ok t) (ho : ExceptOk o) : t.Ok :=
  by subst h; exact ho

theorem Emit.Ok.of_fault {x : Emit} {t : State} {f : CopyFault} (h : x = .fault t f) (hx : x.Ok) : t.Ok := by subst h; exact hx

theorem Emit.Ok.of_done {x : Emit} {t : State} (h : x = .done t) (hx : x.Ok) : t.Ok := by subst h; exact hx

theorem MxTry.Ok.of_fault {x : MxTry} {t : State} {f : Nat} (h : x = .fault t f) (hx : x.Ok) : t.Ok := by subst h; exact hx

theorem MxTry.Ok.of_keep {x : MxTry} {t : State} {e : MxEntry} (h : x = .keep t e) (hx : x.Ok) : t.Ok := by subst h; exact hx

theorem MxTry.Ok.of_done {x : MxTry} {t : State} (h : x = .done t) (hx : x.Ok) : t.Ok := by subst h; exact hx

theorem State.Ok.of_eq {α : Type} {p : State × α} {t : State} {a : α} (h : p = (t, a)) (hp : p.1.Ok) : t.Ok :=
  by subst h; exact hp

theorem OptOk.of_eq {o : Option State} {t : State} (h : o = some t) (ho : OptOk o) : t.Ok := by subst h; exact ho

theorem Out.Ok.of_eq {o : Out} {t : State} (h : o = .next t) (ho : o.Ok) : t.Ok := by subst h; exact ho

theorem State.Ok.keep {s t : State} (h : s.Ok) (hm : t.ms = s.ms) (hc : t.cores = s.cores) : t.Ok := by
  unfold State.Ok; rw [hm, hc]; exact h

theorem State.withSched_ok {s : State} {x} (h : s.Ok) : State.Ok { s with sched := x } := h

theorem State.withPwr_ok {s : State} {x} (h : s.Ok) : State.Ok { s with pwr := x } := h

theorem State.withTide_ok {s : State} {x} (h : s.Ok) : State.Ok { s with tide := x } := h

theorem State.withFab_ok {s : State} {x} (h : s.Ok) : State.Ok { s with fab := x } := h

theorem State.withSto_ok {s : State} {x} (h : s.Ok) : State.Ok { s with sto := x } := h

theorem State.withPcie_ok {s : State} {x} (h : s.Ok) : State.Ok { s with pcie := x } := h

theorem State.withImage_ok {s : State} {x} (h : s.Ok) : State.Ok { s with image := x } := h

theorem State.updMsSched_ok {s : State} {ms : MemSys} {x : Sched} (hm : s.ms.Ok → ms.Ok) (h : s.Ok) :
    State.Ok { s with ms := ms, sched := x } :=
  ⟨hm h.1, h.2⟩

theorem foldl_ok {α : Type} {f : State → α → State} {s : State} {l : List α} (hf : ∀ s x, s.Ok → (f s x).Ok) (h : s.Ok) :
    (l.foldl f s).Ok :=
  List.foldlRecOn l f h fun s hs x _ => hf s x hs

theorem foldl_fst_ok {α β : Type} {f : State × β → α → State × β} {r : State × β} {l : List α}
    (hf : ∀ r x, r.1.Ok → (f r x).1.Ok) (h : r.1.Ok) : (l.foldl f r).1.Ok :=
  List.foldlRecOn (motive := fun r => r.1.Ok) l f h fun r hr x _ => hf r x hr

theorem ite_ok {c : Prop} [Decidable c] {s t : State} (hs : s.Ok) (ht : t.Ok) : (if c then s else t).Ok := by split <;> assumption

theorem optGetD_ok {o : Option State} {s : State} (ho : OptOk o) (h : s.Ok) : (o.getD s).Ok := by cases o; exacts [h, ho]

theorem State.updMs_ok {s : State} {ms : MemSys} (hm : s.ms.Ok → ms.Ok) (h : s.Ok) : State.Ok { s with ms := ms } := ⟨hm h.1, h.2⟩

theorem optElim_ok {α : Type} {o : Option α} {s : State} {f : α → State} (h : s.Ok) (hf : ∀ x, (f x).Ok) : (o.elim s f).Ok := by
  cases o; exacts [h, hf _]

theorem optElim_fst_ok {α β : Type} {o : Option α} {r : State × β} {f : α → State × β} (h : r.1.Ok) (hf : ∀ x, (f x).1.Ok) :
    (o.elim r f).1.Ok :=
  by cases o; exacts [h, hf _]

theorem triggerOr_ok {s : State} {sl : Slot} {dk : DKind} {g : Guard} {src : Src} {need : Core → Bool}
    {act : State → Nat → Core → Vec → Option State} {reads : Core → List Loc} (ha : ∀ t k c v, t.Ok → OptOk (act t k c v))
    (h : s.Ok) : Out.Ok (triggerOr s sl dk g src need act reads) := by
  unfold triggerOr
  dsimp only
  split
  · exact h
  split
  · exact takeNotice_ok _ _ _ _ h
  split
  · exact State.setCore_ok _ _ h
  split
  · exact h
  split
  · exact takeNotice_ok _ _ _ _ h
  · exact optGetD_ok (ha _ _ _ _ (State.setCore_ok _ _ h)) h

theorem trigger_ok {s : State} {sl : Slot} {dk : DKind} {g : Guard} {src : Src} {need : Core → Bool}
    {act : State → Nat → Core → Vec → State} {reads : Core → List Loc} (ha : ∀ t k c v, t.Ok → (act t k c v).Ok) (h : s.Ok) :
    Out.Ok (trigger s sl dk g src need act reads) :=
  triggerOr_ok (fun t k c v ht => ha t k c v ht) h

theorem accessTrigger_ok {s : State} {sl : Slot} {dk : DKind} {g : Guard} {src : Src} {need : Core → Bool}
    {act : State → Nat → Core → Vec → State} {reads : Core → List Loc} (ha : ∀ t k c v, t.Ok → (act t k c v).Ok) (h : s.Ok) :
    Out.Ok (accessTrigger s sl dk g src need act reads) := by
  refine triggerOr_ok (fun t k c v ht => ?_) h
  split
  · trivial
  · exact ha t k c v ht

theorem storeTrigger_ok {access : Bool} {s : State} {sl : Slot} {dk : DKind} {g : Guard} {src : Src} {need : Core → Bool}
    {act : State → Nat → Core → Vec → State} {reads : Core → List Loc} (ha : ∀ t k c v, t.Ok → (act t k c v).Ok) (h : s.Ok) :
    Out.Ok (storeTrigger access s sl dk g src need act reads) := by
  refine triggerOr_ok (fun t k c v ht => ?_) h
  split
  · trivial
  · exact ha t k c v ht

theorem regTrigger_ok {s : State} {sl : Slot} {dk : DKind} {g : Guard} {src : Src} {need : Core → Bool}
    {act : Core → Vec → Core} {reads : Core → List Loc} (h : s.Ok) : Out.Ok (regTrigger s sl dk g src need act reads) :=
  trigger_ok (fun _ _ _ _ ht => State.setCore_ok _ _ ht) h

end Sys2Proof.Machine
end

section
/-! PROOFS. The instructions of the slots: each family of them keeps memory and the list of cores in canonical form. -/

namespace Sys2Proof.Machine

theorem moveFault_ok {s : State} {k : Nat} {sl : Slot} {code addr : Nat} (hs : s.Ok) : (moveFault s k sl code addr).Ok :=
  takeFault_ok _ _ hs

theorem kindFault_ok {s : State} {k : Nat} {sl : Slot} {code addr kind : Nat} (hs : s.Ok) :
    (kindFault s k sl code addr kind).Ok :=
  takeFault_ok _ _ hs

theorem accessFaultAt_ok {s : State} {k : Nat} {sl : Slot} {f : XFault} {kind : Nat} (hs : s.Ok) :
    (accessFaultAt s k sl f kind).Ok :=
  takeFault_ok _ _ hs

theorem ix1One_ok {s : State} {g : Guard} {src : Src} {cls : Nat} {f : Word → Word → Word → Word} (hs : s.Ok) :
    Out.Ok (ix1One s g src cls f) :=
  regTrigger_ok hs

theorem ix1Two_ok {s : State} {g : Guard} {src : Src} {cls : Nat} {f h : Word → Word → Word} (hs : s.Ok) :
    Out.Ok (ix1Two s g src cls f h) :=
  regTrigger_ok hs

theorem sfx5Alu_ok {s : State} {g : Guard} {src : Src} {f : Word → Word → Word} (hs : s.Ok) : Out.Ok (sfx5Alu s g src f) :=
  regTrigger_ok hs

theorem vexFn_ok {s : State} {u : VexUnit} {w : Width} {g : Guard} {src : Src} {cls : Nat} {acc : Accepts} {bits : Bool}
    {f : LaneIn → Nat → Lane} (hs : s.Ok) : Out.Ok (vexFn s u w g src cls acc bits f) := by
  unfold vexFn
  refine trigger_ok (fun _ _ _ _ ht => ?_) hs
  dsimp only
  split
  · exact moveFault_ok ht
  exact State.setCore_ok _ _ ht

theorem vexSelect_ok {s : State} {u : VexUnit} {w : Width} {g : Guard} {src : Src} (hs : s.Ok) :
    Out.Ok (vexSelect s u w g src) := by
  unfold vexSelect
  refine trigger_ok (fun _ _ _ _ ht => ?_) hs
  dsimp only
  split
  · exact moveFault_ok ht
  exact State.setCore_ok _ _ ht

theorem vexConvert_ok {s : State} {u : VexUnit} {w : Width} {g : Guard} {src : Src} (hs : s.Ok) :
    Out.Ok (vexConvert s u w g src) := by
  unfold vexConvert
  refine trigger_ok (fun _ _ _ _ ht => ?_) hs
  dsimp only
  split
  · exact moveFault_ok ht
  split
  · exact moveFault_ok ht
  exact State.setCore_ok _ _ ht

theorem vexReduce_ok {s : State} {u : VexUnit} {w : Width} {g : Guard} {src : Src} {r : Reduction} (hs : s.Ok) :
    Out.Ok (vexReduce s u w g src r) := by
  unfold vexReduce
  refine trigger_ok (fun _ _ _ _ ht => ?_) hs
  dsimp only
  split
  · exact moveFault_ok ht
  exact State.setCore_ok _ _ ht

theorem sfxFn_ok {s : State} {w : Width} {g : Guard} {src : Src} {f : Bool → Nat → Nat → Nat × Ev} (hs : s.Ok) :
    Out.Ok (sfxFn s w g src f) := by
  unfold sfxFn
  refine trigger_ok (fun _ _ _ _ ht => ?_) hs
  dsimp only
  split
  · exact moveFault_ok ht
  exact State.setCore_ok _ _ ht

theorem vtWrite_ok {s : State} {u : VexUnit} {g : Guard} {src : Src} {op : WriteOp} {ok : Word → Bool} (hs : s.Ok) :
    Out.Ok (vtWrite s u g src op ok) :=
  trigger_ok (fun _ _ _ _ ht => ite_ok (State.setCore_ok _ _ ht) (moveFault_ok ht)) hs

theorem maskFn_ok {s : State} {u : VexUnit} {g : Guard} {src : Src} {f : BitVec 128 → BitVec 128 → BitVec 128} (hs : s.Ok) :
    Out.Ok (maskFn s u g src f) :=
  regTrigger_ok hs

theorem privilegeFault_ok {s : State} {k : Nat} {sl : Slot} (hs : s.Ok) : (privilegeFault s k sl).Ok :=
  moveFault_ok (State.tick_ok hs)

theorem takePadError_ok {s : State} {k : Nat} {sl : Slot} (hs : s.Ok) : (takePadError s k sl).Ok :=
  takeFault_ok _ _ (State.modCore_ok _ _ hs)

theorem holeOr_ok {x : Xlat} {r : MemSys × Got} {ms : MemSys} (hr : r.1.Ok) (hms : ms.Ok) : (holeOr x r ms).1.Ok := by
  unfold holeOr
  split <;> assumption

theorem scalarLoad_ok {s : State} {g : Guard} {src : Src} {n : Nat} {signed : Bool} (hs : s.Ok) :
    Out.Ok (scalarLoad s g src n signed) := by
  unfold scalarLoad
  refine triggerOr_ok (fun _ _ _ _ ht => ?_) hs
  dsimp only
  split
  · trivial
  split
  · exact moveFault_ok ht
  split
  · rename_i he
    replace he := MemSys.Ok.of_eq he (translate_ok _ _ _ _ ht.1)
    exact accessFaultAt_ok (State.withMs_ok ht he)
  rename_i he2
  replace he2 := MemSys.Ok.of_eq he2 (translate_ok _ _ _ _ ht.1)
  split
  · exact moveFault_ok (State.withMs_ok ht he2)
  split
  · trivial
  split
  · exact State.setCore_ok _ _ (State.withMs_ok ht he2)
  exact State.setCore_ok _ _ (State.withMs_ok ht (holeOr_ok (cachedLoad_ok _ _ _ _ _ _ _ he2) he2))

theorem scratchLoad_ok {s : State} {g : Guard} {src : Src} {n : Nat} {signed : Bool} (hs : s.Ok) :
    Out.Ok (scratchLoad s g src n signed) := by
  unfold scratchLoad
  refine triggerOr_ok (fun _ _ _ _ ht => ?_) hs
  dsimp only
  split
  · exact moveFault_ok ht
  split
  · exact moveFault_ok ht
  split
  · trivial
  split
  · exact takePadError_ok ht
  exact State.setCore_ok _ _ ht

theorem heldLoad_ok {s : State} {g : Guard} {src : Src} {n : Nat} (hs : s.Ok) : Out.Ok (heldLoad s g src n) := by
  unfold heldLoad
  refine accessTrigger_ok (fun _ _ _ _ ht => ?_) hs
  dsimp only
  split
  · exact moveFault_ok ht
  split
  · rename_i he
    replace he := MemSys.Ok.of_eq he (translate_ok _ _ _ _ ht.1)
    exact accessFaultAt_ok (State.withMs_ok ht he)
  rename_i he2
  replace he2 := MemSys.Ok.of_eq he2 (translate_ok _ _ _ _ ht.1)
  exact State.setCore_ok _ _ (State.withMs_ok ht he2)

theorem performStores_ok {s : State} {k : Nat} (hs : s.Ok) : (performStores s k).Ok :=
  State.setCore_ok _ _ (State.withMs_ok hs (MemSys.writeBack_ok _ _ _ (MemSys.drainMerge_ok _ _ hs.1)))

theorem makeStoreRoom_ok {s : State} {k : Nat} (hs : s.Ok) : (makeStoreRoom s k).Ok :=
  ite_ok (performStores_ok hs) hs

theorem scalarStore_ok {s : State} {g : Guard} {src : Src} {n : Nat} (hs : s.Ok) : Out.Ok (scalarStore s g src n) := by
  unfold scalarStore
  refine storeTrigger_ok (fun _ _ _ _ ht => ?_) hs
  dsimp only
  split
  · exact kindFault_ok ht
  split
  · rename_i he
    replace he := MemSys.Ok.of_eq he (translate_ok _ _ _ _ ht.1)
    exact accessFaultAt_ok (State.withMs_ok ht he)
  rename_i he2
  replace he2 := MemSys.Ok.of_eq he2 (translate_ok _ _ _ _ ht.1)
  exact State.modCore_ok _ _ (makeStoreRoom_ok (State.withMs_ok ht he2))

theorem scratchStore_ok {s : State} {g : Guard} {src : Src} {n : Nat} (hs : s.Ok) : Out.Ok (scratchStore s g src n) :=
  storeTrigger_ok (fun _ _ _ _ ht => ite_ok (kindFault_ok ht) (ite_ok (kindFault_ok ht) (State.modCore_ok _ _ (makeStoreRoom_ok
    ht)))) hs

theorem atomicOp_ok {s : State} {g : Guard} {src : Src} {op : AtOp} (hs : s.Ok) : Out.Ok (atomicOp s g src op) := by
  unfold atomicOp
  refine triggerOr_ok (fun _ _ _ _ ht => ?_) hs
  dsimp only
  split
  · trivial
  split
  · split
    · exact kindFault_ok ht
    split
    · rename_i he
      replace he := MemSys.Ok.of_eq he (translate_ok _ _ _ _ ht.1)
      exact accessFaultAt_ok (State.withMs_ok ht he)
    rename_i he2
    replace he2 := MemSys.Ok.of_eq he2 (translate_ok _ _ _ _ ht.1)
    split
    · exact kindFault_ok (State.withMs_ok ht he2)
    split
    · exact State.setCore_ok _ _ (State.withMs_ok ht he2)
    exact State.modCore_ok _ _ (makeStoreRoom_ok (State.withMs_ok ht he2))
  split
  · exact kindFault_ok ht
  split
  · rename_i he3
    replace he3 := MemSys.Ok.of_eq he3 (translate_ok _ _ _ _ ht.1)
    exact accessFaultAt_ok (State.withMs_ok ht he3)
  rename_i he4
  replace he4 := MemSys.Ok.of_eq he4 (translate_ok _ _ _ _ ht.1)
  split
  · exact kindFault_ok (State.withMs_ok ht he4)
  split
  · exact State.setCore_ok _ _ (State.withMs_ok ht he4)
  exact State.modCore_ok _ _ (makeStoreRoom_ok (State.withMs_ok ht he4))

theorem flagOp_ok {s : State} {g : Guard} {src : Src} {kind : XKind} {act : Core → Xlat → Nat → Core} (hs : s.Ok) :
    Out.Ok (flagOp s g src kind act) := by
  unfold flagOp
  refine accessTrigger_ok (fun _ _ _ _ ht => ?_) hs
  dsimp only
  split
  · exact kindFault_ok ht
  split
  · rename_i he
    replace he := MemSys.Ok.of_eq he (translate_ok _ _ _ _ ht.1)
    exact accessFaultAt_ok (State.withMs_ok ht he)
  rename_i he2
  replace he2 := MemSys.Ok.of_eq he2 (translate_ok _ _ _ _ ht.1)
  exact ite_ok (kindFault_ok (State.withMs_ok ht he2)) (State.setCore_ok _ _ (State.withMs_ok ht he2))

theorem bollardOp_ok {s : State} {g : Guard} {src : Src} {p : Nat} {kind : XKind} {act : Core → Word → Xlat → Core} (hs : s.Ok) :
    Out.Ok (bollardOp s g src p kind act) := by
  unfold bollardOp
  refine accessTrigger_ok (fun _ _ _ _ ht => ?_) hs
  dsimp only
  split
  · exact kindFault_ok ht
  split
  · rename_i he
    replace he := MemSys.Ok.of_eq he (translate_ok _ _ _ _ ht.1)
    exact accessFaultAt_ok (State.withMs_ok ht he)
  rename_i he2
  replace he2 := MemSys.Ok.of_eq he2 (translate_ok _ _ _ _ ht.1)
  exact ite_ok (kindFault_ok (State.withMs_ok ht he2)) (State.setCore_ok _ _ (State.withMs_ok ht he2))

theorem poolFault_ok {s : State} {k va : Nat} (hs : s.Ok) : (poolFault s k va).Ok := accessFaultAt_ok hs

theorem poolOp1_ok {s : State} {g : Guard} {src : Src} {op : Xlat → Nat → HOp} (hs : s.Ok) : Out.Ok (poolOp1 s g src op) := by
  unfold poolOp1
  refine accessTrigger_ok (fun _ _ _ _ ht => ?_) hs
  dsimp only
  split
  · rename_i he
    replace he := MemSys.Ok.of_eq he (poolEntry_ok _ _ _ ht.1)
    exact accessFaultAt_ok (State.withMs_ok ht he)
  · rename_i he2
    replace he2 := MemSys.Ok.of_eq he2 (poolEntry_ok _ _ _ ht.1)
    exact poolFault_ok (State.withMs_ok ht he2)
  rename_i he3
  replace he3 := MemSys.Ok.of_eq he3 (poolEntry_ok _ _ _ ht.1)
  exact State.setCore_ok _ _ (State.withMs_ok ht he3)

theorem poolOp2_ok {s : State} {g : Guard} {src : Src} (hs : s.Ok) : Out.Ok (poolOp2 s g src) := by
  unfold poolOp2
  refine accessTrigger_ok (fun _ _ _ _ ht => ?_) hs
  dsimp only
  split
  · rename_i he
    replace he := MemSys.Ok.of_eq he (poolEntry_ok _ _ _ ht.1)
    exact accessFaultAt_ok (State.withMs_ok ht he)
  rename_i he2
  replace he2 := MemSys.Ok.of_eq he2 (poolEntry_ok _ _ _ ht.1)
  split
  · rename_i he3
    replace he3 := MemSys.Ok.of_eq he3 (poolEntry_ok _ _ _ he2)
    exact accessFaultAt_ok (State.withMs_ok ht he3)
  rename_i he4
  replace he4 := MemSys.Ok.of_eq he4 (poolEntry_ok _ _ _ he2)
  split
  · exact poolFault_ok (State.withMs_ok ht he4)
  · exact poolFault_ok (State.withMs_ok ht he4)
  exact State.setCore_ok _ _ (State.withMs_ok ht he4)

theorem rangeOp_ok {s : State} {g : Guard} {src : Src} {op : Nat → Nat → HOp} (hs : s.Ok) : Out.Ok (rangeOp s g src op) :=
  trigger_ok (fun _ _ _ _ ht => ite_ok (moveFault_ok ht) (State.setCore_ok _ _ ht)) hs

theorem flushOp_ok {s : State} {g : Guard} {src : Src} {inv : Bool} (hs : s.Ok) : Out.Ok (flushOp s g src inv) :=
  storeTrigger_ok (fun _ _ _ _ ht => ite_ok (moveFault_ok ht) (State.modCore_ok _ _ (makeStoreRoom_ok ht))) hs

theorem addressGen_ok {s : State} {g : Guard} {src : Src} {i : Nat} (hs : s.Ok) : Out.Ok (addressGen s g src i) :=
  regTrigger_ok hs

theorem exOperand_ok {s : State} {k : Nat} {w : Word} (hs : s.Ok) : (exOperand s k w).Ok := moveFault_ok hs

theorem vectorLoad_ok {s : State} {g : Guard} {src : Src} {n : Nat} (hs : s.Ok) : Out.Ok (vectorLoad s g src n) := by
  unfold vectorLoad
  refine accessTrigger_ok (fun _ _ _ _ ht => ?_) hs
  dsimp only
  split
  · exact kindFault_ok ht
  split
  · rename_i he
    replace he := MemSys.Ok.of_eq he (translate_ok _ _ _ _ ht.1)
    exact accessFaultAt_ok (State.withMs_ok ht he)
  rename_i he2
  replace he2 := MemSys.Ok.of_eq he2 (translate_ok _ _ _ _ ht.1)
  exact State.setCore_ok _ _ (State.withMs_ok ht he2)

theorem vectorStore_ok {s : State} {g : Guard} {src : Src} {n : Nat} (hs : s.Ok) : Out.Ok (vectorStore s g src n) := by
  unfold vectorStore
  refine storeTrigger_ok (fun _ _ _ _ ht => ?_) hs
  dsimp only
  split
  · exact kindFault_ok ht
  split
  · rename_i he
    replace he := MemSys.Ok.of_eq he (translate_ok _ _ _ _ ht.1)
    exact accessFaultAt_ok (State.withMs_ok ht he)
  rename_i he2
  replace he2 := MemSys.Ok.of_eq he2 (translate_ok _ _ _ _ ht.1)
  exact State.modCore_ok _ _ (makeStoreRoom_ok (State.withMs_ok ht he2))

theorem scratchVectorLoad_ok {s : State} {g : Guard} {src : Src} {n : Nat} (hs : s.Ok) : Out.Ok (scratchVectorLoad s g src n) :=
  trigger_ok (fun _ _ _ _ ht => ite_ok (kindFault_ok ht) (ite_ok (kindFault_ok ht) (ite_ok (takePadError_ok ht) (State.setCore_ok
    _ _ ht)))) hs

theorem scratchVectorStore_ok {s : State} {g : Guard} {src : Src} {n : Nat} (hs : s.Ok) : Out.Ok (scratchVectorStore s g src n) :=
  storeTrigger_ok (fun _ _ _ _ ht => ite_ok (kindFault_ok ht) (ite_ok (kindFault_ok ht) (State.modCore_ok _ _ (makeStoreRoom_ok
    ht)))) hs

theorem elementOp_ok {s : State} {g : Guard} {src : Src} {store : Bool} {act : State → Core → Nat → List Xlat → State}
    (ha : ∀ t c b xs, t.Ok → (act t c b xs).Ok) (hs : s.Ok) : Out.Ok (elementOp s g src store act) := by
  unfold elementOp
  refine triggerOr_ok (fun _ _ _ _ ht => ?_) hs
  split
  · trivial
  dsimp only
  split
  · exact exOperand_ok ht
  split
  · exact kindFault_ok ht
  split
  · rename_i he
    replace he := MemSys.Ok.of_eq he (translateAll_ok _ _ _ _ ht.1)
    exact accessFaultAt_ok (State.withMs_ok ht he)
  rename_i he2
  replace he2 := MemSys.Ok.of_eq he2 (translateAll_ok _ _ _ _ ht.1)
  exact ha _ _ _ _ (State.withMs_ok ht he2)

theorem treeOp_ok {s : State} {g : Guard} {src : Src} {form : TreeForm} {home : Bool}
    {act : State → Nat → Core → BitVec 256 → Nat → Nat → List Xlat → State}
    (ha : ∀ t k c d sel pos xs, t.Ok → (act t k c d sel pos xs).Ok) (hs : s.Ok) : Out.Ok (treeOp s g src form home act) := by
  unfold treeOp
  dsimp only
  refine triggerOr_ok (fun _ _ _ _ ht => ?_) hs
  split
  · split
    · trivial
    split
    · exact takeNotice_ok _ _ _ _ ht
    split
    · exact kindFault_ok ht
    split
    · exact kindFault_ok ht
    split
    · exact kindFault_ok ht
    split
    · rename_i he
      replace he := MemSys.Ok.of_eq he (translateAll_ok _ _ _ _ ht.1)
      exact accessFaultAt_ok (State.withMs_ok ht he)
    rename_i he2
    replace he2 := MemSys.Ok.of_eq he2 (translateAll_ok _ _ _ _ ht.1)
    exact ite_ok (kindFault_ok (State.withMs_ok ht he2)) (ha _ _ _ _ _ _ _ (State.withMs_ok ht he2))
  split
  · trivial
  split
  · exact takeNotice_ok _ _ _ _ ht
  split
  · exact kindFault_ok ht
  split
  · exact kindFault_ok ht
  split
  · exact kindFault_ok ht
  split
  · rename_i he3
    replace he3 := MemSys.Ok.of_eq he3 (translateAll_ok _ _ _ _ ht.1)
    exact accessFaultAt_ok (State.withMs_ok ht he3)
  rename_i he4
  replace he4 := MemSys.Ok.of_eq he4 (translateAll_ok _ _ _ _ ht.1)
  exact ite_ok (kindFault_ok (State.withMs_ok ht he4)) (ha _ _ _ _ _ _ _ (State.withMs_ok ht he4))

theorem levelLoad_ok {s : State} {g : Guard} {src : Src} {row home : Bool} (hs : s.Ok) : Out.Ok (levelLoad s g src row home) :=
  treeOp_ok (fun _ _ _ _ _ _ _ ht => State.setCore_ok _ _ ht) hs

theorem detailLoad_ok {s : State} {g : Guard} {src : Src} {home : Bool} (hs : s.Ok) : Out.Ok (detailLoad s g src home) :=
  treeOp_ok (fun _ _ _ _ _ _ _ ht => State.setCore_ok _ _ ht) hs

theorem quayOp_ok {s : State} {g : Guard} {src : Src} {dk : DKind} {bad : Core → Vec → Bool} {act : Core → Nat → Vec → Core}
    (hs : s.Ok) : Out.Ok (quayOp s g src dk bad act) :=
  trigger_ok (fun _ _ _ _ ht => ite_ok (exOperand_ok ht) (ite_ok (exOperand_ok ht) (State.setCore_ok _ _ ht))) hs

theorem captureNest_ok {s : State} {k : Nat} {c : Core} {ch : Nat} (hs : s.Ok) : (captureNest s k c ch).Ok := by
  unfold captureNest
  dsimp only
  split
  · exact exOperand_ok hs
  split
  · exact takeNotice_ok _ _ _ _ hs
  exact ite_ok (moveFault_ok hs) (State.setCore_ok _ _ hs)

theorem channelOp_ok {s : State} {g : Guard} {src : Src} {act : Core → Nat → Core} (hs : s.Ok) : Out.Ok (channelOp s g src act) :=
  trigger_ok (fun _ _ _ _ ht => ite_ok (exOperand_ok ht) (State.setCore_ok _ _ ht)) hs

theorem sqPointer_ok {ms : MemSys} {w : Who} {kd : XKind} {lo : Nat} {e : BitVec 512} (hms : ms.Ok) :
    (sqPointer ms w kd lo e).1.Ok := by
  unfold sqPointer
  dsimp only
  split
  · exact hms
  split
  · rename_i he
    replace he := MemSys.Ok.of_eq he (leafFor_ok _ _ _ _ hms)
    exact he
  rename_i he2
  replace he2 := MemSys.Ok.of_eq he2 (leafFor_ok _ _ _ _ hms)
  exact ite_ms_fst_ok he2 he2

theorem sqRewrite_ok {ms : MemSys} {w : Who} {lbas : Nat} {e : BitVec 512} (hms : ms.Ok) : (sqRewrite ms w lbas e).1.Ok := by
  unfold sqRewrite
  split
  · exact hms
  dsimp only
  split
  · rename_i he
    replace he := MemSys.Ok.of_eq he (sqPointer_ok hms)
    exact he
  rename_i he2
  replace he2 := MemSys.Ok.of_eq he2 (sqPointer_ok hms)
  split
  · rename_i he3
    replace he3 := MemSys.Ok.of_eq he3 (sqPointer_ok he2)
    exact he3
  rename_i he4
  replace he4 := MemSys.Ok.of_eq he4 (sqPointer_ok he2)
  exact he4

theorem takeTileError_ok {s : State} {k : Nat} (hs : s.Ok) : (takeTileError s k).Ok :=
  takeFault_ok _ _ (State.modCore_ok _ _ hs)

theorem mxOperand_ok {s : State} {k : Nat} {w : Word} (hs : s.Ok) : (mxOperand s k w).Ok := moveFault_ok hs

theorem enterMx_ok {s : State} {k : Nat} {c : Core} (hs : s.Ok) : (enterMx s k c).Ok :=
  ite_ok (takeTileError_ok hs) (State.setCore_ok _ _ hs)

theorem ctlOperand_ok {s : State} {k : Nat} {w : Word} (hs : s.Ok) : (ctlOperand s k w).Ok := moveFault_ok hs

theorem ctlWrite_ok {s : State} {g : Guard} {src : Src} {bad : Core → Word → Option Word} {act : Core → Word → Core} (hs : s.Ok) :
    Out.Ok (ctlWrite s g src bad act) := by
  unfold ctlWrite
  refine trigger_ok (fun _ _ _ _ ht => ?_) hs
  split
  · exact ctlOperand_ok ht
  exact State.setCore_ok _ _ ht

theorem ctlHeld_ok {s : State} {g : Guard} {src : Src} {bad : Core → Word → Option Word} {act : Core → Word → Core} (hs : s.Ok) :
    Out.Ok (ctlHeld s g src bad act) := by
  unfold ctlHeld
  refine trigger_ok (fun _ _ _ _ ht => ?_) hs
  split
  · exact ctlOperand_ok ht
  exact State.setCore_ok _ _ ht

theorem ctlPrivileged_ok {s : State} {g : Guard} {src : Src} {bad : Core → Word → Option Word} {act : Core → Word → Core}
    (hs : s.Ok) : Out.Ok (ctlPrivileged s g src bad act) := by
  unfold ctlPrivileged
  refine trigger_ok (fun _ _ _ _ ht => ?_) hs
  split
  · exact privilegeFault_ok ht
  split
  · exact ctlOperand_ok ht
  exact State.setCore_ok _ _ ht

theorem recordOp_ok {s : State} {g : Guard} {src : Src} {bad : Core → Option Word} {act : State → Nat → Core → Nat → State}
    (ha : ∀ t k c a, t.Ok → (act t k c a).Ok) (hs : s.Ok) : Out.Ok (recordOp s g src bad act) := by
  unfold recordOp
  refine trigger_ok (fun _ _ _ _ ht => ?_) hs
  dsimp only
  split
  · exact ctlOperand_ok ht
  split
  · exact kindFault_ok ht
  split
  · rename_i he
    replace he := MemSys.Ok.of_eq he (translate_ok _ _ _ _ ht.1)
    exact accessFaultAt_ok (State.withMs_ok ht he)
  rename_i he2
  replace he2 := MemSys.Ok.of_eq he2 (translate_ok _ _ _ _ ht.1)
  exact ha _ _ _ _ (State.withMs_ok ht he2)

theorem sysRead_ok {s : State} {k n : Nat} (hs : s.Ok) : (sysRead s k n).1.Ok := by
  unfold sysRead
  dsimp -iota only
  split
  · dsimp only
    exact hs
  · dsimp only
    exact hs
  · dsimp only
    exact hs
  · dsimp only
    exact hs
  · dsimp only
    exact hs
  · dsimp only
    exact hs
  · dsimp only
    exact hs
  · dsimp only
    exact hs
  · split
    · split
      rename_i he
      replace he := State.Ok.of_eq he (State.readCtx_ok _ hs)
      dsimp only
      exact he
    dsimp only
    exact hs
  dsimp only
  exact hs

theorem exitMove_ok {x : ExitSlot} {g : Guard} {src : Src} {s : State} {relative link : Bool} (hs : s.Ok) :
    Out.Ok (exitMove x g src s relative link) := by
  unfold exitMove
  dsimp only
  split
  · exact State.setCore_ok _ _ hs
  exact regTrigger_ok hs

end Sys2Proof.Machine
end

section
/-! PROOFS. The scheduler's operations (09): streams, launches, crews, deques and lists keep the canonical form. -/

namespace Sys2Proof.Machine

theorem State.ctxWho_ok {s : State} {core ctx : Nat} {sup : Bool} (hs : s.Ok) : (s.ctxWho core ctx sup).1.Ok :=
  State.readCtx_ok _ hs

theorem recordRead_ok {ms : MemSys} {w : Who} {va : Nat} {upd : Bool} (hms : ms.Ok) : (recordRead ms w va upd).1.Ok := by
  unfold recordRead
  split
  · rename_i he
    replace he := MemSys.Ok.of_eq he (translate_ok _ _ _ _ hms)
    exact he
  rename_i he2
  replace he2 := MemSys.Ok.of_eq he2 (translate_ok _ _ _ _ hms)
  split
  · exact he2
  split
  · exact he2
  split
  rename_i he3
  replace he3 := MemSys.Ok.of_eq he3 (homeRead_ok _ _ _ _ _ _ _ he2)
  split
  · exact he3
  exact he3

theorem State.setStatus_ok {s : State} {w : Who} {va v : Nat} (hs : s.Ok) : (s.setStatus w va v).Ok := by
  unfold State.setStatus
  split
  · rename_i he
    replace he := MemSys.Ok.of_eq he (translate_ok _ _ _ _ hs.1)
    exact State.withMs_ok hs he
  rename_i he2
  replace he2 := MemSys.Ok.of_eq he2 (translate_ok _ _ _ _ hs.1)
  exact ite_ok (State.withMs_ok hs he2) (State.withMs_ok hs (homeWrite_ok _ _ _ _ _ _ _ _ _ he2))

theorem State.schedErr_ok {s : State} (hs : s.Ok) : (s.schedErr).Ok := State.withSched_ok hs

theorem State.streamEntry_ok {s : State} {n : Nat} (hs : s.Ok) : (s.streamEntry n).1.Ok :=
  State.withMs_ok hs (MemSys.hwRead_ok _ _ _ hs.1)

theorem State.setStream_ok {s : State} {n : Nat} {x : Stream} (hs : s.Ok) : (s.setStream n x).Ok :=
  State.withSched_ok hs

theorem State.setSlot_ok {s : State} {h : Nat} {x : Option StreamSlot} (hs : s.Ok) : (s.setSlot h x).Ok :=
  State.withSched_ok hs

theorem State.share_ok {s : State} {n cluster : Nat} {f : Nat → Nat} (hs : s.Ok) : (s.share n cluster f).Ok := by
  unfold State.share
  split
  · dsimp only
    exact State.withSched_ok hs
  dsimp -iota only
  split
  rename_i he
  replace he := MemSys.Ok.of_eq he (MemSys.hwRead_ok _ _ _ hs.1)
  exact State.withMs_ok hs (MemSys.hwWrite_ok _ _ _ _ he)

theorem State.shareOwner_ok {s : State} {owner : Option Nat} {cluster : Nat} {f : Nat → Nat} (hs : s.Ok) :
    (s.shareOwner owner cluster f).Ok := by
  unfold State.shareOwner
  split
  · exact State.share_ok hs
  exact hs

theorem saveShares_ok {s : State} {n : Nat} (hs : s.Ok) : (saveShares s n).Ok :=
  foldl_ok (fun _ _ ht => ⟨MemSys.hwWrite_ok _ _ _ _ ht.1, ht.2⟩) hs

theorem loadShares_ok {s : State} {n : Nat} (hs : s.Ok) : (loadShares s n).Ok := by
  unfold loadShares
  refine foldl_ok (fun _ _ ht => ?_) hs
  split
  rename_i he
  replace he := MemSys.Ok.of_eq he (MemSys.hwRead_ok _ _ _ ht.1)
  exact ⟨he, ht.2⟩

theorem State.setReady_ok {s : State} {cluster prio : Nat} {l : List Ready} (hs : s.Ok) : (s.setReady cluster prio l).Ok :=
  State.withSched_ok hs

theorem mendLinks_ok {core : Nat} {old new : List ReadyRec} {s : State} (hs : s.Ok) : (mendLinks core old new s).Ok := by
  unfold mendLinks
  refine foldl_ok (fun _ _ ht => ?_) hs
  split
  · exact ht
  split
  rename_i he
  replace he := State.Ok.of_eq he (State.ctxWho_ok ht)
  exact State.setStatus_ok he

theorem State.relist_ok {s : State} {core cluster prio : Nat} {l : List Ready} (hs : s.Ok) : (s.relist core cluster prio l).Ok :=
  State.setReady_ok (mendLinks_ok hs)

theorem State.pushReady_ok {s : State} {core cluster : Nat} {r : ReadyRec} (hs : s.Ok) : (s.pushReady core cluster r).Ok :=
  State.relist_ok hs

theorem State.setDeque_ok {s : State} {k : Nat} {d : List ReadyRec} (hs : s.Ok) : (s.setDeque k d).Ok :=
  State.withSched_ok hs

theorem State.setSpilled_ok {s : State} {k n : Nat} (hs : s.Ok) : (s.setSpilled k n).Ok :=
  State.withSched_ok hs

theorem State.spillPush_ok {k : Nat} {s : State} {r : ReadyRec} (hs : s.Ok) : (State.spillPush k s r).Ok :=
  State.setSpilled_ok (State.withMs_ok hs (MemSys.hwWrite_ok _ _ _ _ hs.1))

theorem spillPop_ok {k n : Nat} {s : State} (hs : s.Ok) : (spillPop k n s).1.Ok := by
  obtain ⟨g, hg, hgs⟩ : ∃ g, MemSys.hwRead = g ∧ ∀ ms a n, ms.Ok → (g ms a n).1.Ok
    := ⟨_, rfl, fun _ _ _ hm => MemSys.hwRead_ok _ _ _ hm⟩
  delta spillPop spillPop._f
  rw [hg]
  induction n generalizing s with
  | zero => exact hs
  | succ n ih =>
    show (ite _ _ _ : State × List ReadyRec).1.Ok
    split
    · exact hs
    · exact ih (State.setSpilled_ok (State.withMs_ok hs (hgs _ _ _ hs.1)))

theorem State.dequePush_ok {s : State} {k : Nat} {r : ReadyRec} (hs : s.Ok) : (s.dequePush k r).Ok :=
  ite_ok (State.setDeque_ok hs) (State.setDeque_ok (foldl_ok (fun _ _ ht => State.spillPush_ok ht) hs))

theorem State.dequeRefill_ok {s : State} {k : Nat} (hs : s.Ok) : (s.dequeRefill k).Ok := by
  unfold State.dequeRefill
  split
  · split
    rename_i he
    replace he := State.Ok.of_eq he (spillPop_ok hs)
    exact State.setDeque_ok he
  exact hs

theorem State.dequeKeep_ok {p : ReadyRec → Bool} {s : State} {k : Nat} (hs : s.Ok) : (State.dequeKeep p s k).Ok := by
  unfold State.dequeKeep
  split
  rename_i he
  replace he := State.Ok.of_eq he (spillPop_ok hs)
  exact State.setDeque_ok (foldl_ok (fun _ _ ht => State.spillPush_ok ht) he)

theorem succList_ok {w : Who} {base n i : Nat} {s : State} (hs : s.Ok) : (succList w base n i s).1.Ok := by
  induction n generalizing w base i s hs with
  | zero =>
    unfold succList
    exact hs
  | succ n ih =>
    unfold succList
    split
    · rename_i he
      replace he := MemSys.Ok.of_eq he (translate_ok _ _ _ _ hs.1)
      exact ih (State.schedErr_ok (State.withMs_ok hs he))
    rename_i he2
    replace he2 := MemSys.Ok.of_eq he2 (translate_ok _ _ _ _ hs.1)
    split
    rename_i he3
    replace he3 := MemSys.Ok.of_eq he3 (ite_ms_fst_ok he2 (homeRead_ok _ _ _ _ _ _ _ he2))
    dsimp only
    split
    · exact ih (State.schedErr_ok (State.withMs_ok hs he3))
    exact ih (State.withMs_ok hs he3)

theorem successors_ok {s : State} {w : Who} {va r : Nat} (hs : s.Ok) : (successors s w va r).1.Ok := by
  unfold successors
  split
  · split
    rename_i he
    replace he := State.Ok.of_eq he (succList_ok hs)
    exact he
  exact hs

theorem releaseOne_ok {s : State} {r : Rel} (hs : s.Ok) : (releaseOne s r).1.Ok := by
  unfold releaseOne
  split
  · rename_i he
    replace he := MemSys.Ok.of_eq he (recordRead_ok hs.1)
    dsimp only
    exact State.schedErr_ok (State.withMs_ok hs he)
  rename_i he2
  replace he2 := MemSys.Ok.of_eq he2 (recordRead_ok hs.1)
  dsimp -iota only
  split
  · dsimp only
    exact State.schedErr_ok (State.withMs_ok hs he2)
  split
  rename_i he3
  replace he3 := MemSys.Ok.of_eq he3 (homeWrite_ok _ _ _ _ _ _ _ _ _ he2)
  split
  · dsimp only
    exact State.withMs_ok hs he3
  split
  · dsimp only
    exact State.pushReady_ok (State.share_ok (State.setStatus_ok (State.withMs_ok hs he3)))
  split
  · dsimp only
    exact State.pushReady_ok (State.setStatus_ok (State.withMs_ok hs he3))
  split
  rename_i he4
  replace he4 := State.Ok.of_eq he4 (successors_ok (State.setStatus_ok (State.setStatus_ok (State.withMs_ok hs he3))))
  dsimp only
  exact he4

theorem releaseAll_ok {n : Nat} {l : List Rel} {s : State} (hs : s.Ok) : (releaseAll n l s).Ok := by
  induction n generalizing l s with
  | zero => exact hs
  | succ n ih =>
    cases l with
    | nil => exact hs
    | cons r rs => exact ih (releaseOne_ok hs)

theorem State.countEnding_ok {s : State} {owner : Option Nat} {status : Nat} (hs : s.Ok) : (s.countEnding owner status).Ok := by
  unfold State.countEnding
  split
  · dsimp only
    split
    · exact ite_ok hs (State.setStream_ok hs)
    exact hs
  exact hs

theorem completeRecord_ok {s : State} {core : Nat} {q : ReadyRec} {sup : Bool} {status aux : Nat} {cont : Option Nat}
    (hs : s.Ok) : (completeRecord s core q sup status aux cont).Ok := by
  unfold completeRecord
  split
  rename_i he
  replace he := State.Ok.of_eq he (State.ctxWho_ok hs)
  split
  rename_i he2
  dsimp -iota only
  split
  rename_i he3
  refine State.shareOwner_ok ?_
  refine State.countEnding_ok ?_
  refine releaseAll_ok ?_
  refine .of_eq he3 ?_
  split
  · refine successors_ok ?_
    refine State.setStatus_ok ?_
    refine .of_eq he2 ?_
    split
    · rename_i he4
      replace he4 := MemSys.Ok.of_eq he4 (recordRead_ok he.1)
      dsimp only
      exact State.withMs_ok he he4
    rename_i he5
    replace he5 := MemSys.Ok.of_eq he5 (recordRead_ok he.1)
    dsimp only
    exact State.withMs_ok he he5
  dsimp only
  refine State.setStatus_ok ?_
  refine .of_eq he2 ?_
  split
  · rename_i he6
    replace he6 := MemSys.Ok.of_eq he6 (recordRead_ok he.1)
    dsimp only
    exact State.withMs_ok he he6
  rename_i he7
  replace he7 := MemSys.Ok.of_eq he7 (recordRead_ok he.1)
  dsimp only
  exact State.withMs_ok he he7

theorem completeMember_ok {s : State} {core : Nat} {t : Task} {status : Nat} {cont : Option Nat} (hs : s.Ok) :
    (completeMember s core t status cont).Ok := by
  unfold completeMember
  split
  rename_i he
  replace he := State.Ok.of_eq he (State.ctxWho_ok hs)
  dsimp only
  exact State.shareOwner_ok (State.countEnding_ok (releaseAll_ok he))

theorem makeReady_ok {s : State} {k : Nat} {w : Who} {va : Nat} {push : Bool} (hs : s.Ok) : (makeReady s k w va push).1.Ok := by
  unfold makeReady
  split
  · rename_i he
    replace he := MemSys.Ok.of_eq he (recordRead_ok hs.1)
    exact State.withMs_ok hs he
  rename_i he2
  replace he2 := MemSys.Ok.of_eq he2 (recordRead_ok hs.1)
  dsimp only
  split
  · exact State.withMs_ok hs he2
  split
  · exact State.withMs_ok hs he2
  split
  · exact State.withMs_ok hs he2
  split
  · exact State.withMs_ok hs he2
  split
  · exact State.withMs_ok hs (homeWrite_ok _ _ _ _ _ _ _ _ _ he2)
  exact ite_ok (State.dequePush_ok (State.shareOwner_ok (State.setStatus_ok (State.withMs_ok hs (homeWrite_ok _ _ _ _ _ _ _ _ _
    he2))))) (State.pushReady_ok (State.shareOwner_ok (State.setStatus_ok (State.withMs_ok hs (homeWrite_ok _ _ _ _ _ _ _ _ _
    he2)))))

theorem appendLaunch_ok {s : State} {w : Who} {va n mid die : Nat} (hs : s.Ok) : (appendLaunch s w va n mid die).1.Ok := by
  obtain ⟨g, hg, hgs⟩ : ∃ g, State.streamEntry = g ∧ ∀ s n, s.Ok → (g s n).1.Ok := ⟨_, rfl, fun _ _ hs => State.streamEntry_ok hs⟩
  obtain ⟨r, hr, hrs⟩ : ∃ r, recordRead = r ∧ ∀ ms w va u, ms.Ok → (r ms w va u).1.Ok
    := ⟨_, rfl, fun _ _ _ _ hm => recordRead_ok hm⟩
  obtain ⟨c, hc, hcs⟩ : ∃ c, MemSys.check = c ∧ ∀ ms a b d e f, ms.Ok → (c ms a b d e f).1.Ok :=
    ⟨_, rfl, fun _ _ _ _ _ _ hm => MemSys.check_ok _ _ _ _ _ _ hm⟩
  obtain ⟨f, hf⟩ : ∃ f, appendLaunch = f := ⟨_, rfl⟩
  rw [hf]
  delta appendLaunch at hf
  rw [hg, hr, hc] at hf
  subst hf
  dsimp only
  split
  · rename_i he
    exact State.withMs_ok hs (.of_eq he (hrs _ _ _ _ hs.1))
  rename_i he
  have hm := hcs _ die mid (s.streamAddr n) .write false (MemSys.Ok.of_eq he (hrs _ _ _ _ hs.1))
  split
  · exact State.withMs_ok hs hm
  have he2 := hgs _ n (State.withMs_ok hs hm)
  split
  · exact he2
  split
  · exact he2
  split
  · exact he2
  refine State.setStream_ok (State.updMs_ok (fun ht => MemSys.hwWrite_ok _ _ _ _ ht) ?_)
  split
  · exact State.updMs_ok (fun hm => MemSys.hwWrite_ok _ _ _ _ hm) (State.setStatus_ok he2)
  · exact State.setStatus_ok (State.ctxWho_ok (State.setStatus_ok he2))

theorem headReady_ok {s : State} {n : Nat} (hs : s.Ok) : (headReady s n).1.Ok := by
  unfold headReady
  split
  rename_i he
  replace he := State.Ok.of_eq he (State.streamEntry_ok hs)
  split
  · dsimp only
    exact he
  split
  rename_i he2
  replace he2 := State.Ok.of_eq he2 (State.readCtx_ok _ he)
  split
  · dsimp only
    exact he2
  dsimp -iota only
  split
  rename_i he3
  replace he3 := State.Ok.of_eq he3 (State.ctxWho_ok he2)
  split
  · rename_i he4
    replace he4 := MemSys.Ok.of_eq he4 (recordRead_ok he3.1)
    dsimp only
    exact State.withMs_ok he3 he4
  rename_i he5
  replace he5 := MemSys.Ok.of_eq he5 (recordRead_ok he3.1)
  dsimp only
  exact State.withMs_ok he3 he5

theorem hasWork_ok {s : State} {n : Nat} (hs : s.Ok) : (hasWork s n).1.Ok := by
  unfold hasWork
  split
  · exact hs
  exact headReady_ok hs

theorem refreshWait_ok {s : State} {n : Nat} (hs : s.Ok) : (refreshWait s n).Ok := by
  unfold refreshWait
  split
  · exact hs
  split
  rename_i he
  replace he := State.Ok.of_eq he (hasWork_ok hs)
  dsimp only
  exact ite_ok (ite_ok he (State.setStream_ok he)) (State.setStream_ok he)

theorem refreshWaits_ok {s : State} (hs : s.Ok) : (refreshWaits s).Ok :=
  foldl_ok (fun _ _ ht => refreshWait_ok ht) hs

theorem addWaiting_ok {taken : List Nat} {a : State × List Waiting} {n : Nat} (ha : a.1.Ok) : (addWaiting taken a n).1.Ok := by
  unfold addWaiting
  split
  · split
    · exact ha
    split
    rename_i he
    replace he := State.Ok.of_eq he (State.streamEntry_ok ha)
    dsimp only
    exact he
  exact ha

theorem waitingStreams_ok {s : State} (hs : s.Ok) : (waitingStreams s).1.Ok :=
  foldl_fst_ok (fun _ _ ht => addWaiting_ok ht) hs

theorem mapStream_ok {s : State} {h n : Nat} (hs : s.Ok) : (mapStream s h n).Ok :=
  ite_ok (loadShares_ok (State.setStream_ok (State.setSlot_ok hs))) (State.setStream_ok (State.setSlot_ok hs))

theorem unmapSlot_ok {s : State} {h : Nat} (hs : s.Ok) : (unmapSlot s h).Ok := by
  unfold unmapSlot
  split
  · exact hs
  dsimp -iota only
  split
  rename_i he
  replace he := State.Ok.of_eq he (hasWork_ok (State.setSlot_ok (ite_ok (saveShares_ok hs) hs)))
  split
  · exact mapStream_ok (ite_ok (State.setStream_ok he) he)
  exact ite_ok (State.setStream_ok he) he

theorem mapFirst_ok {s : State} {h : Nat} (hs : s.Ok) : (mapFirst s h).Ok := by
  unfold mapFirst
  exact optElim_ok (waitingStreams_ok (refreshWaits_ok hs)) (fun _ => mapStream_ok (waitingStreams_ok (refreshWaits_ok hs)))

theorem execStreamMap_ok {s : State} (hs : s.Ok) : Out.Ok (execStreamMap s) := by
  unfold execStreamMap
  split
  · exact hs
  split
  · exact unmapSlot_ok hs
  exact optElim_ok (refreshWaits_ok hs) (fun _ => mapFirst_ok hs)

theorem preemptStream_ok {s : State} {n : Nat} (hs : s.Ok) : (preemptStream s n).Ok :=
  State.askPreempt_ok _ hs

theorem betterCandidate_ok {a : State × Option (Nat × Nat × Nat)} {h : Nat} (ha : a.1.Ok) : (betterCandidate a h).1.Ok := by
  unfold betterCandidate
  split
  · split
    · split
      rename_i he
      replace he := State.Ok.of_eq he (State.streamEntry_ok ha)
      dsimp only
      split
      · dsimp only
        exact he
      split
      · dsimp only
        exact he
      dsimp only
      exact he
    exact ha
  exact ha

theorem chooseCandidate_ok {s : State} {p : Nat} (hs : s.Ok) : (chooseCandidate s p).1.Ok := by
  unfold chooseCandidate
  dsimp only
  refine foldl_fst_ok (fun _ _ ht => betterCandidate_ok ht) ?_
  dsimp only
  exact hs

theorem replaceIn_ok {s : State} {w : Waiting} {h : Nat} (hs : s.Ok) : (replaceIn s w h).Ok := by
  unfold replaceIn
  split
  · exact preemptStream_ok (State.setSlot_ok hs)
  exact hs

theorem rotateOne_ok {s : State} {w : Waiting} (hs : s.Ok) : (rotateOne s w).Ok := by
  unfold rotateOne
  split
  · exact mapStream_ok hs
  exact optElim_ok (chooseCandidate_ok hs) (fun _ => replaceIn_ok (chooseCandidate_ok hs))

theorem rotate_ok {ws : List Waiting} {s : State} (hs : s.Ok) : (rotate ws s).Ok :=
  foldl_ok (fun _ _ ht => rotateOne_ok ht) hs

theorem countPartitionError_ok {s : State} {n : Nat} (hs : s.Ok) : (countPartitionError s n).Ok := by
  unfold countPartitionError
  split
  rename_i he
  replace he := State.Ok.of_eq he (State.streamEntry_ok hs)
  exact ite_ok (State.schedErr_ok he) he

theorem countPartitionErrors_ok {s : State} (hs : s.Ok) : (countPartitionErrors s).Ok :=
  ite_ok (foldl_ok (fun _ _ ht => countPartitionError_ok ht) hs) hs

theorem State.passBoundary_ok {s : State} {t : Nat} (hs : s.Ok) : (s.passBoundary t).Ok :=
  State.withSched_ok hs

theorem execQuantumBoundary_ok {s : State} (hs : s.Ok) : Out.Ok (execQuantumBoundary s) := by
  unfold execQuantumBoundary
  split
  · exact hs
  dsimp only
  split
  · exact State.passBoundary_ok (State.withSched_ok hs)
  exact State.passBoundary_ok (rotate_ok (waitingStreams_ok (refreshWaits_ok (countPartitionErrors_ok (State.withSched_ok hs)))))

theorem dealCrew_ok {dies : List Nat} {l : Launch} {s : State} {i : Nat} (hs : s.Ok) : (dealCrew dies l s i).Ok :=
  ite_ok (State.share_ok (State.withSched_ok hs)) (State.withSched_ok hs)

theorem dealSingles_ok {dies : List Nat} {l : Launch} {s : State} {c : Nat} (hs : s.Ok) : (dealSingles dies l s c).Ok :=
  ite_ok hs (State.setReady_ok (State.share_ok hs))

theorem dealLaunch_ok {s : State} {l : Launch} {dies : List Nat} (hs : s.Ok) : (dealLaunch s l dies).Ok :=
  State.setStream_ok (ite_ok (foldl_ok (fun _ _ ht => dealSingles_ok ht) hs) (foldl_ok (fun _ _ ht2 => dealCrew_ok ht2) hs))

theorem State.keepOn_ok {s : State} {link : Nat} {u : Unacked} (hs : s.Ok) : (s.keepOn link u).Ok :=
  State.withFab_ok hs

theorem State.send_ok {s : State} {dev : Nat} {m : Msg} (hs : s.Ok) : (s.send dev m).Ok := State.withFab_ok hs

theorem State.flushHeld_ok {s : State} (hs : s.Ok) : (s.flushHeld).Ok := State.withFab_ok hs

theorem completeLaunchRecord_ok {s : State} {n va ctx : Nat} {creatorSup : Bool} {status aux : Nat} (hs : s.Ok) :
    (completeLaunchRecord s n va ctx creatorSup status aux).Ok := by
  unfold completeLaunchRecord
  split
  rename_i he
  replace he := State.Ok.of_eq he (State.ctxWho_ok hs)
  split
  rename_i he2
  dsimp -iota only
  split
  rename_i he3
  refine State.updMs_ok (fun ht => MemSys.hwWrite_ok _ _ _ _ ht) ?_
  refine .of_eq he3 ?_
  refine State.streamEntry_ok ?_
  split
  · split
    rename_i he4
    refine releaseAll_ok ?_
    refine .of_eq he4 ?_
    refine successors_ok ?_
    split
    · refine State.setStatus_ok ?_
      refine .of_eq he2 ?_
      split
      · rename_i he5
        replace he5 := MemSys.Ok.of_eq he5 (recordRead_ok he.1)
        dsimp only
        exact State.withMs_ok he he5
      rename_i he6
      replace he6 := MemSys.Ok.of_eq he6 (recordRead_ok he.1)
      dsimp only
      exact State.withMs_ok he he6
    refine State.send_ok ?_
    refine State.setStatus_ok ?_
    refine .of_eq he2 ?_
    split
    · rename_i he7
      replace he7 := MemSys.Ok.of_eq he7 (recordRead_ok he.1)
      dsimp only
      exact State.withMs_ok he he7
    rename_i he8
    replace he8 := MemSys.Ok.of_eq he8 (recordRead_ok he.1)
    dsimp only
    exact State.withMs_ok he he8
  refine State.setStatus_ok ?_
  refine .of_eq he2 ?_
  split
  · rename_i he9
    replace he9 := MemSys.Ok.of_eq he9 (recordRead_ok he.1)
    dsimp only
    exact State.withMs_ok he he9
  rename_i he10
  replace he10 := MemSys.Ok.of_eq he10 (recordRead_ok he.1)
  dsimp only
  exact State.withMs_ok he he10

theorem finishLaunch_ok {s : State} {l : Launch} {status aux : Nat} (hs : s.Ok) : (finishLaunch s l status aux).Ok := by
  obtain ⟨g, hg, hgs⟩ : ∃ g, hasWork = g ∧ ∀ s n, s.Ok → (g s n).1.Ok := ⟨_, rfl, fun _ _ ht => hasWork_ok ht⟩
  have hc := completeLaunchRecord_ok (s := s) (n := l.stream) (va := l.addr) (ctx := l.ctx) (creatorSup := l.creatorSup)
    (status := status)
    (aux := aux) hs
  unfold finishLaunch
  rw [hg]
  generalize completeLaunchRecord s l.stream l.addr l.ctx l.creatorSup status aux = t at hc
  dsimp only
  split
  · exact State.withSched_ok (State.setStream_ok hc)
  · exact ite_ok (hgs _ _ (State.withSched_ok (State.setStream_ok hc))) (unmapSlot_ok (hgs _ _ (State.withSched_ok
      (State.setStream_ok hc))))

theorem advanceHead_ok {s : State} {n link : Nat} (hs : s.Ok) : (advanceHead s n link).Ok :=
  ite_ok (State.updMs_ok (fun hm => MemSys.hwWrite_ok _ _ _ _ hm) (State.withMs_ok hs (MemSys.hwWrite_ok _ _ _ _ hs.1)))
    (State.withMs_ok hs (MemSys.hwWrite_ok _ _ _ _ hs.1))

theorem unmapIdle_ok {s : State} {n : Nat} (hs : s.Ok) : (unmapIdle s n).Ok :=
  ite_ok hs (optElim_ok hs (fun _ => unmapSlot_ok hs))

theorem execLaunchStart_ok {n : Nat} {s : State} (hs : s.Ok) : Out.Ok (execLaunchStart n s) := by
  unfold execLaunchStart
  split
  · exact hs
  split
  · rename_i he
    replace he := State.Ok.of_eq he (headReady_ok hs)
    exact unmapIdle_ok he
  rename_i he2
  replace he2 := State.Ok.of_eq he2 (headReady_ok hs)
  split
  rename_i he3
  replace he3 := State.Ok.of_eq he3 (State.streamEntry_ok he2)
  dsimp -iota only
  split
  rename_i he4
  replace he4 := State.Ok.of_eq he4 (State.ctxWho_ok he3)
  split
  · rename_i he5
    replace he5 := MemSys.Ok.of_eq he5 (recordRead_ok he4.1)
    exact finishLaunch_ok (State.setStream_ok (State.tick_ok (advanceHead_ok (State.withMs_ok he4 he5))))
  rename_i he6
  replace he6 := MemSys.Ok.of_eq he6 (recordRead_ok he4.1)
  split
  · exact finishLaunch_ok (State.setStream_ok (State.withSched_ok (State.setStatus_ok (advanceHead_ok (State.withMs_ok he4
      he6)))))
  split
  · exact finishLaunch_ok (State.setStream_ok (State.withSched_ok (State.setStatus_ok (advanceHead_ok (State.withMs_ok he4
      he6)))))
  split
  · exact finishLaunch_ok (State.setStream_ok (State.withSched_ok (State.setStatus_ok (advanceHead_ok (State.withMs_ok he4
      he6)))))
  exact dealLaunch_ok (State.setStream_ok (State.withSched_ok (State.setStatus_ok (advanceHead_ok (State.withMs_ok he4 he6)))))

theorem execShareReport_ok {h cluster : Nat} {s : State} (hs : s.Ok) : Out.Ok (execShareReport h cluster s) := by
  unfold execShareReport
  split
  · exact hs
  dsimp -iota only
  split
  · exact hs
  split
  rename_i he
  replace he := State.Ok.of_eq he (State.streamEntry_ok hs)
  split
  · exact State.setStream_ok he
  exact he

theorem execLaunchComplete_ok {n : Nat} {s : State} (hs : s.Ok) : Out.Ok (execLaunchComplete n s) := by
  unfold execLaunchComplete
  split
  · exact hs
  split
  rename_i he
  replace he := State.Ok.of_eq he (State.streamEntry_ok hs)
  split
  · exact he
  exact finishLaunch_ok he

theorem reserveFor_ok {s : State} {c : Crew} (hs : s.Ok) : (reserveFor s c).Ok :=
  ite_ok hs (State.withSched_ok hs)

theorem reserveAll_ok {s : State} (hs : s.Ok) : (reserveAll s).Ok := by
  unfold reserveAll
  refine foldl_ok (fun _ _ ht => ?_) hs
  split
  · exact reserveFor_ok ht
  exact ht

theorem moveWays_ok {s : State} {k n : Nat} (hs : s.Ok) : (moveWays s k n).Ok :=
  ite_ok hs (State.setCore_ok _ _ (State.withMs_ok hs (MemSys.moveBoundary_ok _ _ _ hs.1)))

theorem placeTask_ok {s : State} {k : Nat} {t : Task} {entry : Nat} (hs : s.Ok) : (placeTask s k t entry).Ok :=
  State.modCore_ok _ _ (moveWays_ok hs)

theorem placeMembers_ok {l : Launch} {c : Crew} {l' : List Nat} {n : Nat} {s : State} (hs : s.Ok) :
    (placeMembers l c l' n s).Ok := by
  induction l' generalizing l c n s hs with
  | nil =>
    unfold placeMembers
    exact hs
  | cons x l' ih =>
    unfold placeMembers
    exact ih (placeTask_ok (ite_ok hs (State.share_ok hs)))

theorem execCrewAdmission_ok {s : State} (hs : s.Ok) : Out.Ok (execCrewAdmission s) := by
  unfold execCrewAdmission
  dsimp only
  split
  · exact reserveAll_ok hs
  split
  · exact reserveAll_ok hs
  exact placeMembers_ok (State.withSched_ok (reserveAll_ok hs))

theorem takeRecord_ok {s : State} {k : Nat} {q : ReadyRec} (hs : s.Ok) : (takeRecord s k q).Ok :=
  ite_ok (State.modCore_ok _ _ hs) (placeTask_ok hs)

theorem takeOwn_ok {s : State} {k : Nat} (hs : s.Ok) : OptOk (takeOwn s k) := by
  unfold takeOwn
  split
  · exact takeRecord_ok (State.setDeque_ok hs)
  trivial

theorem takeReady_ok {s : State} {k cluster prio : Nat} (hs : s.Ok) : OptOk (takeReady s k cluster prio) := by
  unfold takeReady
  dsimp only
  split
  · exact takeRecord_ok (State.relist_ok hs)
  · split
    · exact placeTask_ok (State.setReady_ok (State.withSched_ok hs))
    exact State.setReady_ok hs
  · exact State.setReady_ok hs
  trivial

theorem firstOf_ok {α : Type} {f : α → Option State} {l : List α} (hf : ∀ a, OptOk (f a)) : OptOk (firstOf f l) := by
  induction l with
  | nil => trivial
  | cons a l ih =>
    unfold firstOf
    split
    · rename_i he
      exact OptOk.of_eq he (hf a)
    exact ih

theorem stealFrom_ok {s : State} {k v : Nat} (hs : s.Ok) : OptOk (stealFrom s k v) := by
  unfold stealFrom
  split
  · split
    · exact takeRecord_ok (State.setDeque_ok hs)
    trivial
  trivial

theorem execCoreTakeWork_ok {k : Nat} {s : State} (hs : s.Ok) : Out.Ok (execCoreTakeWork k s) := by
  unfold execCoreTakeWork
  dsimp only
  split
  · exact reserveAll_ok hs
  split
  · rename_i he
    replace he := OptOk.of_eq he (takeOwn_ok (State.dequeRefill_ok (reserveAll_ok hs)))
    exact he
  split
  · rename_i he2
    replace he2 := OptOk.of_eq he2 (firstOf_ok (fun _ => takeReady_ok (State.dequeRefill_ok (reserveAll_ok hs))))
    exact he2
  split
  · rename_i he3
    replace he3 := OptOk.of_eq he3 (firstOf_ok (fun _ => stealFrom_ok (State.dequeRefill_ok (reserveAll_ok hs))))
    exact he3
  exact State.dequeRefill_ok (reserveAll_ok hs)

theorem execScratchpadZeroing_ok {k : Nat} {s : State} (hs : s.Ok) : Out.Ok (execScratchpadZeroing k s) := by
  unfold execScratchpadZeroing
  dsimp only
  split
  · exact hs
  split
  · exact hs
  exact State.setCore_ok _ _ hs

end Sys2Proof.Machine
end

section
/-! PROOFS. Tide, power and kills keep the canonical form. -/

namespace Sys2Proof.Machine

theorem State.setClusterPwr_ok {s : State} {cl : Nat} {p : ClusterPwr} (hs : s.Ok) : (s.setClusterPwr cl p).Ok :=
  State.withPwr_ok hs

theorem State.switchCore_ok {s : State} {k : Nat} (hs : s.Ok) : (s.switchCore k).Ok :=
  ite_ok hs (State.modCore_ok _ _ hs)

theorem State.payClocks_ok {s : State} {k : Nat} (hs : s.Ok) : (s.payClocks k).Ok :=
  ite_ok (State.modCore_ok _ _ hs) hs

theorem State.applyCluster_ok {s : State} {cl : Nat} (hs : s.Ok) : (s.applyCluster cl).Ok :=
  foldl_ok (fun _ _ ht => State.payClocks_ok ht) (ite_ok (foldl_ok (fun _ _ ht2 => State.switchCore_ok ht2) hs) (ite_ok
    (State.setClusterPwr_ok (foldl_ok (fun _ _ ht3 => State.switchCore_ok ht3) hs)) (ite_ok (State.setClusterPwr_ok (foldl_ok
    (fun _ _ ht4 => State.switchCore_ok ht4) hs)) (foldl_ok (fun _ _ ht5 => State.switchCore_ok ht5) hs))))

theorem State.applyCore_ok {s : State} {k : Nat} (hs : s.Ok) : (s.applyCore k).Ok := State.applyCluster_ok hs

theorem State.applyAll_ok {s : State} (hs : s.Ok) : (s.applyAll).Ok :=
  foldl_ok (fun _ _ ht => State.applyCluster_ok ht) hs

theorem execVoltageSettled_ok {cl : Nat} {s : State} (hs : s.Ok) : Out.Ok (execVoltageSettled cl s) := by
  unfold execVoltageSettled
  dsimp only
  split
  · exact hs
  exact State.applyCluster_ok (State.setClusterPwr_ok hs)

theorem execVoltageLoweringDone_ok {cl : Nat} {s : State} (hs : s.Ok) : Out.Ok (execVoltageLoweringDone cl s) := by
  unfold execVoltageLoweringDone
  dsimp only
  split
  · exact hs
  exact State.applyCluster_ok (State.setClusterPwr_ok hs)

theorem State.clkset_ok {s : State} {k eng dv : Nat} {rid : Option Nat} (hs : s.Ok) : (s.clkset k eng dv rid).Ok :=
  State.applyCore_ok (State.modCore_ok _ _ hs)

theorem State.vset_ok {s : State} {k code : Nat} {rid : Option Nat} (hs : s.Ok) : (s.vset k code rid).Ok :=
  ite_ok (State.modCore_ok _ _ hs) (ite_ok (State.modCore_ok _ _ (State.modCore_ok _ _ hs)) (State.applyCore_ok (State.modCore_ok
    _ _ (State.modCore_ok _ _ hs))))

theorem State.recomputeCeil_ok {s : State} (hs : s.Ok) : (s.recomputeCeil).Ok :=
  ite_ok hs (State.applyAll_ok (State.withTide_ok hs))

theorem State.nextSeq_ok {s : State} (hs : s.Ok) : (s.nextSeq).Ok := State.withTide_ok hs

theorem State.sendMembers_ok {s : State} {m : Msg} (hs : s.Ok) : (s.sendMembers m).Ok :=
  foldl_ok (fun _ _ ht => ite_ok ht (State.send_ok ht)) hs

theorem State.modMember_ok {s : State} {dev : Nat} {f : TideMember → TideMember} (hs : s.Ok) : (s.modMember dev f).Ok :=
  State.withTide_ok hs

theorem State.sendNotice_ok {s : State} {limit gt : Nat} (hs : s.Ok) : (s.sendNotice limit gt).Ok :=
  State.modMember_ok (State.sendMembers_ok (State.nextSeq_ok hs))

theorem State.sendRelease_ok {s : State} {limit : Nat} (hs : s.Ok) : (s.sendRelease limit).Ok :=
  State.modMember_ok (State.sendMembers_ok (State.nextSeq_ok hs))

theorem State.announce_ok {s : State} (hs : s.Ok) : (s.announce).Ok := by
  unfold State.announce
  dsimp only
  split
  · exact hs
  split
  · exact State.recomputeCeil_ok hs
  refine State.recomputeCeil_ok ?_
  split
  · exact ite_ok (State.sendNotice_ok (State.withTide_ok hs)) (State.sendRelease_ok (State.withTide_ok hs))
  · exact ite_ok (State.sendNotice_ok (State.withTide_ok hs)) (State.sendRelease_ok (State.withTide_ok hs))
  exact State.withTide_ok hs

theorem State.leaveGroup_ok {s : State} {fail : Bool} (hs : s.Ok) : (s.leaveGroup fail).Ok :=
  State.recomputeCeil_ok (hs.keep rfl rfl)

theorem State.heard_ok {s : State} {dev : Nat} (hs : s.Ok) : (s.heard dev).Ok :=
  ite_ok (State.recomputeCeil_ok (State.modMember_ok hs)) hs

theorem State.tideEnable_ok {s : State} {en : Bool} (hs : s.Ok) : (s.tideEnable en).Ok :=
  ite_ok (ite_ok (State.recomputeCeil_ok (State.withTide_ok (State.withTide_ok hs))) (State.send_ok (State.nextSeq_ok
    (State.withTide_ok (State.withTide_ok hs))))) (ite_ok (State.sendMembers_ok (State.nextSeq_ok (State.withTide_ok
    (State.withTide_ok hs)))) (State.withTide_ok hs))

theorem State.writeTidectl_ok {s : State} {v : Nat} (hs : s.Ok) : (s.writeTidectl v).Ok :=
  State.tideEnable_ok (State.announce_ok (State.withTide_ok hs))

theorem execTidectlWrite_ok {v : BitVec 64} {s : State} (hs : s.Ok) : Out.Ok (execTidectlWrite v s) :=
  State.writeTidectl_ok hs

theorem execRoundBoundary_ok {s : State} (hs : s.Ok) : Out.Ok (execRoundBoundary s) := by
  unfold execRoundBoundary
  dsimp only
  split
  · split
    · refine State.leaveGroup_ok ?_
      split
      · exact ite_ok (State.announce_ok (State.withTide_ok hs)) (State.withTide_ok hs)
      exact State.withTide_ok hs
    refine State.recomputeCeil_ok ?_
    split
    · exact ite_ok (State.announce_ok (State.withTide_ok hs)) (State.withTide_ok hs)
    exact State.withTide_ok hs
  refine State.recomputeCeil_ok ?_
  split
  · exact ite_ok (State.announce_ok (State.withTide_ok hs)) (State.withTide_ok hs)
  exact State.withTide_ok hs

theorem execNoticeEffect_ok {s : State} (hs : s.Ok) : Out.Ok (execNoticeEffect s) := State.recomputeCeil_ok hs

theorem execHeartbeatSend_ok {s : State} (hs : s.Ok) : Out.Ok (execHeartbeatSend s) := by
  unfold execHeartbeatSend
  split
  · exact hs
  exact State.sendMembers_ok (State.nextSeq_ok (State.withTide_ok hs))

theorem execSilenceTimeout_ok {dev : Nat} {s : State} (hs : s.Ok) : Out.Ok (execSilenceTimeout dev s) := by
  unfold execSilenceTimeout
  split
  · exact ite_ok (State.recomputeCeil_ok hs) hs
  exact hs

theorem execEvictTimeout_ok {dev : Nat} {s : State} (hs : s.Ok) : Out.Ok (execEvictTimeout dev s) := by
  unfold execEvictTimeout
  split
  · split
    · exact hs
    exact State.modMember_ok (State.sendMembers_ok (State.nextSeq_ok hs))
  exact hs

theorem execJoinTimeout_ok {s : State} (hs : s.Ok) : Out.Ok (execJoinTimeout s) := by
  unfold execJoinTimeout
  split
  · split
    · exact State.leaveGroup_ok hs
    exact hs
  exact hs

theorem State.timeReq_ok {s : State} {dev : Nat} (hs : s.Ok) : (s.timeReq dev).Ok :=
  State.send_ok (State.nextSeq_ok hs)

theorem execTimeSyncSend_ok {s : State} (hs : s.Ok) : Out.Ok (execTimeSyncSend s) := by
  unfold execTimeSyncSend
  split
  · exact hs
  dsimp only
  split
  · exact ite_ok (State.withTide_ok hs) (State.timeReq_ok (State.withTide_ok hs))
  exact State.withTide_ok hs

theorem tideArrival_ok {s : State} {m : Msg} {type : Nat} {act : State → State} (ha : ∀ t, t.Ok → (act t).Ok) (hs : s.Ok) :
    Out.Ok (tideArrival s m type act) := by
  unfold tideArrival
  split
  · exact hs
  split
  · exact State.send_ok hs
  split
  · exact hs
  exact State.recomputeCeil_ok (ha _ (State.heard_ok hs))

theorem execHeartbeat_ok {m : Msg} {s : State} (hs : s.Ok) : Out.Ok (execHeartbeat m s) := tideArrival_ok (fun _ ht => ht) hs

theorem execNotice_ok {m : Msg} {s : State} (hs : s.Ok) : Out.Ok (execNotice m s) :=
  tideArrival_ok (fun _ ht => ite_ok (State.withTide_ok (State.modMember_ok ht)) (State.modMember_ok ht)) hs

theorem execRelease_ok {m : Msg} {s : State} (hs : s.Ok) : Out.Ok (execRelease m s) :=
  tideArrival_ok (fun _ ht => State.modMember_ok ht) hs

theorem execJoinReq_ok {m : Msg} {s : State} (hs : s.Ok) : Out.Ok (execJoinReq m s) := by
  unfold execJoinReq
  split
  · exact hs
  split
  · exact State.send_ok hs
  split
  · exact hs
  exact State.recomputeCeil_ok (State.withTide_ok (State.sendMembers_ok (State.nextSeq_ok
    (foldl_ok (fun _ _ ht => State.send_ok ht) (State.send_ok (State.nextSeq_ok hs))))))

theorem execJoinAck_ok {m : Msg} {rest : List (BitVec 64)} {s : State} (hs : s.Ok) : Out.Ok (execJoinAck m rest s) := by
  unfold execJoinAck
  split
  · exact hs
  split
  · exact State.send_ok hs
  split
  · exact hs
  exact State.recomputeCeil_ok (State.timeReq_ok (State.withTide_ok hs))

theorem execJoin_ok {m : Msg} {s : State} (hs : s.Ok) : Out.Ok (execJoin m s) :=
  tideArrival_ok (fun _ ht => ite_ok ht (State.withTide_ok ht)) hs

theorem execLeave_ok {m : Msg} {s : State} (hs : s.Ok) : Out.Ok (execLeave m s) :=
  tideArrival_ok (fun _ ht => State.modMember_ok ht) hs

theorem execEvict_ok {m : Msg} {s : State} (hs : s.Ok) : Out.Ok (execEvict m s) :=
  tideArrival_ok (fun _ ht => ite_ok (State.leaveGroup_ok ht) (State.modMember_ok ht)) hs

theorem execTimeReq_ok {m : Msg} {s : State} (hs : s.Ok) : Out.Ok (execTimeReq m s) :=
  tideArrival_ok (fun _ ht => State.send_ok (State.nextSeq_ok ht)) hs

theorem execTimeRsp_ok {m : Msg} {s : State} (hs : s.Ok) : Out.Ok (execTimeRsp m s) := by
  unfold execTimeRsp
  refine tideArrival_ok (fun _ ht => ?_) hs
  dsimp only
  split
  · exact ite_ok ht (State.withFab_ok ht)
  · exact ite_ok ht (State.withFab_ok ht)
  · exact ht.keep rfl rfl
  exact ht

theorem State.setZone_ok {s : State} {z : Nat} {x : Zone} (hs : s.Ok) : (s.setZone z x).Ok :=
  State.withPwr_ok hs

theorem execThermalLimitChange_ok {zone celsius : Nat} {s : State} (hs : s.Ok) :
    Out.Ok (execThermalLimitChange zone celsius s) := by
  unfold execThermalLimitChange
  dsimp only
  split
  · exact State.announce_ok (State.withPwr_ok (State.setZone_ok hs))
  exact State.withPwr_ok (State.setZone_ok hs)

theorem State.windowCluster_ok {s : State} {levels : List Nat} {cl : Nat} (hs : s.Ok) : (s.windowCluster levels cl).Ok :=
  State.setClusterPwr_ok hs

theorem execSampleWindowBoundary_ok {levels : List Nat} {s : State} (hs : s.Ok) : Out.Ok (execSampleWindowBoundary levels s) := by
  unfold execSampleWindowBoundary
  split
  · exact hs
  exact State.applyAll_ok (State.announce_ok (State.withPwr_ok
    (foldl_ok (fun _ _ ht => State.windowCluster_ok ht) (State.mapCores_ok _ (State.withPwr_ok hs)))))

theorem State.countCycle_ok {s : State} {k e : Nat} {busy : Bool} (hs : s.Ok) : (s.countCycle k e busy).Ok :=
  State.modCore_ok _ _ hs

theorem State.countBusy_ok {s : State} {k e : Nat} (hs : s.Ok) : (s.countBusy k e).Ok :=
  State.countCycle_ok hs

theorem State.sendFrame_ok {s : State} {type zone value : Nat} (hs : s.Ok) : (s.sendFrame type zone value).Ok :=
  State.withPwr_ok hs

theorem execValveRefresh_ok {zone value : Nat} {s : State} (hs : s.Ok) : Out.Ok (execValveRefresh zone value s) := by
  unfold execValveRefresh
  split
  · exact State.sendFrame_ok (State.withPwr_ok hs)
  exact State.sendFrame_ok (State.setZone_ok hs)

theorem execFlow_ok {zone value : Nat} {s : State} (hs : s.Ok) : Out.Ok (execFlow zone value s) :=
  State.setZone_ok hs

theorem execAck_ok {seq : Nat} {s : State} (hs : s.Ok) : Out.Ok (execAck seq s) := by
  unfold execAck
  split
  · exact State.withPwr_ok hs
  exact hs

theorem execAckTimeout_ok {s : State} (hs : s.Ok) : Out.Ok (execAckTimeout s) := by
  unfold execAckTimeout
  split
  · split
    · exact hs
    exact State.withPwr_ok hs
  exact hs

theorem State.setFrame_ok {s : State} {ctx core f : Nat} {c : Option Core} (hs : s.Ok) : (s.setFrame ctx core f c).Ok :=
  State.withSched_ok hs

theorem State.frameAddr_ok {s : State} {ctx core f : Nat} (hs : s.Ok) : (s.frameAddr ctx core f).1.Ok := by
  unfold State.frameAddr
  split
  rename_i he
  replace he := State.Ok.of_eq he (State.readCtx_ok _ hs)
  dsimp only
  exact he

theorem thenSome_ok {α β : Type} {r : State × Option α} {f : State → α → State × Option β} (hr : r.1.Ok)
    (hf : ∀ s x, s.Ok → (f s x).1.Ok) : (thenSome r f).1.Ok := by
  unfold thenSome
  split
  · exact hr
  · exact hf _ _ hr

theorem thenIf_ok {r : State × Bool} {f : State → State × Bool} (hr : r.1.Ok) (hf : ∀ s, s.Ok → (f s).1.Ok) :
    (thenIf r f).1.Ok := by
  unfold thenIf
  split
  · exact hf _ hr
  exact hr

theorem State.frameXlat_ok {s : State} {ctx core f off : Nat} {kind : XKind} (hs : s.Ok) :
    (s.frameXlat ctx core f off kind).1.Ok :=
  State.updMs_ok (fun hm => translate_ok _ _ _ _ hm) (State.ctxWho_ok (State.frameAddr_ok hs))

theorem State.dropKept_ok {s : State} {ctx core f : Nat} (hs : s.Ok) : (s.dropKept ctx core f).Ok :=
  State.withSched_ok hs

theorem State.frameGet_ok {s : State} {ctx core f off n : Nat} (hs : s.Ok) : (s.frameGet ctx core f off n).1.Ok := by
  unfold State.frameGet
  split
  · exact hs
  exact thenSome_ok (State.frameXlat_ok hs) (fun _ _ ht => State.withMs_ok ht (ite_ms_fst_ok ht.1 (homeRead_ok _ _ _ _ _ _ _
    ht.1)))

theorem State.fst_ok {s : State} {ctx core f : Nat} (hs : s.Ok) : (s.fst ctx core f).1.Ok :=
  thenSome_ok (State.frameGet_ok hs) (fun _ _ ht => ht)

theorem State.placeWrite_ok {s : State} {n v : Nat} {bad : Bool} {p : Who × Xlat} (hs : s.Ok) : (s.placeWrite n v bad p).1.Ok :=
  State.withMs_ok hs (homeWrite_ok _ _ _ _ _ _ _ _ _ hs.1)

theorem State.frameWrite_ok {s : State} {ctx core f off n v : Nat} {bad : Bool} (hs : s.Ok) :
    (s.frameWrite ctx core f off n v bad).1.Ok := by
  unfold State.frameWrite
  split
  · exact State.withSched_ok hs
  exact optElim_fst_ok (State.frameXlat_ok hs) (fun _ => State.placeWrite_ok (State.frameXlat_ok hs))

theorem frameBytes_ok {ctx core f : Nat} {bad : Bool} {n i j m : Nat} {s : State} (hs : s.Ok) :
    (frameBytes ctx core f bad n i j m s).1.Ok := by
  induction n generalizing ctx core f bad i j m s hs with
  | zero =>
    unfold frameBytes
    exact hs
  | succ n ih =>
    unfold frameBytes
    split
    · exact hs
    exact thenIf_ok (State.frameWrite_ok hs) (fun _ ht => ih ht)

theorem State.setFst_ok {s : State} {ctx core f v : Nat} (hs : s.Ok) : (s.setFst ctx core f v).1.Ok := by
  unfold State.setFst
  dsimp only
  split
  · exact State.dropKept_ok (State.frameWrite_ok hs)
  exact State.frameWrite_ok hs

theorem freeFrame_ok {s : State} {ctx core n i : Nat} (hs : s.Ok) : (freeFrame s ctx core n i).1.Ok := by
  induction n generalizing s ctx core i hs with
  | zero =>
    unfold freeFrame
    exact hs
  | succ n ih =>
    unfold freeFrame
    dsimp only
    split
    · exact State.fst_ok hs
    exact ih (State.fst_ok hs)

theorem State.abortCommands_ok {s : State} {p : Command → Bool} (hs : s.Ok) : (s.abortCommands p).Ok :=
  State.withSto_ok hs

theorem State.freeCore_ok {s : State} {k : Nat} (hs : s.Ok) : (s.freeCore k).Ok :=
  State.applyCore_ok (State.modCore_ok _ _ (State.withMs_ok hs (MemSys.completeFlush_ok _ _ hs.1)))

theorem State.modCrew_ok {s : State} {id : Nat} {f : Crew → Crew} (hs : s.Ok) : (s.modCrew id f).Ok :=
  State.withSched_ok hs

theorem dropFrames_ok {s : State} {ctx core : Nat} {p : Task → Bool} (hs : s.Ok) : (dropFrames s ctx core p).Ok := by
  unfold dropFrames
  refine foldl_ok (fun _ _ ht => ?_) hs
  split
  · exact ite_ok (State.setFrame_ok (State.setFst_ok ht)) ht
  exact ht

theorem State.markForced_ok {s : State} {owner : Option Nat} (hs : s.Ok) : (s.markForced owner).Ok := by
  unfold State.markForced
  split
  · exact State.setStream_ok hs
  exact hs

theorem endMember_ok {s : State} {t : Task} {core : Nat} {rst : Bool} (hs : s.Ok) : (endMember s t core rst).Ok :=
  ite_ok (dropFrames_ok (ite_ok (State.freeCore_ok hs) hs)) (completeMember_ok (dropFrames_ok (ite_ok (State.freeCore_ok hs) hs)))

theorem State.unreport_ok {s : State} {n : Nat} {region : List Nat} (hs : s.Ok) : (s.unreport n region).Ok :=
  State.setStream_ok hs

theorem redeal_ok {s : State} {c : Crew} {l : Launch} {ended : Nat} (hs : s.Ok) : (redeal s c l ended).Ok :=
  ite_ok (State.setReady_ok (State.withSched_ok hs)) (ite_ok (State.share_ok (State.unreport_ok (State.withSched_ok
    (State.modCrew_ok hs)))) (foldl_ok (fun _ _ ht => State.share_ok ht) (State.unreport_ok (State.withSched_ok (State.modCrew_ok
    hs)))))

theorem State.stopTask_ok {s : State} {k : Nat} (hs : s.Ok) : (s.stopTask k).Ok := by
  unfold State.stopTask
  dsimp only
  exact State.modCore_ok _ _ (State.freeCore_ok hs)

theorem endForced_ok {s : State} {k : Nat} {t : Task} (hs : s.Ok) : (endForced s k t).Ok := by
  unfold endForced
  split
  · dsimp only
    exact ite_ok (redeal_ok (foldl_ok (fun _ _ ht => endMember_ok ht) hs)) (State.modCrew_ok (foldl_ok (fun _ _ ht2 =>
      endMember_ok ht2) hs))
  dsimp -iota only
  split
  · split
    rename_i he
    replace he := State.Ok.of_eq he (State.ctxWho_ok (dropFrames_ok (State.freeCore_ok hs)))
    split
    · rename_i he2
      replace he2 := MemSys.Ok.of_eq he2 (recordRead_ok he.1)
      exact State.pushReady_ok (State.setStatus_ok (State.withMs_ok he he2))
    rename_i he3
    replace he3 := MemSys.Ok.of_eq he3 (recordRead_ok he.1)
    exact State.pushReady_ok (State.withMs_ok he he3)
  exact completeRecord_ok (dropFrames_ok (State.freeCore_ok hs))

theorem forcedKill_ok {s : State} {k : Nat} (hs : s.Ok) : (forcedKill s k).Ok := by
  unfold forcedKill
  split
  · exact hs
  exact ite_ok (foldl_ok (fun _ _ ht => State.stopTask_ok ht) (State.abortCommands_ok (State.markForced_ok hs))) (endForced_ok
    (State.markForced_ok hs))

theorem completeQueued_ok {n x i j : Nat} {s : State} (hs : s.Ok) : (completeQueued n x i j s).Ok := by
  induction i generalizing n x j s hs with
  | zero =>
    unfold completeQueued
    exact hs
  | succ i ih =>
    unfold completeQueued
    split
    · exact hs
    dsimp -iota only
    split
    rename_i he
    replace he := State.Ok.of_eq he (State.ctxWho_ok hs)
    split
    rename_i he2
    replace he2 := MemSys.Ok.of_eq he2 (recordRead_ok he.1)
    exact ih (completeLaunchRecord_ok (State.withMs_ok he he2))

theorem killStream_ok {x : Nat} {s : State} {n : Nat} (hs : s.Ok) : (killStream x s n).Ok := by
  unfold killStream
  split
  rename_i he
  replace he := State.Ok.of_eq he (State.streamEntry_ok hs)
  split
  · exact he
  dsimp only
  exact unmapIdle_ok (State.setStream_ok (State.updMs_ok (fun hm => MemSys.hwWrite_ok _ _ _ _ (MemSys.hwWrite_ok _ _ _ _ hm))
    (ite_ok he (completeQueued_ok he))))

theorem State.abandon_ok {s : State} {ts : List Task} (hs : s.Ok) : (s.abandon ts).Ok := State.withSched_ok hs

theorem freeIfOf_ok {x : Nat} {s : State} {k : Nat} (hs : s.Ok) : (freeIfOf x s k).Ok := by
  unfold freeIfOf
  split
  · exact ite_ok (State.abandon_ok (State.freeCore_ok hs)) hs
  exact hs

theorem State.forsake_ok {s : State} {ctx core f : Nat} (hs : s.Ok) : (s.forsake ctx core f).Ok := by
  unfold State.forsake
  split
  · exact ite_ok (State.abandon_ok (State.setFrame_ok hs)) (State.setFrame_ok hs)
  exact hs

theorem freeFrameOf_ok {x k : Nat} {s : State} {f : Nat} (hs : s.Ok) : (freeFrameOf x k s f).Ok :=
  ite_ok (State.forsake_ok (State.fst_ok hs)) (State.abandon_ok (State.setFrame_ok (ite_ok (State.setFst_ok (State.fst_ok hs))
    (State.fst_ok hs))))

theorem freeFrames_ok {x : Nat} {s : State} {k : Nat} (hs : s.Ok) : (freeFrames x s k).Ok :=
  foldl_ok (fun _ _ ht => freeFrameOf_ok ht) hs

theorem discardWork_ok {x : Nat} {s : State} (hs : s.Ok) : (discardWork x s).Ok :=
  foldl_ok (fun _ _ ht => State.relist_ok ht) (foldl_ok (fun _ _ ht2 => State.dequeKeep_ok ht2) hs)

theorem dropCopies_ok {x : Nat} {s : State} (hs : s.Ok) : (dropCopies x s).Ok :=
  State.mapCores_ok _ (State.withSched_ok hs)

theorem startKill_ok {s : State} {x : Nat} (hs : s.Ok) : (startKill s x).Ok := by
  obtain ⟨g, hg, hgs⟩ : ∃ g, MemSys.hwRead = g ∧ ∀ ms a n, ms.Ok → (g ms a n).1.Ok
    := ⟨_, rfl, fun _ _ _ hm => MemSys.hwRead_ok _ _ _ hm⟩
  obtain ⟨r, hr, hrs⟩ : ∃ r, State.readCtx = r ∧ ∀ s n, s.Ok → (r s n).1.Ok := ⟨_, rfl, fun _ _ ht => State.readCtx_ok _ ht⟩
  obtain ⟨f, hf⟩ : ∃ f, startKill = f := ⟨_, rfl⟩
  rw [hf]
  delta startKill at hf
  rw [hg, hr] at hf
  subst hf
  dsimp only
  refine State.abortCommands_ok (State.withSched_ok (dropCopies_ok
    (foldl_ok (fun _ _ ht => freeFrames_ok ht) (State.withSched_ok ?_))))
  refine discardWork_ok (foldl_ok (fun _ _ ht => freeIfOf_ok ht) (foldl_ok (fun _ _ ht => killStream_ok ht) ?_))
  exact State.withMs_ok (hrs _ _ hs) (MemSys.hwWrite_ok _ _ _ _ (hgs _ _ _ (hrs _ _ hs).1))

theorem State.writeKillctl_ok {s : State} {v : Nat} (hs : s.Ok) : (s.writeKillctl v).Ok :=
  ite_ok hs (startKill_ok hs)

theorem execKillctlWrite_ok {v : BitVec 64} {s : State} (hs : s.Ok) : Out.Ok (execKillctlWrite v s) :=
  State.writeKillctl_ok hs

theorem execKillAbortTimeout_ok {n : Nat} {s : State} (hs : s.Ok) : Out.Ok (execKillAbortTimeout n s) := by
  unfold execKillAbortTimeout
  split
  · split
    · split
      · exact hs
      exact State.withSto_ok hs
    exact hs
  exact hs

theorem MemSys.invalidateAll_ok {ms : MemSys} {i : Inval} (hms : ms.Ok) : (ms.invalidateAll i).Ok :=
  MemSys.finishInval_ok _ _ (foldl_ms_ok (fun _ _ ht => MemSys.observe_ok _ _ _ ht) hms)

theorem zeroShares_ok {s : State} {n : Nat} (hs : s.Ok) : (zeroShares s n).Ok :=
  foldl_ok (fun _ _ ht => State.share_ok ht) hs

theorem finishKilled_ok {s : State} {n : Nat} (hs : s.Ok) : (finishKilled s n).Ok := by
  unfold finishKilled
  split
  · exact ite_ok (finishLaunch_ok (zeroShares_ok hs)) hs
  exact hs

theorem completeAbandoned_ok {x : Nat} {s : State} {e : ReadyRec × Bool} (hs : s.Ok) : (completeAbandoned x s e).Ok :=
  ite_ok (completeRecord_ok hs) hs

theorem execKillComplete_ok {s : State} (hs : s.Ok) : Out.Ok (execKillComplete s) := by
  unfold execKillComplete
  split
  · exact hs
  split
  · exact State.mapCores_ok _ hs
  split
  rename_i he
  replace he := State.Ok.of_eq he (State.readCtx_ok _ hs)
  dsimp only
  refine State.updMsSched_ok (fun hm => MemSys.hwWrite_ok _ _ _ _ hm) (discardWork_ok ?_)
  refine foldl_ok (fun _ _ ht => finishKilled_ok ht) (State.withSched_ok ?_)
  exact foldl_ok (fun _ _ ht => completeAbandoned_ok ht) (State.withMs_ok he (MemSys.invalidateAll_ok he.1))

end Sys2Proof.Machine
end

section
/-! PROOFS. Registers, remote accesses and held accesses keep the canonical form. -/

namespace Sys2Proof.Machine

theorem State.setChain_ok {s : State} {crew ch : Nat} {x : Option Chain} (hs : s.Ok) : (s.setChain crew ch x).Ok :=
  State.modCrew_ok hs

theorem State.breakChain_ok {s : State} {crew ch : Nat} (hs : s.Ok) : (s.breakChain crew ch).Ok := by
  unfold State.breakChain
  split
  · exact State.setChain_ok hs
  exact hs

theorem State.setRecv_ok {s : State} {k crew : Nat} {l : List (Option RecvSlot)} (hs : s.Ok) : (s.setRecv k crew l).Ok := by
  unfold State.setRecv
  dsimp only
  split
  · exact State.modCore_ok _ _ hs
  split
  · exact State.withSched_ok hs
  exact hs

theorem State.releaseSlot_ok {s : State} {k crew ch : Nat} (hs : s.Ok) : (s.releaseSlot k crew ch).Ok :=
  State.setRecv_ok hs

theorem State.releaseSlots_ok {s : State} {crew ch : Nat} {l : List Nat} (hs : s.Ok) : (s.releaseSlots crew ch l).Ok := by
  induction l generalizing s with
  | nil => exact hs
  | cons r rs ih =>
    unfold State.releaseSlots
    refine ih ?_
    split
    · exact State.releaseSlot_ok hs
    · exact hs

theorem State.dropPass_ok {s : State} {k crew ch n : Nat} (hs : s.Ok) : (s.dropPass k crew ch n).Ok :=
  State.setRecv_ok hs

theorem State.leaveChains_ok {s : State} {t : Task} (hs : s.Ok) : (s.leaveChains t).Ok := by
  unfold State.leaveChains
  split
  · exact State.modCrew_ok hs
  exact hs

theorem State.setTarget_ok {s : State} {n : Nat} {t : Target} (hs : s.Ok) : (s.setTarget n t).Ok :=
  State.withMs_ok hs hs.1

theorem State.writeAtinv_ok {s : State} {n v : Nat} (hs : s.Ok) : (s.writeAtinv n v).Ok :=
  State.setTarget_ok hs

theorem execAtinvWrite_ok {n : Nat} {v : BitVec 64} {s : State} (hs : s.Ok) : Out.Ok (execAtinvWrite n v s) :=
  State.writeAtinv_ok hs

theorem execAtinvComplete_ok {n : Nat} {s : State} (hs : s.Ok) : Out.Ok (execAtinvComplete n s) := by
  unfold execAtinvComplete
  dsimp only
  split
  · exact hs
  exact State.setTarget_ok hs

theorem State.writeL2mode_ok {s : State} {v : Nat} (hs : s.Ok) : (s.writeL2mode v).Ok :=
  State.withMs_ok hs (ite_ms_ok hs.1 (ite_ms_ok hs.1 (ite_ms_ok hs.1 hs.1)))

theorem execL2modeWrite_ok {v : BitVec 64} {s : State} (hs : s.Ok) : Out.Ok (execL2modeWrite v s) :=
  State.writeL2mode_ok hs

theorem execL2modeSwitchEnd_ok {s : State} (hs : s.Ok) : Out.Ok (execL2modeSwitchEnd s) := by
  unfold execL2modeSwitchEnd
  split
  · exact hs
  exact State.withMs_ok hs (foldl_ms_ok (fun _ _ ht => MemSys.packWrite_ok _ _ ht) (foldl_ms_ok (fun _ _ ht2 =>
    MemSys.flushWhere_ok _ _ _ _ ht2) (foldl_ms_ok (fun _ _ ht3 => MemSys.drainWc_ok _ _ ht3) hs.1)))

theorem State.setRange_ok {s : State} {n : Nat} {r : RangeReg} (hs : s.Ok) : (s.setRange n r).Ok :=
  ite_ok (State.withMs_ok hs hs.1) (State.withMs_ok hs hs.1)

theorem State.writeRrctl_ok {s : State} {n v : Nat} (hs : s.Ok) : (s.writeRrctl n v).Ok :=
  ite_ok (State.setRange_ok hs) (ite_ok (State.setRange_ok hs) (State.setRange_ok hs))

theorem execRrctlWrite_ok {n : Nat} {v : BitVec 64} {s : State} (hs : s.Ok) : Out.Ok (execRrctlWrite n v s) :=
  ite_ok (State.writeRrctl_ok hs) hs

theorem State.targetWrite_ok {s : State} {n off v : Nat} (hs : s.Ok) : (s.targetWrite n off v).Ok :=
  ite_ok (State.setTarget_ok hs) (ite_ok (State.writeAtinv_ok hs) (ite_ok (State.withFab_ok hs) hs))

theorem State.rangeWrite_ok {s : State} {n off v : Nat} (hs : s.Ok) : (s.rangeWrite n off v).Ok :=
  ite_ok (ite_ok hs (State.setRange_ok hs)) (ite_ok (ite_ok hs (State.setRange_ok hs)) (ite_ok (State.writeRrctl_ok hs) hs))

theorem State.memoryWrite_ok {s : State} {off v : Nat} (hs : s.Ok) : (s.memoryWrite off v).Ok :=
  ite_ok (State.writeL2mode_ok hs) (ite_ok (State.rangeWrite_ok hs) (ite_ok (State.withMs_ok hs hs.1) hs))

theorem State.schedWrite_ok {s : State} {off v : Nat} (hs : s.Ok) : (s.schedWrite off v).Ok :=
  ite_ok (State.withSched_ok hs) (ite_ok (State.withSched_ok hs) (ite_ok (State.withSched_ok hs) (ite_ok (State.withSched_ok hs)
    (ite_ok (State.withSched_ok hs) (ite_ok (State.writeKillctl_ok hs) (ite_ok (State.withSched_ok hs) hs))))))

theorem State.storageWrite_ok {s : State} {off v : Nat} (hs : s.Ok) : (s.storageWrite off v).Ok :=
  ite_ok (State.withSto_ok hs) hs

theorem State.tideWrite_ok {s : State} {off v : Nat} (hs : s.Ok) : (s.tideWrite off v).Ok :=
  ite_ok (State.writeTidectl_ok hs) (ite_ok (ite_ok (State.withTide_ok hs) hs) (ite_ok (State.withPwr_ok hs)
    (ite_ok (State.withPwr_ok hs) (ite_ok (State.withPwr_ok hs) (ite_ok (State.withPwr_ok hs) hs)))))

theorem State.fabricWrite_ok {s : State} {off v : Nat} (hs : s.Ok) : (s.fabricWrite off v).Ok :=
  ite_ok (State.withFab_ok hs) (ite_ok (State.withFab_ok hs) (ite_ok (State.withFab_ok hs) hs))

theorem State.blockWrite_ok {s : State} {v : Nat} {x : RegBlock} (hs : s.Ok) : (s.blockWrite v x).Ok := by
  unfold State.blockWrite
  split
  · exact State.targetWrite_ok hs
  · exact State.memoryWrite_ok hs
  · exact State.schedWrite_ok hs
  · exact State.storageWrite_ok hs
  · exact State.tideWrite_ok hs
  · exact State.fabricWrite_ok hs
  exact hs

theorem State.regWrite_ok {s : State} {pa v : Nat} (hs : s.Ok) : (s.regWrite pa v).Ok :=
  State.blockWrite_ok hs

theorem execRegisterWrite_ok {pa : Nat} {v : BitVec 64} {s : State} (hs : s.Ok) : Out.Ok (execRegisterWrite pa v s) := by
  unfold execRegisterWrite
  split
  · exact ite_ok (State.regWrite_ok hs) hs
  exact hs

theorem State.regWrites_ok {n : Nat} {s : State} {i j : Nat} (hs : s.Ok) : (State.regWrites n s i j).Ok := by
  induction n generalizing s i j hs with
  | zero =>
    unfold State.regWrites
    exact hs
  | succ n ih =>
    unfold State.regWrites
    exact ih (State.regWrite_ok hs)

theorem MemSys.ownHome_ok {ms : MemSys} {core line : Nat} {need : Block} (hms : ms.Ok) : (ms.ownHome core line need).Ok :=
  MemSys.flushWhere_ok _ _ _ _ (MemSys.drainWhere_ok _ _ _ hms)

theorem State.homeLoad_ok {s : State} {w : Who} {x : Xlat} {pa n path : Nat} {kind : AccessKind} (hs : s.Ok) :
    (s.homeLoad w x pa n path kind).1.Ok := by
  unfold State.homeLoad
  split
  · exact hs
  split
  · split
    rename_i he
    replace he := MemSys.Ok.of_eq he (MemSys.check_ok _ _ _ _ _ _ hs.1)
    dsimp only
    split
    · exact State.tick_ok (State.withMs_ok hs he)
    exact State.withMs_ok hs he
  · split
    rename_i he2
    replace he2 := MemSys.Ok.of_eq he2 (MemSys.check_ok _ _ _ _ _ _ hs.1)
    dsimp only
    split
    · exact State.withMs_ok hs he2
    exact State.withMs_ok hs he2
  split
  rename_i he3
  replace he3 := MemSys.Ok.of_eq he3 (homeRead_ok _ _ _ _ _ _ _ hs.1)
  exact State.withMs_ok hs he3

theorem State.homeStore_ok {s : State} {w : Who} {x : Xlat} {pa n v path : Nat} {bad : Bool} (hs : s.Ok) :
    (s.homeStore w x pa n v path bad).1.Ok := by
  unfold State.homeStore
  split
  · split
    rename_i he
    replace he := MemSys.Ok.of_eq he (MemSys.check_ok _ _ _ _ _ _ hs.1)
    exact State.withMs_ok hs he
  · split
    rename_i he2
    replace he2 := MemSys.Ok.of_eq he2 (MemSys.check_ok _ _ _ _ _ _ hs.1)
    dsimp only
    split
    · exact State.withMs_ok hs he2
    split
    · exact State.withMs_ok hs (MemSys.deny_ok _ _ _ _ _ _ he2)
    exact State.regWrites_ok (State.withMs_ok hs he2)
  dsimp only
  exact State.withMs_ok hs (homeWrite_ok _ _ _ _ _ _ _ _ _ (ite_ms_ok (MemSys.ownHome_ok hs.1) hs.1))

theorem State.linkLost_ok {s : State} {link : Nat} {u : Unacked} (hs : s.Ok) : (s.linkLost link u).Ok :=
  ite_ok (State.withMs_ok hs (MemSys.deny_ok _ _ _ _ _ _ hs.1)) (State.modCore_ok _ _ hs)

theorem State.sendOrdered_ok {s : State} {u : Unacked} {v : Vec} {bad : Option Notice} (hs : s.Ok) :
    (s.sendOrdered u v bad).Ok := by
  unfold State.sendOrdered
  split
  · exact State.keepOn_ok (State.modCore_ok _ _ hs)
  exact State.linkLost_ok hs

theorem State.remoteData_ok {s : State} {x : Xlat} {pa n path : Nat} (hs : s.Ok) : (s.remoteData x pa n path).1.Ok := by
  unfold State.remoteData
  split
  · exact State.tick_ok hs
  split
  · exact State.tick_ok (State.withMs_ok hs (MemSys.substitute_ok _ hs.1))
  exact State.tick_ok hs

theorem State.remoteRead_ok {s : State} {w : Who} {dev : Nat} {x : Xlat} {n path kind : Nat} {rid : Option Nat} {f : Nat → Vec}
    (hs : s.Ok) : (s.remoteRead w dev x n path kind rid f).Ok := by
  unfold State.remoteRead
  split
  rename_i he
  replace he := State.Ok.of_eq he (State.remoteData_ok hs)
  exact State.sendOrdered_ok he

theorem State.remoteWrite_ok {s : State} {w : Who} {dev : Nat} {x : Xlat} {path : Nat} (hs : s.Ok) :
    (s.remoteWrite w dev x path).Ok :=
  State.sendOrdered_ok hs

theorem State.sendUnordered_ok {s : State} {w : Who} {dev pa path : Nat} {bad : Bool} {ch : Option Nat} (hs : s.Ok) :
    (s.sendUnordered w dev pa path bad ch).Ok :=
  State.keepOn_ok hs

theorem State.settleStores_ok {s : State} {k : Nat} (hs : s.Ok) : (s.settleStores k).Ok :=
  State.modCore_ok _ _ hs

theorem cachedStores_ok {w : Who} {ways : Nat} {x : Xlat} {path n i j m : Nat} {ms : MemSys} (hms : ms.Ok) :
    (cachedStores w ways x path n i j m ms).1.Ok := by
  induction n generalizing w ways x path i j m ms hms with
  | zero =>
    unfold cachedStores
    exact hms
  | succ n ih =>
    unfold cachedStores
    exact ite_ms_fst_ok hms (ih (cachedStore_ok _ _ _ _ _ _ _ _ hms))

theorem MemSys.showThru_ok {ms : MemSys} {core : Nat} {x : Xlat} {n : Nat} (hms : ms.Ok) : (ms.showThru core x n).Ok :=
  ite_ms_ok (foldl_ms_ok (fun _ _ ht => MemSys.ownHome_ok ht) hms) hms

theorem State.storeAt_ok {s : State} {w : Who} {n : Nat} {x : Xlat} {v path : Nat} (hs : s.Ok) : (s.storeAt w n x v path).Ok := by
  unfold State.storeAt
  dsimp only
  split
  · exact State.remoteWrite_ok hs
  exact ite_ok (ite_ok (State.modCore_ok _ _ (State.withMs_ok hs (MemSys.showThru_ok (cachedStores_ok hs.1))))
    (State.settleStores_ok (State.modCore_ok _ _ (State.modCore_ok _ _ (State.withMs_ok hs (MemSys.showThru_ok (cachedStores_ok
    hs.1))))))) (State.modCore_ok _ _ (State.homeStore_ok hs))

theorem cachedLoads_ok {w : Who} {ways : Nat} {x : Xlat} {path n i j : Nat} {ms : MemSys} (hms : ms.Ok) :
    (cachedLoads w ways x path n i j ms).1.Ok := by
  induction n generalizing w ways x path i j ms hms with
  | zero =>
    unfold cachedLoads
    exact hms
  | succ n ih =>
    unfold cachedLoads
    exact ite_ms_fst_ok hms (ih (cachedLoad_ok _ _ _ _ _ _ _ hms))

theorem State.loadFor_ok {s : State} {w : Who} {n : Nat} {x : Xlat} {path : Nat} {rid : Option Nat} {f : Nat → Vec} (hs : s.Ok) :
    (s.loadFor w n x path rid f).Ok := by
  unfold State.loadFor
  split
  · exact State.remoteRead_ok hs
  split
  rename_i he
  refine State.modCore_ok _ _ ?_
  refine .of_eq he ?_
  split
  · exact hs
  split
  · split
    rename_i he2
    replace he2 := MemSys.Ok.of_eq he2 (cachedLoads_ok hs.1)
    exact State.withMs_ok hs he2
  exact State.homeLoad_ok hs

theorem State.copyRead_ok {s : State} {w : Who} {va : Nat} (hs : s.Ok) : (s.copyRead w va).1.Ok := by
  unfold State.copyRead
  split
  · rename_i he
    replace he := MemSys.Ok.of_eq he (translate_ok _ _ _ _ hs.1)
    exact State.withMs_ok hs he
  rename_i he2
  replace he2 := MemSys.Ok.of_eq he2 (translate_ok _ _ _ _ hs.1)
  dsimp only
  split
  · exact State.remoteData_ok (State.withMs_ok hs he2)
  split
  · exact State.homeLoad_ok (State.withMs_ok hs he2)
  split
  · exact State.homeLoad_ok (State.withMs_ok hs he2)
  exact State.homeLoad_ok (State.withMs_ok hs he2)

theorem State.copyWrite_ok {s : State} {w : Who} {ch va : Nat} {b : Block} {bad : Bool} (hs : s.Ok) :
    (s.copyWrite w ch va b bad).1.Ok := by
  unfold State.copyWrite
  split
  · rename_i he
    replace he := MemSys.Ok.of_eq he (translate_ok _ _ _ _ hs.1)
    exact State.withMs_ok hs he
  rename_i he2
  replace he2 := MemSys.Ok.of_eq he2 (translate_ok _ _ _ _ hs.1)
  dsimp only
  split
  · exact State.sendUnordered_ok (State.withMs_ok hs he2)
  exact State.homeStore_ok (State.withMs_ok hs he2)

theorem State.copyReads_ok {w : Who} {n i : Nat} {s : State} (hs : s.Ok) : (State.copyReads w n i s).1.Ok := by
  induction n generalizing w i s hs with
  | zero =>
    unfold State.copyReads
    exact hs
  | succ n ih =>
    unfold State.copyReads
    split
    · rename_i he
      replace he := State.Ok.of_eq he (State.copyRead_ok hs)
      exact he
    rename_i he2
    replace he2 := State.Ok.of_eq he2 (State.copyRead_ok hs)
    split
    · rename_i he3
      replace he3 := State.Ok.of_eq he3 (ih he2)
      exact he3
    rename_i he4
    replace he4 := State.Ok.of_eq he4 (ih he2)
    exact he4

theorem State.copyWrites_ok {w : Who} {ch : Nat} {l : List (Block × Bool)} {n : Nat} {s : State} (hs : s.Ok) :
    (State.copyWrites w ch l n s).1.Ok := by
  induction l generalizing w ch n s hs with
  | nil =>
    unfold State.copyWrites
    exact hs
  | cons x l ih =>
    unfold State.copyWrites
    split
    · rename_i he
      replace he := State.Ok.of_eq he (State.copyWrite_ok hs)
      exact he
    rename_i he2
    replace he2 := State.Ok.of_eq he2 (State.copyWrite_ok hs)
    exact ih he2

theorem State.releaseAt_ok {s : State} {k scope : Nat} {all : Bool} (hs : s.Ok) : (s.releaseAt k scope all).Ok :=
  State.settleStores_ok (State.withMs_ok hs (MemSys.release_ok _ _ _ _ hs.1))

theorem State.moor_ok {s : State} {w : Who} {base len bol : Nat} (hs : s.Ok) : (s.moor w base len bol).1.Ok := by
  unfold State.moor
  dsimp only
  split
  · exact hs
  split
  · exact hs
  split
  · exact hs
  split
  · exact hs
  exact State.withMs_ok hs hs.1

theorem State.unmoor_ok {s : State} {w : Who} {base bol : Nat} (hs : s.Ok) : (s.unmoor w base bol).1.Ok := by
  unfold State.unmoor
  dsimp only
  split
  · exact hs
  exact State.withMs_ok hs hs.1

theorem State.atomicAt_ok {s : State} {w : Who} {op : AtOp} {w8 : Bool} {x : Xlat} {a c : Nat} {rid : Option Nat} (hs : s.Ok) :
    (s.atomicAt w op w8 x a c rid).Ok := by
  unfold State.atomicAt
  dsimp only
  split
  · exact State.remoteRead_ok hs
  split
  · exact State.modCore_ok _ _ (State.withMs_ok hs (homeRead_ok _ _ _ _ _ _ _ (MemSys.ownHome_ok hs.1)))
  exact State.modCore_ok _ _ (State.withMs_ok hs (MemSys.refresh_ok _ _ _ (ite_ms_ok (MemSys.putHome_ok _ _ _ _ _ _ _
    (MemSys.claimHome_ok _ _ _ _ _ (homeRead_ok _ _ _ _ _ _ _ (MemSys.ownHome_ok hs.1)))) (homeRead_ok _ _ _ _ _ _ _
    (MemSys.ownHome_ok hs.1)))))

theorem State.atomicUpdate_ok {s : State} {w : Who} {op : AtOp} {w8 : Bool} {x : Xlat} {a : Nat} (hs : s.Ok) :
    (s.atomicUpdate w op w8 x a).Ok := by
  unfold State.atomicUpdate
  split
  · exact State.sendUnordered_ok hs
  dsimp only
  exact ite_ok (State.modCore_ok _ _ (State.withMs_ok hs (MemSys.showThru_ok (updateOnly_ok _ _ _ _ _ _ _ hs.1))))
    (State.settleStores_ok (State.modCore_ok _ _ (State.withMs_ok hs (MemSys.showThru_ok (updateOnly_ok _ _ _ _ _ _ _ hs.1)))))

theorem State.markRecord_ok {s : State} {core : Nat} {t : Option Task} {st : Nat} (hs : s.Ok) : (s.markRecord core t st).Ok := by
  unfold State.markRecord
  split
  · split
    · split
      rename_i he
      replace he := State.Ok.of_eq he (State.ctxWho_ok hs)
      exact State.setStatus_ok he
    exact hs
  exact hs

theorem unparkFrame_ok {ctx a : Nat} {r : State × Nat} {f : Nat} (hr : r.1.Ok) : (unparkFrame ctx a r f).1.Ok := by
  unfold unparkFrame
  dsimp only
  split
  · exact State.markRecord_ok (State.setFrame_ok (State.setFst_ok (State.fst_ok hr)))
  exact State.fst_ok hr

theorem State.unpark_ok {s : State} {ctx a : Nat} (hs : s.Ok) : (s.unpark ctx a).1.Ok :=
  foldl_fst_ok (fun _ _ ht => unparkFrame_ok ht) (ite_ok (State.markRecord_ok (State.setCore_ok _ _ hs)) hs)

theorem State.payStatus_ok {s : State} {k : Nat} {rid : Option Nat} {v : Nat} (hs : s.Ok) : (s.payStatus k rid v).Ok :=
  State.modCore_ok _ _ hs

theorem payOf_ok {k : Nat} {rid : Option Nat} {r : State × Nat} (hr : r.1.Ok) : (payOf k rid r).Ok :=
  State.payStatus_ok hr

theorem State.poolOp_ok {s : State} {k : Nat} {rid : Option Nat} {op : MemSys → MemSys × Nat} (hop : ∀ ms, ms.Ok → (op ms).1.Ok)
    (hs : s.Ok) : (s.poolOp k rid op).Ok := by
  unfold State.poolOp
  dsimp only
  exact State.payStatus_ok (State.updMs_ok (fun hm => hop _ hm) (State.releaseAt_ok hs))

theorem State.homeLoadFor_ok {s : State} {w : Who} {n : Nat} {x : Xlat} {rid : Option Nat} (hs : s.Ok) :
    (s.homeLoadFor w n x rid).Ok := by
  unfold State.homeLoadFor
  split
  · exact State.remoteRead_ok hs
  dsimp only
  exact State.modCore_ok _ _ (ite_ok (State.updMs_ok (fun hm => MemSys.refresh_ok _ _ _ hm) (State.homeLoad_ok (ite_ok
    (State.withMs_ok hs (MemSys.ownHome_ok hs.1)) hs))) (State.homeLoad_ok (ite_ok (State.withMs_ok hs (MemSys.ownHome_ok hs.1))
    hs)))

theorem State.awaitRemote_ok {s : State} {k : Nat} {h : Held} {pa : Nat} (hs : s.Ok) : (s.awaitRemote k h pa).Ok :=
  State.modCore_ok _ _ hs

theorem State.sent_ok {s : State} {k : Nat} {h : Held} {x : Xlat} (hs : s.Ok) : (s.sent k h x).Ok :=
  ite_ok (State.awaitRemote_ok hs) hs

theorem State.throughHome_ok {s : State} {f : Option (Nat × Nat)} (hs : s.Ok) : (s.throughHome f).Ok := by
  unfold State.throughHome
  split
  · exact State.withSched_ok (State.mapCores_ok _ hs)
  exact hs

theorem performHeld_ok {s : State} {k : Nat} {h : Held} (hs : s.Ok) : OptOk (performHeld s k h) := by
  unfold performHeld
  dsimp only
  split
  · exact State.loadFor_ok hs
  · split
    · trivial
    exact hs
  · exact State.storeAt_ok hs
  · exact State.modCore_ok _ _ hs
  · exact State.homeLoadFor_ok hs
  · split
    · split
      · trivial
      exact ite_ok (State.sent_ok (State.atomicAt_ok (ite_ok (State.releaseAt_ok hs) hs))) (State.atomicAt_ok
        (ite_ok (State.releaseAt_ok hs) hs))
    exact State.atomicUpdate_ok hs
  · exact State.sent_ok (State.homeLoadFor_ok hs)
  · split
    · trivial
    split
    · exact State.sent_ok (State.remoteWrite_ok (State.releaseAt_ok hs))
    exact State.modCore_ok _ _ (State.homeStore_ok (State.releaseAt_ok hs))
  · exact State.sent_ok (State.settleStores_ok (State.updMs_ok
      (fun hm => foldl_ms_ok (fun _ _ ht => MemSys.evictRegion_ok _ _ _ _ ht) hm) (State.homeLoadFor_ok hs)))
  · split
    · trivial
    split
    · refine State.sent_ok (State.remoteWrite_ok (State.settleStores_ok (State.updMs_ok
        (fun hm => foldl_ms_ok (fun _ _ ht2 => MemSys.writeBackRegion_ok _ _ _ _ ht2) hm) (State.releaseAt_ok hs))))
    refine State.modCore_ok _ _ (State.homeStore_ok (State.settleStores_ok (State.updMs_ok
      (fun hm => foldl_ms_ok (fun _ _ ht3 => MemSys.writeBackRegion_ok _ _ _ _ ht3) hm) (State.releaseAt_ok hs))))
  · split
    · exact hs
    split
    · trivial
    split
    · exact State.releaseAt_ok hs
    exact ite_ok (State.settleStores_ok (State.withMs_ok hs (MemSys.drainWc_ok _ _ hs.1))) hs
  · exact payOf_ok (State.moor_ok hs)
  · exact payOf_ok (State.unmoor_ok hs)
  · split
    · trivial
    exact State.poolOp_ok (fun _ ht4 => poolShare_ok _ _ _ _ _ _ ht4) (State.throughHome_ok hs)
  · split
    · trivial
    exact State.poolOp_ok (fun _ ht5 => poolDrop_ok _ _ _ _ ht5) (State.throughHome_ok hs)
  · exact State.poolOp_ok (fun _ ht6 => poolAlloc_ok _ _ _ _ ht6) hs
  · split
    · trivial
    exact State.updMs_ok (fun hm => hm) (State.releaseAt_ok hs)
  · split
    · split
      · trivial
      exact hs
    split
    · trivial
    exact hs
  · trivial
  · exact State.settleStores_ok (State.withMs_ok hs (ite_ms_ok (MemSys.evictRegion_ok _ _ _ _ (MemSys.writeBackRegion_ok _ _ _ _
      hs.1)) (MemSys.writeBackRegion_ok _ _ _ _ hs.1)))
  · exact payOf_ok (makeReady_ok (State.withMs_ok hs (MemSys.drainMerge_ok _ _ hs.1)))
  · exact payOf_ok (makeReady_ok (State.withMs_ok hs (MemSys.drainMerge_ok _ _ hs.1)))
  · exact payOf_ok (appendLaunch_ok (State.withMs_ok hs (MemSys.drainMerge_ok _ _ hs.1)))
  · exact State.modCore_ok _ _ hs
  · exact payOf_ok (State.unpark_ok hs)
  · exact State.clkset_ok hs
  · exact State.vset_ok hs
  · exact State.payStatus_ok hs
  · exact State.payStatus_ok hs
  exact hs

end Sys2Proof.Machine
end

section
/-! PROOFS. The copy engine and the matrix engine keep the canonical form. -/

namespace Sys2Proof.Machine

theorem vectorBlocks_ok {w : Who} {home : Bool} {kind : AccessKind} {path : Nat} {l : List Xlat} {s : State} (hs : s.Ok) :
    (vectorBlocks w home kind path l s).1.Ok := by
  induction l generalizing w home kind path s hs with
  | nil =>
    unfold vectorBlocks
    exact hs
  | cons x l ih =>
    unfold vectorBlocks
    dsimp only
    refine ih ?_
    split
    · exact State.remoteData_ok hs
    split
    · exact hs
    split
    · exact State.homeLoad_ok hs
    split
    · exact State.withMs_ok hs (MemSys.refresh_ok _ _ _ (homeRead_ok _ _ _ _ _ _ _ (MemSys.ownHome_ok hs.1)))
    exact State.withMs_ok hs (cachedLoad_ok _ _ _ _ _ _ _ hs.1)

theorem State.deliver_ok {s : State} {w : Who} {xs : List Xlat} {rid : Option Nat} {v : Vec} {n : Option Notice} (hs : s.Ok) :
    (s.deliver w xs rid v n).Ok := by
  unfold State.deliver
  split
  · exact State.sendOrdered_ok hs
  exact State.modCore_ok _ _ hs

theorem treeLoad_ok {s : State} {w : Who} {rid : Option Nat} {home row detail : Bool} {d : BitVec 256} {sel pos : Nat}
    {xs : List Xlat} (hs : s.Ok) : (treeLoad s w rid home row detail d sel pos xs).Ok := by
  unfold treeLoad
  split
  rename_i he
  replace he := State.Ok.of_eq he (vectorBlocks_ok hs)
  exact State.deliver_ok he

theorem elemBlock_ok {ms : MemSys} {w : Who} {x : Xlat} (hms : ms.Ok) : (elemBlock ms w x).1.Ok := by
  unfold elemBlock
  dsimp only
  split
  · exact ite_ms_fst_ok (MemSys.substitute_ok _ (MemSys.flushWhere_ok _ _ _ _ (MemSys.drainWhere_ok _ _ _ hms)))
      (MemSys.flushWhere_ok _ _ _ _ (MemSys.drainWhere_ok _ _ _ hms))
  exact ite_ms_fst_ok (MemSys.substitute_ok _ (ite_ms_ok (MemSys.recall_ok _ _ (MemSys.flushWhere_ok _ _ _ _
    (MemSys.drainWhere_ok _ _ _ hms))) (MemSys.visit_ok _ _ _ _ _ (MemSys.recall_ok _ _ (MemSys.flushWhere_ok _ _ _ _
    (MemSys.drainWhere_ok _ _ _ hms)))))) (ite_ms_ok (MemSys.recall_ok _ _ (MemSys.flushWhere_ok _ _ _ _ (MemSys.drainWhere_ok _
    _ _ hms))) (MemSys.visit_ok _ _ _ _ _ (MemSys.recall_ok _ _ (MemSys.flushWhere_ok _ _ _ _ (MemSys.drainWhere_ok _ _ _ hms)))))

theorem rewriteBlock_ok {s : State} {w : Who} {cls dfmt i0 : Nat} {v : BitVec 1024} {lanes : List Nat} {x : Xlat} {view : Block}
    {seen : Bool} (hs : s.Ok) : (rewriteBlock s w cls dfmt i0 v lanes x view seen).1.Ok := by
  unfold rewriteBlock
  dsimp only
  split
  · exact State.withMs_ok hs (MemSys.check_ok _ _ _ _ _ _ (MemSys.ownHome_ok (MemSys.ownHome_ok hs.1)))
  exact State.withMs_ok hs (MemSys.refresh_ok _ _ _ (ite_ms_ok (MemSys.merge_ok _ _ _ _ _ _ (ite_ms_ok (MemSys.claimHome_ok _ _ _
    _ _ (MemSys.check_ok _ _ _ _ _ _ (MemSys.ownHome_ok (MemSys.ownHome_ok hs.1)))) (MemSys.openHome_ok _ _ _ _ _
    (MemSys.check_ok _ _ _ _ _ _ (MemSys.ownHome_ok (MemSys.ownHome_ok hs.1)))))) (MemSys.fillPack_ok _ _ (MemSys.merge_ok _ _ _
    _ _ _ (ite_ms_ok (MemSys.claimHome_ok _ _ _ _ _ (MemSys.check_ok _ _ _ _ _ _ (MemSys.ownHome_ok (MemSys.ownHome_ok hs.1))))
    (MemSys.openHome_ok _ _ _ _ _ (MemSys.check_ok _ _ _ _ _ _ (MemSys.ownHome_ok (MemSys.ownHome_ok hs.1)))))))))

theorem storeElemsAt_ok {s : State} {w : Who} {cls dfmt i0 : Nat} {v : BitVec 1024} {lanes : List Nat} {x : Xlat} (hs : s.Ok) :
    (storeElemsAt s w cls dfmt i0 v lanes x).1.Ok := by
  unfold storeElemsAt
  split
  rename_i he
  replace he := MemSys.Ok.of_eq he (elemBlock_ok hs.1)
  dsimp only
  split
  · split
    · exact State.withMs_ok hs (MemSys.showThru_ok (cachedStoreBits_ok _ _ _ _ _ _ _ _ he))
    exact State.settleStores_ok (State.modCore_ok _ _ (State.withMs_ok hs (MemSys.showThru_ok (cachedStoreBits_ok _ _ _ _ _ _ _ _
      he))))
  exact rewriteBlock_ok (State.withMs_ok hs he)

theorem storeElems_ok {w : Who} {cls dfmt i0 c : Nat} {v : BitVec 1024} {l : List (Nat × Xlat)} {s : State} (hs : s.Ok) :
    (storeElems w cls dfmt i0 c v l s).1.Ok := by
  induction l generalizing w cls dfmt i0 c v s hs with
  | nil =>
    unfold storeElems
    exact hs
  | cons x l ih =>
    unfold storeElems
    dsimp only
    refine ih ?_
    split
    · exact State.remoteWrite_ok (State.remoteData_ok hs)
    split
    · exact storeElemsAt_ok hs
    exact State.homeStore_ok (State.homeLoad_ok hs)

theorem writeTree_ok {w : Who} {cls : Nat} {old new : TreeBlocks} {l : List (Nat × Xlat)} {s : State} (hs : s.Ok) :
    (writeTree w cls old new l s).Ok := by
  induction l generalizing w cls old new s hs with
  | nil =>
    unfold writeTree
    exact hs
  | cons x l ih =>
    unfold writeTree
    exact ih (ite_ok (State.withMs_ok hs (MemSys.setLines_ok _ _ _ hs.1)) (ite_ok (State.homeStore_ok (State.withMs_ok hs
      (MemSys.setLines_ok _ _ _ hs.1))) (State.updMs_ok (fun hm => MemSys.putHome_ok _ _ _ _ _ _ _ (MemSys.claimHome_ok _ _ _ _ _
      hm)) (State.withMs_ok hs (MemSys.setLines_ok _ _ _ hs.1)))))

theorem treeUpdateAt_ok {s : State} {w : Who} {d : BitVec 256} {l path : Nat} {nums : List Nat} {xs : List Xlat}
    {vs : List (Option Pos × Nat)} (hs : s.Ok) : (treeUpdateAt s w d l path nums xs vs).1.Ok := by
  unfold treeUpdateAt
  dsimp only
  split
  · exact vectorBlocks_ok hs
  exact writeTree_ok (vectorBlocks_ok hs)

theorem State.sqPut_ok {s : State} {q off n v : Nat} (hs : s.Ok) : (s.sqPut q off n v).Ok :=
  State.withMs_ok hs (MemSys.hwWrite_ok _ _ _ _ hs.1)

theorem State.queueWrite_ok {s : State} {w : Who} {a n v : Nat} (hs : s.Ok) : (s.queueWrite w a n v).Ok := by
  unfold State.queueWrite
  split
  rename_i he
  replace he := State.Ok.of_eq he (State.homeStore_ok hs)
  exact State.modCore_ok _ _ he

theorem State.sqPost_ok {s : State} {w : Who} {q : Nat} {e : BitVec 512} {refuse : Bool} (hs : s.Ok) :
    (s.sqPost w q e refuse).1.Ok := by
  unfold State.sqPost
  dsimp -iota only
  split
  rename_i he
  replace he := MemSys.Ok.of_eq he (MemSys.hwRead_ok _ _ _ hs.1)
  split
  · dsimp only
    exact State.withMs_ok hs he
  split
  · dsimp only
    exact State.withMs_ok hs he
  split
  · dsimp only
    exact State.withMs_ok hs he
  dsimp only
  exact State.withSto_ok (State.queueWrite_ok (State.sqPut_ok (State.queueWrite_ok (State.withMs_ok hs he))))

theorem State.sqCqack_ok {s : State} {w : Who} {q n sqhd : Nat} (hs : s.Ok) : (s.sqCqack w q n sqhd).1.Ok := by
  unfold State.sqCqack
  split
  rename_i he
  replace he := MemSys.Ok.of_eq he (MemSys.hwRead_ok _ _ _ hs.1)
  dsimp only
  split
  · dsimp only
    exact State.withMs_ok hs he
  split
  · dsimp only
    exact State.withMs_ok hs he
  dsimp only
  exact State.queueWrite_ok (State.sqPut_ok (State.sqPut_ok (State.withMs_ok hs he)))

theorem fireEx_ok {s : State} {k : Nat} {h : Held} (hs : s.Ok) : OptOk (fireEx s k h) := by
  unfold fireEx
  dsimp only
  split
  · exact State.loadFor_ok hs
  · exact State.storeAt_ok hs
  · exact State.setCore_ok _ _ hs
  · split
    · exact State.setCore_ok _ _ hs
    exact State.setCore_ok _ _ hs
  · exact State.modCore_ok _ _ (State.deliver_ok (vectorBlocks_ok hs))
  · exact State.modCore_ok _ _ (storeElems_ok hs)
  · exact treeLoad_ok hs
  · exact treeLoad_ok hs
  · exact State.loadFor_ok hs
  · exact State.setCore_ok _ _ hs
  · split
    · exact State.setCore_ok _ _ hs
    split
    · exact State.setCore_ok _ _ hs
    trivial
  · split
    · exact State.setCore_ok _ _ hs
    split
    · exact State.setCore_ok _ _ hs
    split
    · trivial
    exact State.setCore_ok _ _ hs
  · split
    · exact State.setCore_ok _ _ hs
    split
    · split
      · exact State.setCore_ok _ _ hs
      trivial
    split
    · exact State.setCore_ok _ _ hs
    trivial
  · exact State.payStatus_ok hs
  · exact State.setCore_ok _ _ hs
  · split
    · exact hs
    split
    · trivial
    exact State.setCore_ok _ _ hs
  · exact State.payStatus_ok hs
  · exact payOf_ok (State.sqPost_ok hs)
  · exact payOf_ok (State.sqCqack_ok hs)
  trivial

theorem State.retranslate_ok {s : State} {k : Nat} {h : Held} (hs : s.Ok) : (s.retranslate k h).1.Ok := by
  unfold State.retranslate
  split
  · exact hs
  exact State.withMs_ok hs (foldl_ms_ok (fun _ _ ht => translate_ok _ _ _ _ ht) hs.1)

theorem execEx7CommandFire_ok {k : Nat} {s : State} (hs : s.Ok) : Out.Ok (execEx7CommandFire k s) := by
  unfold execEx7CommandFire
  split
  · exact hs
  split
  · exact hs
  split
  rename_i he
  replace he := State.Ok.of_eq he (State.retranslate_ok hs)
  split
  · rename_i he2
    replace he2 := OptOk.of_eq he2 (fireEx_ok (State.setCore_ok _ _ he))
    exact State.countBusy_ok he2
  exact hs

theorem treeFire_ok {s : State} {k : Nat} {h : Held} (hs : s.Ok) : OptOk (treeFire s k h) := by
  unfold treeFire
  split
  · dsimp only
    split
    · exact State.sendOrdered_ok hs
    exact State.modCore_ok _ _ (treeUpdateAt_ok hs)
  trivial

theorem execTreeUpdate_ok {k : Nat} {s : State} (hs : s.Ok) : Out.Ok (execTreeUpdate k s) := by
  unfold execTreeUpdate
  split
  · exact hs
  split
  · exact hs
  split
  rename_i he
  replace he := State.Ok.of_eq he (State.retranslate_ok hs)
  split
  · rename_i he2
    replace he2 := OptOk.of_eq he2 (treeFire_ok (State.setCore_ok _ _ he))
    exact State.countBusy_ok he2
  exact hs

theorem execDrainComplete_ok {k : Nat} {s : State} (hs : s.Ok) : Out.Ok (execDrainComplete k s) := by
  unfold execDrainComplete
  dsimp only
  split
  · exact hs
  split
  · split
    · exact hs
    exact State.setCore_ok _ _ hs
  exact hs

theorem copySource_ok {s : State} {w : Who} {kind a n : Nat} (hs : s.Ok) : OptFstOk (copySource s w kind a n) := by
  unfold copySource
  dsimp only
  split
  · exact State.copyReads_ok hs
  · exact hs
  split
  · exact State.tick_ok hs
  split
  · trivial
  exact hs

theorem popSource_ok {s : State} {k kind a : Nat} (hs : s.Ok) : (popSource s k kind a).Ok :=
  ite_ok (State.modCore_ok _ _ hs) hs

theorem copyDest_ok {s : State} {w : Who} {ch kind a : Nat} {bs : List (Block × Bool)} (hs : s.Ok) :
    (copyDest s w ch kind a bs).1.Ok := by
  unfold copyDest
  split
  · exact State.copyWrites_ok hs
  · exact State.modCore_ok _ _ hs
  exact State.modCore_ok _ _ hs

theorem finishCopy_ok {s : State} {w : Who} {ch sk sa dk da : Nat} {bs : List (Block × Bool)} {more : State → State}
    (hm : ∀ t, t.Ok → (more t).Ok) (hs : s.Ok) : (finishCopy s w ch sk sa dk da bs more).Ok := by
  unfold finishCopy
  split
  · trivial
  · exact State.tick_ok hs
  split
  · rename_i he
    replace he := State.Ok.of_eq he (copyDest_ok hs)
    exact he
  rename_i he2
  replace he2 := State.Ok.of_eq he2 (copyDest_ok hs)
  exact hm _ (popSource_ok he2)

theorem treeXlats_ok {s : State} {w : Who} {t : TreeDesc} {sel : Word} {nums : List Nat} {update : Bool} (hs : s.Ok) :
    (treeXlats s w t sel nums update).1.Ok := by
  unfold treeXlats
  dsimp only
  split
  · exact hs
  split
  · rename_i he
    replace he := MemSys.Ok.of_eq he (translateAll_ok _ _ _ _ hs.1)
    exact State.withMs_ok hs he
  rename_i he2
  replace he2 := MemSys.Ok.of_eq he2 (translateAll_ok _ _ _ _ hs.1)
  split
  · exact State.withMs_ok hs he2
  exact State.withMs_ok hs he2

theorem emitSynthesis_ok {s : State} {w : Who} {ch : Nat} {n : Nest} (hs : s.Ok) : (emitSynthesis s w ch n).Ok := by
  unfold emitSynthesis
  dsimp only
  split
  · exact hs
  split
  · rename_i he
    replace he := State.Ok.of_eq he (treeXlats_ok hs)
    exact he
  rename_i he2
  replace he2 := State.Ok.of_eq he2 (treeXlats_ok hs)
  split
  · exact vectorBlocks_ok he2
  exact finishCopy_ok (fun _ ht => ht) (vectorBlocks_ok he2)

theorem analyse_ok {s : State} {w : Who} {ch : Nat} {td : BitVec 256} {l : Nat} {nums : List Nat} {xs : List Xlat}
    {vs : List (Option Pos × Nat)} (hs : s.Ok) : (analyse s w ch td l nums xs vs).1.Ok := by
  unfold analyse
  split
  · exact State.sendUnordered_ok hs
  exact treeUpdateAt_ok hs

theorem emitAnalysis_ok {s : State} {w : Who} {ch : Nat} {n : Nest} (hs : s.Ok) : (emitAnalysis s w ch n).Ok := by
  unfold emitAnalysis
  dsimp only
  split
  · trivial
  · rename_i he
    replace he := OptFstOk.of_eq he (copySource_ok hs)
    exact he
  rename_i he2
  replace he2 := OptFstOk.of_eq he2 (copySource_ok hs)
  split
  · exact he2
  · exact he2
  split
  · rename_i he3
    replace he3 := State.Ok.of_eq he3 (treeXlats_ok he2)
    exact he3
  rename_i he4
  replace he4 := State.Ok.of_eq he4 (treeXlats_ok he2)
  split
  · rename_i he5
    replace he5 := State.Ok.of_eq he5 (analyse_ok he4)
    exact he5
  rename_i he6
  replace he6 := State.Ok.of_eq he6 (analyse_ok he4)
  exact popSource_ok he6

theorem emitAddOn_ok {s : State} {w : Who} {ch : Nat} {n : Nest} (hs : s.Ok) : (emitAddOn s w ch n).Ok := by
  unfold emitAddOn
  dsimp only
  split
  · trivial
  · rename_i he
    replace he := OptFstOk.of_eq he (copySource_ok hs)
    exact he
  rename_i he2
  replace he2 := OptFstOk.of_eq he2 (copySource_ok hs)
  split
  · exact he2
  · exact he2
  split
  · exact he2
  exact State.modCore_ok _ _ (State.modCore_ok _ _ he2)

theorem emitPackOut_ok {s : State} {w : Who} {ch : Nat} {n : Nest} (hs : s.Ok) : (emitPackOut s w ch n).Ok := by
  unfold emitPackOut
  dsimp only
  split
  · rename_i he
    replace he := State.Ok.of_eq he (State.copyReads_ok hs)
    exact he
  rename_i he2
  replace he2 := State.Ok.of_eq he2 (State.copyReads_ok hs)
  split
  · exact he2
  split
  · rename_i he3
    replace he3 := State.Ok.of_eq he3 (State.copyWrites_ok he2)
    exact he3
  rename_i he4
  replace he4 := State.Ok.of_eq he4 (State.copyWrites_ok he2)
  exact State.modCore_ok _ _ he4

theorem emitPackIn_ok {s : State} {w : Who} {ch : Nat} {n : Nest} (hs : s.Ok) : (emitPackIn s w ch n).Ok := by
  unfold emitPackIn
  dsimp only
  split
  · rename_i he
    replace he := State.Ok.of_eq he (State.copyReads_ok hs)
    exact he
  rename_i he2
  replace he2 := State.Ok.of_eq he2 (State.copyReads_ok hs)
  split
  · exact he2
  split
  · rename_i he3
    replace he3 := State.Ok.of_eq he3 (State.copyReads_ok he2)
    exact he3
  rename_i he4
  replace he4 := State.Ok.of_eq he4 (State.copyReads_ok he2)
  split
  · rename_i he5
    replace he5 := State.Ok.of_eq he5 (State.copyWrites_ok he4)
    exact he5
  rename_i he6
  replace he6 := State.Ok.of_eq he6 (State.copyWrites_ok he4)
  exact he6

theorem emitCopy_ok {s : State} {w : Who} {ch : Nat} {n : Nest} (hs : s.Ok) : (emitCopy s w ch n).Ok := by
  unfold emitCopy
  split
  · exact emitSynthesis_ok hs
  · exact emitAnalysis_ok hs
  · exact emitAddOn_ok hs
  · exact emitPackOut_ok hs
  · exact emitPackIn_ok hs
  dsimp only
  split
  · trivial
  · rename_i he
    replace he := OptFstOk.of_eq he (copySource_ok hs)
    exact he
  rename_i he2
  replace he2 := OptFstOk.of_eq he2 (copySource_ok hs)
  split
  · exact he2
  exact finishCopy_ok (fun _ ht => ite_ok (State.modCore_ok _ _ ht) ht) he2

theorem State.drainNest_ok {s : State} {k ch : Nat} (hs : s.Ok) : (s.drainNest k ch).Ok :=
  ite_ok hs (State.modCore_ok _ _ hs)

theorem State.landPush_ok {s : State} {k ch : Nat} (hs : s.Ok) : (s.landPush k ch).Ok := by
  unfold State.landPush
  split
  · exact State.setCore_ok _ _ hs
  exact hs

theorem execNestCopyEmit_ok {k ch : Nat} {s : State} (hs : s.Ok) : Out.Ok (execNestCopyEmit k ch s) := by
  unfold execNestCopyEmit
  split
  · exact State.landPush_ok hs
  dsimp only
  split
  · exact State.landPush_ok (State.tick_ok hs)
  split
  · exact State.drainNest_ok hs
  split
  · exact State.landPush_ok hs
  split
  · exact State.landPush_ok hs
  · rename_i he
    replace he := Emit.Ok.of_fault he (emitCopy_ok hs)
    exact State.drainNest_ok (State.modCore_ok _ _ he)
  rename_i he2
  replace he2 := Emit.Ok.of_done he2 (emitCopy_ok hs)
  exact ite_ok (State.drainNest_ok (State.countBusy_ok (State.modCore_ok _ _ he2))) (State.countBusy_ok (State.modCore_ok _ _
    he2))

theorem rowDone_ok {s : State} {k : Nat} {r : AddOnRow} (hs : s.Ok) : (rowDone s k r).Ok :=
  ite_ok hs (State.modCore_ok _ _ hs)

theorem rowFault_ok {s : State} {k : Nat} {r : AddOnRow} {fc : Nat} (hs : s.Ok) : (rowFault s k r fc).Ok :=
  ite_ok (State.modCore_ok _ _ (State.modCore_ok _ _ hs)) (State.modCore_ok _ _ hs)

theorem execAddOnRowApply_ok {k phase : Nat} {s : State} (hs : s.Ok) : Out.Ok (execAddOnRowApply k phase s) := by
  unfold execAddOnRowApply
  dsimp only
  split
  · exact rowFault_ok (State.setCore_ok _ _ hs)
  split
  · exact hs
  split
  · exact hs
  exact ite_ok (rowFault_ok (State.setCore_ok _ _ hs)) (rowDone_ok (State.setCore_ok _ _ hs))

theorem recordBlocks_ok {w : Who} {old : State} {overlap fold : Bool} {n i j m : Nat} {s : State} (hold : old.Ok) (hs : s.Ok) :
    (recordBlocks w old overlap fold n i j m s).1.Ok := by
  induction n generalizing w old overlap fold i j m s hold hs with
  | zero =>
    unfold recordBlocks
    exact hs
  | succ n ih =>
    unfold recordBlocks
    split
    · rename_i he
      replace he := State.Ok.of_eq he (State.copyRead_ok hs)
      exact he
    rename_i he2
    replace he2 := State.Ok.of_eq he2 (State.copyRead_ok hs)
    dsimp only
    split
    · split
      · split
        · exact he2
        split
        · rename_i he3
          replace he3 := State.Ok.of_eq he3 (State.copyWrite_ok (State.tick_ok he2))
          exact he3
        rename_i he4
        replace he4 := State.Ok.of_eq he4 (State.copyWrite_ok (State.tick_ok he2))
        exact ih hold he4
      split
      · exact he2
      split
      · rename_i he5
        replace he5 := State.Ok.of_eq he5 (State.copyWrite_ok (State.tick_ok he2))
        exact he5
      rename_i he6
      replace he6 := State.Ok.of_eq he6 (State.copyWrite_ok (State.tick_ok he2))
      exact ih hold he6
    split
    · exact he2
    split
    · rename_i he7
      replace he7 := State.Ok.of_eq he7 (State.copyWrite_ok (State.tick_ok he2))
      exact he7
    rename_i he8
    replace he8 := State.Ok.of_eq he8 (State.copyWrite_ok (State.tick_ok he2))
    exact ih hold he8

theorem State.endCopy_ok {s : State} {k : Nat} {rc : RecordCopy} {sup : Bool} {status aux : Nat} (hs : s.Ok) :
    (s.endCopy k rc sup status aux).Ok :=
  completeRecord_ok (State.modCore_ok _ _ hs)

theorem State.settleCopy_ok {s : State} {k : Nat} {rc : RecordCopy} (hs : s.Ok) : (s.settleCopy k rc).Ok :=
  ite_ok (State.modCore_ok _ _ hs) (State.endCopy_ok hs)

theorem execCopyRecordRun_ok {k : Nat} {s : State} (hs : s.Ok) : Out.Ok (execCopyRecordRun k s) := by
  unfold execCopyRecordRun
  split
  · exact hs
  split
  · exact State.settleCopy_ok hs
  split
  · exact hs
  split
  rename_i he
  replace he := State.Ok.of_eq he (State.ctxWho_ok hs)
  split
  · rename_i he2
    replace he2 := MemSys.Ok.of_eq he2 (recordRead_ok he.1)
    exact State.endCopy_ok (State.withMs_ok he he2)
  rename_i he3
  replace he3 := MemSys.Ok.of_eq he3 (recordRead_ok he.1)
  dsimp only
  split
  · exact State.endCopy_ok (State.withMs_ok he he3)
  split
  · exact State.endCopy_ok (State.withMs_ok he he3)
  split
  · rename_i he4
    replace he4 := State.Ok.of_eq he4 (recordBlocks_ok (State.setStatus_ok (State.withMs_ok he he3)) (State.setStatus_ok
      (State.withMs_ok he he3)))
    exact State.endCopy_ok he4
  rename_i he5
  replace he5 := State.Ok.of_eq he5 (recordBlocks_ok (State.setStatus_ok (State.withMs_ok he he3)) (State.setStatus_ok
    (State.withMs_ok he he3)))
  exact State.settleCopy_ok he5

theorem State.modMx_ok {s : State} {k : Nat} {f : Matrix → Matrix} (hs : s.Ok) : (s.modMx k f).Ok :=
  State.modCore_ok _ _ hs

theorem State.payMx_ok {s : State} {k : Nat} {e : MxEntry} {v : Vec} {bad : Bool} (hs : s.Ok) : (s.payMx k e v bad).Ok :=
  State.modCore_ok _ _ hs

theorem popRows_ok {s : State} {k q size r : Nat} {act : State → List (Block × Bool) → MxTry}
    (ha : ∀ t bs, t.Ok → (act t bs).Ok) (hs : s.Ok) : (popRows s k q size r act).Ok := by
  unfold popRows
  dsimp only
  split
  · exact hs
  split
  · exact hs
  split
  · exact hs
  split
  · trivial
  exact ha _ _ (State.setCore_ok _ _ hs)

theorem pushRows_ok {s : State} {k q size r : Nat} {act : Nat → MxTry} (ha : ∀ n, (act n).Ok) (hs : s.Ok) :
    (pushRows s k q size r act).Ok := by
  unfold pushRows
  dsimp only
  split
  · exact hs
  split
  · exact hs
  split
  · exact ha _
  trivial

theorem mxTld_ok {s : State} {k : Nat} {w : Word} (hs : s.Ok) : (mxTld s k w).Ok :=
  popRows_ok (fun _ _ ht => State.modMx_ok ht) hs

theorem mxTst_ok {s : State} {k : Nat} {w : Word} (hs : s.Ok) : (mxTst s k w).Ok :=
  pushRows_ok (fun _ => State.modCore_ok _ _ hs) hs

theorem mxAldq_ok {s : State} {k : Nat} {w : Word} (hs : s.Ok) : (mxAldq s k w).Ok := by
  unfold mxAldq
  refine popRows_ok (fun _ _ ht => ?_) hs
  split
  · exact hs
  exact State.modMx_ok ht

theorem mxAcvt_ok {s : State} {k : Nat} {w : Word} (hs : s.Ok) : (mxAcvt s k w).Ok := by
  unfold mxAcvt
  dsimp only
  refine pushRows_ok (fun _ => ?_) hs
  split
  · exact hs
  exact State.modCore_ok _ _ (State.modMx_ok hs)

theorem mxAcvts_ok {s : State} {k : Nat} {w : Word} {off rows : Nat} (hs : s.Ok) : (mxAcvts s k w off rows).Ok := by
  unfold mxAcvts
  dsimp only
  split
  · exact hs
  exact State.modCore_ok _ _ (State.modMx_ok hs)

theorem mxArd_ok {s : State} {k : Nat} {e : MxEntry} {w : Word} (hs : s.Ok) : (mxArd s k e w).Ok :=
  State.payMx_ok (State.modMx_ok hs)

theorem mxStep_ok {s : State} {k : Nat} {e : MxEntry} {sw shA shB : Word} (hs : s.Ok) : (mxStep s k e sw shA shB).Ok := by
  unfold mxStep
  dsimp only
  split
  · exact hs
  split
  · exact State.modMx_ok (State.tick_ok hs)
  exact State.modMx_ok (State.tick_ok hs)

theorem reserveSlots_ok {crew ch : Nat} {l : List (Nat × Nat)} {s : State} (hs : s.Ok) : ExceptOk (reserveSlots crew ch l s) := by
  induction l generalizing s with
  | nil => exact hs
  | cons x l ih =>
    unfold reserveSlots
    split
    · trivial
    dsimp only
    split
    · trivial
    · exact ih (State.setRecv_ok hs)

theorem bchain_ok {s : State} {crew : Nat} {w : Word} {ranks : List Nat} (hs : s.Ok) : (bchain s crew w ranks).1.Ok := by
  unfold bchain
  dsimp only
  split
  · exact hs
  split
  · exact hs
  rename_i he
  replace he := ExceptOk.of_eq he (reserveSlots_ok hs)
  exact State.setChain_ok he

theorem State.clearFlits_ok {s : State} {crew ch : Nat} (hs : s.Ok) : (s.clearFlits crew ch).Ok :=
  State.mapCores_ok _ hs

theorem State.sendRow_ok {s : State} {d : Nat} {f : Flit} {row : Nat} {data : List (BitVec 40)} (hs : s.Ok) :
    (s.sendRow d f row data).Ok :=
  State.modMx_ok hs

theorem State.endPass_ok {s : State} {k crew rank : Nat} {e : MxEntry} {forward : Bool} (hs : s.Ok) :
    (s.endPass k crew rank e forward).Ok := by
  unfold State.endPass
  split
  · split
    · exact hs
    split
    · exact hs
    exact ite_ok (State.modMx_ok (State.dropPass_ok (State.setChain_ok hs))) (State.dropPass_ok (State.setChain_ok hs))
  exact hs

theorem State.tileFault_ok {s : State} {k : Nat} {before : List MxEntry} {e : MxEntry} {after : List MxEntry} {fc : Nat}
    (hs : s.Ok) : (s.tileFault k before e after fc).Ok := by
  unfold State.tileFault
  dsimp only
  split
  · exact foldl_ok (fun _ _ ht => State.endPass_ok ht) (State.modCore_ok _ _ hs)
  exact State.modCore_ok _ _ hs

theorem forwardFirst_ok {k : Nat} {l l' : List Forward} {s : State} (hs : s.Ok) : (forwardFirst k l l' s).Ok := by
  induction l' generalizing k l s hs with
  | nil =>
    unfold forwardFirst
    exact hs
  | cons x l' ih =>
    unfold forwardFirst
    dsimp only
    split
    · exact State.modMx_ok hs
    exact ite_ok (ih hs) (State.modMx_ok (State.sendRow_ok hs))

theorem passBegin_ok {s : State} {e : MxEntry} {w crew rank : Nat} {send : Bool} (hs : s.Ok) :
    (passBegin s e w crew rank send).Ok := by
  unfold passBegin
  split
  · exact hs
  split
  · exact hs
  dsimp only
  split
  · exact hs
  exact State.setChain_ok hs

theorem passRow_ok {s : State} {k : Nat} {e : MxEntry} {w crew rank : Nat} {x : Chain} {i n : Nat} (hs : s.Ok) :
    (passRow s k e w crew rank x i n).Ok := by
  unfold passRow
  dsimp only
  split
  · split
    · trivial
    split
    · split
      · exact hs
      split
      · exact State.endPass_ok (State.sendRow_ok hs)
      exact State.sendRow_ok hs
    split
    · split
      · exact hs
      trivial
    split
    · split
      · exact hs
      trivial
    split
    · exact State.modMx_ok hs
    split
    · exact State.endPass_ok (State.sendRow_ok (State.modMx_ok (State.modMx_ok hs)))
    exact State.sendRow_ok (State.modMx_ok (State.modMx_ok hs))
  split
  · trivial
  split
  · split
    · exact hs
    split
    · exact State.endPass_ok hs
    exact hs
  split
  · split
    · exact hs
    trivial
  split
  · split
    · exact hs
    trivial
  split
  · exact State.modMx_ok hs
  split
  · exact State.endPass_ok (State.modMx_ok (State.modMx_ok hs))
  exact State.modMx_ok (State.modMx_ok hs)

theorem passStep_ok {s : State} {k : Nat} {e : MxEntry} {w crew rank : Nat} {send : Bool} (hs : s.Ok) :
    (passStep s k e w crew rank send).Ok := by
  unfold passStep
  split
  · exact passBegin_ok hs
  split
  · exact hs
  split
  · exact hs
  exact passRow_ok hs

theorem tryMx_ok {s : State} {k : Nat} {e : MxEntry} (hs : s.Ok) : (tryMx s k e).Ok := by
  unfold tryMx
  dsimp only
  split
  · exact mxTld_ok hs
  · exact State.modMx_ok hs
  · exact mxTst_ok hs
  · exact State.payMx_ok hs
  · exact State.payMx_ok hs
  · exact State.payMx_ok hs
  · split
    · trivial
    exact mxStep_ok hs
  · exact State.modMx_ok hs
  · exact mxArd_ok hs
  · exact State.modMx_ok hs
  · exact mxAcvt_ok hs
  · exact mxAcvts_ok hs
  · exact mxAldq_ok hs
  · exact State.payMx_ok hs
  · exact State.modMx_ok hs
  · split
    · exact State.payMx_ok (bchain_ok hs)
    exact State.payMx_ok hs
  · split
    · exact passStep_ok hs
    exact hs
  · split
    · exact passStep_ok hs
    exact hs
  · split
    · split
      · exact State.payMx_ok hs
      split
      · trivial
      exact State.payMx_ok (State.setChain_ok (State.clearFlits_ok (State.releaseSlots_ok hs)))
    exact State.payMx_ok hs
  exact State.payMx_ok (State.modMx_ok hs)

theorem fireFrom_ok {s : State} {k : Nat} {l l' : List MxEntry} (hs : s.Ok) : (fireFrom s k l l').Ok := by
  induction l' generalizing s k l hs with
  | nil =>
    unfold fireFrom
    exact hs
  | cons x l' ih =>
    unfold fireFrom
    split
    · exact hs
    split
    · exact ih hs
    split
    · exact ite_ok (ih hs) hs
    · rename_i he
      replace he := MxTry.Ok.of_fault he (tryMx_ok hs)
      exact State.tileFault_ok he
    · rename_i he2
      replace he2 := MxTry.Ok.of_keep he2 (tryMx_ok hs)
      exact State.countBusy_ok (State.modMx_ok he2)
    rename_i he3
    replace he3 := MxTry.Ok.of_done he3 (tryMx_ok hs)
    exact State.countBusy_ok (State.modMx_ok he3)

theorem execMatrixCommandFire_ok {k : Nat} {s : State} (hs : s.Ok) : Out.Ok (execMatrixCommandFire k s) := by
  unfold execMatrixCommandFire
  split
  · exact hs
  exact fireFrom_ok (forwardFirst_ok hs)

theorem execResidueRetry_ok {k : Nat} {ok : Bool} {s : State} (hs : s.Ok) : Out.Ok (execResidueRetry k ok s) := by
  unfold execResidueRetry
  split
  · exact hs
  split
  · split
    · exact hs
    split
    · exact State.countBusy_ok (State.modMx_ok hs)
    exact State.tileFault_ok (State.modMx_ok hs)
  exact hs

theorem endPasses_ok {k : Nat} {c : Core} {f : Flit} {gone : List MxEntry} {s : State} (hs : s.Ok) :
    (endPasses k c f gone s).Ok := by
  unfold endPasses
  split
  · exact foldl_ok (fun _ _ ht => State.endPass_ok ht) hs
  exact hs

theorem senderFault_ok {s : State} {f : Flit} {fc : Nat} (hs : s.Ok) : (senderFault s f fc).Ok := by
  unfold senderFault
  split
  · exact endPasses_ok (State.setCore_ok _ _ hs)
  split
  · exact endPasses_ok (State.withSched_ok hs)
  exact hs

theorem spillFlit_ok {s : State} {k : Nat} {f : Flit} (hs : s.Ok) : (spillFlit s k f).Ok := by
  unfold spillFlit
  split
  · exact hs
  split
  · exact hs
  exact ite_ok (senderFault_ok (State.breakChain_ok hs)) (frameBytes_ok (State.withSched_ok hs))

theorem deliverFlit_ok {s : State} {k : Nat} {f : Flit} (hs : s.Ok) : OptOk (deliverFlit s k f) := by
  unfold deliverFlit
  split
  · exact ite_ok hs (spillFlit_ok hs)
  split
  · exact hs
  split
  · split
    · exact State.modMx_ok hs
    trivial
  exact hs

theorem deliverFirst_ok {s : State} {k retries : Nat} {l l' : List Flit} (hs : s.Ok) : (deliverFirst s k retries l l').Ok := by
  induction l' generalizing s k retries l hs with
  | nil =>
    unfold deliverFirst
    exact hs
  | cons x l' ih =>
    unfold deliverFirst
    dsimp only
    split
    · rename_i he
      refine OptOk.of_eq he ?_
      split
      · trivial
      exact deliverFlit_ok (State.modMx_ok hs)
    exact ih hs

theorem execBasinRowArrival_ok {k retries : Nat} {s : State} (hs : s.Ok) : Out.Ok (execBasinRowArrival k retries s) :=
  deliverFirst_ok hs

theorem breakPass_ok {crew ch : Nat} {x : Chain} {s : State} {k : Nat} (hs : s.Ok) : (breakPass crew ch x s k).Ok := by
  unfold breakPass
  dsimp only
  split
  · split
    · exact hs
    split
    · split
      · exact State.tileFault_ok hs
      exact hs
    exact hs
  split
  · exact hs
  split
  · split
    · exact State.tileFault_ok hs
    exact hs
  exact hs

theorem State.dropChain_ok {s : State} {crew ch : Nat} {x : Chain} (hs : s.Ok) : (s.dropChain crew ch x).Ok := by
  unfold State.dropChain
  refine foldl_ok (fun _ _ ht => ?_) hs
  split
  · exact ite_ok ht (State.setRecv_ok ht)
  exact ht

theorem execChainBroken_ok {crew ch : Nat} {s : State} (hs : s.Ok) : Out.Ok (execChainBroken crew ch s) := by
  unfold execChainBroken
  split
  · split
    · exact State.dropChain_ok (foldl_ok (fun _ _ ht => breakPass_ok ht) hs)
    exact hs
  exact hs

end Sys2Proof.Machine
end

section
/-! PROOFS. Blocks, frames, tasks and traps keep the canonical form. -/

namespace Sys2Proof.Machine

theorem fetchParcels_ok {io : Nat → Nat} {w : Who} {code n i : Nat} {ms : MemSys} (hms : ms.Ok) :
    (fetchParcels io w code n i ms).1.Ok := by
  induction n generalizing io w code i ms hms with
  | zero =>
    unfold fetchParcels
    exact hms
  | succ n ih =>
    unfold fetchParcels
    split
    · rename_i he
      replace he := MemSys.Ok.of_eq he (fetchParcel_ok _ _ _ _ hms)
      exact he
    rename_i he2
    replace he2 := MemSys.Ok.of_eq he2 (fetchParcel_ok _ _ _ _ hms)
    split
    · rename_i he3
      replace he3 := MemSys.Ok.of_eq he3 (ih he2)
      exact he3
    rename_i he4
    replace he4 := MemSys.Ok.of_eq he4 (ih he2)
    exact he4

theorem fetchBundle_ok {io : Nat → Nat} {w : Who} {code npar i : Nat} {ms : MemSys} (hms : ms.Ok) :
    (fetchBundle io w code npar i ms).1.Ok := by
  unfold fetchBundle
  split
  · exact hms
  split
  · rename_i he
    replace he := MemSys.Ok.of_eq he (fetchParcels_ok hms)
    exact he
  rename_i he2
  replace he2 := MemSys.Ok.of_eq he2 (fetchParcels_ok hms)
  dsimp only
  split
  · rename_i he3
    replace he3 := MemSys.Ok.of_eq he3 (fetchParcels_ok he2)
    exact he3
  rename_i he4
  replace he4 := MemSys.Ok.of_eq he4 (fetchParcels_ok he2)
  exact he4

theorem fetchBundles_ok {io : Nat → Nat} {w : Who} {code npar : Nat} {last : Bundle → Bool} {n i : Nat} {ms : MemSys}
    (hms : ms.Ok) : (fetchBundles io w code npar last n i ms).1.Ok := by
  induction n generalizing io w code npar last i ms hms with
  | zero =>
    unfold fetchBundles
    exact hms
  | succ n ih =>
    unfold fetchBundles
    split
    · rename_i he
      replace he := MemSys.Ok.of_eq he (fetchBundle_ok hms)
      exact he
    rename_i he2
    replace he2 := MemSys.Ok.of_eq he2 (fetchBundle_ok hms)
    split
    · exact he2
    split
    · rename_i he3
      replace he3 := MemSys.Ok.of_eq he3 (ih he2)
      exact he3
    rename_i he4
    replace he4 := MemSys.Ok.of_eq he4 (ih he2)
    exact he4

theorem takeChannel_ok {s : State} {k ch slot bidx : Nat} (hs : s.Ok) : (takeChannel s k ch slot bidx).Ok :=
  takeFault_ok _ _ (State.modCore_ok _ _ hs)

theorem takeRecorded_ok {s : State} {k : Nat} {r : Recorded} {slot bidx : Nat} (hs : s.Ok) :
    (takeRecorded s k r slot bidx).Ok := by
  unfold takeRecorded
  dsimp only
  split
  · exact takeNotice_ok _ _ _ _ hs
  · exact takeChannel_ok hs
  · split
    · exact takeChannel_ok hs
    exact takeFault_ok _ _ (State.modMx_ok hs)
  split
  · exact takeChannel_ok hs
  exact takeFault_ok _ _ (State.modCore_ok _ _ (State.tick_ok hs))

theorem refillRange_ok {s : State} {k : Nat} (hs : s.Ok) : (refillRange s k).1.Ok := by
  unfold refillRange
  dsimp only
  split
  · exact hs
  split
  · rename_i he
    replace he := MemSys.Ok.of_eq he (fetchBundles_ok hs.1)
    exact State.withMs_ok hs he
  rename_i he2
  replace he2 := MemSys.Ok.of_eq he2 (fetchBundles_ok hs.1)
  exact State.modCore_ok _ _ (State.withMs_ok hs he2)

theorem blockBundles_ok {s : State} {k : Nat} (hs : s.Ok) : (blockBundles s k).1.Ok :=
  ite_ms_fst_ok hs.1 (fetchBundles_ok hs.1)

theorem fetchFault_ok {s : State} {k : Nat} {f : XFault} (hs : s.Ok) : (fetchFault s k f).Ok :=
  takeFault_ok _ _ hs

theorem enterBlock_ok {s : State} {k : Nat} (hs : s.Ok) : (enterBlock s k).Ok := by
  unfold enterBlock
  dsimp only
  split
  · exact takeFault_ok _ _ (State.modCore_ok _ _ hs)
  split
  · rename_i he
    replace he := State.Ok.of_eq he (refillRange_ok hs)
    exact fetchFault_ok (State.modCore_ok _ _ he)
  rename_i he2
  replace he2 := State.Ok.of_eq he2 (refillRange_ok hs)
  split
  · exact fetchFault_ok (State.modCore_ok _ _ (State.withMs_ok he2 (blockBundles_ok he2)))
  split
  · exact takeFault_ok _ _ (State.modCore_ok _ _ (State.withMs_ok he2 (blockBundles_ok he2)))
  split
  · exact takeRecorded_ok (State.modCore_ok _ _ (State.withMs_ok he2 (blockBundles_ok he2)))
  split
  · exact State.modCore_ok _ _ (State.withMs_ok he2 (blockBundles_ok he2))
  exact ite_ok hs (State.modCore_ok _ _ (State.modCore_ok _ _ (State.withMs_ok he2 (blockBundles_ok he2))))

theorem execBlockEntry_ok {k : Nat} {s : State} (hs : s.Ok) : Out.Ok (execBlockEntry k s) := by
  unfold execBlockEntry
  dsimp only
  split
  · exact hs
  exact enterBlock_ok (State.modCore_ok _ _ hs)

theorem execBundlePass_ok {k : Nat} {s : State} (hs : s.Ok) : Out.Ok (execBundlePass k s) := by
  unfold execBundlePass
  dsimp only
  split
  · exact hs
  split
  · exact takeNotice_ok _ _ _ _ hs
  split
  · exact State.setCore_ok _ _ hs
  split
  · exact hs
  exact State.setCore_ok _ _ hs

theorem State.loadEarly_ok {s : State} {k : Nat} {h : Held} (hs : s.Ok) : (s.loadEarly k h).Ok := by
  unfold State.loadEarly
  split
  · dsimp only
    exact State.setCore_ok _ _ (State.withMs_ok hs (holeOr_ok (cachedLoad_ok _ _ _ _ _ _ _ hs.1) hs.1))
  exact hs

theorem State.acked_ok {s : State} {p : Unacked → Bool} (hs : s.Ok) : (s.acked p).Ok :=
  State.flushHeld_ok (State.withFab_ok hs)

theorem execResultLanding_ok {k id : Nat} {s : State} (hs : s.Ok) : Out.Ok (execResultLanding k id s) := by
  unfold execResultLanding
  dsimp only
  split
  · split
    · exact ite_ok (State.loadEarly_ok hs) hs
    exact State.setCore_ok _ _ hs
  split
  · exact ite_ok (State.modCore_ok _ _ (State.acked_ok hs)) hs
  split
  · exact State.acked_ok hs
  exact hs

theorem execDenialNotice_ok {k : Nat} {s : State} (hs : s.Ok) : Out.Ok (execDenialNotice k s) :=
  State.modCore_ok _ _ hs

theorem execPoisonNotice_ok {k : Nat} {s : State} (hs : s.Ok) : Out.Ok (execPoisonNotice k s) :=
  State.modCore_ok _ _ hs

theorem execWaitReady_ok {k : Nat} {s : State} (hs : s.Ok) : Out.Ok (execWaitReady k s) := by
  unfold execWaitReady
  dsimp only
  split
  · exact hs
  split
  · exact hs
  split
  · split
    · split
      · exact takeRecorded_ok (State.setCore_ok _ _ (performStores_ok hs))
      exact State.setCore_ok _ _ (performStores_ok hs)
    exact performStores_ok hs
  split
  · split
    · exact takeRecorded_ok (State.setCore_ok _ _ hs)
    exact State.setCore_ok _ _ hs
  exact hs

theorem fetchRange_ok {s : State} {k n : Nat} (hs : s.Ok) : (fetchRange s k n).1.Ok := by
  unfold fetchRange
  dsimp only
  split
  · rename_i he
    replace he := MemSys.Ok.of_eq he (fetchBundles_ok hs.1)
    exact he
  rename_i he2
  replace he2 := MemSys.Ok.of_eq he2 (fetchBundles_ok hs.1)
  exact he2

theorem commitBlock_ok {s : State} {k : Nat} (hs : s.Ok) : (commitBlock s k).Ok := by
  unfold commitBlock
  dsimp only
  split
  · exact takeRecorded_ok hs
  split
  · exact State.setCore_ok _ _ hs
  split
  · rename_i he
    replace he := MemSys.Ok.of_eq he (fetchRange_ok hs)
    exact takeFault_ok _ _ (State.withMs_ok hs he)
  · rename_i he2
    replace he2 := MemSys.Ok.of_eq he2 (fetchRange_ok hs)
    exact takeFault_ok _ _ (State.withMs_ok hs he2)
  rename_i he3
  replace he3 := MemSys.Ok.of_eq he3 (fetchRange_ok hs)
  exact State.setCore_ok _ _ (State.withMs_ok hs he3)

theorem State.frameRead_ok {s : State} {ctx core f off : Nat} (hs : s.Ok) : (s.frameRead ctx core f off).1.Ok :=
  thenSome_ok (State.frameGet_ok hs) (fun _ _ ht => ht)

theorem frameReads_ok {ctx core f n i : Nat} {s : State} (hs : s.Ok) : (frameReads ctx core f n i s).1.Ok := by
  induction n generalizing ctx core f i s hs with
  | zero =>
    unfold frameReads
    exact hs
  | succ n ih =>
    unfold frameReads
    exact thenSome_ok (State.frameRead_ok hs) (fun _ _ ht => thenSome_ok (ih ht) (fun _ _ ht2 => ht2))

theorem frameNumber_ok {s : State} {ctx core f off n : Nat} (hs : s.Ok) : (frameNumber s ctx core f off n).1.Ok :=
  thenSome_ok (frameReads_ok hs) (fun _ _ ht => ht)

theorem saveBlocks_ok {ctx core f : Nat} {get : Nat → Block × Bool} {n i j : Nat} {s : State} (hs : s.Ok) :
    (saveBlocks ctx core f get n i j s).1.Ok := by
  induction n generalizing ctx core f get i j s hs with
  | zero =>
    unfold saveBlocks
    exact hs
  | succ n ih =>
    unfold saveBlocks
    exact thenIf_ok (State.frameWrite_ok hs) (fun _ ht => ih ht)

theorem saveRows_ok {ctx core f : Nat} {l : List (Nat × Nat × Bool)} {s : State} (hs : s.Ok) :
    (saveRows ctx core f l s).1.Ok := by
  induction l generalizing ctx core f s hs with
  | nil =>
    unfold saveRows
    exact hs
  | cons x l ih =>
    unfold saveRows
    exact thenIf_ok (frameBytes_ok hs) (fun _ ht => ih ht)

theorem saveOpaque_ok {ctx core f : Nat} {l : List (Nat × Nat)} {s : State} (hs : s.Ok) : (saveOpaque ctx core f l s).1.Ok := by
  induction l generalizing ctx core f s hs with
  | nil =>
    unfold saveOpaque
    exact hs
  | cons x l ih =>
    unfold saveOpaque
    exact thenIf_ok (saveBlocks_ok (State.tick_ok hs)) (fun _ ht => ih ht)

theorem saveParts_ok {s : State} {c : Core} {t : Task} {k f fst resume : Nat} (hs : s.Ok) :
    (saveParts s c t k f fst resume).1.Ok :=
  thenIf_ok (saveOpaque_ok hs) (fun _ ht => thenIf_ok (saveBlocks_ok ht) (fun _ ht2 => thenIf_ok (saveBlocks_ok ht2) (fun _ ht3
    => thenIf_ok (saveBlocks_ok ht3) (fun _ ht4 => thenIf_ok (saveRows_ok ht4) (fun _ ht5 => thenIf_ok (frameBytes_ok ht5) (fun _
    ht6 => State.setFst_ok (State.setFrame_ok ht6)))))))

theorem saveTask_ok {s : State} {k f fst resume : Nat} (hs : s.Ok) : (saveTask s k f fst resume).1.Ok :=
  optElim_fst_ok (State.settleStores_ok (State.withMs_ok hs (MemSys.completeFlush_ok _ _ hs.1)))
    (fun _ => saveParts_ok (State.settleStores_ok (State.withMs_ok hs (MemSys.completeFlush_ok _ _ hs.1))))

theorem restoreRows_ok {ctx core f j : Nat} {l : List (Nat × Option SlotHalf)} {x : RecvSlot} {s : State} (hs : s.Ok) :
    (restoreRows ctx core f j l x s).1.Ok := by
  induction l generalizing ctx core f j x s hs with
  | nil =>
    unfold restoreRows
    exact hs
  | cons x l ih =>
    unfold restoreRows
    exact thenSome_ok (frameNumber_ok hs) (fun _ _ ht => ih ht)

theorem restoreSlot_ok {ctx core f j : Nat} {x : Option RecvSlot} {s : State} (hs : s.Ok) :
    (restoreSlot ctx core f j x s).1.Ok := by
  unfold restoreSlot
  split
  · exact hs
  exact thenSome_ok (restoreRows_ok hs) (fun _ _ ht => ht)

theorem restoreSlots_ok {ctx core f n : Nat} {l : List (Option RecvSlot)} {s : State} (hs : s.Ok) :
    (restoreSlots ctx core f n l s).1.Ok := by
  induction l generalizing ctx core f n s hs with
  | nil =>
    unfold restoreSlots
    exact hs
  | cons x l ih =>
    unfold restoreSlots
    exact thenSome_ok (restoreSlot_ok hs) (fun _ _ ht => thenSome_ok (ih ht) (fun _ _ ht2 => ht2))

theorem readOpaque_ok {ctx core f : Nat} {l : List (Nat × Nat)} {s : State} (hs : s.Ok) : (readOpaque ctx core f l s).1.Ok := by
  induction l generalizing ctx core f s hs with
  | nil =>
    unfold readOpaque
    exact hs
  | cons x l ih =>
    unfold readOpaque
    exact thenSome_ok (frameReads_ok hs) (fun _ _ ht => thenSome_ok (ih ht) (fun _ _ ht2 => ht2))

theorem restoredCore_ok {s : State} {ctx k f : Nat} {old : Core} (hs : s.Ok) : (restoredCore s ctx k f old).1.Ok :=
  thenSome_ok (readOpaque_ok hs) (fun _ _ ht => thenSome_ok (frameReads_ok ht) (fun _ _ ht2 => thenSome_ok (frameReads_ok ht2)
    (fun _ _ ht3 => thenSome_ok (frameReads_ok ht3) (fun _ _ ht4 => thenSome_ok (restoreSlots_ok ht4) (fun _ _ ht5 => thenSome_ok
    (frameReads_ok ht5) (fun _ _ ht6 => ht6))))))

theorem State.modCtl_ok {s : State} {k : Nat} {f : Control → Control} (hs : s.Ok) : (s.modCtl k f).Ok :=
  State.modCore_ok _ _ hs

theorem State.barrierRelease_ok {s : State} {k : Nat} (hs : s.Ok) : (s.barrierRelease k).Ok :=
  State.settleStores_ok (State.withMs_ok hs (MemSys.drainMerge_ok _ _ hs.1))

theorem State.arrive_ok {s : State} {k : Nat} (hs : s.Ok) : (s.arrive k).Ok := by
  unfold State.arrive
  dsimp only
  split
  · exact State.modCrew_ok (State.modCore_ok _ _ hs)
  exact State.modCore_ok _ _ hs

theorem leaves_ok {s : State} {k : Nat} {h : HOp} (hs : s.Ok) : OptOk (leaves s k h) := by
  unfold leaves
  split
  · exact State.modCore_ok _ _ hs
  · exact State.modCore_ok _ _ hs
  trivial

theorem diverts_ok {s : State} {k : Nat} {h : HOp} (hs : s.Ok) : OptOk (diverts s k h) := by
  unfold diverts
  split
  · exact takeTrap_ok _ _ _ _ (State.modCtl_ok hs)
  exact leaves_ok hs

theorem endsIn_ok {s : State} {k : Nat} {h : HOp} {p : Phase} (hs : s.Ok) : (endsIn s k h p).Ok :=
  State.modCtl_ok hs

theorem endsWith_ok {s : State} {k : Nat} {h : HOp} (hs : s.Ok) : OptOk (endsWith s k h) := by
  unfold endsWith
  cases h.endPhase with
  | none => exact diverts_ok hs
  | some p => exact endsIn_ok hs

theorem runFinals_ok {s : State} {k : Nat} {l : List HOp} (hs : s.Ok) : (runFinals s k l).Ok := by
  induction l generalizing s k hs with
  | nil =>
    unfold runFinals
    exact State.modCtl_ok hs
  | cons x l ih =>
    unfold runFinals
    exact optGetD_ok (endsWith_ok hs) (ih hs)

theorem afterRelease_ok {s : State} {k : Nat} (hs : s.Ok) : (afterRelease s k).Ok :=
  ite_ok hs (ite_ok (State.modCtl_ok hs) (runFinals_ok hs))

theorem State.popStore_ok {s : State} {k : Nat} (hs : s.Ok) : (s.popStore k).Ok := State.modCtl_ok hs

theorem performBar_ok {s : State} {k : Nat} (hs : s.Ok) : (performBar s k).Ok :=
  ite_ok (State.modCtl_ok (State.arrive_ok (State.barrierRelease_ok hs))) (afterRelease_ok (State.popStore_ok
    (State.barrierRelease_ok hs)))

theorem performHead_ok {s : State} {k : Nat} {p : HOp → Bool} (hs : s.Ok) : (performHead s k p).Ok := by
  unfold performHead
  split
  · split
    · split
      · exact performBar_ok hs
      split
      rename_i he
      replace he := State.Ok.of_eq he (State.retranslate_ok hs)
      split
      · rename_i he2
        replace he2 := OptOk.of_eq he2 (performHeld_ok (State.popStore_ok he))
        exact afterRelease_ok he2
      exact State.modCtl_ok he
    exact hs
  exact hs

theorem execAccessAtTarget_ok {k : Nat} {s : State} (hs : s.Ok) : Out.Ok (execAccessAtTarget k s) :=
  ite_ok (afterRelease_ok hs) (performHead_ok hs)

theorem execAtomicAtHome_ok {k : Nat} {s : State} (hs : s.Ok) : Out.Ok (execAtomicAtHome k s) :=
  performHead_ok hs

theorem MemSys.icInvalidate_ok {ms : MemSys} {base len : Nat} (hms : ms.Ok) : (ms.icInvalidate base len).Ok :=
  hms

theorem execIcinvComplete_ok {k : Nat} {s : State} (hs : s.Ok) : Out.Ok (execIcinvComplete k s) := by
  unfold execIcinvComplete
  split
  · split
    · split
      · exact hs
      exact afterRelease_ok (State.popStore_ok (State.withMs_ok hs (MemSys.icInvalidate_ok hs.1)))
    exact hs
  exact hs

theorem execBlockCommit_ok {k : Nat} {s : State} (hs : s.Ok) : Out.Ok (execBlockCommit k s) := by
  unfold execBlockCommit
  split
  · exact afterRelease_ok (commitBlock_ok hs)
  exact hs

theorem execIterationBoundary_ok {k : Nat} {s : State} (hs : s.Ok) : Out.Ok (execIterationBoundary k s) := by
  unfold execIterationBoundary
  split
  · exact runFinals_ok (State.modCore_ok _ _ hs)
  exact hs

theorem dropReady_ok {n : Nat} {s : State} {e : Nat × List Ready} (hs : s.Ok) : (dropReady n s e).Ok :=
  ite_ok hs (State.setReady_ok (State.share_ok hs))

theorem dropCrew_ok {n : Nat} {s : State} {c : Crew} (hs : s.Ok) : (dropCrew n s c).Ok :=
  ite_ok (State.share_ok hs) hs

theorem dropPlaced_ok {n : Nat} {s : State} {k : Nat} (hs : s.Ok) : (dropPlaced n s k).Ok := by
  unfold dropPlaced
  split
  · exact ite_ok (State.freeCore_ok (State.modCrew_ok (State.share_ok hs))) hs
  exact hs

theorem dropLaunch_ok {s : State} {n fc aux : Nat} (hs : s.Ok) : (dropLaunch s n fc aux).Ok :=
  foldl_ok (fun _ _ ht => dropPlaced_ok ht) (State.withSched_ok (foldl_ok (fun _ _ ht2 => dropCrew_ok ht2) (foldl_ok (fun _ _ ht3
    => dropReady_ok ht3) (State.setStream_ok hs))))

theorem failRecord_ok {s : State} {k : Nat} {t : Task} {status aux : Nat} (hs : s.Ok) : (failRecord s k t status aux).Ok :=
  completeRecord_ok (State.freeCore_ok hs)

theorem recordTask_ok {s : State} {k : Nat} {t : Task} (hs : s.Ok) : (recordTask s k t).1.Ok := by
  unfold recordTask
  split
  rename_i he
  replace he := State.Ok.of_eq he (State.ctxWho_ok hs)
  split
  · rename_i he2
    replace he2 := MemSys.Ok.of_eq he2 (recordRead_ok he.1)
    dsimp only
    exact State.withMs_ok he he2
  rename_i he3
  replace he3 := MemSys.Ok.of_eq he3 (recordRead_ok he.1)
  dsimp only
  split
  · dsimp only
    exact State.withMs_ok he he3
  split
  · dsimp only
    exact State.withMs_ok he he3
  dsimp only
  exact State.withMs_ok he he3

theorem taskHeader_ok {s : State} {k : Nat} {t : Task} (hs : s.Ok) : (taskHeader s k t).1.Ok := by
  unfold taskHeader
  dsimp -iota only
  split
  · dsimp only
    exact hs
  split
  rename_i he
  replace he := State.Ok.of_eq he (State.ctxWho_ok hs)
  split
  · rename_i he2
    replace he2 := MemSys.Ok.of_eq he2 (readHeader_ok _ _ he.1)
    dsimp only
    exact State.withMs_ok he he2
  · rename_i he3
    replace he3 := MemSys.Ok.of_eq he3 (readHeader_ok _ _ he.1)
    dsimp only
    exact State.withMs_ok he he3
  rename_i he4
  replace he4 := MemSys.Ok.of_eq he4 (readHeader_ok _ _ he.1)
  dsimp only
  exact State.withMs_ok he he4

theorem startTask_ok {s : State} {k : Nat} {t : Task} {entry : Nat} (hs : s.Ok) : (startTask s k t entry).Ok := by
  unfold startTask
  split
  · rename_i he
    replace he := State.Ok.of_eq he (taskHeader_ok hs)
    exact ite_ok (failRecord_ok he) (dropLaunch_ok he)
  rename_i he2
  replace he2 := State.Ok.of_eq he2 (taskHeader_ok hs)
  split
  rename_i he3
  replace he3 := State.Ok.of_eq he3 (State.readCtx_ok _ he2)
  exact State.applyCore_ok (State.markRecord_ok (State.modCore_ok _ _ he3))

theorem execTaskStart_ok {k : Nat} {s : State} (hs : s.Ok) : Out.Ok (execTaskStart k s) := by
  unfold execTaskStart
  dsimp only
  split
  · exact hs
  split
  · exact hs
  split
  · split
    · rename_i he
      replace he := State.Ok.of_eq he (recordTask_ok hs)
      exact failRecord_ok he
    rename_i he2
    replace he2 := State.Ok.of_eq he2 (recordTask_ok hs)
    exact startTask_ok he2
  exact startTask_ok hs

theorem State.endInCrew_ok {s : State} {t : Task} (hs : s.Ok) : (s.endInCrew t).Ok := by
  unfold State.endInCrew
  split
  · exact hs
  exact State.withSched_ok (State.modCrew_ok hs)

theorem execRecordComplete_ok {k : Nat} {s : State} (hs : s.Ok) : Out.Ok (execRecordComplete k s) := by
  unfold execRecordComplete
  dsimp only
  split
  · exact forcedKill_ok hs
  · split
    · exact hs
    exact ite_ok (completeRecord_ok (State.freeCore_ok (State.endInCrew_ok (State.leaveChains_ok (State.withMs_ok hs
      (MemSys.completeFlush_ok _ _ hs.1)))))) (completeMember_ok (State.freeCore_ok (State.endInCrew_ok (State.leaveChains_ok
      (State.withMs_ok hs (MemSys.completeFlush_ok _ _ hs.1))))))
  exact hs

theorem execBarrierComplete_ok {crew : Nat} {s : State} (hs : s.Ok) : Out.Ok (execBarrierComplete crew s) := by
  unfold execBarrierComplete
  split
  · exact hs
  split
  · exact foldl_ok (fun _ _ ht => ite_ok (afterRelease_ok (State.modCtl_ok (State.popStore_ok ht))) ht) (State.modCrew_ok hs)
  exact hs

theorem saveParked_ok {s : State} {k f : Nat} (hs : s.Ok) : (saveParked s k f).Ok := by
  unfold saveParked
  split
  · rename_i he
    replace he := State.Ok.of_eq he (saveTask_ok hs)
    exact State.freeCore_ok he
  rename_i he2
  replace he2 := State.Ok.of_eq he2 (saveTask_ok hs)
  exact forcedKill_ok he2

theorem execPreemptionTaken_ok {k : Nat} {s : State} (hs : s.Ok) : Out.Ok (execPreemptionTaken k s) := by
  unfold execPreemptionTaken
  dsimp only
  split
  · exact hs
  split
  · rename_i he
    replace he := State.Ok.of_eq he (freeFrame_ok hs)
    exact forcedKill_ok he
  rename_i he2
  replace he2 := State.Ok.of_eq he2 (freeFrame_ok hs)
  split
  · rename_i he3
    replace he3 := State.Ok.of_eq he3 (State.setFst_ok he2)
    exact forcedKill_ok he3
  rename_i he4
  replace he4 := State.Ok.of_eq he4 (State.setFst_ok he2)
  split
  · exact saveParked_ok (State.setFrame_ok (State.forsake_ok he4))
  split
  · exact forcedKill_ok (State.setFrame_ok (State.forsake_ok he4))
  exact State.modCore_ok _ _ (State.setFrame_ok (State.forsake_ok he4))

theorem execStubTimeout_ok {k : Nat} {s : State} (hs : s.Ok) : Out.Ok (execStubTimeout k s) := by
  unfold execStubTimeout
  dsimp only
  split
  · split
    · exact forcedKill_ok hs
    exact hs
  exact hs

theorem execYieldSave_ok {k : Nat} {s : State} (hs : s.Ok) : Out.Ok (execYieldSave k s) := by
  unfold execYieldSave
  dsimp only
  split
  · split
    · split
      · rename_i he
        replace he := State.Ok.of_eq he (saveTask_ok (performStores_ok hs))
        exact State.freeCore_ok he
      rename_i he2
      replace he2 := State.Ok.of_eq he2 (saveTask_ok (performStores_ok hs))
      exact forcedKill_ok he2
    exact performStores_ok hs
  exact hs

theorem goOn_ok {s : State} {k resume : Nat} {saved : Core} (hs : s.Ok) : (goOn s k resume saved).Ok :=
  ite_ok (State.modCore_ok _ _ hs) (ite_ok (State.modCtl_ok hs) (State.modCore_ok _ _ (State.modCtl_ok hs)))

theorem execFrameResume_ok {k : Nat} {s : State} (hs : s.Ok) : Out.Ok (execFrameResume k s) := by
  unfold execFrameResume
  split
  · exact hs
  split
  · exact hs
  split
  rename_i he
  replace he := State.Ok.of_eq he (State.fst_ok hs)
  split
  · exact State.setFrame_ok he
  dsimp only
  split
  · rename_i he2
    replace he2 := State.Ok.of_eq he2 (thenSome_ok (moveWays_ok (State.withSched_ok he)) (fun _ _ ht => restoredCore_ok ht))
    exact forcedKill_ok (State.setCore_ok _ _ he2)
  rename_i he3
  replace he3 := State.Ok.of_eq he3 (thenSome_ok (moveWays_ok (State.withSched_ok he)) (fun _ _ ht2 => restoredCore_ok ht2))
  exact goOn_ok (State.setFrame_ok (State.setFst_ok (State.applyCore_ok (State.setCore_ok _ _ he3))))

theorem execParkInPlace_ok {k : Nat} {s : State} (hs : s.Ok) : Out.Ok (execParkInPlace k s) := by
  unfold execParkInPlace
  dsimp only
  split
  · exact State.markRecord_ok (State.modCtl_ok hs)
  exact hs

end Sys2Proof.Machine
end

section
/-! PROOFS. Memory's events, the fabric and the management messages keep the canonical form. -/

namespace Sys2Proof.Machine

theorem setMisses_ok {ms : MemSys} {die : Nat} {l : List Miss} (hms : ms.Ok) : (setMisses ms die l).Ok := hms

theorem resolveMiss_ok {s : State} {die : Nat} {l : List Miss} {m : Miss} (hs : s.Ok) : (resolveMiss s die l m).Ok := by
  unfold resolveMiss
  split
  · rename_i he
    replace he := MemSys.Ok.of_eq he (lookupLeaf_ok _ _ _ _ hs.1)
    exact State.withMs_ok hs (setMisses_ok he)
  rename_i he2
  replace he2 := MemSys.Ok.of_eq he2 (lookupLeaf_ok _ _ _ _ hs.1)
  exact State.withMs_ok hs (setMisses_ok he2)

theorem execTableWalk_ok {die : Nat} {s : State} (hs : s.Ok) : Out.Ok (execTableWalk die s) := by
  unfold execTableWalk
  dsimp only
  split
  · exact resolveMiss_ok hs
  exact State.withMs_ok hs (setMisses_ok hs.1)

theorem retryMiss_ok {s : State} {die : Nat} {l : List Miss} {m : Miss} (hs : s.Ok) : (retryMiss s die l m).Ok :=
  ite_ok (resolveMiss_ok hs) (State.withMs_ok hs (setMisses_ok hs.1))

theorem execWalkQueueRetry_ok {die : Nat} {s : State} (hs : s.Ok) : Out.Ok (execWalkQueueRetry die s) := by
  unfold execWalkQueueRetry
  dsimp only
  split
  · exact retryMiss_ok hs
  exact State.withMs_ok hs (setMisses_ok hs.1)

theorem observeUnit_ok {s : State} {i : Inval} {u : Nat} (hs : s.Ok) : (observeUnit s i u).Ok :=
  State.withMs_ok hs (MemSys.observe_ok _ _ _ hs.1)

theorem execInvalidationObserved_ok {id unit : Nat} {s : State} (hs : s.Ok) : Out.Ok (execInvalidationObserved id unit s) := by
  unfold execInvalidationObserved
  split
  · split
    · exact observeUnit_ok hs
    exact hs
  exact hs

theorem execInvalidationComplete_ok {id : Nat} {s : State} (hs : s.Ok) : Out.Ok (execInvalidationComplete id s) := by
  unfold execInvalidationComplete
  split
  · split
    · exact hs
    exact State.withMs_ok hs (MemSys.finishInval_ok _ _ hs.1)
  exact hs

theorem execCopyOnWrite_ok {k va : Nat} {s : State} (hs : s.Ok) : Out.Ok (execCopyOnWrite k va s) := by
  unfold execCopyOnWrite
  split
  · exact State.withMs_ok hs (translateFor_ok _ _ _ _ hs.1)
  exact hs

theorem execEntryInvalidation_ok {pa : Nat} {s : State} (hs : s.Ok) : Out.Ok (execEntryInvalidation pa s) :=
  State.withMs_ok hs (MemSys.entryInvalidate_ok _ _ hs.1)

theorem execL1Fill_ok {k va : Nat} {s : State} (hs : s.Ok) : Out.Ok (execL1Fill k va s) := by
  unfold execL1Fill
  split
  · dsimp only
    split
    · rename_i he
      replace he := MemSys.Ok.of_eq he (translate_ok _ _ _ _ hs.1)
      split
      · exact State.withMs_ok hs he
      exact State.withMs_ok hs (ite_ms_ok he (cachedLoad_ok _ _ _ _ _ _ _ he))
    rename_i he2
    replace he2 := MemSys.Ok.of_eq he2 (translate_ok _ _ _ _ hs.1)
    exact State.withMs_ok hs he2
  exact hs

theorem execPackWrite_ok {p : Nat} {s : State} (hs : s.Ok) : Out.Ok (execPackWrite p s) :=
  State.withMs_ok hs (MemSys.packWrite_ok _ _ hs.1)

theorem MemSys.countCorrected_ok {ms : MemSys} {u : EccUnit} {n : Nat} (hms : ms.Ok) : (ms.countCorrected u n).Ok :=
  hms

theorem MemSys.spoilLine_ok {ms : MemSys} {k line : Nat} (hms : ms.Ok) : (ms.spoilLine k line).Ok :=
  MemSys.setLines_ok _ _ _ hms

theorem MemSys.spoilILine_ok {ms : MemSys} {k i : Nat} (hms : ms.Ok) : (ms.spoilILine k i).Ok := hms

theorem MemSys.spoilTlb_ok {ms : MemSys} {u i : Nat} (hms : ms.Ok) : (ms.spoilTlb u i).Ok := ite_ms_ok hms hms

theorem MemSys.spoilFrame_ok {ms : MemSys} {sl i : Nat} (hms : ms.Ok) : (ms.spoilFrame sl i).Ok := by
  unfold MemSys.spoilFrame
  split
  · exact ite_ms_ok (MemSys.setPoison_ok _ _ _ hms) (MemSys.setSlice_ok _ _ _ hms)
  exact hms

theorem execEccError_ok {u : EccUnit} {n : Nat} {corrected : Bool} {s : State} (hs : s.Ok) :
    Out.Ok (execEccError u n corrected s) := by
  unfold execEccError
  split
  · exact State.withMs_ok hs (MemSys.countCorrected_ok hs.1)
  split
  · exact State.withMs_ok hs (ite_ms_ok (MemSys.setPoison_ok _ _ _ hs.1) hs.1)
  · exact State.withMs_ok hs (ite_ms_ok (foldl_ms_ok (fun _ _ ht => MemSys.setPoison_ok _ _ _ ht) hs.1) hs.1)
  · exact State.withMs_ok hs (MemSys.spoilLine_ok hs.1)
  · exact State.withMs_ok hs (MemSys.spoilILine_ok hs.1)
  · exact State.withMs_ok hs (MemSys.spoilTlb_ok hs.1)
  · exact State.withMs_ok hs (MemSys.spoilFrame_ok hs.1)
  exact State.modCore_ok _ _ (State.tick_ok hs)

theorem execHbmScrub_ok {block : Nat} {s : State} (hs : s.Ok) : Out.Ok (execHbmScrub block s) := by
  unfold execHbmScrub
  split
  · exact State.withMs_ok (State.tick_ok hs) (MemSys.countCorrected_ok hs.1)
  exact State.tick_ok hs

theorem MemSys.checkFrom_ok {ms : MemSys} {tn die mid pa : Nat} {k : AccessKind} (hms : ms.Ok) :
    (ms.checkFrom tn die mid pa k).1.Ok := by
  unfold MemSys.checkFrom
  split
  · exact MemSys.deny_ok _ _ _ _ _ _ hms
  · exact MemSys.deny_ok _ _ _ _ _ _ hms
  exact ite_ms_fst_ok (MemSys.cacheWindows_ok _ _ _ hms) (MemSys.deny_ok _ _ _ _ _ _ (MemSys.cacheWindows_ok _ _ _ hms))

theorem MemSys.writeFrom_ok {ms : MemSys} {die : Nat} {packed bad : Bool} {data : Nat} {p : Piece} (hms : ms.Ok) :
    (ms.writeFrom die packed bad data p).Ok :=
  foldl_ms_ok (fun _ _ ht => MemSys.putHome_ok _ _ _ _ _ _ _ (MemSys.openHome_ok _ _ _ _ _ ht)) hms

theorem MemSys.readFrom_ok {ms : MemSys} {die : Nat} {p : Piece} (hms : ms.Ok) : (ms.readFrom die p).Ok :=
  foldl_ms_ok (fun _ _ ht => MemSys.visit_ok _ _ _ _ _ (MemSys.recall_ok _ _ ht)) hms

theorem State.writeRegsFrom_ok {s : State} {d mid data : Nat} {p : Piece} (hs : s.Ok) : (s.writeRegsFrom d mid data p).1.Ok := by
  unfold State.writeRegsFrom
  split
  · exact State.withMs_ok hs (MemSys.deny_ok _ _ _ _ _ _ hs.1)
  exact State.regWrites_ok hs

theorem State.performFrom_ok {s : State} {die mid : Nat} {write packed bad : Bool} {data : Nat} {p : Piece} (hs : s.Ok) :
    (s.performFrom die mid write packed bad data p).1.Ok := by
  unfold State.performFrom
  split
  · exact State.withMs_ok hs (ite_ms_ok (MemSys.writeFrom_ok hs.1) (MemSys.readFrom_ok hs.1))
  · split
    · exact State.writeRegsFrom_ok hs
    exact hs
  exact hs

theorem piecesFrom_ok {tn die mid : Nat} {k : AccessKind} {packed bad : Bool} {data : Nat} {l : List Piece} {s : State}
    (hs : s.Ok) : (piecesFrom tn die mid k packed bad data l s).1.Ok := by
  induction l generalizing tn die mid k packed bad data s hs with
  | nil =>
    unfold piecesFrom
    exact hs
  | cons x l ih =>
    unfold piecesFrom
    split
    rename_i he
    replace he := MemSys.Ok.of_eq he (MemSys.checkFrom_ok hs.1)
    dsimp only
    refine ih ?_
    split
    · exact State.performFrom_ok (State.withMs_ok hs he)
    exact State.withMs_ok hs he

theorem completions_ok {s : State} {q lo hi : Nat} (hs : s.Ok) : (completions s q lo hi).1.Ok := by
  unfold completions
  split
  rename_i he
  replace he := MemSys.Ok.of_eq he (MemSys.hwRead_ok _ _ _ hs.1)
  dsimp only
  exact State.withMs_ok hs he

theorem endCommands_ok {s : State} {lo hi : Nat} (hs : s.Ok) : (endCommands s lo hi).Ok := by
  unfold endCommands
  refine foldl_ok (fun _ _ ht => ?_) hs
  split
  rename_i he
  replace he := State.Ok.of_eq he (completions_ok ht)
  exact ite_ok (State.withSto_ok he) he

theorem State.completeRead_ok {s : State} {port rid : Nat} {ps : List Piece} {abort : Bool} (hs : s.Ok) :
    (s.completeRead port rid ps abort).Ok :=
  State.withPcie_ok (State.tick_ok hs)

theorem State.denyPieces_ok {s : State} {tn mid : Nat} {kind : AccessKind} {ps : List Piece} (hs : s.Ok) :
    (s.denyPieces tn mid kind ps).Ok :=
  foldl_ok (fun _ _ ht => State.withMs_ok ht (MemSys.deny_ok _ _ _ _ _ _ ht.1)) hs

theorem execPcieRequesterAccess_ok {port rid pa len : Nat} {write : Bool} {data : BitVec 1024} {s : State} (hs : s.Ok) :
    Out.Ok (execPcieRequesterAccess port rid pa len write data s) := by
  unfold execPcieRequesterAccess
  split
  · exact hs
  dsimp only
  split
  · refine foldl_ok (fun _ _ ht => endCommands_ok ht) ?_
    split
    · exact State.denyPieces_ok hs
    exact piecesFrom_ok hs
  refine State.completeRead_ok ?_
  split
  · exact State.denyPieces_ok hs
  exact piecesFrom_ok hs

theorem execFabricRemoteAccess_ok {link dev pa len : Nat} {kind : AccessKind} {mode : PackMode} {data : BitVec 1024} {s : State}
    (hs : s.Ok) : Out.Ok (execFabricRemoteAccess link dev pa len kind mode data s) := by
  unfold execFabricRemoteAccess
  split
  · exact hs
  split
  rename_i he
  replace he := State.Ok.of_eq he (piecesFrom_ok (State.tick_ok hs))
  exact foldl_ok (fun _ _ ht => State.send_ok ht) he

theorem State.discard_ok {s : State} {m : Msg} (hs : s.Ok) : (s.discard m).Ok := State.send_ok hs

theorem fabricArrival_ok {s : State} {m : Msg} {type : Nat} {act : State → State} (ha : ∀ t, t.Ok → (act t).Ok) (hs : s.Ok) :
    Out.Ok (fabricArrival s m type act) := by
  unfold fabricArrival
  split
  · exact hs
  split
  · exact State.discard_ok hs
  exact ha _ (State.heard_ok hs)

theorem execUnknownMessageType_ok {m : Msg} {s : State} (hs : s.Ok) : Out.Ok (execUnknownMessageType m s) := by
  unfold execUnknownMessageType
  split
  · exact State.discard_ok hs
  exact hs

theorem execLaunch_ok {link : Nat} {m : Msg} {s : State} (hs : s.Ok) : Out.Ok (execLaunch link m s) := by
  unfold execLaunch
  refine fabricArrival_ok (fun _ ht => ?_) hs
  dsimp -iota only
  split
  rename_i he
  replace he := State.Ok.of_eq he (State.streamEntry_ok ht)
  split
  rename_i he2
  replace he2 := State.Ok.of_eq he2 (State.ctxWho_ok he)
  split
  rename_i he3
  replace he3 := State.Ok.of_eq he3 (appendLaunch_ok he2)
  exact ite_ok he3 (State.send_ok he3)

theorem execComplete_ok {m : Msg} {s : State} (hs : s.Ok) : Out.Ok (execComplete m s) :=
  fabricArrival_ok (fun _ ht => ite_ok ht (ite_ok (State.withFab_ok ht) ⟨MemSys.hwWrite_ok _ _ _ _ ht.1, ht.2⟩)) hs

theorem State.deniedBy_ok {s : State} {u : Unacked} (hs : s.Ok) : (s.deniedBy u).Ok := by
  unfold State.deniedBy
  dsimp only
  split
  · exact State.endCopy_ok hs
  · exact State.modCore_ok _ _ hs
  exact ite_ok (State.modCore_ok _ _ hs) (State.modCore_ok _ _ hs)

theorem execFault_ok {m : Msg} {s : State} (hs : s.Ok) : Out.Ok (execFault m s) := by
  unfold execFault
  refine fabricArrival_ok (fun _ ht => ?_) hs
  split
  · exact ht
  split
  · exact ht
  exact State.deniedBy_ok (State.flushHeld_ok (State.withFab_ok ht))

theorem execLinkLaneShed_ok {link : Nat} {s : State} (hs : s.Ok) : Out.Ok (execLinkLaneShed link s) := by
  unfold execLinkLaneShed
  split
  · exact hs
  exact State.withFab_ok hs

theorem execLinkResume_ok {link : Nat} {s : State} (hs : s.Ok) : Out.Ok (execLinkResume link s) := by
  unfold execLinkResume
  dsimp only
  split
  · exact hs
  exact State.flushHeld_ok (State.withFab_ok hs)

theorem execLinkDown_ok {link : Nat} {s : State} (hs : s.Ok) : Out.Ok (execLinkDown link s) := by
  unfold execLinkDown
  dsimp only
  split
  · exact hs
  split
  · exact State.flushHeld_ok (foldl_ok (fun _ _ ht => State.linkLost_ok ht) (State.withFab_ok hs))
  exact foldl_ok (fun _ _ ht2 => State.send_ok ht2) (State.flushHeld_ok (foldl_ok (fun _ _ ht3 => State.linkLost_ok ht3)
    (State.withFab_ok hs)))

theorem State.windowWrite_ok {s : State} {off n v : Nat} (hs : s.Ok) : (s.windowWrite off n v).Ok :=
  ite_ok (State.withMs_ok hs (MemSys.hwWrite_ok _ _ _ _ hs.1)) hs

theorem State.recordAddr_ok {s : State} {ctx va : Nat} {sup : Bool} (hs : s.Ok) : (s.recordAddr ctx va sup).1.Ok := by
  unfold State.recordAddr
  split
  rename_i he
  replace he := State.Ok.of_eq he (State.ctxWho_ok hs)
  split
  · rename_i he2
    replace he2 := MemSys.Ok.of_eq he2 (translate_ok _ _ _ _ he.1)
    dsimp only
    exact State.withMs_ok he he2
  rename_i he3
  replace he3 := MemSys.Ok.of_eq he3 (translate_ok _ _ _ _ he.1)
  dsimp only
  exact State.withMs_ok he he3

theorem queuedLaunches_ok {n ctx i j : Nat} {s : State} (hs : s.Ok) : (queuedLaunches n ctx i j s).1.Ok := by
  obtain ⟨g, hg, hgs⟩ : ∃ g, recordRead = g ∧ ∀ ms w va u, ms.Ok → (g ms w va u).1.Ok
    := ⟨_, rfl, fun _ _ _ _ hm => recordRead_ok hm⟩
  obtain ⟨c, hc, hcs⟩ : ∃ c, State.ctxWho = c ∧ ∀ s a b d, s.Ok → (c s a b d).1.Ok
    := ⟨_, rfl, fun _ _ _ _ ht => State.ctxWho_ok ht⟩
  delta queuedLaunches queuedLaunches._f
  rw [hg, hc]
  induction i generalizing s j with
  | zero => exact hs
  | succ i ih =>
    show (ite _ _ _ : State × List Listed).1.Ok
    split
    · exact hs
    split
    rename_i he
    replace he := State.Ok.of_eq he (hcs _ _ _ _ hs)
    split
    · rename_i he2
      exact State.withMs_ok he (.of_eq he2 (hgs _ _ _ _ he.1))
    · rename_i he2
      exact ih (State.withMs_ok he (.of_eq he2 (hgs _ _ _ _ he.1)))

theorem streamLaunches_ok {s : State} {n : Nat} (hs : s.Ok) : (streamLaunches s n).1.Ok := by
  unfold streamLaunches
  split
  rename_i he
  replace he := State.Ok.of_eq he (State.streamEntry_ok hs)
  split
  rename_i he2
  split
  rename_i he3
  dsimp only
  refine .of_eq he3 ?_
  refine queuedLaunches_ok ?_
  refine .of_eq he2 ?_
  split
  · split
    rename_i he4
    replace he4 := State.Ok.of_eq he4 (State.recordAddr_ok he)
    dsimp only
    exact he4
  dsimp only
  exact he

theorem listStream_ok {r : State × List Listed} {n : Nat} (hr : r.1.Ok) : (listStream r n).1.Ok := by
  obtain ⟨g, hg, hgs⟩ : ∃ g, streamLaunches = g ∧ ∀ s n, s.Ok → (g s n).1.Ok := ⟨_, rfl, fun _ _ ht => streamLaunches_ok ht⟩
  obtain ⟨f, hf⟩ : ∃ f, listStream = f := ⟨_, rfl⟩
  rw [hf]
  delta listStream at hf
  rw [hg] at hf
  subst hf
  exact hgs _ _ hr

theorem launchList_ok {s : State} (hs : s.Ok) : (launchList s).1.Ok :=
  foldl_fst_ok (fun _ _ ht => listStream_ok ht) hs

theorem copyBlock_ok {ctx core f off : Nat} {s : State} {i : Nat} (hs : s.Ok) : (copyBlock ctx core f off s i).Ok :=
  optElim_ok (State.frameRead_ok hs) (fun _ => State.windowWrite_ok (State.frameRead_ok hs))

theorem copyFrame_ok {ctx core f off : Nat} {s : State} (hs : s.Ok) : (copyFrame ctx core f off s).Ok :=
  foldl_ok (fun _ _ ht => copyBlock_ok ht) hs

theorem writeList_ok {l : List Listed} {n : Nat} {s : State} (hs : s.Ok) : (writeList l n s).Ok := by
  induction l generalizing n s hs with
  | nil =>
    unfold writeList
    exact hs
  | cons x l ih =>
    unfold writeList
    exact ih (State.windowWrite_ok hs)

theorem writeImage_ok {s : State} {ls : List Listed} (hs : s.Ok) : (writeImage s ls).Ok :=
  State.withImage_ok (State.windowWrite_ok (foldl_ok (fun _ _ ht => copyFrame_ok ht) (writeList_ok (State.windowWrite_ok hs))))

theorem State.halt_ok {s : State} {committed : Bool} (hs : s.Ok) : (s.halt committed).Ok := ⟨hs.1, rfl⟩

theorem tripSave_ok {s : State} (hs : s.Ok) : (tripSave s).Ok := by
  obtain ⟨g, hg, hgs⟩ : ∃ g, launchList = g ∧ ∀ s, s.Ok → (g s).1.Ok := ⟨_, rfl, fun _ ht => launchList_ok ht⟩
  obtain ⟨f, hf⟩ : ∃ f, tripSave = f := ⟨_, rfl⟩
  rw [hf]
  delta tripSave at hf
  rw [hg] at hf
  subst hf
  dsimp only
  refine ite_ok (State.askPreempt_ok _ (State.windowWrite_ok (hgs _ ?_))) (State.halt_ok (hgs _ ?_)) <;>
  exact State.applyAll_ok (State.recomputeCeil_ok (ite_ok (State.sendNotice_ok (hs.keep rfl rfl)) (hs.keep rfl rfl)))

theorem execEmergencySave_ok {s : State} (hs : s.Ok) : Out.Ok (execEmergencySave s) := by
  obtain ⟨g, hg, hgs⟩ : ∃ g, launchList = g ∧ ∀ s, s.Ok → (g s).1.Ok := ⟨_, rfl, fun _ ht => launchList_ok ht⟩
  unfold execEmergencySave
  rw [hg]
  split
  · exact hs
  split
  · split
    · exact hs
    · exact tripSave_ok hs
  split
  · exact hs
  dsimp only
  split
  · exact State.halt_ok (writeImage_ok (hgs _ hs))
  · exact State.halt_ok (hgs _ hs)

theorem State.afterReset_ok {s : State} {b : BootState} : (s.afterReset b).Ok := ⟨rfl, rfl⟩

theorem State.bootUp_ok {s : State} : (s.bootUp).Ok := State.afterReset_ok

theorem execReset_ok {s : State} : Out.Ok (execReset s) := State.bootUp_ok

theorem execPowerCut_ok {s : State} (hs : s.Ok) : Out.Ok (execPowerCut s) := by
  unfold execPowerCut
  split
  · exact hs
  exact State.afterReset_ok

theorem mgmtArrival_ok {s : State} {m : Msg} {op : Nat} {act : State → State × Nat} {more : List Msg}
    (ha : ∀ t, t.Ok → (act t).1.Ok) (hs : s.Ok) : Out.Ok (mgmtArrival s m op act more) := by
  unfold mgmtArrival
  split
  · exact hs
  split
  · exact State.discard_ok hs
  split
  · exact hs
  split
  rename_i he
  replace he := State.Ok.of_eq he (ha _ (State.heard_ok hs))
  exact foldl_ok (fun _ _ ht => State.send_ok ht) (State.send_ok he)

theorem State.checkFirmware_ok {s : State} {pa : Nat} {k : AccessKind} (hs : s.Ok) : (s.checkFirmware pa k).1.Ok := by
  unfold State.checkFirmware
  split
  rename_i he
  replace he := MemSys.Ok.of_eq he (MemSys.check_ok _ _ _ _ _ _ hs.1)
  exact State.withMs_ok hs he

theorem State.firmwareRead_ok {s : State} {pa : Nat} (hs : s.Ok) : (s.firmwareRead pa).1.Ok := by
  unfold State.firmwareRead
  split
  · exact hs
  split
  · rename_i he
    replace he := State.Ok.of_eq he (State.checkFirmware_ok hs)
    exact he
  rename_i he2
  replace he2 := State.Ok.of_eq he2 (State.checkFirmware_ok hs)
  exact State.tick_ok he2

theorem State.firmwareWrite_ok {s : State} {pa v : Nat} (hs : s.Ok) : (s.firmwareWrite pa v).Ok := by
  unfold State.firmwareWrite
  split
  · exact hs
  split
  · rename_i he
    replace he := State.Ok.of_eq he (State.checkFirmware_ok hs)
    exact State.regWrite_ok he
  rename_i he2
  replace he2 := State.Ok.of_eq he2 (State.checkFirmware_ok hs)
  exact he2

theorem execMgmtRegisterRead_ok {m : Msg} {s : State} (hs : s.Ok) : Out.Ok (execMgmtRegisterRead m s) :=
  mgmtArrival_ok (fun _ ht => State.firmwareRead_ok ht) hs

theorem execMgmtRegisterWrite_ok {m : Msg} {s : State} (hs : s.Ok) : Out.Ok (execMgmtRegisterWrite m s) :=
  mgmtArrival_ok (fun _ ht => State.firmwareWrite_ok ht) hs

theorem execMgmtAttestation_ok {m : Msg} {nonce : BitVec 256} {s : State} (hs : s.Ok) : Out.Ok (execMgmtAttestation m nonce s) :=
  mgmtArrival_ok (fun _ ht => State.withFab_ok ht) hs

theorem execMgmtStatus_ok {m : Msg} {s : State} (hs : s.Ok) : Out.Ok (execMgmtStatus m s) :=
  mgmtArrival_ok (fun _ ht => ht) hs

theorem sendLost_ok {devn : Nat} {s : State} {e : Nat} (hs : s.Ok) : (sendLost devn s e).Ok :=
  ite_ok hs (State.send_ok hs)

theorem restart_ok {s : State} {resume : Bool} {peer : Nat} : (restart s resume peer).Ok := by
  unfold restart
  split
  dsimp -iota only
  split
  rename_i t _ _
  have ht : t.bootUp.Ok := State.bootUp_ok
  split
  · exact State.send_ok (State.send_ok (ht.keep rfl rfl))
  refine ite_ok ?_ (foldl_ok (fun _ _ ht => sendLost_ok ht) ?_) <;>
  exact foldl_ok (fun _ _ ht => State.send_ok ht) (State.send_ok (ht.keep rfl rfl))

theorem execMgmtRestart_ok {m : Msg} {s : State} (hs : s.Ok) : Out.Ok (execMgmtRestart m s) := by
  unfold execMgmtRestart
  split
  · exact hs
  split
  · exact State.discard_ok hs
  split
  · exact hs
  exact restart_ok

end Sys2Proof.Machine
end

section
/-! PROOFS. The instructions of the slots that have a meaning of their own, and every instruction and event. -/

namespace Sys2Proof.Machine

theorem mxOp_ok {s : State} {g : Guard} {src : Src} {dk : DKind} {word : Core → Vec → Word} {bad : Core → Word → Bool}
    {act : Core → Vec → Word → Core} {names : Word → List Loc} (hs : s.Ok) : Out.Ok (mxOp s g src dk word bad act names) := by
  unfold mxOp
  refine triggerOr_ok (fun _ _ _ _ ht => ?_) hs
  dsimp only
  split
  · trivial
  split
  · exact takeNotice_ok _ _ _ _ ht
  exact ite_ok (mxOperand_ok ht) (enterMx_ok ht)

theorem execMove_ok {sl : Slot} {g : Guard} {src : Src} {d : Dst} {s : State} (hs : s.Ok) : Out.Ok (execMove sl g src d s) := by
  unfold execMove
  dsimp only
  split
  · exact hs
  split
  · exact State.setCore_ok _ _ hs
  split
  · exact State.setCore_ok _ _ hs
  split
  · exact hs
  split
  · exact State.setCore_ok _ _ hs
  exact State.setCore_ok _ _ hs

theorem execVtget_ok {u : VexUnit} {g : Guard} {src : Src} {s : State} (hs : s.Ok) : Out.Ok (execVtget u g src s) :=
  regTrigger_ok hs

theorem execCtlWait_ok {g : Guard} {src : Src} {s : State} (hs : s.Ok) : Out.Ok (execCtlWait g src s) :=
  trigger_ok (fun _ _ _ _ ht => ite_ok (ctlOperand_ok ht) (ite_ok (performStores_ok (State.setCore_ok _ _ ht)) (State.setCore_ok
    _ _ ht))) hs

theorem execCtlSrd_ok {g : Guard} {src : Src} {s : State} (hs : s.Ok) : Out.Ok (execCtlSrd g src s) := by
  unfold execCtlSrd
  refine trigger_ok (fun _ _ _ _ ht => ?_) hs
  dsimp only
  exact ite_ok (ctlOperand_ok ht) (ite_ok (privilegeFault_ok ht) (ite_ok (ctlOperand_ok ht) (State.setCore_ok _ _
    (sysRead_ok ht))))

theorem execCtlSwr_ok {g : Guard} {src : Src} {s : State} (hs : s.Ok) : Out.Ok (execCtlSwr g src s) :=
  trigger_ok (fun _ _ _ _ ht => ite_ok (ctlOperand_ok ht) (ite_ok (privilegeFault_ok ht) (ite_ok (ctlOperand_ok ht) (ite_ok
    (ctlOperand_ok ht) (State.setCore_ok _ _ ht))))) hs

theorem execLs2Fence_ok {g : Guard} {src : Src} {s : State} (hs : s.Ok) : Out.Ok (execLs2Fence g src s) :=
  regTrigger_ok hs

theorem execLs2Xlinv_ok {g : Guard} {src : Src} {s : State} (hs : s.Ok) : Out.Ok (execLs2Xlinv g src s) := by
  unfold execLs2Xlinv
  refine trigger_ok (fun _ _ _ _ ht => ?_) hs
  dsimp only
  split
  · exact privilegeFault_ok ht
  split
  · exact moveFault_ok ht
  exact State.setCore_ok _ _ ht

theorem execLs2Xlwait_ok {g : Guard} {src : Src} {s : State} (hs : s.Ok) : Out.Ok (execLs2Xlwait g src s) :=
  regTrigger_ok hs

theorem execMx6Shset_ok {g : Guard} {src : Src} {s : State} (hs : s.Ok) : Out.Ok (execMx6Shset g src s) :=
  trigger_ok (fun _ _ _ _ ht => ite_ok (mxOperand_ok ht) (ite_ok (mxOperand_ok ht) (State.setCore_ok _ _ ht))) hs

theorem execMx6Acvts_ok {g : Guard} {src : Src} {s : State} (hs : s.Ok) : Out.Ok (execMx6Acvts g src s) :=
  trigger_ok (fun _ _ _ _ ht => ite_ok (mxOperand_ok ht) (ite_ok (mxOperand_ok ht) (ite_ok (kindFault_ok ht) (ite_ok
    (kindFault_ok ht) (enterMx_ok ht))))) hs

theorem execMx6Bchain_ok {g : Guard} {src : Src} {s : State} (hs : s.Ok) : Out.Ok (execMx6Bchain g src s) :=
  trigger_ok (fun _ _ _ _ ht => ite_ok (mxOperand_ok ht) (State.setCore_ok _ _ ht)) hs

theorem execEx7Tdld_ok {g : Guard} {src : Src} {s : State} (hs : s.Ok) : Out.Ok (execEx7Tdld g src s) := by
  unfold execEx7Tdld
  refine accessTrigger_ok (fun _ _ _ _ ht => ?_) hs
  dsimp only
  split
  · exact exOperand_ok ht
  split
  · exact kindFault_ok ht
  split
  · rename_i he
    replace he := MemSys.Ok.of_eq he (translate_ok _ _ _ _ ht.1)
    exact accessFaultAt_ok (State.withMs_ok ht he)
  rename_i he2
  replace he2 := MemSys.Ok.of_eq he2 (translate_ok _ _ _ _ ht.1)
  exact State.setCore_ok _ _ (State.withMs_ok ht he2)

theorem execEx7CpReg_ok {g : Guard} {src : Src} {s : State} (hs : s.Ok) : Out.Ok (execEx7CpReg g src s) :=
  trigger_ok (fun _ _ _ _ ht => ite_ok (exOperand_ok ht) (ite_ok (exOperand_ok ht) (State.setCore_ok _ _ ht))) hs

theorem execEx7CpGo_ok {g : Guard} {src : Src} {s : State} (hs : s.Ok) : Out.Ok (execEx7CpGo g src s) := by
  unfold execEx7CpGo
  refine triggerOr_ok (fun _ _ _ _ ht => ?_) hs
  dsimp only
  split
  · exact exOperand_ok ht
  split
  · exact captureNest_ok ht
  trivial

theorem execEx7SqPost_ok {g : Guard} {src : Src} {s : State} (hs : s.Ok) : Out.Ok (execEx7SqPost g src s) := by
  unfold execEx7SqPost
  refine accessTrigger_ok (fun _ _ _ _ ht => ?_) hs
  dsimp -iota only
  split
  · exact exOperand_ok ht
  split
  rename_i he
  replace he := MemSys.Ok.of_eq he (MemSys.hwRead_ok _ _ _ ht.1)
  split
  · split
    · rename_i he2
      replace he2 := MemSys.Ok.of_eq he2 (sqRewrite_ok he)
      exact accessFaultAt_ok (State.withMs_ok ht he2)
    rename_i he3
    replace he3 := MemSys.Ok.of_eq he3 (sqRewrite_ok he)
    exact State.setCore_ok _ _ (State.withMs_ok ht he3)
  exact State.setCore_ok _ _ (State.withMs_ok ht he)

theorem execEx7SqCqack_ok {g : Guard} {src : Src} {s : State} (hs : s.Ok) : Out.Ok (execEx7SqCqack g src s) := by
  unfold execEx7SqCqack
  refine trigger_ok (fun _ _ _ _ ht => ?_) hs
  dsimp -iota only
  split
  · exact exOperand_ok ht
  split
  · exact exOperand_ok ht
  split
  rename_i he
  replace he := MemSys.Ok.of_eq he (MemSys.hwRead_ok _ _ _ ht.1)
  exact ite_ok (exOperand_ok (State.withMs_ok ht he)) (State.setCore_ok _ _ (State.withMs_ok ht he))

theorem exec_ok {i : Instr} {s : State} (hs : s.Ok) : Out.Ok (exec i s) := by
  delta exec
  cases i with
  | move => exact execMove_ok hs
  | ix1Add | ix1Sub | ix1Mul | ix1Mulu => exact ix1Two_ok hs
  | ix1Adds | ix1Subs | ix1And | ix1Or | ix1Xor | ix1Andn | ix1Shl | ix1Shr | ix1Sar | ix1Rol | ix1Min | ix1Max | ix1Minu
  | ix1Maxu | ix1Clts | ix1Cltu | ix1Ceq | ix1Cne | ix1Cles | ix1Cleu | ix1Shl8 | ix1Shl16 | ix1Shl32 | ix1Shr8 | ix1Shr16
  | ix1Shr32 | ix1Sar8 | ix1Sar16 | ix1Sar32 | ix1Add8 | ix1Add16 | ix1Add32 | ix1Div | ix1Divu | ix1Rem | ix1Remu | ix1Bext
  | ix1Bexts | ix1Bins | ix1Clz | ix1Ctz | ix1Popc | ix1Brev | ix1Bswap => exact ix1One_ok hs
  | sfx5Add | sfx5Sub | sfx5Adds | sfx5Subs | sfx5And | sfx5Or | sfx5Xor | sfx5Andn | sfx5Shl | sfx5Shr | sfx5Sar | sfx5Rol
  | sfx5Min | sfx5Max | sfx5Minu | sfx5Maxu | sfx5Clts | sfx5Cltu | sfx5Ceq | sfx5Cne | sfx5Cles | sfx5Cleu | sfx5Shl8
  | sfx5Shl16 | sfx5Shl32 | sfx5Shr8 | sfx5Shr16 | sfx5Shr32 | sfx5Sar8 | sfx5Sar16 | sfx5Sar32 | sfx5Add8 | sfx5Add16
  | sfx5Add32 => exact sfx5Alu_ok hs
  | vexAdd | vexSub | vexAdds | vexSubs | vexMin | vexMax | vexAbs | vexNeg | vexAnd | vexOr | vexXor | vexAndn | vexShl | vexShr
  | vexSar | vexMul | vexFma | vexFms | vexFnma | vexCeq | vexCne | vexClt | vexCle | vexCdet | vexPerm | vexBcast | vexSlide =>
    exact vexFn_ok hs
  | vexSel => exact vexSelect_ok hs
  | vexCvt => exact vexConvert_ok hs
  | vexRsum | vexRmin | vexRmax => exact vexReduce_ok hs
  | vtset | vtthr | vtclr => exact vtWrite_ok hs
  | vtget => exact execVtget_ok hs
  | kand | kor | kxor | kandn | knot | kgen | kpopc | kffs => exact maskFn_ok hs
  | sfx5Rcp | sfx5Rsqrt | sfx5Sqrt | sfx5Div | sfx5Exp2 | sfx5Log2 | sfx5Tanh | sfx5Sigm | sfx5Sinpi | sfx5Cospi =>
    exact sfxFn_ok hs
  | ctlLvl | ctlCabase | ctlCastr | ctlLoop | ctlBsel => exact ctlWrite_ok hs
  | ctlWait => exact execCtlWait_ok hs
  | ctlDone | ctlBar | ctlTrap | ctlYield | ctlClkset | ctlVset | ctlClkrd | ctlSwsel => exact ctlHeld_ok hs
  | ctlSrd => exact execCtlSrd_ok hs
  | ctlSwr => exact execCtlSwr_ok hs
  | ctlRfe | ctlPark | ctlAbort | ctlUnpark => exact ctlPrivileged_ok hs
  | exitBr | exitJmp | exitCall | exitCalla | exitRet => exact exitMove_ok hs
  | ls2LdB | ls2LdH | ls2LdW | ls2LdD | ls2LdBs | ls2LdHs | ls2LdWs => exact scalarLoad_ok hs
  | ls2SldB | ls2SldH | ls2SldW | ls2SldD | ls2SldBs | ls2SldHs | ls2SldWs => exact scratchLoad_ok hs
  | ls2LdioB | ls2LdioH | ls2LdioW | ls2LdioD => exact heldLoad_ok hs
  | ls2StB | ls2StH | ls2StW | ls2StD => exact scalarStore_ok hs
  | ls2SstB | ls2SstH | ls2SstW | ls2SstD => exact scratchStore_ok hs
  | ls2AtAdd | ls2AtAnd | ls2AtOr | ls2AtXor | ls2AtMin | ls2AtMax | ls2AtMinu | ls2AtMaxu | ls2AtFadd | ls2AtSwp | ls2AtCas =>
    exact atomicOp_ok hs
  | ls2LdAcq | ls2StRel => exact flagOp_ok hs
  | ls2Acq | ls2Rel | ls2Moor | ls2Unmoor => exact bollardOp_ok hs
  | ls2Fence => exact execLs2Fence_ok hs
  | ls2PoolShare => exact poolOp2_ok hs
  | ls2PoolDrop | ls2PoolAlloc => exact poolOp1_ok hs
  | ls2Xlinv => exact execLs2Xlinv_ok hs
  | ls2Xlwait => exact execLs2Xlwait_ok hs
  | ls2Icinv => exact rangeOp_ok hs
  | ls2Cwb | ls2Cinv => exact flushOp_ok hs
  | ls2Ea0 | ls2Ea1 | ls2Ea2 | ls2Ea3 | ls2Ea4 | ls2Ea5 | ls2Ea6 => exact addressGen_ok hs
  | mx6Tld | mx6Tldv | mx6Tst | mx6Trd | mx6Shget | mx6Step | mx6Azero | mx6Ard | mx6Awr | mx6Acvt | mx6Aldq | mx6Bsend
  | mx6Bwait | mx6Bfree | mx6Bsts | mx6Rsts | mx6Rclr => exact mxOp_ok hs
  | mx6Shset => exact execMx6Shset_ok hs
  | mx6Acvts => exact execMx6Acvts_ok hs
  | mx6Bchain => exact execMx6Bchain_ok hs
  | ex7Vld32 | ex7Vld64 | ex7Vld128 => exact vectorLoad_ok hs
  | ex7Svld32 | ex7Svld64 | ex7Svld128 => exact scratchVectorLoad_ok hs
  | ex7Vst32 | ex7Vst64 | ex7Vst128 => exact vectorStore_ok hs
  | ex7Svst32 | ex7Svst64 | ex7Svst128 => exact scratchVectorStore_ok hs
  | ex7Lavg | ex7LavgHome | ex7LavgRow | ex7LavgRowHome => exact levelLoad_ok hs
  | ex7Ldet | ex7LdetHome => exact detailLoad_ok hs
  | ex7Tdld => exact execEx7Tdld_ok hs
  | ex7QSet | ex7QPush | ex7QPop | ex7QAdv | ex7QSts => exact quayOp_ok hs
  | ex7CpReg => exact execEx7CpReg_ok hs
  | ex7CpGo => exact execEx7CpGo_ok hs
  | ex7CpDrain | ex7CpSts => exact channelOp_ok hs
  | ex7SqPost => exact execEx7SqPost_ok hs
  | ex7SqCqack => exact execEx7SqCqack_ok hs
  | blockEntry => exact execBlockEntry_ok hs
  | bundlePass => exact execBundlePass_ok hs
  | resultLanding => exact execResultLanding_ok hs
  | blockCommit => exact execBlockCommit_ok hs
  | denialNotice => exact execDenialNotice_ok hs
  | poisonNotice => exact execPoisonNotice_ok hs
  | iterationBoundary => exact execIterationBoundary_ok hs
  | tableWalk => exact execTableWalk_ok hs
  | walkQueueRetry => exact execWalkQueueRetry_ok hs
  | invalidationObserved => exact execInvalidationObserved_ok hs
  | invalidationComplete => exact execInvalidationComplete_ok hs
  | copyOnWrite => exact execCopyOnWrite_ok hs
  | entryInvalidation => exact execEntryInvalidation_ok hs
  | l1Fill => exact execL1Fill_ok hs
  | atomicAtHome => exact execAtomicAtHome_ok hs
  | treeUpdate => exact execTreeUpdate_ok hs
  | packWrite => exact execPackWrite_ok hs
  | hbmScrub => exact execHbmScrub_ok hs
  | pcieRequesterAccess => exact execPcieRequesterAccess_ok hs
  | fabricRemoteAccess => exact execFabricRemoteAccess_ok hs
  | atinvWrite => exact execAtinvWrite_ok hs
  | atinvComplete => exact execAtinvComplete_ok hs
  | l2modeWrite => exact execL2modeWrite_ok hs
  | l2modeSwitchEnd => exact execL2modeSwitchEnd_ok hs
  | rrctlWrite => exact execRrctlWrite_ok hs
  | killctlWrite => exact execKillctlWrite_ok hs
  | killAbortTimeout => exact execKillAbortTimeout_ok hs
  | killComplete => exact execKillComplete_ok hs
  | registerWrite => exact execRegisterWrite_ok hs
  | coreTakeWork => exact execCoreTakeWork_ok hs
  | scratchpadZeroing => exact execScratchpadZeroing_ok hs
  | taskStart => exact execTaskStart_ok hs
  | launchStart => exact execLaunchStart_ok hs
  | crewAdmission => exact execCrewAdmission_ok hs
  | recordComplete => exact execRecordComplete_ok hs
  | copyRecordRun => exact execCopyRecordRun_ok hs
  | shareReport => exact execShareReport_ok hs
  | launchComplete => exact execLaunchComplete_ok hs
  | quantumBoundary => exact execQuantumBoundary_ok hs
  | streamMap => exact execStreamMap_ok hs
  | preemptionTaken => exact execPreemptionTaken_ok hs
  | stubTimeout => exact execStubTimeout_ok hs
  | yieldSave => exact execYieldSave_ok hs
  | frameResume => exact execFrameResume_ok hs
  | parkInPlace => exact execParkInPlace_ok hs
  | barrierComplete => exact execBarrierComplete_ok hs
  | waitReady => exact execWaitReady_ok hs
  | drainComplete => exact execDrainComplete_ok hs
  | matrixCommandFire => exact execMatrixCommandFire_ok hs
  | residueRetry => exact execResidueRetry_ok hs
  | ex7CommandFire => exact execEx7CommandFire_ok hs
  | nestCopyEmit => exact execNestCopyEmit_ok hs
  | addOnRowApply => exact execAddOnRowApply_ok hs
  | basinRowArrival => exact execBasinRowArrival_ok hs
  | chainBroken => exact execChainBroken_ok hs
  | voltageSettled => exact execVoltageSettled_ok hs
  | sampleWindowBoundary => exact execSampleWindowBoundary_ok hs
  | thermalLimitChange => exact execThermalLimitChange_ok hs
  | emergencySave => exact execEmergencySave_ok hs
  | powerCut => exact execPowerCut_ok hs
  | roundBoundary => exact execRoundBoundary_ok hs
  | noticeEffect => exact execNoticeEffect_ok hs
  | heartbeatSend => exact execHeartbeatSend_ok hs
  | silenceTimeout => exact execSilenceTimeout_ok hs
  | evictTimeout => exact execEvictTimeout_ok hs
  | joinTimeout => exact execJoinTimeout_ok hs
  | tidectlWrite => exact execTidectlWrite_ok hs
  | timeSyncSend => exact execTimeSyncSend_ok hs
  | heartbeat => exact execHeartbeat_ok hs
  | notice => exact execNotice_ok hs
  | release => exact execRelease_ok hs
  | joinReq => exact execJoinReq_ok hs
  | joinAck => exact execJoinAck_ok hs
  | join => exact execJoin_ok hs
  | leave => exact execLeave_ok hs
  | evict => exact execEvict_ok hs
  | timeReq => exact execTimeReq_ok hs
  | timeRsp => exact execTimeRsp_ok hs
  | flow => exact execFlow_ok hs
  | ack => exact execAck_ok hs
  | ackTimeout => exact execAckTimeout_ok hs
  | valveRefresh => exact execValveRefresh_ok hs
  | launch => exact execLaunch_ok hs
  | complete => exact execComplete_ok hs
  | fault => exact execFault_ok hs
  | mgmtRegisterRead => exact execMgmtRegisterRead_ok hs
  | mgmtRegisterWrite => exact execMgmtRegisterWrite_ok hs
  | mgmtAttestation => exact execMgmtAttestation_ok hs
  | mgmtRestart => exact execMgmtRestart_ok hs
  | mgmtStatus => exact execMgmtStatus_ok hs
  | linkLaneShed => exact execLinkLaneShed_ok hs
  | linkDown => exact execLinkDown_ok hs
  | reset => exact execReset_ok
  | accessAtTarget => exact execAccessAtTarget_ok hs
  | eccError => exact execEccError_ok hs
  | linkResume => exact execLinkResume_ok hs
  | voltageLoweringDone => exact execVoltageLoweringDone_ok hs
  | icinvComplete => exact execIcinvComplete_ok hs
  | unknownMessageType => exact execUnknownMessageType_ok hs
  | ctlFork => exact recordOp_ok (fun _ _ _ _ ht => ite_ok (kindFault_ok ht) (State.setCore_ok _ _ ht)) hs
  | ctlJoin | ctlSpawn | ctlLaunch => exact recordOp_ok (fun _ _ _ _ ht => State.setCore_ok _ _ ht) hs
  | ex7Eld => exact elementOp_ok (fun _ _ _ _ ht => State.setCore_ok _ _ ht) hs
  | ex7Est => exact elementOp_ok (fun _ _ _ _ ht => State.modCore_ok _ _ (makeStoreRoom_ok ht)) hs
  | ex7Trst => exact treeOp_ok (fun _ _ _ _ _ _ _ ht => State.modCore_ok _ _ (makeStoreRoom_ok ht)) hs

end Sys2Proof.Machine
end

section
/-! PROOFS. A step: what a core or the device does in its turn keeps the canonical form. -/

namespace Sys2Proof.Machine

/-- An event that keeps the canonical form. -/
def KeepsOk (f : State → Out) : Prop := ∀ s, s.Ok → Out.Ok (f s)

theorem firstChange_ok {s : State} {l : List (State → Out)} {o : Out} (hs : s.Ok) (hl : ∀ f ∈ l, KeepsOk f)
    (h : firstChange s l = some o) : o.Ok := by
  induction l with
  | nil => cases h
  | cons f fs ih =>
    have hf : Out.Ok (f s) := hl f List.mem_cons_self s hs
    unfold firstChange at h
    split at h
    · rename_i he
      split at h
      · exact ih (fun g hg => hl g (List.mem_cons_of_mem _ hg)) h
      · cases h
        exact Out.Ok.of_eq he hf
    · cases h
      exact hf

theorem runParcel_ok {m : Slot × Parcel} {s : State} {o : Out} (hs : s.Ok) (h : runParcel m s = some o) : o.Ok := by
  obtain ⟨i, -, rfl⟩ := Option.map_eq_some_iff.1 h
  exact exec_ok hs

theorem commitTurn_ok {k : Nat} {s : State} (hs : s.Ok) : Out.Ok (commitTurn k s) := by
  unfold commitTurn
  split
  · rename_i he
    exact State.Ok.keep (Out.Ok.of_eq he (execBlockCommit_ok hs)) rfl rfl
  · exact execBlockCommit_ok hs

theorem retryTurn_ok {k : Nat} {s : State} (hs : s.Ok) : Out.Ok (retryTurn k s) := by
  unfold retryTurn
  split
  · exact execResidueRetry_ok (State.tick_ok hs)
  · exact hs

theorem phaseEvents_keepOk (c : Core) (k : Nat) : ∀ f ∈ phaseEvents c k, KeepsOk f := by
  unfold phaseEvents
  split <;> simp only [List.forall_mem_cons, List.not_mem_nil, false_implies, implies_true, and_true]
  · exact ⟨fun _ => execFrameResume_ok, fun _ => execCoreTakeWork_ok⟩
  · exact ⟨fun _ => execScratchpadZeroing_ok, fun _ => execTaskStart_ok⟩
  · exact ⟨fun _ => execPreemptionTaken_ok, fun _ => execBlockEntry_ok⟩
  · exact ⟨fun _ => execWaitReady_ok, fun _ => execBundlePass_ok⟩
  · exact fun _ => commitTurn_ok
  · exact ⟨fun _ => execAccessAtTarget_ok, fun _ => execAtomicAtHome_ok, fun _ => execIcinvComplete_ok⟩
  · exact fun _ => execIterationBoundary_ok
  · exact ⟨fun _ => execPreemptionTaken_ok, fun _ => execBarrierComplete_ok⟩
  · exact fun _ => execRecordComplete_ok
  · exact fun _ => execYieldSave_ok
  · exact fun _ => execParkInPlace_ok
  · exact fun _ => execPreemptionTaken_ok
  · exact fun _ => execRecordComplete_ok

theorem arrivalEvents_keepOk (c : Core) (k : Nat) : ∀ f ∈ arrivalEvents c k, KeepsOk f := by
  simp only [arrivalEvents, List.forall_mem_append, List.forall_mem_map, List.forall_mem_cons, List.not_mem_nil, false_implies,
    implies_true, and_true]
  exact ⟨fun _ _ _ => execResultLanding_ok, fun _ => execResultLanding_ok, fun _ => execDenialNotice_ok, fun _ =>
    execPoisonNotice_ok,
    fun _ => execStubTimeout_ok, fun _ => execDrainComplete_ok, fun _ => execBasinRowArrival_ok⟩

theorem commandEvents_keepOk (c : Core) (k : Nat) : ∀ f ∈ commandEvents c k, KeepsOk f := by
  simp only [commandEvents, List.forall_mem_append, List.forall_mem_map, List.forall_mem_cons, List.not_mem_nil, false_implies,
    implies_true, and_true]
  exact ⟨⟨⟨fun _ => execEx7CommandFire_ok, fun _ => execTreeUpdate_ok, fun _ => execMatrixCommandFire_ok, fun _ => retryTurn_ok⟩,
    fun _ _ _ => execNestCopyEmit_ok⟩, fun _ => execAddOnRowApply_ok, fun _ => execCopyRecordRun_ok⟩

theorem coreEvents_keepOk (c : Core) (k : Nat) : ∀ f ∈ coreEvents c k, KeepsOk f := by
  simp only [coreEvents, List.forall_mem_append]
  exact ⟨⟨arrivalEvents_keepOk c k, commandEvents_keepOk c k⟩, phaseEvents_keepOk c k⟩

theorem schedulerEvents_keepOk (s : State) : ∀ f ∈ schedulerEvents s, KeepsOk f := by
  simp only [schedulerEvents, List.forall_mem_append, List.forall_mem_map, List.forall_mem_flatMap, List.forall_mem_cons,
    List.not_mem_nil, false_implies, implies_true, and_true]
  refine ⟨⟨⟨⟨fun _ => execCrewAdmission_ok, fun _ => execStreamMap_ok, fun _ => execQuantumBoundary_ok⟩,
    fun _ _ _ => execKillAbortTimeout_ok⟩, fun _ => execKillComplete_ok⟩, fun e _ => ⟨fun _ => execLaunchStart_ok,
    fun _ => execLaunchComplete_ok, ?_⟩⟩
  split
  · exact List.forall_mem_map.2 fun _ _ _ => execShareReport_ok
  · exact List.forall_mem_nil _

theorem payCows_keepOk : KeepsOk fun t => .next (if t.ms.cows.isEmpty then t else { t with ms := t.ms.payCows }) :=
  fun _ ht => ite_ok ht (State.withMs_ok ht (MemSys.payCows_ok _ ht.1))

theorem memoryEvents_keepOk (s : State) : ∀ f ∈ memoryEvents s, KeepsOk f := by
  simp only [memoryEvents, List.forall_mem_append, List.forall_mem_map, List.forall_mem_flatMap, List.forall_mem_cons,
    List.not_mem_nil, false_implies, implies_true, and_true]
  exact ⟨⟨fun _ _ => ⟨fun _ => execInvalidationObserved_ok, fun _ => execInvalidationComplete_ok⟩, fun _ _ _ =>
    execAtinvComplete_ok⟩,
    fun _ => execL2modeSwitchEnd_ok, payCows_keepOk⟩

theorem valveRefresh_keepOk (z : Nat) :
    KeepsOk fun t => if (t.zone z).sentAt + 32000000 ≤ t.now then execValveRefresh z (t.zone z).valve t else .next t := by
  intro t ht
  dsimp only
  split
  · exact execValveRefresh_ok ht
  · exact ht

theorem powerEvents_keepOk (s : State) : ∀ f ∈ powerEvents s, KeepsOk f := by
  simp only [powerEvents, List.forall_mem_append, List.forall_mem_map, List.forall_mem_flatMap, List.forall_mem_cons,
    List.not_mem_nil, false_implies, implies_true, and_true]
  exact ⟨⟨⟨fun _ => execPowerCut_ok, fun _ => execEmergencySave_ok, fun _ => execSampleWindowBoundary_ok, fun _ =>
    execAckTimeout_ok⟩,
    fun _ _ => ⟨fun _ => execVoltageSettled_ok, fun _ => execVoltageLoweringDone_ok⟩⟩, fun z _ => valveRefresh_keepOk z⟩

theorem tideEvents_keepOk (s : State) : ∀ f ∈ tideEvents s, KeepsOk f := by
  simp only [tideEvents, List.forall_mem_append, List.forall_mem_flatMap, List.forall_mem_cons, List.not_mem_nil, false_implies,
    implies_true, and_true]
  exact ⟨⟨fun _ => execRoundBoundary_ok, fun _ => execNoticeEffect_ok, fun _ => execHeartbeatSend_ok, fun _ => execJoinTimeout_ok,
    fun _ => execTimeSyncSend_ok⟩, fun _ _ => ⟨fun _ => execSilenceTimeout_ok, fun _ => execEvictTimeout_ok⟩⟩

theorem fabricEvents_keepOk (s : State) : ∀ f ∈ fabricEvents s, KeepsOk f := by
  simp only [fabricEvents, List.forall_mem_append, List.forall_mem_map, List.forall_mem_flatMap]
  exact ⟨fun _ _ _ => execLinkResume_ok, fun _ _ _ _ _ => execChainBroken_ok⟩

theorem deviceEvents_keepOk (s : State) : ∀ f ∈ deviceEvents s, KeepsOk f := by
  simp only [deviceEvents, List.forall_mem_append]
  exact ⟨⟨⟨⟨powerEvents_keepOk s, schedulerEvents_keepOk s⟩, memoryEvents_keepOk s⟩, tideEvents_keepOk s⟩, fabricEvents_keepOk s⟩

theorem deviceTurn_ok {s : State} (hs : s.Ok) : Out.Ok (deviceTurn s) := by
  unfold deviceTurn
  split
  · rename_i he
    exact firstChange_ok hs (deviceEvents_keepOk s) he
  · exact State.Ok.keep hs rfl rfl

theorem coreTurn_ok {s : State} {k : Nat} (hs : s.Ok) : Out.Ok (coreTurn s k) := by
  unfold coreTurn
  dsimp only
  split
  · rename_i he
    exact firstChange_ok hs (coreEvents_keepOk _ k) he
  · exact State.Ok.keep (foldl_ok (fun _ _ ht => State.countCycle_ok ht) hs) rfl rfl

theorem turn_ok {s : State} (hs : s.Ok) : Out.Ok (turn s) := by
  unfold turn
  split
  · exact coreTurn_ok hs
  split
  · exact coreTurn_ok hs
  split
  · exact coreTurn_ok hs
  · rename_i he
    split
    · exact coreTurn_ok hs
    · exact State.countBusy_ok (runParcel_ok (o := .next _) hs he)
  · rename_i he
    exact runParcel_ok hs he

theorem step_ok {s : State} (hs : s.Ok) : Out.Ok (step s) := by
  unfold step
  split
  · split
    · exact exec_ok (State.Ok.keep hs rfl rfl)
    · exact State.Ok.keep hs rfl rfl
  split
  · exact State.Ok.keep hs rfl rfl
  split
  · exact deviceTurn_ok hs
  · exact turn_ok hs

end Sys2Proof.Machine
end

section
/-! PROOFS. The obligations on address spaces. -/

namespace Sys2Proof.Proofs.AddressSpaces

open Sys2Proof.Machine

/-- Settles O7: every operation of the machine keeps the canonical form, and a step is one of them. -/
theorem stepKeepsOk : Obligations.StepKeepsOk := fun _ _ hs h => Out.Ok.of_eq h (step_ok hs)

end Sys2Proof.Proofs.AddressSpaces
end

section
/-! PROOFS. A trigger that meets a value which it may not consume (18 R378): each family of instructions. -/

namespace Sys2Proof.Machine

/-- A trigger with a true guard meets a value that it may not consume, the first one of its bundle (18 R378, R379). -/
structure MeetsBad (s : State) (sl : Slot) (g : Guard) (src : Src) (n : Notice) : Prop where
  exit : s.me.ctl.exit = none
  deferred : s.me.ctl.deferred = none
  guardReady : s.me.guardReady g = true
  guardBad : s.me.guardBad g = none
  guard : s.me.guard g = true
  srcReady : s.me.srcReady sl src = true
  bad : s.me.operandBad sl src [] = some n

/-- What it then does: it takes the fault of the value, or waits. -/
def Refuses (s : State) (sl : Slot) (n : Notice) (o : Out) (r : Bool) : Prop :=
  o = .next (if r then takeNotice s s.curCore n sl.num s.me.ctl.bidx else s)

theorem Core.operandBad_of_nil {c : Core} {sl : Slot} {src : Src} {n : Notice} {reads : List Loc}
    (h : c.operandBad sl src [] = some n) : c.operandBad sl src reads = some n := by
  unfold Core.operandBad at h ⊢
  cases hs : c.srcBad sl src with
  | some b => rw [hs] at h; exact h
  | none =>
    rw [hs] at h
    cases hp : (upto 0 8).findSome? (fun n => c.regs.bad (c.key (.oport sl.num n)) (c.ctl.bcount + 1) c.ctl.blk) with
    | some b => rw [hp] at h; exact h
    | none => rw [hp] at h; cases h

theorem triggerOr_meetsBad {s : State} {sl : Slot} {dk : DKind} {g : Guard} {src : Src} {need : Core → Bool}
    {act : State → Nat → Core → Vec → Option State} {reads : Core → List Loc} {n : Notice} (h : MeetsBad s sl g src n) :
    Refuses s sl n (triggerOr s sl dk g src need act reads) ((reads s.me).all s.me.isReady && need s.me) := by
  obtain ⟨-, hd, hr, hb, hg, hs, hbad⟩ := h
  unfold Refuses triggerOr
  change s.me.ctl.deferred = none at hd
  simp only [State.me] at *
  simp only [hr, Core.metBad, hd, hb, hg, hs, Core.operandBad_of_nil hbad, Option.map_none, Bool.not_true, Bool.false_eq_true,
    if_false,
    Bool.true_and]
  by_cases hx : ((reads (s.core s.curCore)).all (s.core s.curCore).isReady && need (s.core s.curCore)) = true <;>
  simp only [hx, Bool.not_true, Bool.not_false, Bool.false_eq_true, if_true, if_false]

theorem triggerOr_meetsBad_reads {s : State} {sl : Slot} {dk : DKind} {g : Guard} {src : Src}
    {act : State → Nat → Core → Vec → Option State} {reads : Core → List Loc} {n : Notice} (h : MeetsBad s sl g src n) :
    Refuses s sl n (triggerOr s sl dk g src noNeed act reads) ((reads s.me).all s.me.isReady) := by
  rw [← Bool.and_true ((reads s.me).all s.me.isReady)]
  exact triggerOr_meetsBad h

theorem trigger_meetsBad {s : State} {sl : Slot} {dk : DKind} {g : Guard} {src : Src} {need : Core → Bool}
    {act : State → Nat → Core → Vec → State} {reads : Core → List Loc} {n : Notice} (h : MeetsBad s sl g src n) :
    Refuses s sl n (trigger s sl dk g src need act reads) ((reads s.me).all s.me.isReady && need s.me) := by
  unfold trigger
  exact triggerOr_meetsBad h

theorem accessTrigger_meetsBad {s : State} {sl : Slot} {dk : DKind} {g : Guard} {src : Src} {need : Core → Bool}
    {act : State → Nat → Core → Vec → State} {reads : Core → List Loc} {n : Notice} (h : MeetsBad s sl g src n) :
    Refuses s sl n (accessTrigger s sl dk g src need act reads) ((reads s.me).all s.me.isReady && need s.me) := by
  unfold accessTrigger
  exact triggerOr_meetsBad h

theorem storeTrigger_meetsBad {access : Bool} {s : State} {sl : Slot} {dk : DKind} {g : Guard} {src : Src} {need : Core → Bool}
    {act : State → Nat → Core → Vec → State} {reads : Core → List Loc} {n : Notice} (h : MeetsBad s sl g src n) :
    Refuses s sl n (storeTrigger access s sl dk g src need act reads) ((reads s.me).all s.me.isReady && need s.me) := by
  unfold storeTrigger
  exact triggerOr_meetsBad h

theorem regTrigger_meetsBad {s : State} {sl : Slot} {dk : DKind} {g : Guard} {src : Src} {need : Core → Bool}
    {act : Core → Vec → Core} {reads : Core → List Loc} {n : Notice} (h : MeetsBad s sl g src n) :
    Refuses s sl n (regTrigger s sl dk g src need act reads) ((reads s.me).all s.me.isReady && need s.me) := by
  unfold regTrigger trigger
  exact triggerOr_meetsBad h

theorem exitMove_meetsBad {x : ExitSlot} {s : State} {g : Guard} {src : Src} {relative link : Bool} {n : Notice}
    (h : MeetsBad s x.slot g src n) : Refuses s x.slot n (exitMove x g src s relative link) true := by
  have he : (s.core s.curCore).ctl.exit = none := h.exit
  unfold exitMove
  simp only [he, Option.isSome_none, Bool.false_eq_true, if_false]
  exact regTrigger_meetsBad h

theorem ix1Two_meetsBad {s : State} {g : Guard} {src : Src} {cls : Nat} {f h : Word → Word → Word} {nt : Notice}
    (hm : MeetsBad s .s1 g src nt) : Refuses s .s1 nt (ix1Two s g src cls f h) true := by
  unfold ix1Two
  exact regTrigger_meetsBad hm

theorem ix1One_meetsBad {s : State} {g : Guard} {src : Src} {cls : Nat} {f : Word → Word → Word → Word} {nt : Notice}
    (hm : MeetsBad s .s1 g src nt) : Refuses s .s1 nt (ix1One s g src cls f) true := by
  unfold ix1One
  exact regTrigger_meetsBad hm

theorem sfx5Alu_meetsBad {s : State} {g : Guard} {src : Src} {f : Word → Word → Word} {nt : Notice}
    (hm : MeetsBad s .s5 g src nt) : Refuses s .s5 nt (sfx5Alu s g src f) true := by
  unfold sfx5Alu
  exact regTrigger_meetsBad hm

theorem vexFn_meetsBad {s : State} {u : VexUnit} {w : Width} {g : Guard} {src : Src} {cls : Nat} {acc : Accepts} {bits : Bool}
    {f : LaneIn → Nat → Lane} {nt : Notice} (hm : MeetsBad s u.slot g src nt) :
    Refuses s u.slot nt (vexFn s u w g src cls acc bits f) ((laneReads u.slot 3 false s.me).all s.me.isReady) := by
  unfold vexFn
  exact triggerOr_meetsBad_reads hm

theorem vexSelect_meetsBad {s : State} {u : VexUnit} {w : Width} {g : Guard} {src : Src} {nt : Notice}
    (hm : MeetsBad s u.slot g src nt) :
    Refuses s u.slot nt (vexSelect s u w g src) ((laneReads u.slot 3 true s.me).all s.me.isReady) := by
  unfold vexSelect
  exact triggerOr_meetsBad_reads hm

theorem vexConvert_meetsBad {s : State} {u : VexUnit} {w : Width} {g : Guard} {src : Src} {nt : Notice}
    (hm : MeetsBad s u.slot g src nt) :
    Refuses s u.slot nt (vexConvert s u w g src) ((laneReads u.slot 3 false s.me).all s.me.isReady) := by
  unfold vexConvert
  exact triggerOr_meetsBad_reads hm

theorem vexReduce_meetsBad {s : State} {u : VexUnit} {w : Width} {g : Guard} {src : Src} {r : Reduction} {nt : Notice}
    (hm : MeetsBad s u.slot g src nt) :
    Refuses s u.slot nt (vexReduce s u w g src r) ((laneReads u.slot 3 false s.me).all s.me.isReady) := by
  unfold vexReduce
  exact triggerOr_meetsBad_reads hm

theorem vtWrite_meetsBad {s : State} {u : VexUnit} {g : Guard} {src : Src} {op : WriteOp} {ok : Word → Bool} {nt : Notice}
    (hm : MeetsBad s u.slot g src nt) : Refuses s u.slot nt (vtWrite s u g src op ok) true := by
  unfold vtWrite
  exact trigger_meetsBad hm

theorem maskFn_meetsBad {s : State} {u : VexUnit} {g : Guard} {src : Src} {f : BitVec 128 → BitVec 128 → BitVec 128}
    {nt : Notice} (hm : MeetsBad s u.slot g src nt) : Refuses s u.slot nt (maskFn s u g src f) true := by
  unfold maskFn
  exact regTrigger_meetsBad hm

theorem sfxFn_meetsBad {s : State} {w : Width} {g : Guard} {src : Src} {f : Bool → Nat → Nat → Nat × Ev} {nt : Notice}
    (hm : MeetsBad s .s5 g src nt) : Refuses s .s5 nt (sfxFn s w g src f) ((laneReads .s5 2 false s.me).all s.me.isReady) := by
  unfold sfxFn
  exact triggerOr_meetsBad_reads hm

theorem addressGen_meetsBad {s : State} {g : Guard} {src : Src} {i : Nat} {nt : Notice} (hm : MeetsBad s .s2 g src nt) :
    Refuses s .s2 nt (addressGen s g src i) true := by
  unfold addressGen
  exact regTrigger_meetsBad hm

theorem scalarLoad_meetsBad {s : State} {g : Guard} {src : Src} {n : Nat} {signed : Bool} {nt : Notice}
    (hm : MeetsBad s .s2 g src nt) : Refuses s .s2 nt (scalarLoad s g src n signed) s.me.ldRoom := by
  unfold scalarLoad
  exact triggerOr_meetsBad hm

theorem scratchLoad_meetsBad {s : State} {g : Guard} {src : Src} {n : Nat} {signed : Bool} {nt : Notice}
    (hm : MeetsBad s .s2 g src nt) : Refuses s .s2 nt (scratchLoad s g src n signed) s.me.ldRoom := by
  unfold scratchLoad
  exact triggerOr_meetsBad hm

theorem heldLoad_meetsBad {s : State} {g : Guard} {src : Src} {n : Nat} {nt : Notice} (hm : MeetsBad s .s2 g src nt) :
    Refuses s .s2 nt (heldLoad s g src n) s.me.loadRoom := by
  unfold heldLoad
  exact accessTrigger_meetsBad hm

theorem scalarStore_meetsBad {s : State} {g : Guard} {src : Src} {n : Nat} {nt : Notice} (hm : MeetsBad s .s2 g src nt) :
    Refuses s .s2 nt (scalarStore s g src n) s.me.storeRoom := by
  unfold scalarStore
  exact storeTrigger_meetsBad hm

theorem scratchStore_meetsBad {s : State} {g : Guard} {src : Src} {n : Nat} {nt : Notice} (hm : MeetsBad s .s2 g src nt) :
    Refuses s .s2 nt (scratchStore s g src n) s.me.storeRoom := by
  unfold scratchStore
  exact storeTrigger_meetsBad hm

theorem atomicOp_meetsBad {s : State} {g : Guard} {src : Src} {op : AtOp} {nt : Notice} (hm : MeetsBad s .s2 g src nt) :
    Refuses s .s2 nt (atomicOp s g src op) s.me.loadRoom := by
  unfold atomicOp
  exact triggerOr_meetsBad hm

theorem flagOp_meetsBad {s : State} {g : Guard} {src : Src} {kind : XKind} {act : Core → Xlat → Nat → Core} {nt : Notice}
    (hm : MeetsBad s .s2 g src nt) : Refuses s .s2 nt (flagOp s g src kind act) s.me.loadRoom := by
  unfold flagOp
  exact accessTrigger_meetsBad hm

theorem bollardOp_meetsBad {s : State} {g : Guard} {src : Src} {p : Nat} {kind : XKind} {act : Core → Word → Xlat → Core}
    {nt : Notice} (hm : MeetsBad s .s2 g src nt) : Refuses s .s2 nt (bollardOp s g src p kind act) s.me.loadRoom := by
  unfold bollardOp
  exact accessTrigger_meetsBad hm

theorem poolOp1_meetsBad {s : State} {g : Guard} {src : Src} {op : Xlat → Nat → HOp} {nt : Notice}
    (hm : MeetsBad s .s2 g src nt) : Refuses s .s2 nt (poolOp1 s g src op) s.me.storeRoom := by
  unfold poolOp1
  exact accessTrigger_meetsBad hm

theorem poolOp2_meetsBad {s : State} {g : Guard} {src : Src} {nt : Notice} (hm : MeetsBad s .s2 g src nt) :
    Refuses s .s2 nt (poolOp2 s g src) s.me.storeRoom := by
  unfold poolOp2
  exact accessTrigger_meetsBad hm

theorem rangeOp_meetsBad {s : State} {g : Guard} {src : Src} {op : Nat → Nat → HOp} {nt : Notice} (hm : MeetsBad s .s2 g src nt) :
    Refuses s .s2 nt (rangeOp s g src op) s.me.storeRoom := by
  unfold rangeOp
  exact trigger_meetsBad hm

theorem flushOp_meetsBad {s : State} {g : Guard} {src : Src} {inv : Bool} {nt : Notice} (hm : MeetsBad s .s2 g src nt) :
    Refuses s .s2 nt (flushOp s g src inv) s.me.storeRoom := by
  unfold flushOp
  exact storeTrigger_meetsBad hm

theorem vectorLoad_meetsBad {s : State} {g : Guard} {src : Src} {n : Nat} {nt : Notice} (hm : MeetsBad s .s7 g src nt) :
    Refuses s .s7 nt (vectorLoad s g src n) s.me.exLoadRoom := by
  unfold vectorLoad
  exact accessTrigger_meetsBad hm

theorem scratchVectorLoad_meetsBad {s : State} {g : Guard} {src : Src} {n : Nat} {nt : Notice} (hm : MeetsBad s .s7 g src nt) :
    Refuses s .s7 nt (scratchVectorLoad s g src n) s.me.exLoadRoom := by
  unfold scratchVectorLoad
  exact trigger_meetsBad hm

theorem elementOp_meetsBad {s : State} {g : Guard} {src : Src} {store : Bool} {act : State → Core → Nat → List Xlat → State}
    {nt : Notice} (hm : MeetsBad s .s7 g src nt) :
    Refuses s .s7 nt (elementOp s g src store act) (if store then s.me.exRoom else s.me.exLoadRoom) := by
  unfold elementOp
  cases store <;> exact triggerOr_meetsBad hm

theorem vectorStore_meetsBad {s : State} {g : Guard} {src : Src} {n : Nat} {nt : Notice} (hm : MeetsBad s .s7 g src nt) :
    Refuses s .s7 nt (vectorStore s g src n) s.me.exRoom := by
  unfold vectorStore
  exact storeTrigger_meetsBad hm

theorem scratchVectorStore_meetsBad {s : State} {g : Guard} {src : Src} {n : Nat} {nt : Notice} (hm : MeetsBad s .s7 g src nt) :
    Refuses s .s7 nt (scratchVectorStore s g src n) s.me.exRoom := by
  unfold scratchVectorStore
  exact storeTrigger_meetsBad hm

theorem treeOp_meetsBad {s : State} {g : Guard} {src : Src} {form : TreeForm} {home : Bool}
    {act : State → Nat → Core → BitVec 256 → Nat → Nat → List Xlat → State} {nt : Notice} (hm : MeetsBad s .s7 g src nt) :
    Refuses s .s7 nt (treeOp s g src form home act) ((if form = .update then s.me.exRoom else s.me.exLoadRoom) && s.me.isReady
      (.td (selTd (s.me.portW .s7 1)))) := by
  unfold treeOp
  exact triggerOr_meetsBad hm

theorem levelLoad_meetsBad {s : State} {g : Guard} {src : Src} {row home : Bool} {nt : Notice} (hm : MeetsBad s .s7 g src nt) :
    Refuses s .s7 nt (levelLoad s g src row home) (s.me.exLoadRoom && s.me.isReady (.td (selTd (s.me.portW .s7 1)))) := by
  unfold levelLoad
  cases row <;> exact treeOp_meetsBad hm

theorem detailLoad_meetsBad {s : State} {g : Guard} {src : Src} {home : Bool} {nt : Notice} (hm : MeetsBad s .s7 g src nt) :
    Refuses s .s7 nt (detailLoad s g src home) (s.me.exLoadRoom && s.me.isReady (.td (selTd (s.me.portW .s7 1)))) := by
  unfold detailLoad
  exact treeOp_meetsBad hm

theorem quayOp_meetsBad {s : State} {g : Guard} {src : Src} {dk : DKind} {bad : Core → Vec → Bool}
    {act : Core → Nat → Vec → Core} {nt : Notice} (hm : MeetsBad s .s7 g src nt) :
    Refuses s .s7 nt (quayOp s g src dk bad act) s.me.exRoom := by
  unfold quayOp
  exact trigger_meetsBad hm

theorem channelOp_meetsBad {s : State} {g : Guard} {src : Src} {act : Core → Nat → Core} {nt : Notice}
    (hm : MeetsBad s .s7 g src nt) : Refuses s .s7 nt (channelOp s g src act) s.me.exRoom := by
  unfold channelOp
  exact trigger_meetsBad hm

theorem mxOp_meetsBad {s : State} {g : Guard} {src : Src} {dk : DKind} {word : Core → Vec → Word} {bad : Core → Word → Bool}
    {act : Core → Vec → Word → Core} {names : Word → List Loc} {nt : Notice} (hm : MeetsBad s .s6 g src nt) :
    Refuses s .s6 nt (mxOp s g src dk word bad act names) s.me.mxRoom := by
  unfold mxOp
  exact triggerOr_meetsBad hm

theorem ctlWrite_meetsBad {s : State} {g : Guard} {src : Src} {bad : Core → Word → Option Word} {act : Core → Word → Core}
    {nt : Notice} (hm : MeetsBad s .s0 g src nt) : Refuses s .s0 nt (ctlWrite s g src bad act) true := by
  unfold ctlWrite
  exact trigger_meetsBad hm

theorem recordOp_meetsBad {s : State} {g : Guard} {src : Src} {bad : Core → Option Word}
    {act : State → Nat → Core → Nat → State} {nt : Notice} (hm : MeetsBad s .s0 g src nt) :
    Refuses s .s0 nt (recordOp s g src bad act) s.me.storeRoom := by
  unfold recordOp
  exact trigger_meetsBad hm

theorem ctlHeld_meetsBad {s : State} {g : Guard} {src : Src} {bad : Core → Word → Option Word} {act : Core → Word → Core}
    {nt : Notice} (hm : MeetsBad s .s0 g src nt) : Refuses s .s0 nt (ctlHeld s g src bad act) s.me.storeRoom := by
  unfold ctlHeld
  exact trigger_meetsBad hm

theorem ctlPrivileged_meetsBad {s : State} {g : Guard} {src : Src} {bad : Core → Word → Option Word} {act : Core → Word → Core}
    {nt : Notice} (hm : MeetsBad s .s0 g src nt) : Refuses s .s0 nt (ctlPrivileged s g src bad act) s.me.storeRoom := by
  unfold ctlPrivileged
  exact trigger_meetsBad hm

theorem execVtget_meetsBad {u : VexUnit} {s : State} {g : Guard} {src : Src} {n : Notice} (h : MeetsBad s u.slot g src n) :
    Refuses s u.slot n (execVtget u g src s) (s.me.isReady .vt) := by
  unfold execVtget
  rw [show s.me.isReady .vt = ([Loc.vt].all s.me.isReady && noNeed s.me) from by
    simp only [List.all_cons, List.all_nil, noNeed, Bool.and_true]]
  exact regTrigger_meetsBad h

theorem exec_meetsBad {i : Instr} {sl : Slot} {g : Guard} {src : Src} {d : BitVec 9} {s : State} {n : Notice}
    (he : encodeParts i = some (sl, g, src, d)) (hd : d.getLsbD 8 = true) (h : MeetsBad s sl g src n) :
    Refuses s sl n (exec i s) (unitReady i s.me) := by
  delta exec
  cases i with
  | move =>
    cases he
    rw [BitVec.getLsbD_append] at hd
    simp at hd
  | ix1Add | ix1Sub | ix1Mul | ix1Mulu =>
    cases he
    exact ix1Two_meetsBad h
  | ix1Adds | ix1Subs | ix1And | ix1Or | ix1Xor | ix1Andn | ix1Shl | ix1Shr | ix1Sar | ix1Rol | ix1Min | ix1Max | ix1Minu
  | ix1Maxu | ix1Clts | ix1Cltu | ix1Ceq | ix1Cne | ix1Cles | ix1Cleu | ix1Shl8 | ix1Shl16 | ix1Shl32 | ix1Shr8 | ix1Shr16
  | ix1Shr32 | ix1Sar8 | ix1Sar16 | ix1Sar32 | ix1Add8 | ix1Add16 | ix1Add32 | ix1Div | ix1Divu | ix1Rem | ix1Remu | ix1Bext
  | ix1Bexts | ix1Bins | ix1Clz | ix1Ctz | ix1Popc | ix1Brev | ix1Bswap =>
    cases he
    exact ix1One_meetsBad h
  | sfx5Add | sfx5Sub | sfx5Adds | sfx5Subs | sfx5And | sfx5Or | sfx5Xor | sfx5Andn | sfx5Shl | sfx5Shr | sfx5Sar | sfx5Rol
  | sfx5Min | sfx5Max | sfx5Minu | sfx5Maxu | sfx5Clts | sfx5Cltu | sfx5Ceq | sfx5Cne | sfx5Cles | sfx5Cleu | sfx5Shl8
  | sfx5Shl16 | sfx5Shl32 | sfx5Shr8 | sfx5Shr16 | sfx5Shr32 | sfx5Sar8 | sfx5Sar16 | sfx5Sar32 | sfx5Add8 | sfx5Add16
  | sfx5Add32 =>
    cases he
    exact sfx5Alu_meetsBad h
  | vexAdd | vexSub | vexAdds | vexSubs | vexMin | vexMax | vexAbs | vexNeg | vexAnd | vexOr | vexXor | vexAndn | vexShl | vexShr
  | vexSar | vexMul | vexFma | vexFms | vexFnma | vexCeq | vexCne | vexClt | vexCle | vexCdet | vexPerm | vexBcast | vexSlide =>
    cases he
    exact vexFn_meetsBad h
  | vexSel =>
    cases he
    exact vexSelect_meetsBad h
  | vexCvt =>
    cases he
    exact vexConvert_meetsBad h
  | vexRsum | vexRmin | vexRmax =>
    cases he
    exact vexReduce_meetsBad h
  | vtset | vtthr | vtclr =>
    cases he
    exact vtWrite_meetsBad h
  | vtget =>
    cases he
    exact execVtget_meetsBad h
  | kand | kor | kxor | kandn | knot | kgen | kpopc | kffs =>
    cases he
    exact maskFn_meetsBad h
  | sfx5Rcp | sfx5Rsqrt | sfx5Sqrt | sfx5Div | sfx5Exp2 | sfx5Log2 | sfx5Tanh | sfx5Sigm | sfx5Sinpi | sfx5Cospi =>
    cases he
    exact sfxFn_meetsBad h
  | ctlLvl | ctlCabase | ctlCastr | ctlLoop | ctlBsel =>
    cases he
    exact ctlWrite_meetsBad h
  | ctlWait =>
    cases he
    dsimp only
    unfold execCtlWait
    exact trigger_meetsBad h
  | ctlFork | ctlJoin | ctlSpawn | ctlLaunch =>
    cases he
    exact recordOp_meetsBad h
  | ctlDone | ctlBar | ctlTrap | ctlYield | ctlClkset | ctlVset | ctlClkrd | ctlSwsel =>
    cases he
    exact ctlHeld_meetsBad h
  | ctlSrd =>
    cases he
    dsimp only
    unfold execCtlSrd
    exact trigger_meetsBad h
  | ctlSwr =>
    cases he
    dsimp only
    unfold execCtlSwr
    exact trigger_meetsBad h
  | ctlRfe | ctlPark | ctlAbort | ctlUnpark =>
    cases he
    exact ctlPrivileged_meetsBad h
  | exitBr | exitJmp | exitCall | exitCalla | exitRet =>
    cases he
    exact exitMove_meetsBad h
  | ls2LdB | ls2LdH | ls2LdW | ls2LdD | ls2LdBs | ls2LdHs | ls2LdWs =>
    cases he
    exact scalarLoad_meetsBad h
  | ls2SldB | ls2SldH | ls2SldW | ls2SldD | ls2SldBs | ls2SldHs | ls2SldWs =>
    cases he
    exact scratchLoad_meetsBad h
  | ls2LdioB | ls2LdioH | ls2LdioW | ls2LdioD =>
    cases he
    exact heldLoad_meetsBad h
  | ls2StB | ls2StH | ls2StW | ls2StD =>
    cases he
    exact scalarStore_meetsBad h
  | ls2SstB | ls2SstH | ls2SstW | ls2SstD =>
    cases he
    exact scratchStore_meetsBad h
  | ls2AtAdd | ls2AtAnd | ls2AtOr | ls2AtXor | ls2AtMin | ls2AtMax | ls2AtMinu | ls2AtMaxu | ls2AtFadd | ls2AtSwp | ls2AtCas =>
    cases he
    exact atomicOp_meetsBad h
  | ls2LdAcq | ls2StRel =>
    cases he
    exact flagOp_meetsBad h
  | ls2Acq | ls2Rel | ls2Moor | ls2Unmoor =>
    cases he
    exact bollardOp_meetsBad h
  | ls2Fence =>
    cases he
    dsimp only
    unfold execLs2Fence
    exact regTrigger_meetsBad h
  | ls2PoolShare =>
    cases he
    exact poolOp2_meetsBad h
  | ls2PoolDrop | ls2PoolAlloc =>
    cases he
    exact poolOp1_meetsBad h
  | ls2Xlinv =>
    cases he
    dsimp only
    unfold execLs2Xlinv
    exact trigger_meetsBad h
  | ls2Xlwait =>
    cases he
    dsimp only
    unfold execLs2Xlwait
    exact regTrigger_meetsBad h
  | ls2Icinv =>
    cases he
    exact rangeOp_meetsBad h
  | ls2Cwb | ls2Cinv =>
    cases he
    exact flushOp_meetsBad h
  | ls2Ea0 | ls2Ea1 | ls2Ea2 | ls2Ea3 | ls2Ea4 | ls2Ea5 | ls2Ea6 =>
    cases he
    exact addressGen_meetsBad h
  | mx6Tld | mx6Tldv | mx6Tst | mx6Trd | mx6Shget | mx6Step | mx6Azero | mx6Ard | mx6Awr | mx6Acvt | mx6Aldq | mx6Bsend
  | mx6Bwait | mx6Bfree | mx6Bsts | mx6Rsts | mx6Rclr =>
    cases he
    exact mxOp_meetsBad h
  | mx6Shset =>
    cases he
    dsimp only
    unfold execMx6Shset
    exact trigger_meetsBad h
  | mx6Acvts =>
    cases he
    dsimp only
    unfold execMx6Acvts
    exact trigger_meetsBad h
  | mx6Bchain =>
    cases he
    dsimp only
    unfold execMx6Bchain
    exact trigger_meetsBad h
  | ex7Vld32 | ex7Vld64 | ex7Vld128 =>
    cases he
    exact vectorLoad_meetsBad h
  | ex7Svld32 | ex7Svld64 | ex7Svld128 =>
    cases he
    exact scratchVectorLoad_meetsBad h
  | ex7Eld | ex7Est =>
    cases he
    exact elementOp_meetsBad h
  | ex7Vst32 | ex7Vst64 | ex7Vst128 =>
    cases he
    exact vectorStore_meetsBad h
  | ex7Svst32 | ex7Svst64 | ex7Svst128 =>
    cases he
    exact scratchVectorStore_meetsBad h
  | ex7Lavg | ex7LavgHome | ex7LavgRow | ex7LavgRowHome =>
    cases he
    exact levelLoad_meetsBad h
  | ex7Ldet | ex7LdetHome =>
    cases he
    exact detailLoad_meetsBad h
  | ex7Trst =>
    cases he
    exact treeOp_meetsBad h
  | ex7Tdld =>
    cases he
    dsimp only
    unfold execEx7Tdld
    exact accessTrigger_meetsBad h
  | ex7QSet | ex7QPush | ex7QPop | ex7QAdv | ex7QSts =>
    cases he
    exact quayOp_meetsBad h
  | ex7CpReg =>
    cases he
    dsimp only
    unfold execEx7CpReg
    exact trigger_meetsBad h
  | ex7CpGo =>
    cases he
    dsimp only
    unfold execEx7CpGo
    exact triggerOr_meetsBad h
  | ex7CpDrain | ex7CpSts =>
    cases he
    exact channelOp_meetsBad h
  | ex7SqPost =>
    cases he
    dsimp only
    unfold execEx7SqPost
    exact accessTrigger_meetsBad h
  | ex7SqCqack =>
    cases he
    dsimp only
    unfold execEx7SqCqack
    exact trigger_meetsBad h
  | _ => cases he

end Sys2Proof.Machine
end

section
/-! PROOFS. The obligation on operands that carry poison. -/

namespace Sys2Proof.Proofs.AddressSpaces

open Sys2Proof.Machine

/-- Settles O11: every trigger reaches `triggerOr`, which asks for the operands' faults after its needs and before its act. -/
theorem poisonedOperandFaults : Obligations.PoisonedOperandFaults :=
  fun _ _ _ _ _ _ _ he hd hx hl hr hb hg hs hbad => exec_meetsBad he hd ⟨hx, hl, hr, hb, hg, hs, hbad⟩

end Sys2Proof.Proofs.AddressSpaces
end

section
/-! PROOFS. The start of a task, and the clocks of its cluster (09 R235; 20 R404 to R406). -/

namespace Sys2Proof.Machine

/-! ### Re-evaluating a cluster (20 R404 to R406) -/

theorem mem_upto_iff {a n x : Nat} : x ∈ upto a n ↔ a ≤ x ∧ x < a + n := by
  induction n generalizing a with
  | zero => simp [upto]
  | succ n ih => rw [upto, List.mem_cons, ih]; omega

/-- `c'` is `c`, but for the divisors that its engines run at. -/
def Core.Reclocked (c c' : Core) : Prop := ∃ r, c' = { c with clk := { c.clk with run := r } }

theorem Core.Reclocked.refl (c : Core) : c.Reclocked c := ⟨_, rfl⟩

theorem Core.Reclocked.trans {a b c : Core} (h : a.Reclocked b) (h' : b.Reclocked c) : a.Reclocked c := by
  obtain ⟨r, rfl⟩ := h
  obtain ⟨r', rfl⟩ := h'
  exact ⟨r', rfl⟩

theorem State.core_switchCore_other (s : State) {k j : Nat} (h : j ≠ k) : (s.switchCore k).core j = s.core j := by
  simp only [State.switchCore]
  split
  · rfl
  · exact State.core_modCore_other _ _ h

theorem State.core_switchCore (s : State) (k j : Nat) : (s.core j).Reclocked ((s.switchCore k).core j) := by
  by_cases h : j = k
  · subst h
    simp only [State.switchCore]
    split
    · exact .refl _
    · rw [State.core_modCore]; exact ⟨_, rfl⟩
  · rw [State.core_switchCore_other s h]; exact .refl _

theorem State.core_payClocks_other (s : State) {k j : Nat} (h : j ≠ k) : (s.payClocks k).core j = s.core j := by
  simp only [State.payClocks]
  split
  · exact State.core_modCore_other _ _ h
  · rfl

/-- A core none of whose clock operations waits gets no result. -/
theorem State.core_payClocks_of_waiting {s : State} {k j : Nat} (h : (s.core j).clk.waiting = []) : (s.payClocks k).core j = s.core j := by
  by_cases hj : j = k
  · subst hj
    simp only [State.payClocks, h, List.any_nil, Bool.false_eq_true, if_false]
  · exact State.core_payClocks_other s hj

theorem State.core_setClusterPwr (s : State) (cl : Nat) (p : ClusterPwr) (j : Nat) : (s.setClusterPwr cl p).core j = s.core j := rfl

/-- The voltage of a cluster begins to move. -/
def State.moveVoltage (s : State) (cl : Nat) : State :=
  if (s.clusterPwr cl).settling || (s.clusterPwr cl).lowering then s
  else if s.codeOf cl < s.targetCode cl then s.setClusterPwr cl { s.clusterPwr cl with target := s.targetCode cl, settling := true }
  else if s.targetCode cl < s.codeOf cl then s.setClusterPwr cl { s.clusterPwr cl with target := s.targetCode cl, lowering := true }
  else s

theorem State.moveVoltage_cores (s : State) (cl : Nat) : (s.moveVoltage cl).cores = s.cores := by
  unfold State.moveVoltage
  split
  · rfl
  · split
    · rfl
    · split <;> rfl

theorem State.applyCluster_eq (s : State) (cl : Nat) :
    s.applyCluster cl = (upto (8 * cl) 8).foldl State.payClocks (((upto (8 * cl) 8).foldl State.switchCore s).moveVoltage cl) := by
  unfold State.applyCluster
  generalize upto (8 * cl) 8 = l
  rfl

theorem State.core_congr {s t : State} (h : t.cores = s.cores) (j : Nat) : t.core j = s.core j := by
  unfold State.core; rw [h]

theorem State.core_applyCluster_other (s : State) {cl j : Nat} (h : clusterOf j ≠ cl) : (s.applyCluster cl).core j = s.core j := by
  have he := s.applyCluster_eq cl
  have ht := State.moveVoltage_cores ((upto (8 * cl) 8).foldl State.switchCore s) cl
  generalize (((upto (8 * cl) 8).foldl State.switchCore s).moveVoltage cl) = t at he ht
  have hne : ∀ k ∈ upto (8 * cl) 8, j ≠ k := by
    intro k hk hjk
    rw [mem_upto_iff] at hk
    exact h (by unfold clusterOf; omega)
  rw [he]
  refine foldl_keeps_mem (J := fun t : State => t.core j = s.core j) (fun b k hk hb => (State.core_payClocks_other b (hne k hk)).trans hb) ?_
  rw [State.core_congr ht]
  exact foldl_keeps_mem (J := fun t : State => t.core j = s.core j) (fun b k hk hb => (State.core_switchCore_other b (hne k hk)).trans hb) rfl

theorem State.core_applyCluster_of_waiting {s : State} {cl j : Nat} (h : (s.core j).clk.waiting = []) :
    (s.core j).Reclocked ((s.applyCluster cl).core j) := by
  have he := s.applyCluster_eq cl
  have ht := State.moveVoltage_cores ((upto (8 * cl) 8).foldl State.switchCore s) cl
  generalize (((upto (8 * cl) 8).foldl State.switchCore s).moveVoltage cl) = t at he ht
  have hsw : (s.core j).Reclocked (t.core j) := by
    rw [State.core_congr ht]
    exact foldl_keeps_mem (J := fun t : State => (s.core j).Reclocked (t.core j)) (fun b k _ hb => hb.trans (State.core_switchCore b k j)) (.refl _)
  have hw : (t.core j).clk.waiting = [] := by
    obtain ⟨r, hr⟩ := hsw
    rw [hr]; exact h
  have hp : ((upto (8 * cl) 8).foldl State.payClocks t).core j = t.core j := by
    refine foldl_keeps_mem (J := fun u : State => u.core j = t.core j) (fun b k _ hb => ?_) rfl
    rw [State.core_payClocks_of_waiting (by rw [hb]; exact hw), hb]
  rw [he, hp]; exact hsw

/-! ### The start of a task (09 R235; 04 R96) -/

theorem State.ctxWho_frame (s : State) (k x : Nat) (b : Bool) : ∃ m, (s.ctxWho k x b).1 = { s with ms := m } :=
  ⟨_, State.readCtx_frame s x⟩

theorem State.cores_of_frame {s t : State} (h : ∃ m, t = { s with ms := m }) : t.cores = s.cores := by
  obtain ⟨m, rfl⟩ := h; rfl

theorem State.readCtx_cores (s : State) (x : Nat) : (s.readCtx x).1.cores = s.cores := State.cores_of_frame ⟨_, State.readCtx_frame s x⟩

theorem taskHeader_cores {s s1 : State} {k : Nat} {t : Task} {r : Except (Nat × Nat) CodeObj} (h : taskHeader s k t = (s1, r)) :
    s1.cores = s.cores := by
  unfold taskHeader at h
  dsimp -iota only at h
  split at h
  · cases h; rfl
  · obtain ⟨m, hm⟩ := s.ctxWho_frame k t.ctx t.sup
    generalize s.ctxWho k t.ctx t.sup = q at h hm
    obtain ⟨u, w⟩ := q
    dsimp only at h hm
    subst hm
    split at h <;> (cases h; rfl)

theorem startTask_eq {s s1 : State} {k : Nat} {t : Task} {o : CodeObj} (entry : Nat) (ht : t.record = false)
    (hh : taskHeader s k t = (s1, .ok o)) :
    startTask s k t entry = ((s1.readCtx t.ctx).1.modCore k fun c => c.startTask t (s1.readCtx t.ctx).2 o entry).applyCore k := by
  unfold startTask
  rw [hh]
  obtain ⟨r, hr⟩ : ∃ r, s1.readCtx t.ctx = r := ⟨_, rfl⟩
  obtain ⟨s2, e⟩ := r
  simp only [hr, State.markRecord, ht, Bool.false_eq_true, if_false]

theorem State.core_startTask {s s1 : State} {k : Nat} {t : Task} {o : CodeObj} {entry : Nat} (ht : t.record = false)
    (hh : taskHeader s k t = (s1, .ok o)) :
    ((s.core k).startTask t (s1.readCtx t.ctx).2 o entry).Reclocked ((startTask s k t entry).core k) := by
  have hc : s1.core k = s.core k := State.core_congr (taskHeader_cores hh) k
  have hr : (s1.readCtx t.ctx).1.core k = s1.core k := State.core_congr (s1.readCtx_cores _) k
  rw [startTask_eq entry ht hh, ← hc, ← hr]
  have hm := State.core_modCore (s1.readCtx t.ctx).1 k fun c => c.startTask t (s1.readCtx t.ctx).2 o entry
  rw [← hm]
  exact State.core_applyCluster_of_waiting (by rw [hm]; rfl)

theorem State.core_startTask_other {s s1 : State} {k j : Nat} {t : Task} {o : CodeObj} (entry : Nat) (ht : t.record = false)
    (hh : taskHeader s k t = (s1, .ok o)) (hj : clusterOf j ≠ clusterOf k) : (startTask s k t entry).core j = s.core j := by
  have hjk : j ≠ k := fun h => hj (by rw [h])
  rw [startTask_eq entry ht hh]
  calc ((s1.readCtx t.ctx).1.modCore k _ |>.applyCore k).core j
      = ((s1.readCtx t.ctx).1.modCore k _).core j := State.core_applyCluster_other _ hj
    _ = (s1.readCtx t.ctx).1.core j := State.core_modCore_other _ _ hjk
    _ = s1.core j := State.core_congr (s1.readCtx_cores _) j
    _ = s.core j := State.core_congr (taskHeader_cores hh) j

theorem execTaskStart_starts {s : State} {k : Nat} {t : Task} (hk : (s.core k).task = some t) (ht : t.record = false)
    (hp : (s.core k).ctl.phase = .starting) (hl : (s.core k).lastLaunch = s.launchSerial t) :
    execTaskStart k s = .next (startTask s k t (s.core k).ctl.head) := by
  simp only [execTaskStart, hk, hp, hl, ht, ne_eq, not_true_eq_false, or_self, if_false, Bool.false_eq_true]

end Sys2Proof.Machine
end

section
/-! PROOFS. What the scheduler's bookkeeping leaves: the cores, and the launches in flight (09 R239 to R254). -/

namespace Sys2Proof.Machine

/-- The cores of `t`, its launches in flight and their serial number are those of `s`. -/
structure State.Flies (s t : State) : Prop where
  cores : t.cores = s.cores
  serial : t.sched.serial = s.sched.serial
  flight : ∀ n, (t.stream n).flight = (s.stream n).flight

theorem State.Flies.refl (s : State) : s.Flies s := ⟨rfl, rfl, fun _ => rfl⟩

theorem State.Flies.congr {s t u : State} (h : s.Flies t) (hc : u.cores = t.cores) (hn : u.sched.serial = t.sched.serial)
    (hs : u.sched.streams = t.sched.streams) : s.Flies u :=
  ⟨hc.trans h.cores, hn.trans h.serial, fun n => by rw [← h.flight n]; unfold State.stream; rw [hs]⟩

theorem State.Flies.of_eq {α : Type} {s t : State} {r : State × α} {a : α} (he : r = (t, a)) (h : s.Flies r.1) : s.Flies t := by
  rw [he] at h; exact h

theorem State.Flies.ite {s t u : State} {p : Prop} [Decidable p] (ht : s.Flies t) (hu : s.Flies u) : s.Flies (if p then t else u) := by
  split
  · exact ht
  · exact hu

theorem State.Flies.foldl {α : Type} {f : State → α → State} {s t : State} {l : List α} (hf : ∀ u x, s.Flies u → s.Flies (f u x))
    (h : s.Flies t) : s.Flies (l.foldl f t) := foldl_keeps hf h

theorem State.Flies.withMs {s t : State} (m : MemSys) (h : s.Flies t) : s.Flies { t with ms := m } := h.congr rfl rfl rfl

/-- A stream that keeps its launch in flight. -/
theorem State.Flies.setStream {s t : State} {n : Nat} {x : Stream} (hx : x.flight = (t.stream n).flight) (h : s.Flies t) :
    s.Flies (t.setStream n x) := by
  refine ⟨h.cores, h.serial, fun m => ?_⟩
  by_cases hm : m = n
  · subst hm; rw [State.stream_setStream, hx, h.flight]
  · rw [State.stream_setStream_other _ _ hm, h.flight]

theorem State.streamEntry_frame (s : State) (n : Nat) : ∃ m, (s.streamEntry n).1 = { s with ms := m } := ⟨_, rfl⟩

section
variable {s t : State} (h : s.Flies t)
include h

theorem State.Flies.setSlot (n : Nat) (x : Option StreamSlot) : s.Flies (t.setSlot n x) := h.congr rfl rfl rfl
theorem State.Flies.setReady (cl p : Nat) (l : List Ready) : s.Flies (t.setReady cl p l) := h.congr rfl rfl rfl
theorem State.Flies.schedErr : s.Flies t.schedErr := h.congr rfl rfl rfl
theorem State.Flies.tick : s.Flies t.tick := h.congr rfl rfl rfl
theorem State.Flies.send (dev : Nat) (m : Msg) : s.Flies (t.send dev m) := h.congr rfl rfl rfl
theorem State.Flies.of_frame {u : State} (hu : ∃ m, u = { t with ms := m }) : s.Flies u := by
  obtain ⟨m, rfl⟩ := hu; exact h.withMs m
theorem State.Flies.streamEntry (n : Nat) : s.Flies (t.streamEntry n).1 := h.of_frame (t.streamEntry_frame n)
theorem State.Flies.readCtx (n : Nat) : s.Flies (t.readCtx n).1 := h.of_frame ⟨_, t.readCtx_frame n⟩
theorem State.Flies.ctxWho (k x : Nat) (b : Bool) : s.Flies (t.ctxWho k x b).1 := h.of_frame (t.ctxWho_frame k x b)

theorem State.Flies.setStatus (w : Who) (va v : Nat) : s.Flies (t.setStatus w va v) := by
  unfold State.setStatus
  split
  · exact h.withMs _
  · exact .ite (h.withMs _) (h.withMs _)

theorem State.Flies.share (n cl : Nat) (f : Nat → Nat) : s.Flies (t.share n cl f) := by
  unfold State.share
  split
  · exact h.congr rfl rfl rfl
  · dsimp -iota only
    split
    exact h.withMs _

theorem State.Flies.saveShares (n : Nat) : s.Flies (saveShares t n) := .foldl (fun _ _ ht => ht.congr rfl rfl rfl) h

theorem State.Flies.loadShares (n : Nat) : s.Flies (loadShares t n) := by
  unfold Machine.loadShares
  refine .foldl (fun _ _ ht => ?_) h
  split
  exact ht.congr rfl rfl rfl

theorem State.Flies.mendLinks (core : Nat) (old new : List ReadyRec) : s.Flies (mendLinks core old new t) := by
  unfold Machine.mendLinks
  refine .foldl (fun _ _ ht => ?_) h
  split
  · exact ht
  · split
    rename_i he
    exact ((ht.ctxWho _ _ _).of_eq he).setStatus _ _ _

theorem State.Flies.pushReady (core cl : Nat) (r : ReadyRec) : s.Flies (t.pushReady core cl r) := (h.mendLinks _ _ _).setReady _ _ _

end

theorem State.Flies.succList {s t : State} {w : Who} {base n i : Nat} (h : s.Flies t) : s.Flies (succList w base n i t).1 := by
  induction n generalizing i t with
  | zero => exact h
  | succ n ih =>
    unfold Machine.succList
    split
    · exact ih (h.withMs _).schedErr
    · split
      dsimp only
      split
      · exact ih (h.withMs _).schedErr
      · exact ih (h.withMs _)

theorem State.Flies.successors {s t : State} {w : Who} {va r : Nat} (h : s.Flies t) : s.Flies (successors t w va r).1 := by
  unfold Machine.successors
  split
  · split
    rename_i he
    exact h.succList.of_eq he
  · exact h

theorem State.Flies.releaseOne {s t : State} {r : Rel} (h : s.Flies t) : s.Flies (releaseOne t r).1 := by
  unfold Machine.releaseOne
  split
  · exact (h.withMs _).schedErr
  dsimp -iota only
  split
  · exact (h.withMs _).schedErr
  split
  split
  · exact h.withMs _
  split
  · exact (((h.withMs _).setStatus _ _ _).share _ _ _).pushReady _ _ _
  split
  · exact ((h.withMs _).setStatus _ _ _).pushReady _ _ _
  split
  rename_i he
  exact (State.Flies.successors (((h.withMs _).setStatus _ _ _).setStatus _ _ _)).of_eq he

theorem State.Flies.releaseAll {s t : State} {n : Nat} {l : List Rel} (h : s.Flies t) : s.Flies (releaseAll n l t) := by
  induction n generalizing l t with
  | zero => exact h
  | succ n ih =>
    cases l with
    | nil => exact h
    | cons r rs => exact ih h.releaseOne

theorem State.Flies.headReady {s t : State} (h : s.Flies t) (n : Nat) : s.Flies (headReady t n).1 := by
  unfold Machine.headReady
  split
  rename_i he
  replace he := (h.streamEntry n).of_eq he
  split
  · exact he
  split
  rename_i he2
  replace he2 := (he.readCtx _).of_eq he2
  split
  · exact he2
  dsimp -iota only
  split
  rename_i he3
  replace he3 := (he2.ctxWho _ _ _).of_eq he3
  split
  · exact he3.withMs _
  · exact he3.withMs _

theorem State.Flies.hasWork {s t : State} (h : s.Flies t) (n : Nat) : s.Flies (hasWork t n).1 := by
  unfold Machine.hasWork
  split
  · exact h
  · exact h.headReady n

theorem State.Flies.mapStream {s t : State} (h : s.Flies t) (n m : Nat) : s.Flies (mapStream t n m) := by
  have hs : s.Flies ((t.setSlot n (some { stream := m, mappedAt := t.now, prevBoundary := false, leaving := none })).setStream m
      { (t.setSlot n (some { stream := m, mappedAt := t.now, prevBoundary := false, leaving := none })).stream m with waitFrom := none }) :=
    (h.setSlot _ _).setStream rfl
  exact .ite (hs.loadShares _) hs

theorem State.Flies.unmapSlot {s t : State} (h : s.Flies t) (n : Nat) : s.Flies (unmapSlot t n) := by
  unfold Machine.unmapSlot
  split
  · exact h
  rename_i x hx
  dsimp -iota only
  obtain ⟨u, hu, hus⟩ : ∃ u, (if (t.stream x.stream).flight.isSome then Machine.saveShares t x.stream else t).setSlot n none = u ∧ s.Flies u :=
    ⟨_, rfl, (State.Flies.ite (h.saveShares _) h).setSlot _ _⟩
  rw [hu]
  split
  rename_i v w he
  replace he := (hus.hasWork _).of_eq he
  have hw : s.Flies (if w then v.setStream x.stream { u.stream x.stream with waitFrom := some v.now } else v) :=
    .ite (he.setStream ((hus.flight _).trans (he.flight _).symm)) he
  split
  · exact hw.mapStream _ _
  · exact hw

theorem State.Flies.advanceHead {s t : State} (h : s.Flies t) (n link : Nat) : s.Flies (advanceHead t n link) :=
  .ite ((h.withMs _).withMs _) (h.withMs _)

end Sys2Proof.Machine
end

section
/-! PROOFS. What a core takes, the zeroing of its scratchpad, and the admission of a crew (09 R243, R251; 04 R95, R96). -/

namespace Sys2Proof.Machine

/-! ### Work that a core takes (09 R243, R251; 04 R95) -/

theorem reserveAll_of_no_crews {s : State} (h : s.sched.crews = []) : reserveAll s = s := by
  simp only [reserveAll, h, List.filter_nil, List.foldl_nil]

theorem State.dequeRefill_of_cons {s : State} {k : Nat} {q : ReadyRec} {ds : List ReadyRec} (h : s.dequeOf k = q :: ds) :
    s.dequeRefill k = s := by
  simp only [State.dequeRefill, h, reduceCtorEq, if_false]

theorem takeOwn_of_takable {s : State} {k : Nat} {q : ReadyRec} {ds : List ReadyRec} (h : s.dequeOf k = q :: ds)
    (hq : s.takable k q = true) : takeOwn s k = some (takeRecord (s.setDeque k ds) k q) := by
  simp only [takeOwn, h, List.find?_cons, hq, List.erase_cons_head]

theorem execCoreTakeWork_takes_own {s : State} {k : Nat} {q : ReadyRec} {ds : List ReadyRec} (hk : k < 256) (hc : s.sched.crews = [])
    (ht : s.pwr.tripped = none) (hi : (s.core k).idle = true) (hf : frameWaits s k = false) (h : s.dequeOf k = q :: ds)
    (hq : s.takable k q = true) : execCoreTakeWork k s = .next (takeRecord (s.setDeque k ds) k q) := by
  have hr : s.reserved k = false := by simp only [State.reserved, hc, List.any_nil]
  simp only [execCoreTakeWork, reserveAll_of_no_crews hc, State.startsTasks, ht, Option.isNone_none, Nat.not_le.2 hk, hi, hr, hf,
    State.dequeRefill_of_cons h, takeOwn_of_takable h hq, Bool.not_true, decide_false, Bool.or_false, Bool.false_eq_true, if_false]

theorem moveWays_sched (s : State) (k n : Nat) : (moveWays s k n).sched = s.sched := by
  simp only [moveWays]
  split <;> rfl

theorem core_moveWays_other (s : State) {k j : Nat} (n : Nat) (h : j ≠ k) : (moveWays s k n).core j = s.core j := by
  simp only [moveWays]
  split
  · rfl
  · exact State.core_setCore_other _ _ h

theorem placeTask_sched (s : State) (k : Nat) (t : Task) (e : Nat) : (placeTask s k t e).sched = s.sched := by
  rw [placeTask, State.modCore_sched, moveWays_sched]

theorem core_placeTask_other (s : State) {k j : Nat} (t : Task) (e : Nat) (h : j ≠ k) : (placeTask s k t e).core j = s.core j := by
  rw [placeTask, State.core_modCore_other _ _ h, core_moveWays_other _ _ h]

theorem core_placeTask (s : State) (k : Nat) (t : Task) (e : Nat) : ((placeTask s k t e).core k).task = some t ∧
    ((placeTask s k t e).core k).ctl.phase = .starting ∧ ((placeTask s k t e).core k).ctl.head = e := by
  rw [placeTask, State.core_modCore]; exact ⟨rfl, rfl, rfl⟩

/-- The task of a record that a core takes. -/
def recordsTask (q : ReadyRec) (spw : Nat) : Task :=
  { ctx := q.ctx, trec := q.addr, owner := q.owner, crew := none, rank := 0, crewn := 1, tc := (0, 0, 0), record := true
    origin := q.origin, code := 0, sup := false, creatorSup := q.creatorSup, rst := false, spw := spw }

theorem takeRecord_of_task {q : ReadyRec} (s : State) (k : Nat) (h : q.copy = false) :
    ∃ spw, takeRecord s k q = placeTask s k (recordsTask q spw) 0 := by
  simp only [takeRecord, h, Bool.false_eq_true, if_false]
  exact ⟨_, rfl⟩

/-- The copy of a record that a core takes. -/
def recordsCopy (q : ReadyRec) : RecordCopy :=
  { addr := q.addr, ctx := q.ctx, sup := false, creatorSup := q.creatorSup, owner := q.owner, origin := q.origin, src := 0, dst := 0
    len := 0, doneBytes := 0, crc := 0, mode := 4 }

theorem takeRecord_of_copy {q : ReadyRec} (s : State) (k : Nat) (h : q.copy = true) :
    takeRecord s k q = s.modCore k fun c => { c with cp := { c.cp with record := some (recordsCopy q) } } := by
  simp only [takeRecord, h, if_true]
  rfl

/-- An idle core takes the task at the head of its deque. -/
theorem coreTakeWork_takes_task {s : State} {k : Nat} {q : ReadyRec} {ds : List ReadyRec} (hk : k < 256) (hc : s.sched.crews = [])
    (ht : s.pwr.tripped = none) (hi : (s.core k).idle = true) (hf : frameWaits s k = false) (h : s.dequeOf k = q :: ds)
    (hq : s.takable k q = true) (hcopy : q.copy = false) :
    ∃ t u, execCoreTakeWork k s = .next t ∧ t.dequeOf k = ds ∧ (t.core k).ctl.phase = .starting ∧ (t.core k).task = some u ∧
      u.trec = q.addr ∧ u.ctx = q.ctx ∧ u.owner = q.owner ∧ u.record = true ∧ u.crew = none ∧ u.rank = 0 ∧ u.crewn = 1 ∧
      u.tc = (0, 0, 0) ∧ ∀ j, j ≠ k → t.core j = s.core j := by
  obtain ⟨spw, ht'⟩ := takeRecord_of_task (s.setDeque k ds) k hcopy
  have hd : (placeTask (s.setDeque k ds) k (recordsTask q spw) 0).dequeOf k = (s.setDeque k ds).dequeOf k := by
    unfold State.dequeOf; rw [placeTask_sched]
  obtain ⟨hu, hphase, -⟩ := core_placeTask (s.setDeque k ds) k (recordsTask q spw) 0
  exact ⟨_, _, (execCoreTakeWork_takes_own hk hc ht hi hf h hq).trans (by rw [ht']), hd.trans (State.dequeOf_setDeque _ _ _), hphase, hu,
    rfl, rfl, rfl, rfl, rfl, rfl, rfl, rfl, fun j hj => core_placeTask_other _ _ _ hj⟩

/-- An idle core takes the copy at the head of its deque for its record channel. -/
theorem coreTakeWork_takes_copy {s : State} {k : Nat} {q : ReadyRec} {ds : List ReadyRec} (hk : k < 256) (hc : s.sched.crews = [])
    (ht : s.pwr.tripped = none) (hi : (s.core k).idle = true) (hf : frameWaits s k = false) (h : s.dequeOf k = q :: ds)
    (hq : s.takable k q = true) (hcopy : q.copy = true) :
    ∃ t rc, execCoreTakeWork k s = .next t ∧ t.dequeOf k = ds ∧
      t.core k = { s.core k with cp := { (s.core k).cp with record := some rc } } ∧
      rc.addr = q.addr ∧ rc.ctx = q.ctx ∧ rc.creatorSup = q.creatorSup ∧ rc.owner = q.owner ∧ rc.doneBytes = 0 ∧
      ∀ j, j ≠ k → t.core j = s.core j := by
  have he := execCoreTakeWork_takes_own hk hc ht hi hf h hq
  rw [takeRecord_of_copy _ _ hcopy] at he
  exact ⟨_, recordsCopy q, he, State.dequeOf_setDeque _ _ _, State.core_modCore _ _ _, rfl, rfl, rfl, rfl, rfl,
    fun j hj => State.core_modCore_other _ _ hj⟩

/-! ### The scratchpad of a core that begins a task of another launch (04 R96, R103) -/

theorem scratchpadZeroing_zeroes {s : State} {k : Nat} {t : Task} (hk : (s.core k).task = some t)
    (hp : (s.core k).ctl.phase = .starting) (hl : (s.core k).lastLaunch ≠ s.launchSerial t) :
    ∃ c', execScratchpadZeroing k s = .next (s.setCore k c') ∧ (∀ a, (SMap.get 0 c'.scratch a : BitVec 8) = 0) ∧
      (∀ q, c'.quay q = {}) ∧ c'.lastLaunch = s.launchSerial t ∧ c'.regs = (s.core k).regs ∧ c'.ctl = (s.core k).ctl ∧
      c'.mx = (s.core k).mx := by
  refine ⟨{ s.core k with
      scratch := [], scratchPoison := [], scratchErr := [], lastLaunch := s.launchSerial t
      cp := { (s.core k).cp with quays := [] } }, ?_, fun _ => rfl, fun _ => rfl, rfl, rfl, rfl, rfl⟩
  simp only [execScratchpadZeroing, hk, hp, hl, ne_eq, not_true_eq_false, or_self, if_false]

/-! ### A crew starts on all its cores (09 R243, R252) -/

/-- The members of a crew are placed from rank `r` on. -/
theorem placeMembers_places (l : Launch) (c : Crew) (ks : List Nat) (r : Nat) (s : State) (hn : ks.Nodup) :
    (∀ i k, ks[i]? = some k → ∃ u, ((placeMembers l c ks r s).core k).task = some u ∧
      ((placeMembers l c ks r s).core k).ctl.phase = .starting ∧ ((placeMembers l c ks r s).core k).ctl.head = l.entry ∧
      u.crew = some c.id ∧ u.rank = r + i ∧ u.crewn = c.size ∧ u.tc = l.coord (l.csize * c.index + (r + i)) ∧ u.trec = l.addr) ∧
    ∀ j, j ∉ ks → (placeMembers l c ks r s).core j = s.core j := by
  induction ks generalizing r s with
  | nil => exact ⟨fun i k h => by simp at h, fun _ _ => rfl⟩
  | cons k ks ih =>
    obtain ⟨hk, hks⟩ := List.nodup_cons.1 hn
    simp only [placeMembers]
    generalize (if c.region.length = 8 then c.region.headD 0 / 8 else k / 8) = origin
    obtain ⟨s1, hs1, hc1⟩ : ∃ s1, (if c.region.length = 8 then s else s.share l.stream origin (· + 1)) = s1 ∧ s1.cores = s.cores := by
      refine ⟨_, rfl, ?_⟩
      split
      · rfl
      · exact ((State.Flies.refl s).share _ _ _).cores
    rw [hs1]
    obtain ⟨hin, hout⟩ := ih (r + 1) (placeTask s1 k (memberTask l c.id r c.size (l.csize * c.index + r) origin) l.entry) hks
    refine ⟨fun i j hj => ?_, fun j hj => ?_⟩
    · cases i with
      | zero =>
        obtain rfl : k = j := by simpa using hj
        rw [hout k hk]
        obtain ⟨hu, hphase, hhead⟩ := core_placeTask s1 k (memberTask l c.id r c.size (l.csize * c.index + r) origin) l.entry
        exact ⟨_, hu, hphase, hhead, rfl, rfl, rfl, rfl, rfl⟩
      | succ i =>
        have h := hin i j (by simpa using hj)
        rwa [show r + 1 + i = r + (i + 1) by omega] at h
    · rw [List.mem_cons, not_or] at hj
      rw [hout j hj.2, core_placeTask_other _ _ _ hj.1, State.core_congr hc1]

/-- The reservation of cores writes crews alone. -/
theorem reserveFor_pwr (s : State) (c : Crew) : (reserveFor s c).pwr = s.pwr := by
  simp only [reserveFor]
  split <;> rfl

theorem reserveAll_pwr (s : State) : (reserveAll s).pwr = s.pwr := by
  refine foldl_keeps (J := fun t : State => t.pwr = s.pwr) (fun t c ht => ?_) rfl
  split
  · rw [reserveFor_pwr, ht]
  · exact ht

theorem crewAdmission_starts {s s1 : State} {c : Crew} {l : Launch} (hr : reserveAll s = s1) (hs : s.startsTasks = true)
    (hf : s1.sched.crews.find? (fun c => !c.admitted && c.held.length == c.size && s1.runnable c.stream) = some c)
    (hl : (s1.stream c.stream).flight = some l) (hn : c.held.Nodup) :
    ∃ t, execCrewAdmission s = .next t ∧
      (∀ r k, c.held[r]? = some k → ∃ u, (t.core k).task = some u ∧ (t.core k).ctl.phase = .starting ∧ (t.core k).ctl.head = l.entry ∧
        u.crew = some c.id ∧ u.rank = r ∧ u.crewn = c.size ∧ u.tc = l.coord (l.csize * c.index + r) ∧ u.trec = l.addr) ∧
      ∀ j, j ∉ c.held → t.core j = s1.core j := by
  have hs1 : s1.startsTasks = true := by
    rw [← hs, ← hr, State.startsTasks, State.startsTasks, reserveAll_pwr]
  obtain ⟨s2, hs2, he⟩ : ∃ s2 : State, s2.cores = s1.cores ∧ execCrewAdmission s = .next (placeMembers l c c.held 0 s2) := by
    refine ⟨_, ?_, by simp only [execCrewAdmission, hr, hs1, if_true, hf, hl]; rfl⟩
    rfl
  obtain ⟨hin, hout⟩ := placeMembers_places l c c.held 0 s2 hn
  simp only [Nat.zero_add] at hin
  exact ⟨_, he, hin, fun j hj => (hout j hj).trans (State.core_congr hs2 j)⟩

end Sys2Proof.Machine
end

section
/-! PROOFS. The start and the end of a launch, and the reports of its clusters (09 R239, R252, R254). -/

namespace Sys2Proof.Machine

/-! ### The end of a launch (09 R254) -/

theorem State.Flies.completeLaunchRecord {s t : State} (h : s.Flies t) (n va ctx : Nat) (creatorSup : Bool) (status aux : Nat) :
    s.Flies (completeLaunchRecord t n va ctx creatorSup status aux) := by
  unfold Machine.completeLaunchRecord
  split
  rename_i he
  replace he := (h.ctxWho _ _ _).of_eq he
  split
  rename_i u b he2
  have hu : s.Flies u := by
    refine State.Flies.of_eq he2 ?_
    split
    · exact he.withMs _
    · exact he.withMs _
  dsimp -iota only
  split
  rename_i he3
  refine .withMs _ (.of_eq he3 (.streamEntry ?_ _))
  split
  · split
    rename_i he4
    exact (State.Flies.successors (.ite (hu.setStatus _ _ _) ((hu.setStatus _ _ _).send _ _))).of_eq he4 |>.releaseAll
  · exact hu.setStatus _ _ _

/-- The launch of a stream ends: the others in flight, and the cores, stand. -/
theorem finishLaunch_flight (s : State) (l : Launch) (status aux : Nat) :
    (finishLaunch s l status aux).cores = s.cores ∧ ((finishLaunch s l status aux).stream l.stream).flight = none := by
  obtain ⟨g, hg, hgs⟩ : ∃ g, hasWork = g ∧ ∀ (s t : State) n, s.Flies t → s.Flies (g t n).1 := ⟨_, rfl, fun _ _ _ ht => ht.hasWork _⟩
  have hc := (State.Flies.refl s).completeLaunchRecord l.stream l.addr l.ctx l.creatorSup status aux
  unfold finishLaunch
  rw [hg]
  generalize completeLaunchRecord s l.stream l.addr l.ctx l.creatorSup status aux = t at hc
  dsimp only
  generalize hu : ({ t.setStream l.stream { t.stream l.stream with flight := none } with sched := _ } : State) = u
  have huc : u.cores = s.cores := by rw [← hu]; exact hc.cores
  have huf : (u.stream l.stream).flight = none := by
    rw [← hu]
    exact congrArg Stream.flight (State.stream_setStream t l.stream { t.stream l.stream with flight := none })
  have hend {v : State} (hv : u.Flies v) : v.cores = s.cores ∧ (v.stream l.stream).flight = none :=
    ⟨hv.cores.trans huc, (hv.flight _).trans huf⟩
  split
  · exact hend (.refl _)
  · exact hend (.ite (hgs _ _ _ (.refl _)) ((hgs _ _ _ (.refl _)).unmapSlot _))

/-! ### A launch is dealt (09 R239, R242, R243) -/

theorem State.Flies.dealSingles {s t : State} (h : s.Flies t) (dies : List Nat) (l : Launch) (c : Nat) : s.Flies (dealSingles dies l t c) :=
  .ite h ((h.share _ _ _).setReady _ _ _)

theorem State.Flies.dealCrew {s t : State} (h : s.Flies t) (dies : List Nat) (l : Launch) (i : Nat) : s.Flies (dealCrew dies l t i) := by
  unfold Machine.dealCrew
  extract_lets region c sch u
  have hu : s.Flies u := h.congr rfl rfl rfl
  exact .ite (hu.share _ _ _) hu

theorem dealLaunch_flight (s : State) (l : Launch) (dies : List Nat) : (dealLaunch s l dies).cores = s.cores ∧
    (dealLaunch s l dies).sched.serial = s.sched.serial ∧ ((dealLaunch s l dies).stream l.stream).flight = some { l with dealt := l.crews } := by
  unfold dealLaunch
  extract_lets t st
  have ht : s.Flies t :=
    .ite (.foldl (fun _ c hu => hu.dealSingles dies l c) (.refl s)) (.foldl (fun _ i hu => hu.dealCrew dies l i) (.refl s))
  refine ⟨ht.cores, ht.serial, ?_⟩
  rw [State.stream_setStream]

/-! ### A cluster reports (09 R252) -/

theorem shareReport_reports {s : State} {h cl : Nat} {x : StreamSlot} {l : Launch} (hx : s.slotOf h = some x)
    (hl : (s.stream x.stream).flight = some l) (hcl : cl < 32) (hd : cl / 8 ∈ allowedDies (entryDmask (s.streamEntry x.stream).2))
    (hr : cl ∉ l.reports) (hs : (SMap.get 0 s.sched.share (32 * x.stream + cl) : Nat) = 0)
    (hc : ∀ c ∈ s.sched.crews, c.stream = x.stream → c.admitted = false → ∀ k ∈ c.region, k / 8 ≠ cl) :
    ∃ t, execShareReport h cl s = .next t ∧ (t.stream x.stream).flight = some { l with reports := setInsert l.reports cl } ∧
      t.cores = s.cores ∧ ∀ n, n ≠ x.stream → t.stream n = s.stream n := by
  have hcrews : s.sched.crews.all (fun c => c.stream != x.stream || c.admitted || !c.region.any (fun k => k / 8 == cl)) = true := by
    rw [List.all_eq_true]
    intro c hcm
    cases hadm : c.admitted
    · by_cases hst : c.stream = x.stream
      · simpa [hst] using hc c hcm hst hadm
      · simp [hst]
    · simp
  obtain ⟨s1, e, he⟩ : ∃ s1 e, s.streamEntry x.stream = (s1, e) := ⟨_, _, rfl⟩
  have h1 : s1.sched = s.sched ∧ s1.cores = s.cores := by
    obtain ⟨m, hm⟩ := s.streamEntry_frame x.stream
    rw [he] at hm
    dsimp only at hm
    rw [hm]
    exact ⟨rfl, rfl⟩
  rw [he] at hd
  refine ⟨s1.setStream x.stream { s1.stream x.stream with flight := some { l with reports := setInsert l.reports cl } }, ?_, ?_, h1.2, ?_⟩
  · simp only [execShareReport, hx, hl, he, h1.1, hcrews, hs, List.contains_iff_mem.2 hd, hcl, decide_true, Bool.and_true, beq_self_eq_true,
      List.contains_eq_mem, hr, decide_false, Bool.not_false, if_true]
  · rw [State.stream_setStream]
  · intro n hn
    rw [State.stream_setStream_other _ _ hn]
    unfold State.stream; rw [h1.1]

/-! ### A launch starts (09 R239)

The two proofs about `execLaunchStart` put variables in the place of the operations that it calls, for which they have equations: the
kernel would otherwise unfold those. -/

theorem launchStart_runs {s : State} {n : Nat} (hon : s.schedOn = true) (hb : s.ms.l2busy = false) (hr : s.runnable n = true)
    (hf : (s.stream n).flight = none) : (!s.schedOn || s.ms.l2busy || !s.runnable n || (s.stream n).flight.isSome) = false := by
  simp only [hon, hb, hr, hf, Bool.not_true, Bool.or_self, Option.isSome_none]

section
variable {s s1 s2 s3 : State} {n e : Nat} {w : Who}
  (hon : s.schedOn = true) (hb : s.ms.l2busy = false) (hr : s.runnable n = true) (hf : (s.stream n).flight = none)
  (h1 : headReady s n = (s1, true)) (h2 : s1.streamEntry n = (s2, e))
  (h3 : s2.ctxWho 0 (entryCtx e) ((s2.stream n).supQueued.contains (entryHead e)) = (s3, w))
include h1 h2 h3

theorem flies_ctxWho_of_headReady : s.Flies s3 :=
  ((((State.Flies.refl s).headReady n).of_eq h1).streamEntry n |>.of_eq h2).ctxWho _ _ _ |>.of_eq h3

include hon hb hr hf

/-- A launch whose record cannot be read ends at once. -/
theorem execLaunchStart_of_unread {ms : MemSys} {f : Nat} (hrec : recordRead s3.ms w (entryHead e) false = (ms, .error f)) :
    ∃ t u l, execLaunchStart n s = .next t ∧ t = finishLaunch u l 0x07 f ∧ l.stream = n ∧ l.addr = entryHead e ∧
      (t.stream n).flight = none ∧ t.cores = s.cores := by
  obtain ⟨u0, hu0⟩ : ∃ u0, (advanceHead { s3 with ms := ms } n (lostLink s3 e)).tick = u0 := ⟨_, rfl⟩
  have hs : s.Flies u0 := hu0 ▸ (((flies_ctxWho_of_headReady h1 h2 h3).withMs ms).advanceHead n _).tick
  let u := u0.setStream n { u0.stream n with supQueued := (s2.stream n).supQueued.erase (entryHead e) }
  let l := launchOf (entryHead e) n (entryCtx e) ((s2.stream n).supQueued.contains (entryHead e)) u0.sched.serial 0
  have hu : s.Flies u := hs.setStream rfl
  obtain ⟨hc, hfl⟩ := finishLaunch_flight u l 0x07 f
  refine ⟨_, u, l, ?_, rfl, rfl, rfl, hfl, hc.trans hu.cores⟩
  obtain ⟨F, hF⟩ : ∃ F, execLaunchStart = F := ⟨_, rfl⟩
  obtain ⟨g1, hg1⟩ : ∃ g, headReady = g := ⟨_, rfl⟩
  obtain ⟨g2, hg2⟩ : ∃ g, State.streamEntry = g := ⟨_, rfl⟩
  obtain ⟨g3, hg3⟩ : ∃ g, State.ctxWho = g := ⟨_, rfl⟩
  rw [hF]
  delta execLaunchStart at hF
  rw [hg1] at hF h1
  rw [hg2] at hF h2
  rw [hg3] at hF h3
  subst hF
  simp only [launchStart_runs hon hb hr hf, h1, h2, h3, hrec, Bool.false_eq_true, if_false, hu0, u, l]

/-- A launch that can start deals all its crews. -/
theorem execLaunchStart_deals {ms : MemSys} {x : Xlat} {r : Nat} (hrec : recordRead s3.ms w (entryHead e) false = (ms, .ok (x, r)))
    {l : Launch} (hl : l = launchOf (entryHead e) n (entryCtx e) ((s2.stream n).supQueued.contains (entryHead e)) s.sched.serial r)
    (hspw : l.spw ≤ 12) (hsup : l.sup = true → (s2.stream n).supQueued.contains (entryHead e) = true)
    (hsize : l.csize ≤ 64 * (allowedDies (entryDmask e)).length) :
    ∃ t, execLaunchStart n s = .next t ∧ (t.stream n).flight = some { l with dealt := l.crews } ∧
      t.sched.serial = s.sched.serial + 1 ∧ t.cores = s.cores := by
  obtain ⟨u, hu⟩ : ∃ u, (advanceHead { s3 with ms := ms } n (field (recWord r 1) 6 50 * 64)).setStatus w (entryHead e) 3 = u := ⟨_, rfl⟩
  have hs : s.Flies u := hu ▸ (((flies_ctxWho_of_headReady h1 h2 h3).withMs ms).advanceHead n _).setStatus _ _ _
  let v0 : State := { u with sched := { u.sched with serial := s.sched.serial + 1 } }
  let v := v0.setStream n { v0.stream n with flight := some l, supQueued := (s2.stream n).supQueued.erase (entryHead e) }
  obtain ⟨hc, hn, hfl⟩ := dealLaunch_flight v l (allowedDies (entryDmask e))
  have hst : l.stream = n := by rw [hl]; rfl
  have hsup' : (l.sup && !(s2.stream n).supQueued.contains (entryHead e)) = false := by
    cases h : l.sup
    · rfl
    · rw [hsup h]; rfl
  refine ⟨dealLaunch v l (allowedDies (entryDmask e)), ?_,
    (congrArg (fun m => ((dealLaunch v l (allowedDies (entryDmask e))).stream m).flight) hst).symm.trans hfl, hn, hc.trans hs.cores⟩
  obtain ⟨F, hF⟩ : ∃ F, execLaunchStart = F := ⟨_, rfl⟩
  obtain ⟨g1, hg1⟩ : ∃ g, headReady = g := ⟨_, rfl⟩
  obtain ⟨g2, hg2⟩ : ∃ g, State.streamEntry = g := ⟨_, rfl⟩
  obtain ⟨g3, hg3⟩ : ∃ g, State.ctxWho = g := ⟨_, rfl⟩
  rw [hF]
  delta execLaunchStart at hF
  rw [hg1] at hF h1
  rw [hg2] at hF h2
  rw [hg3] at hF h3
  subst hF
  simp only [launchStart_runs hon hb hr hf, h1, h2, h3, hrec, Bool.false_eq_true, if_false, hu, hs.serial, ← hl, Nat.not_lt.2 hspw,
    hsup', Nat.not_lt.2 hsize, v, v0]

end

end Sys2Proof.Machine
end

section
/-! PROOFS. The obligation on how work starts. -/

namespace Sys2Proof.Proofs.AddressSpaces

open Sys2Proof.Machine

/-- Settles O52: records, tasks, launches and crews start as the eight clauses say. The bookkeeping of a launch's start and end
leaves the cores and the other launches in flight, which the relation `State.Flies` says; a task's start writes its core, and the
clocks of its cluster. -/
theorem workStarts : Obligations.WorkStarts := by
  unfold Obligations.WorkStarts
  intro s
  refine ⟨?take, ?copy, ?zero, ?start, ?launch, ?lost, ?crew, ?report⟩
  case take =>
    intro k q ds hk hc ht hi hf h hq hcopy
    exact coreTakeWork_takes_task hk hc ht hi hf h hq hcopy
  case copy =>
    intro k q ds hk hc ht hi hf h hq hcopy
    exact coreTakeWork_takes_copy hk hc ht hi hf h hq hcopy
  case zero =>
    intro k t c hk hp hl
    exact scratchpadZeroing_zeroes hk hp hl
  case start =>
    intro k t s1 o c hk ht hp hl hh e
    obtain ⟨r, hr⟩ := State.core_startTask (entry := (s.core k).ctl.head) ht hh
    refine ⟨_, execTaskStart_starts hk ht hp hl, ?_⟩
    rw [hr]
    exact ⟨rfl, rfl, rfl, rfl, rfl, rfl, rfl, rfl, rfl, rfl, rfl, rfl, fun j hj => State.core_startTask_other _ ht hh hj⟩
  case launch =>
    intro n s1 s2 s3 e w ms x r hon hb hr hf h1 h2 va cs h3 hrec l hspw hsup hsize
    exact execLaunchStart_deals hon hb hr hf h1 h2 h3 hrec rfl hspw hsup hsize
  case lost =>
    intro n s1 s2 s3 e w ms f hon hb hr hf h1 h2 h3 hrec
    exact execLaunchStart_of_unread hon hb hr hf h1 h2 h3 hrec
  case crew =>
    intro s1 c l hr hs hf hl hn
    exact crewAdmission_starts hr hs hf hl hn
  case report =>
    intro h cl x l hx hl hcl hd hr hs hc
    exact shareReport_reports hx hl hcl hd hr hs hc

end Sys2Proof.Proofs.AddressSpaces
end

section
/-! PROOFS. What leaves the write-combining buffers and the level-2 mode as they are, and what empties the buffers (01 R32; 04 R98). -/

namespace Sys2Proof.Machine

/-- What stands apart from the caches: the write-combining buffers, and the level-2 mode. -/
def MemSys.apart (m : MemSys) : SMap (List WcEntry) × Bool := (m.wc, m.part)

theorem ite_apart {w : SMap (List WcEntry) × Bool} {c : Prop} [Decidable c] {a b : MemSys} (ha : a.apart = w) (hb : b.apart = w) :
    (if c then a else b).apart = w := by split <;> assumption

section
variable (m : MemSys)

@[simp] theorem MemSys.setLines_apart (k : Nat) (ls : List L1Line) : (m.setLines k ls).apart = m.apart := rfl

@[simp] theorem MemSys.setPoison_apart (a : Nat) (p : Bool) : (m.setPoison a p).apart = m.apart := rfl

@[simp] theorem MemSys.put_apart (a n v mask : Nat) (packed bad : Bool) : (m.put a n v mask packed bad).apart = m.apart := by
  unfold MemSys.put MemSys.setPoison
  dsimp only
  split
  · rfl
  · split <;> rfl

@[simp] theorem MemSys.merge_apart (line : Nat) (v bits : Block) (packed bad : Bool) : (m.merge line v bits packed bad).apart = m.apart :=
  MemSys.put_apart ..

@[simp] theorem MemSys.putLine_apart (l : L1Line) : (m.putLine l).apart = m.apart := by
  unfold MemSys.putLine
  split
  · exact MemSys.merge_apart ..
  · exact MemSys.put_apart ..
  · rfl

theorem MemSys.expelWith_apart {f : Nat → MemSys → L1Line → MemSys} (hf : ∀ c m l, (f c m l).apart = m.apart) (line : Nat) (own : Option Nat) :
    (m.expelWith f line own).apart = m.apart := by
  refine foldl_keeps (J := fun n : MemSys => n.apart = m.apart) (fun n c hn => ?_) rfl
  split
  · exact hn
  · exact foldl_keeps (J := fun n : MemSys => n.apart = m.apart) (fun n l hn => (hf c n l).trans hn) hn

@[simp] theorem MemSys.packWrite_apart (p : Nat) : (m.packWrite p).apart = m.apart := by
  unfold MemSys.packWrite
  split <;> rfl

@[simp] theorem MemSys.setSlice_apart (sl : Nat) (ls : List L2Line) : (m.setSlice sl ls).apart = m.apart := rfl

@[simp] theorem MemSys.evict_apart (sl line : Nat) : (m.evict sl line).apart = m.apart := by
  unfold MemSys.evict
  rw [MemSys.packWrite_apart, MemSys.setSlice_apart]
  exact MemSys.expelWith_apart _ (fun _ n l => MemSys.putLine_apart n l) _ _

@[simp] theorem MemSys.makeWay_apart (sl line : Nat) (cls : Option Nat) : (m.makeWay sl line cls).1.apart = m.apart := by
  unfold MemSys.makeWay
  dsimp only
  split
  · rfl
  · split
    · rfl
    · split
      · exact MemSys.evict_apart ..
      · rfl

@[simp] theorem MemSys.occupy_apart (sl : Nat) (cls : Option Nat) (line : Nat) : (MemSys.occupy sl cls m line).apart = m.apart := by
  unfold MemSys.occupy
  dsimp only
  split
  · split
    · rw [MemSys.setSlice_apart, MemSys.makeWay_apart, MemSys.setSlice_apart]
    · rfl
  · rw [MemSys.setSlice_apart, MemSys.makeWay_apart]

@[simp] theorem MemSys.classOf_apart (count : Bool) (sl pa : Nat) (ns : List Nat) : (m.classOf count sl pa ns).1.apart = m.apart := by
  induction ns with
  | nil => rfl
  | cons n ns ih =>
    unfold MemSys.classOf
    dsimp only
    split
    · rfl
    · exact ih

@[simp] theorem MemSys.leavePartitions_apart (die line : Nat) : (m.leavePartitions die line).apart = m.apart :=
  ite_apart (MemSys.packWrite_apart m (line / 4)) rfl

@[simp] theorem MemSys.freshPack_apart (sl p : Nat) : (m.freshPack sl p).apart = m.apart := by
  unfold MemSys.freshPack
  split <;> rfl

@[simp] theorem MemSys.visit_apart (die pa : Nat) (th write : Bool) : (m.visit die pa th write).apart = m.apart := by
  unfold MemSys.visit MemSys.reach
  refine ite_apart rfl ?_
  have h1 := m.classOf_apart true (homeSlice m die pa th) pa (if m.rr = [] then [] else upto 0 8)
  have h2 := fun c [Decidable c] => ite_apart (c := c) ((MemSys.leavePartitions_apart _ die (pa / 64)).trans h1) h1
  exact ite_apart ((MemSys.occupy_apart ..).trans (h2 _))
    (foldl_keeps (J := fun n : MemSys => n.apart = m.apart) (fun n _ hn => (MemSys.occupy_apart n _ _ _).trans hn)
      ((MemSys.freshPack_apart ..).trans (h2 _)))

@[simp] theorem MemSys.fillPack_apart (p : Nat) : (m.fillPack p).apart = m.apart :=
  foldl_keeps (J := fun n : MemSys => n.apart = m.apart) (fun _ _ hn =>
    foldl_keeps (J := fun n : MemSys => n.apart = m.apart) (fun n _ hn => (MemSys.occupy_apart n _ _ _).trans hn) hn) rfl

@[simp] theorem MemSys.sendLine_apart (core : Nat) (l : L1Line) : (MemSys.sendLine core m l).apart = m.apart := by
  unfold MemSys.sendLine
  dsimp only
  split
  · split
    · rw [MemSys.putLine_apart, MemSys.visit_apart]
    · rw [MemSys.fillPack_apart, MemSys.putLine_apart, MemSys.visit_apart]
  · exact MemSys.visit_apart ..

@[simp] theorem MemSys.expel_apart (line : Nat) (own : Option Nat) : (m.expel line own).apart = m.apart :=
  MemSys.expelWith_apart _ (fun c n l => MemSys.sendLine_apart n c l) _ _

@[simp] theorem MemSys.openHome_apart (die pa : Nat) (th : Bool) (own : Option Nat) : (m.openHome die pa th own).apart = m.apart := by
  rw [MemSys.openHome, MemSys.visit_apart, MemSys.expel_apart]

@[simp] theorem MemSys.flushLine_apart (core : Nat) (drop : Bool) (l : L1Line) : (MemSys.flushLine core drop m l).apart = m.apart := by
  unfold MemSys.flushLine
  rw [MemSys.setLines_apart]
  split
  · rw [MemSys.sendLine_apart]
    split
    · exact MemSys.expel_apart ..
    · rfl
  · rfl

@[simp] theorem MemSys.flushWhere_apart (core : Nat) (p : L1Line → Bool) (drop : Bool) : (m.flushWhere core p drop).apart = m.apart :=
  foldl_keeps (J := fun n : MemSys => n.apart = m.apart) (fun n _ hn => (MemSys.flushLine_apart n _ _ _).trans hn) rfl

@[simp] theorem MemSys.flushFrame_apart (a n : Nat) : (m.flushFrame a n).apart = m.apart :=
  foldl_keeps (J := fun n : MemSys => n.apart = m.apart) (fun n _ hn => (MemSys.flushWhere_apart n _ _ _).trans hn) rfl

@[simp] theorem MemSys.refresh_apart (core line : Nat) : (m.refresh core line).apart = m.apart :=
  ite_apart (MemSys.setLines_apart ..) rfl

@[simp] theorem MemSys.leave_apart (core : Nat) (e : WcEntry) : (MemSys.leave core m e).apart = m.apart := by
  unfold MemSys.leave
  dsimp only
  rw [MemSys.refresh_apart]
  split
  · rw [MemSys.merge_apart, MemSys.openHome_apart]
  · rw [MemSys.fillPack_apart, MemSys.merge_apart, MemSys.openHome_apart]

end

theorem MemSys.leaves_apart (m : MemSys) (core : Nat) (es : List WcEntry) : (es.foldl (MemSys.leave core) m).apart = m.apart :=
  foldl_keeps (J := fun n : MemSys => n.apart = m.apart) (fun n _ hn => (MemSys.leave_apart n _ _).trans hn) rfl

theorem MemSys.wcOf_of_apart {m n : MemSys} (h : n.apart = m.apart) (k : Nat) : n.wcOf k = m.wcOf k := by
  unfold MemSys.wcOf; rw [show n.wc = m.wc from congrArg Prod.fst h]

theorem MemSys.drainWhere_wc (m : MemSys) (core : Nat) (p : WcEntry → Bool) :
    (m.drainWhere core p).wc = SMap.set [] m.wc core ((m.wcOf core).filter fun e => !p e) := by
  have hl := congrArg Prod.fst (MemSys.leaves_apart m core ((m.wcOf core).filter p))
  simp only [MemSys.apart] at hl
  simp only [MemSys.drainWhere, hl]

theorem MemSys.drainWc_part (m : MemSys) (core : Nat) : (m.drainWc core).part = m.part :=
  congrArg Prod.snd (MemSys.leaves_apart m core ((m.wcOf core).filter fun _ => true))

/-- A core's write-combining buffer is empty once it has drained. -/
theorem MemSys.wcOf_drainWc (m : MemSys) (core : Nat) : (m.drainWc core).wcOf core = [] := by
  rw [MemSys.drainWc, MemSys.wcOf, MemSys.drainWhere_wc, SMap.get_set_same]
  simp

/-- The draining of another core's buffer fills none. -/
theorem MemSys.wcOf_drainWc_of_empty {m : MemSys} {k : Nat} (core : Nat) (h : m.wcOf k = []) : (m.drainWc core).wcOf k = [] := by
  by_cases hk : k = core
  · subst hk; exact m.wcOf_drainWc k
  · rw [MemSys.drainWc, MemSys.wcOf, MemSys.drainWhere_wc, SMap.get_set_other _ _ _ hk]; exact h

/-- Once an invalidation has completed, no store waits in a write-combining buffer (01 R32). -/
theorem MemSys.finishInval_wcOf (m : MemSys) (frames : List (Nat × Nat)) (k : Nat) : (m.finishInval frames).wcOf k = [] := by
  have hstep {n : MemSys} (c : Nat) (h : n.wcOf k = []) : ((n.drainWc c).flushWhere c L1Line.isUpdate true).wcOf k = [] := by
    rw [MemSys.wcOf_of_apart (MemSys.flushWhere_apart ..)]; exact MemSys.wcOf_drainWc_of_empty c h
  refine foldl_keeps (J := fun n : MemSys => n.wcOf k = []) (fun n f hn => ?_) ?_
  · rw [MemSys.wcOf_of_apart (MemSys.flushFrame_apart ..)]; exact hn
  · by_cases hk : k ∈ m.wc.map Prod.fst
    · refine foldl_brings (J := fun n : MemSys => n.wcOf k = []) (fun n c hn => hstep c hn) (List.mem_append_left _ hk) fun n => ?_
      rw [MemSys.wcOf_of_apart (MemSys.flushWhere_apart ..)]; exact n.wcOf_drainWc k
    · exact foldl_keeps (J := fun n : MemSys => n.wcOf k = []) (fun n c hn => hstep c hn) (SMap.get_of_not_mem hk)

end Sys2Proof.Machine
end

section
/-! PROOFS. Walks, second looks and the queue of misses (01 R18, R25, R27). -/

namespace Sys2Proof.Machine

/-! ### A lookup leaves its translation in the TLB of its core (01 R18, R25) -/

theorem mem_tlbInsert (es : List TlbEntry) (cap free : Nat) (e : TlbEntry) : e ∈ tlbInsert es cap free e := by
  unfold tlbInsert
  split <;> exact List.mem_cons_self

/-- The TLB that a core looks in. -/
def tlbUnit (w : Who) (fetch : Bool) : Nat := w.core + if fetch then 256 else 0

theorem mem_tlb_tlbFill {ms : MemSys} {w : Who} (fetch : Bool) (e : TlbEntry) (hw : w.sched = false) :
    e ∈ (SMap.get [] (tlbFill ms w fetch e).tlb (tlbUnit w fetch) : List TlbEntry) := by
  simp only [tlbFill, hw, Bool.false_eq_true, if_false, tlbUnit, SMap.get_set_same]
  exact mem_tlbInsert _ _ _ _

/-- The page of an address holds it. -/
theorem TlbEntry.hits_of_page {e : TlbEntry} {asid va : Nat} (ha : e.asid = asid) (hv : e.va = va / pageSize e.size * pageSize e.size) :
    e.hits asid va = true := by
  have hpos : 0 < pageSize e.size := by rw [pageSize, pow2, Nat.one_shiftLeft]; exact Nat.two_pow_pos _
  have h1 := Nat.div_mul_le_self va (pageSize e.size)
  have h2 := Nat.lt_div_mul_add hpos (a := va)
  simp only [TlbEntry.hits, ha, hv, beq_self_eq_true, Bool.or_true, h1, h2, decide_true, Bool.and_self]

theorem lookupLeaf_fills {ms ms' : MemSys} {w : Who} {fetch : Bool} {va : Nat} {x : BitVec 64 × Nat} (hw : w.sched = false)
    (h : lookupLeaf ms w fetch va = (ms', .ok x)) :
    ((SMap.get [] ms'.tlb (tlbUnit w fetch) : List TlbEntry).any fun e => e.hits w.asid va) = true := by
  rw [List.any_eq_true]
  unfold lookupLeaf at h
  split at h
  · rename_i e he
    cases h
    rw [tlbOf, hw] at he
    exact ⟨e, List.mem_of_find?_eq_some he, by simpa using List.find?_some he⟩
  split at h
  · rename_i e he
    cases h
    exact ⟨e, mem_tlb_tlbFill fetch e hw, by simpa using List.find?_some he⟩
  split at h
  · cases h
  · cases h
    exact ⟨_, mem_tlb_tlbFill fetch _ hw, TlbEntry.hits_of_page rfl rfl⟩

theorem tlbFill_mem (ms : MemSys) (w : Who) (fetch : Bool) (e : TlbEntry) : (tlbFill ms w fetch e).mem = ms.mem := by
  unfold tlbFill
  split <;> rfl

/-- A lookup that the level-2 TLB answers walks no table. -/
theorem lookupLeaf_of_hit {ms : MemSys} {w : Who} (fetch : Bool) {va : Nat}
    (h : ((SMap.get [] ms.tlb2 w.die : List TlbEntry).any fun e => e.hits w.asid va) = true) :
    ∃ ms' x, lookupLeaf ms w fetch va = (ms', .ok x) ∧ ms'.mem = ms.mem := by
  obtain ⟨e, he, hh⟩ := List.any_eq_true.1 h
  unfold lookupLeaf
  split
  · exact ⟨_, _, rfl, rfl⟩
  split
  · exact ⟨_, _, rfl, tlbFill_mem _ _ _ _⟩
  · rename_i hn
    exact absurd hh (by simpa using List.find?_eq_none.1 hn e he)

/-! ### Misses, walks and second looks (01 R27) -/

theorem Miss.who_sched (s : State) (m : Miss) : (m.who s).sched = false := rfl

theorem resolveMiss_of_ok {s : State} {die : Nat} {l : List Miss} {m : Miss} {ms : MemSys} {x : BitVec 64 × Nat}
    (h : lookupLeaf s.ms (m.who s) m.fetch m.va = (ms, .ok x)) :
    resolveMiss s die l m = { s with ms := { ms with misses := SMap.set [] ms.misses die (l.erase m) } } := by
  simp only [resolveMiss, h, setMisses]

theorem resolveMiss_of_error {s : State} {die : Nat} {l : List Miss} {m : Miss} {ms : MemSys} {f : XFault}
    (h : lookupLeaf s.ms (m.who s) m.fetch m.va = (ms, .error f)) :
    resolveMiss s die l m = { s with ms := { ms with
      misses := SMap.set [] ms.misses die (l.map fun x => if x = m then { m with done := true } else x) } } := by
  simp only [resolveMiss, h, setMisses]

theorem execTableWalk_of_none {s : State} {die : Nat} (h : ((queuedMisses (missesOf s die)).take 8).find? (fun m => !m.done) = none) :
    execTableWalk die s = .next { s with ms := { s.ms with misses := SMap.set [] s.ms.misses die (missesOf s die) } } := by
  simp only [execTableWalk, h, setMisses]

theorem execTableWalk_of_some {s : State} {die : Nat} {m : Miss}
    (h : ((queuedMisses (missesOf s die)).take 8).find? (fun m => !m.done) = some m) :
    execTableWalk die s = .next (resolveMiss s die (missesOf s die) m) := by
  simp only [execTableWalk, h]

/-- Whether a miss that found the queue full is to look again. -/
def Miss.due (now : Nat) (m : Miss) : Bool := match m.retryAt with | some t => decide (t ≤ now) | none => false

theorem execWalkQueueRetry_eq (die : Nat) (s : State) : execWalkQueueRetry die s =
    match (missesOf s die).find? (Miss.due s.now) with
    | some m => .next (retryMiss s die (missesOf s die) m)
    | none => .next { s with ms := setMisses s.ms die (missesOf s die) } := rfl

theorem execWalkQueueRetry_of_some {s : State} {die : Nat} {m : Miss} (h : (missesOf s die).find? (Miss.due s.now) = some m) :
    execWalkQueueRetry die s = .next (retryMiss s die (missesOf s die) m) := by
  rw [execWalkQueueRetry_eq, h]

theorem execWalkQueueRetry_of_none {s : State} {die : Nat} (h : (missesOf s die).find? (Miss.due s.now) = none) :
    execWalkQueueRetry die s = .next { s with ms := setMisses s.ms die (missesOf s die) } := by
  rw [execWalkQueueRetry_eq, h]

/-- A miss that looks again and hits is resolved from the level-2 TLB. -/
theorem retryMiss_of_hit {s : State} {die : Nat} {l : List Miss} {m : Miss} (hd : m.core / 64 = die)
    (h : ((SMap.get [] s.ms.tlb2 (m.who s).die : List TlbEntry).any fun e => e.hits (m.who s).asid m.va) = true) :
    ∃ ms : MemSys, ms.mem = s.ms.mem ∧ retryMiss s die l m = { s with ms := { ms with misses := SMap.set [] ms.misses die (l.erase m) } } ∧
      ((SMap.get [] ms.tlb (tlbUnit (m.who s) m.fetch) : List TlbEntry).any fun e => e.hits (m.who s).asid m.va) = true := by
  obtain ⟨ms, x, hx, hmem⟩ := lookupLeaf_of_hit m.fetch h
  have hdie : (m.who s).die = die := hd
  rw [hdie] at h
  refine ⟨ms, hmem, ?_, lookupLeaf_fills (m.who_sched s) hx⟩
  rw [retryMiss, if_pos h, resolveMiss_of_ok hx]

theorem retryMiss_of_miss {s : State} {die : Nat} {l : List Miss} {m : Miss} (hd : m.core / 64 = die)
    (h : ((SMap.get [] s.ms.tlb2 (m.who s).die : List TlbEntry).any fun e => e.hits (m.who s).asid m.va) = false) :
    retryMiss s die l m = { s with ms := setMisses s.ms die (enterMiss s.now (l.erase m) m) } := by
  have hdie : (m.who s).die = die := hd
  rw [hdie] at h
  rw [retryMiss, h]
  rfl

theorem enterMiss_of_new {now : Nat} {l : List Miss} {m : Miss} (h : l.any m.same = false) :
    enterMiss now l m = l ++ [{ m with retryAt := if (queuedMisses l).length < 72 then none else some (now + 64) }] := by
  rw [enterMiss, h]
  rfl

/-! ### The queue holds 8 walks and 64 misses that wait (01 R27) -/

theorem queuedMisses_append (a b : List Miss) : queuedMisses (a ++ b) = queuedMisses a ++ queuedMisses b := List.filter_append _ _

theorem enterMiss_queued {now : Nat} {l : List Miss} {m : Miss} (h : (queuedMisses l).length ≤ 72) :
    (queuedMisses (enterMiss now l m)).length ≤ 72 := by
  unfold enterMiss
  split
  · exact h
  · rw [queuedMisses_append, List.length_append]
    by_cases hroom : (queuedMisses l).length < 72
    · rw [if_pos hroom]
      exact Nat.add_le_add (Nat.le_of_lt_succ hroom) (List.length_filter_le _ _)
    · rw [if_neg hroom]
      exact h

theorem queuedMisses_sublist {a b : List Miss} (h : a.Sublist b) : (queuedMisses a).length ≤ (queuedMisses b).length :=
  (h.filter _).length_le

theorem missesOf_queued {s : State} {die : Nat} (h : (queuedMisses (SMap.get [] s.ms.misses die)).length ≤ 72) :
    (queuedMisses (missesOf s die)).length ≤ 72 :=
  foldl_keeps (J := fun l : List Miss => (queuedMisses l).length ≤ 72) (fun _ _ hl => enterMiss_queued hl)
    ((queuedMisses_sublist List.filter_sublist).trans h)

/-- A miss whose walk has ended keeps its place. -/
theorem queuedMisses_done (l : List Miss) (m : Miss) :
    (queuedMisses (l.map fun x => if x = m then { m with done := true } else x)).length = (queuedMisses l).length := by
  induction l with
  | nil => rfl
  | cons a l ih =>
    have ha : (if a = m then { m with done := true } else a).retryAt = a.retryAt := by
      split
      · subst_vars; rfl
      · rfl
    unfold queuedMisses at ih ⊢
    rw [List.map_cons, List.filter_cons, List.filter_cons, ha]
    split
    · rw [List.length_cons, List.length_cons, ih]
    · exact ih

/-- The misses of a die number at most 8 walks and 64 that wait, and the cores are those of `s`. -/
def QueueHolds (s : State) (die : Nat) (t : State) : Prop :=
  t.cores = s.cores ∧ (queuedMisses (SMap.get [] t.ms.misses die)).length ≤ 72

theorem setMisses_holds {s : State} {die : Nat} {l : List Miss} (ms : MemSys) (h : (queuedMisses l).length ≤ 72) :
    QueueHolds s die { s with ms := setMisses ms die l } := by
  refine ⟨rfl, ?_⟩
  rw [show ({ s with ms := setMisses ms die l } : State).ms.misses = SMap.set [] ms.misses die l from rfl, SMap.get_set_same]
  exact h

theorem resolveMiss_holds {s : State} {die : Nat} {l : List Miss} (m : Miss) (h : (queuedMisses l).length ≤ 72) :
    QueueHolds s die (resolveMiss s die l m) := by
  unfold resolveMiss
  split
  · exact setMisses_holds _ ((queuedMisses_sublist List.erase_sublist).trans h)
  · exact setMisses_holds _ ((queuedMisses_done l m).trans_le h)

theorem retryMiss_holds {s : State} {die : Nat} {l : List Miss} (m : Miss) (h : (queuedMisses l).length ≤ 72) :
    QueueHolds s die (retryMiss s die l m) := by
  unfold retryMiss
  split
  · exact resolveMiss_holds m h
  · exact setMisses_holds _ (enterMiss_queued ((queuedMisses_sublist List.erase_sublist).trans h))

theorem execTableWalk_holds {s : State} {die : Nat} (h : (queuedMisses (SMap.get [] s.ms.misses die)).length ≤ 72) :
    ∃ t, execTableWalk die s = .next t ∧ QueueHolds s die t := by
  unfold execTableWalk
  dsimp only
  split
  · exact ⟨_, rfl, resolveMiss_holds _ (missesOf_queued h)⟩
  · exact ⟨_, rfl, setMisses_holds _ (missesOf_queued h)⟩

theorem execWalkQueueRetry_holds {s : State} {die : Nat} (h : (queuedMisses (SMap.get [] s.ms.misses die)).length ≤ 72) :
    ∃ t, execWalkQueueRetry die s = .next t ∧ QueueHolds s die t := by
  unfold execWalkQueueRetry
  dsimp only
  split
  · exact ⟨_, rfl, retryMiss_holds _ (missesOf_queued h)⟩
  · exact ⟨_, rfl, setMisses_holds _ (missesOf_queued h)⟩

end Sys2Proof.Machine
end

section
/-! PROOFS. Invalidations, pool decisions and fills (01 R31, R32; 04 R93, R121, R122). -/

namespace Sys2Proof.Machine

/-! ### Invalidations (01 R31, R32) -/

/-- What an invalidation keeps once unit `u` has observed it. -/
def Inval.afterUnit (i : Inval) (s : State) (u : Nat) (j : Inval) : Prop :=
  u ∈ j.seen ∧
    (u < 256 → (s.holdsOld i u (s.core u).ctl.blk = true → (u, (s.core u).ctl.blk) ∈ j.old) ∧ (∀ v ∈ s.unackedBy u, v ∈ j.remote) ∧
      (∀ r ∈ s.rowsBy u, r ∈ j.rows) ∧ (s.savedOld i u = true → u ∈ j.saved))

theorem mem_setInsert (l : List Nat) (k : Nat) : k ∈ setInsert l k := by
  have h := setInsert_contains l k k
  simpa using h

theorem observeUnit_keepsOld (s : State) (i : Inval) (u : Nat) :
    ∀ j ∈ (observeUnit s i u).ms.invals, j.id = i.id → i.afterUnit s u j := by
  intro j hj hid
  obtain ⟨j0, -, h0⟩ := List.mem_map.1 hj
  split at h0
  · subst h0
    refine ⟨mem_setInsert _ _, fun hu => ⟨fun h => ?_, fun v hv => ?_, fun r hr => ?_, fun h => ?_⟩⟩
    · simp only [hu, h, and_self, if_true, List.mem_append, List.mem_singleton, or_true]
    · simp only [hu, if_true, List.mem_append, hv, or_true]
    · simp only [hu, if_true, List.mem_append, hr, or_true]
    · simp only [hu, h, and_self, if_true, List.mem_append, List.mem_singleton, or_true]
  · subst h0
    contradiction

/-- What an invalidation covers leaves the TLB that observes it, and the walk cache of its die. -/
theorem MemSys.observe_tlb (m : MemSys) (i : Inval) {u : Nat} (hu : u < 512) :
    ∀ e ∈ (SMap.get [] (m.observe i u).tlb u : List TlbEntry), i.matches e = false := by
  intro e he
  simp only [MemSys.observe, hu, if_true, SMap.get_set_same] at he
  simpa using (List.mem_filter.1 he).2

theorem MemSys.observe_tlb2 (m : MemSys) (i : Inval) {u : Nat} (hu : 512 ≤ u) :
    (∀ e ∈ (SMap.get [] (m.observe i u).tlb2 (u - 512) : List TlbEntry), i.matches e = false) ∧
      ∀ e ∈ (m.observe i u).walk, e.1 / 8 ≠ u - 512 := by
  simp only [MemSys.observe, Nat.not_lt.2 hu, if_false, SMap.get_set_same]
  exact ⟨fun e he => by simpa using (List.mem_filter.1 he).2, fun e he => by simpa using (List.mem_filter.1 he).2⟩

theorem MemSys.observe_mem (m : MemSys) (i : Inval) (u : Nat) : (m.observe i u).mem = m.mem := by
  unfold MemSys.observe
  dsimp only
  split <;> rfl

theorem execInvalidationObserved_observes {s : State} {i : Inval} {u : Nat} (hi : s.ms.invals.find? (fun j => j.id == i.id) = some i)
    (hu : u < 516) (hs : u ∉ i.seen) : execInvalidationObserved i.id u s = .next (observeUnit s i u) := by
  have hc : u < unitCount ∧ (!i.seen.contains u) = true := ⟨hu, by simpa using hs⟩
  rw [execInvalidationObserved, hi]
  exact if_pos hc

theorem execInvalidationComplete_of_open {s : State} {i : Inval} (hi : s.ms.invals.find? (fun j => j.id == i.id) = some i)
    (h : i.seen.length < unitCount ∨ s.oldLeft i = true) : execInvalidationComplete i.id s = .next s := by
  rw [execInvalidationComplete, hi]
  exact if_pos (by simpa using h)

theorem execInvalidationComplete_completes {s : State} {i : Inval} (hi : s.ms.invals.find? (fun j => j.id == i.id) = some i)
    (hseen : unitCount ≤ i.seen.length) (hold : s.oldLeft i = false) :
    ∃ t, execInvalidationComplete i.id s = .next t ∧ t.cores = s.cores ∧ (∀ j ∈ t.ms.invals, j.id ≠ i.id) ∧ ∀ k, t.ms.wcOf k = [] := by
  let m := s.ms.finishInval i.frames
  have he : execInvalidationComplete i.id s = .next { s with ms := { m with invals := m.invals.filter fun j => j.id != i.id } } := by
    rw [execInvalidationComplete, hi]
    exact if_neg (by simpa [hold] using hseen)
  exact ⟨_, he, rfl, fun j hj => by simpa using (List.mem_filter.1 hj).2, fun k => s.ms.finishInval_wcOf i.frames k⟩

/-! ### Pools and fills (04 R93, R121, R122) -/

theorem execCopyOnWrite_decides {s : State} {k va : Nat} {p : Pending}
    (h : (pendingAccesses s k).find? (fun p => p.va == va && (p.kind == .store || p.kind == .atomic)) = some p) :
    execCopyOnWrite k va s = .next { s with ms := (translateFor s.ms { s.who k with sup := p.sup } va p.kind).1 } := by
  rw [execCopyOnWrite, h]

theorem SMap.of_mem_mapVals {β : Type} [DecidableEq β] {d : β} {f : β → β} {m : SMap β} {e : Nat × β} (h : e ∈ SMap.mapVals d f m) :
    ∃ b, e.2 = f b := by
  obtain ⟨e0, -, h0⟩ := List.mem_map.1 (List.mem_filter.1 h).1
  exact ⟨e0.2, by rw [← h0]⟩

/-- No copy of an entry stays in a block-entry cache. -/
theorem MemSys.entryInvalidate_bec (m : MemSys) (pa : Nat) : ∀ e ∈ (m.entryInvalidate pa).bec, ∀ b ∈ e.2, b.pa ≠ pa := by
  intro e he b hb
  obtain ⟨l, hl⟩ := SMap.of_mem_mapVals he
  rw [hl] at hb
  simpa using (List.mem_filter.1 hb).2

/-- Where no copy holds the right to write, nothing has to be shown. -/
theorem MemSys.entryInvalidate_mem {m : MemSys} {pa : Nat} (h : ∀ e ∈ m.bec, ∀ b ∈ e.2, b.pa = pa → b.right = false) :
    (m.entryInvalidate pa).mem = m.mem := by
  have hnone : m.bec.filterMap (fun e => (e.2.find? fun b => b.pa == pa && b.right).map fun b => (e.1, b)) = [] := by
    rw [List.filterMap_eq_nil_iff]
    intro e he
    rw [Option.map_eq_none_iff, List.find?_eq_none]
    intro b hb hc
    rw [Bool.and_eq_true, beq_iff_eq] at hc
    rw [h e he b hb hc.1] at hc
    exact absurd hc.2 (by decide)
  simp only [MemSys.entryInvalidate, hnone, List.foldl_nil]

/-- The line that a core uses is the first of its cache. -/
theorem MemSys.touch_head (m : MemSys) (k : Nat) (l : L1Line) : (((m.touch k l).lines k).head?.map L1Line.line) = some l.line := by
  rw [MemSys.touch, MemSys.lines_setLines, if_pos rfl]
  rfl

theorem MemSys.fill_head {m m1 : MemSys} {k n : Nat} {leaf : BitVec 64} {line : Nat} {excl : Bool} {l : L1Line}
    (h : m.fill k n leaf line excl = (m1, l)) : ((m1.lines k).head?.map L1Line.line) = some line := by
  unfold MemSys.fill at h
  dsimp -iota only at h
  split at h
  cases h
  exact MemSys.touch_head _ _ _

/-- A load of cached memory that is not denied leaves its line as the first of its core's cache. -/
theorem cachedLoad_head {m : MemSys} {w : Who} {ways : Nat} {x : Xlat} {pa n path : Nat} {r : MemSys × Got}
    (h : cachedLoad m w ways x pa n path = r) (hb : r.2.bad = none) :
    ((r.1.lines w.core).head?.map L1Line.line) = some (pa / 64) := by
  unfold cachedLoad at h
  dsimp -iota only at h
  have hanswer {m1 : MemSys} {l : L1Line} {g : Got} (hm : ((m1.lines w.core).head?.map L1Line.line) = some (pa / 64))
      (ha : (if l.poison = true then if leafPsn x.leaf = 1 then (m1.substitute, Got.ok 0)
        else (m1, { val := field l.data.toNat (8 * (pa % 64)) (8 * n), bad := some (poisonNotice (x.va + (pa - x.pa)) 0 path) })
        else (m1, g)) = r) : ((r.1.lines w.core).head?.map L1Line.line) = some (pa / 64) := by
    subst ha
    split
    · split <;> exact hm
    · exact hm
  split at h
  · rename_i l hl
    have hline : l.line = pa / 64 := by simpa using List.find?_some hl
    exact hanswer (hline ▸ MemSys.touch_head _ _ _) h
  · split at h
    split at h
    · subst h; cases hb
    · split at h
      rename_i hf
      exact hanswer (MemSys.fill_head hf) h

theorem execL1Fill_fills {s : State} {k va : Nat} {p : Pending} {ms : MemSys} {x : Xlat} {r : MemSys × Got}
    (hp : (moveAccess s k).find? (fun p => p.va == va && p.kind == .load) = some p)
    (ht : translate s.ms { s.who k with sup := p.sup } va .load = (ms, .ok x)) (hd : x.dev = none) (hh : x.hole = false)
    (ha : inAperture x.pa = true) (hr : cachedLoad ms { s.who k with sup := p.sup } (s.core k).ways x x.pa 1 1 = r)
    (hb : r.2.bad = none) :
    execL1Fill k va s = .next { s with ms := { r.1 with psub := ms.psub } } := by
  obtain ⟨m1, g⟩ := r
  have hplain : (x.dev.isSome || x.hole || !inAperture x.pa) = false := by simp only [hd, hh, ha, Option.isSome_none, Bool.not_true, Bool.or_self]
  dsimp only at hb ht hr
  simp only [execL1Fill, hp, ht, hplain, hr, hb, Option.isSome_none, Bool.false_eq_true, if_false]

end Sys2Proof.Machine
end

section
/-! PROOFS. The obligation on the events of translation. -/

namespace Sys2Proof.Proofs.AddressSpaces

open Sys2Proof.Machine

/-- Settles O49: a walk and a second look resolve their miss by `lookupLeaf`, which leaves a translation that hits; the queue's bound
is kept by each way in which a miss enters it; observing, completing and the events of the pools and caches are read off. -/
theorem translationEvents : Obligations.TranslationEvents := by
  unfold Obligations.TranslationEvents
  intro s
  refine ⟨?walk, ?retry, ?bound, ?observed, ?complete, ?decide, ?entry, ?fill⟩
  case walk =>
    intro die l
    refine ⟨execTableWalk_of_none, fun m ms x hm hx => ⟨?_, lookupLeaf_fills (m.who_sched s) hx⟩, fun m ms f hm hf => ?_⟩
    · exact (execTableWalk_of_some hm).trans (by rw [resolveMiss_of_ok hx])
    · exact (execTableWalk_of_some hm).trans (by rw [resolveMiss_of_error hf])
  case retry =>
    intro die m t l hm _ hd
    refine ⟨fun hhit => ?_, fun hmiss => ?_⟩
    · obtain ⟨ms, hmem, hms, htlb⟩ := retryMiss_of_hit (l := l) hd hhit
      exact ⟨_, (execWalkQueueRetry_of_some hm).trans (congrArg _ hms), rfl, SMap.get_set_same _ _ _ _, hmem, htlb⟩
    · refine ⟨_, (execWalkQueueRetry_of_some hm).trans (congrArg _ (retryMiss_of_miss hd hmiss)), rfl, rfl, fun hnew => ?_⟩
      exact (SMap.get_set_same _ _ _ _).trans (enterMiss_of_new hnew)
  case bound =>
    rintro i (rfl | rfl) die h
    · exact execTableWalk_holds h
    · exact execWalkQueueRetry_holds h
  case observed =>
    intro i u hi hu hs
    exact ⟨_, execInvalidationObserved_observes hi hu hs, s.ms.observe_mem i u, rfl, s.ms.observe_tlb i, s.ms.observe_tlb2 i,
      observeUnit_keepsOld s i u⟩
  case complete =>
    intro i hi
    exact ⟨execInvalidationComplete_completes hi, execInvalidationComplete_of_open hi⟩
  case decide =>
    intro k va p hp
    exact execCopyOnWrite_decides hp
  case entry =>
    intro pa
    exact ⟨_, rfl, rfl, s.ms.entryInvalidate_bec pa, MemSys.entryInvalidate_mem⟩
  case fill =>
    intro k va p ms x hp ht hd hh ha r hb
    exact ⟨execL1Fill_fills hp ht hd hh ha rfl hb, cachedLoad_head rfl hb⟩

end Sys2Proof.Proofs.AddressSpaces
end

section
/-! PROOFS. An access from outside within one block: its one piece, its check, and what it stores (01 R35 to R38; 04 R443). -/

namespace Sys2Proof.Machine

/-! ### The pieces of an access within one block (01 R37) -/

/-- The one piece of an access that is not split. -/
abbrev Piece.whole (pa len : Nat) : Piece := { pa := pa, len := len, off := 0 }

/-- An access within one block is one piece. -/
theorem splitAt_of_block {m pa len : Nat} (fuel : Nat) (h0 : 0 < len) (h : pa % m + len ≤ m) :
    splitAt m (fuel + 2) pa len 0 = [Piece.whole pa len] := by
  have hmin : min len (m - pa % m) = len := by omega
  simp only [splitAt, Nat.ne_of_gt h0, if_false, hmin, Nat.sub_self, if_true]

section
variable {pa len : Nat} (h0 : 0 < len) (h : pa % 64 + len ≤ 64)
include h0 h

theorem splitAt_pack : splitAt 256 4 pa len 0 = [Piece.whole pa len] := splitAt_of_block 2 h0 (by omega)

theorem MemSys.writeFrom_block (m : MemSys) (die : Nat) (packed bad : Bool) (data : Nat) :
    m.writeFrom die packed bad data (Piece.whole pa len) =
      (m.openHome die pa false none).putHome pa len (data % 2 ^ (8 * len)) (2 ^ len - 1) packed bad := by
  have hall : allOnes len = 2 ^ len - 1 := by rw [allOnes, pow2, Nat.one_shiftLeft]
  simp only [MemSys.writeFrom, splitAt_of_block 4 h0 h, List.foldl_cons, List.foldl_nil, hall, Nat.mul_zero, field, Nat.shiftRight_zero]

theorem MemSys.readFrom_block (m : MemSys) (die : Nat) :
    m.readFrom die (Piece.whole pa len) = (m.recall (pa / 64)).visit die pa false false := by
  simp only [MemSys.readFrom, splitAt_of_block 4 h0 h, List.foldl_cons, List.foldl_nil]

/-- A write from outside reads back: no tracked copy of the line outlives it (04 R443). -/
theorem MemSys.writeFrom_readN (m : MemSys) (die : Nat) (packed bad : Bool) (data : Nat) :
    (m.writeFrom die packed bad data (Piece.whole pa len)).readN pa len = data % 2 ^ (8 * len) := by
  have hcalm : (m.openHome die pa false none).LinesHave (Calm (pa / 64)) := by
    intro k l hl hline hcoh
    have hgone := MemSys.visit_linesHave die pa false true (MemSys.expel_untracked m (pa / 64) (own := none) (k := k) nofun) k l hl rfl hline
    rw [hcoh] at hgone; cases hgone
  rw [MemSys.writeFrom_block h0 h, MemSys.readN_of_put _ _ pa len (data % 2 ^ (8 * len)) packed bad (by omega)
    fun i hi => MemSys.putHome_byte_line _ _ _ _ _ _ _ _ (by omega) hcalm, Nat.mod_mod]

/-- It leaves every other byte of a pack that stands still. -/
theorem MemSys.writeFrom_byte {m0 m : MemSys} {b : Nat} (die : Nat) (packed bad : Bool) (data : Nat) (hb : b < pa ∨ pa + len ≤ b)
    (hs : MemSys.Still m0 (b / 256) m) : (m.writeFrom die packed bad data (Piece.whole pa len)).byte b = m0.byte b := by
  have hopen := MemSys.openHome_still die pa false none hs
  rw [MemSys.writeFrom_block h0 h, MemSys.putHome_byte _ _ _ _ _ _ _ (by omega) hb hopen.1, (hopen.2 b rfl).1]

theorem MemSys.readFrom_byte {m0 m : MemSys} {b : Nat} (die : Nat) (hs : MemSys.Still m0 (b / 256) m) :
    (m.readFrom die (Piece.whole pa len)).byte b = m0.byte b := by
  rw [MemSys.readFrom_block h0 h]
  exact ((MemSys.visit_still die pa false false (MemSys.recall_still (pa / 64) hs)).2 b rfl).1

end

theorem MemSys.checkFrom_still {m0 m : MemSys} {q : Nat} (tn die mid pa : Nat) (k : AccessKind) (h : MemSys.Still m0 q m) :
    MemSys.Still m0 q (m.checkFrom tn die mid pa k).1 := by
  unfold MemSys.checkFrom
  dsimp only
  split
  · exact MemSys.deny_still _ _ _ _ _ h
  · exact MemSys.deny_still _ _ _ _ _ h
  · split
    · exact MemSys.cacheWindows_still _ _ h
    · exact MemSys.deny_still _ _ _ _ _ (MemSys.cacheWindows_still _ _ h)

/-! ### A piece that passes its check, and one that does not (01 R35, R38) -/

section
variable {s : State} {tn die mid : Nat} {k : AccessKind} {p : Piece}

theorem piecesFrom_denied (packed bad : Bool) (data : Nat) (h : (s.ms.checkFrom tn die mid p.pa k).2 = false) :
    piecesFrom tn die mid k packed bad data [p] s = ({ s with ms := (s.ms.checkFrom tn die mid p.pa k).1 }, [p]) := by
  obtain ⟨c, hc⟩ : ∃ c, s.ms.checkFrom tn die mid p.pa k = c := ⟨_, rfl⟩
  obtain ⟨m, ok⟩ := c
  rw [hc] at h ⊢
  dsimp only at h
  subst h
  simp only [piecesFrom, hc, Bool.false_eq_true, if_false]

theorem piecesFrom_allowed (packed bad : Bool) (data : Nat) (h : (s.ms.checkFrom tn die mid p.pa k).2 = true) (hp : space p.pa = .hbm) :
    piecesFrom tn die mid k packed bad data [p] s =
      ({ s with ms := (if k != .read then (s.ms.checkFrom tn die mid p.pa k).1.writeFrom die packed bad data p
        else (s.ms.checkFrom tn die mid p.pa k).1.readFrom die p) }, []) := by
  obtain ⟨c, hc⟩ : ∃ c, s.ms.checkFrom tn die mid p.pa k = c := ⟨_, rfl⟩
  obtain ⟨m, ok⟩ := c
  rw [hc] at h ⊢
  dsimp only at h
  subst h
  simp only [piecesFrom, hc, State.performFrom, hp, if_true]

end

theorem endCommands_of_none {s : State} (lo hi : Nat) (h : s.sto.outstanding = []) : endCommands s lo hi = s := by
  rw [endCommands, h]; rfl

end Sys2Proof.Machine
end

section
/-! PROOFS. Accesses of PCIe requesters and of remote devices (01 R35 to R38; 18 R397; 22 R432). -/

namespace Sys2Proof.Machine

/-! ### Accesses of PCIe requesters (01 R35 to R38; 18 R397) -/

/-- The MID of a PCIe requester. -/
abbrev requesterMid (port rid : Nat) : Nat := 0x800 + 256 * port + rid % 256

/-- Memory after the check of a requester's access. -/
abbrev State.requesterCheck (s : State) (port rid pa : Nat) (k : AccessKind) : MemSys × Bool :=
  s.ms.checkFrom (148 + port) port (requesterMid port rid) pa k

section
variable {s : State} {port rid pa len : Nat} (data : BitVec 1024)
  (hboot : s.boot = .running) (hport : port < 4) (h0 : 0 < len) (h : pa % 64 + len ≤ 64)
include hboot hport h0 h

theorem execPcieRequesterAccess_write (hshut : s.sto.denied.contains (port, rid) = false) (hp : space pa = .hbm)
    (hc : (s.requesterCheck port rid pa .write).2 = true) (ho : s.sto.outstanding = []) :
    execPcieRequesterAccess port rid pa len true data s = .next { s with
      ms := (s.requesterCheck port rid pa .write).1.writeFrom port false false data.toNat (Piece.whole pa len) } := by
  have hrun : ¬(s.boot ≠ .running ∨ 3 < port) := by simp [hboot]; omega
  have hps := piecesFrom_allowed (p := .whole pa len) false false data.toNat hc hp
  simp only [execPcieRequesterAccess, hrun, if_false, splitAt_pack h0 h, hshut, Bool.false_eq_true, if_true, hps]
  exact congrArg _ (endCommands_of_none _ _ ho)

theorem execPcieRequesterAccess_read (hshut : s.sto.denied.contains (port, rid) = false) (hp : space pa = .hbm)
    (hc : (s.requesterCheck port rid pa .read).2 = true) :
    execPcieRequesterAccess port rid pa len false data s = .next (State.completeRead { s with
      ms := (s.requesterCheck port rid pa .read).1.readFrom port (Piece.whole pa len) }
      port rid [Piece.whole pa len] false) := by
  have hrun : ¬(s.boot ≠ .running ∨ 3 < port) := by simp [hboot]; omega
  have hps := piecesFrom_allowed (p := .whole pa len) false false data.toNat hc hp
  simp only [execPcieRequesterAccess, hrun, if_false, splitAt_pack h0 h, hshut, Bool.false_eq_true, hps]
  rfl

/-- An access that its target denies, or that comes from a requester that is shut out, changes nothing but the target's log and its
cached windows. -/
theorem execPcieRequesterAccess_denied (write : Bool)
    (hc : (s.requesterCheck port rid pa (if write then .write else .read)).2 = false ∨ s.sto.denied.contains (port, rid) = true) :
    ∃ m, (∀ q, s.ms.Settled q → MemSys.Still s.ms q m) ∧ execPcieRequesterAccess port rid pa len write data s =
      if write then .next { s with ms := m }
      else .next (State.completeRead { s with ms := m } port rid [Piece.whole pa len] true) := by
  have hrun : ¬(s.boot ≠ .running ∨ 3 < port) := by simp [hboot]; omega
  have hgone : ([Piece.whole pa len] : List Piece).filter (fun p => !([Piece.whole pa len] : List Piece).contains p) = [] := by
    simp
  by_cases hshut : s.sto.denied.contains (port, rid) = true
  · refine ⟨s.ms.deny (148 + port) (requesterMid port rid) pa (if write then .write else .read) false,
      fun q hq => MemSys.deny_still _ _ _ _ _ (.refl hq), ?_⟩
    simp only [execPcieRequesterAccess, hrun, if_false, splitAt_pack h0 h, hshut, if_true, hgone, List.foldl_nil]
    rfl
  · have hc := hc.resolve_right hshut
    rw [Bool.not_eq_true] at hshut
    refine ⟨(s.requesterCheck port rid pa (if write then .write else .read)).1, fun q hq => MemSys.checkFrom_still _ _ _ _ _ (.refl hq), ?_⟩
    have hps := piecesFrom_denied (p := .whole pa len) false false data.toNat hc
    simp only [execPcieRequesterAccess, hrun, if_false, splitAt_pack h0 h, hshut, Bool.false_eq_true, hps, hgone, List.foldl_nil]
    rfl

end

/-! ### Accesses of remote devices (22 R432) -/

/-- The check of an access that a link brings. -/
abbrev State.linkCheck (s : State) (link dev pa : Nat) (k : AccessKind) : MemSys × Bool :=
  s.ms.checkFrom (152 + link) (link / 8) (s.ingressMid link dev) pa k

section
variable {s : State} {link dev pa len : Nat} {kind : AccessKind} (mode : PackMode) (data : BitVec 1024)
  (hboot : s.boot = .running) (hdevn : s.fab.devn ≠ 0xFFFF) (hlink : link < 32) (h0 : 0 < len) (h : pa % 64 + len ≤ 64)
include hboot hdevn hlink h0 h

theorem execFabricRemoteAccess_allowed (hc : (s.linkCheck link dev pa kind).2 = true) (hp : space pa = .hbm) :
    execFabricRemoteAccess link dev pa len kind mode data s = .next { s.tick with ms :=
      (if kind != .read then (s.linkCheck link dev pa kind).1.writeFrom (link / 8) (mode == .packed) (Config.freeBit s.fresh) data.toNat
          (Piece.whole pa len)
        else (s.linkCheck link dev pa kind).1.readFrom (link / 8) (Piece.whole pa len)) } := by
  have hrun : ¬(s.boot ≠ .running ∨ s.fab.devn = 0xFFFF ∨ 31 < link) := by simp [hboot, hdevn]; omega
  have hps := piecesFrom_allowed (s := s.tick) (p := .whole pa len) (mode == .packed) (Config.freeBit s.fresh)
    data.toNat hc hp
  simp only [execFabricRemoteAccess, hrun, if_false, splitAt_pack h0 h, hps]
  rfl

theorem execFabricRemoteAccess_denied (hc : (s.linkCheck link dev pa kind).2 = false) :
    execFabricRemoteAccess link dev pa len kind mode data s =
      .next (State.send { s.tick with ms := (s.linkCheck link dev pa kind).1 } dev
        (faultMsg { s.tick with ms := (s.linkCheck link dev pa kind).1 } 1 0 pa)) := by
  have hrun : ¬(s.boot ≠ .running ∨ s.fab.devn = 0xFFFF ∨ 31 < link) := by simp [hboot, hdevn]; omega
  have hps := piecesFrom_denied (s := s.tick) (p := .whole pa len) (mode == .packed) (Config.freeBit s.fresh)
    data.toNat hc
  simp only [execFabricRemoteAccess, hrun, if_false, splitAt_pack h0 h, hps]
  rfl

end

end Sys2Proof.Machine
end

section
/-! PROOFS. Registers, ATINV, the level-2 mode and the range registers (01 R40, R41; 04 R108 to R111; 22 R446). -/

namespace Sys2Proof.Machine

/-! ### Registers (22 R430, R446) -/

theorem bit_toNat (v : BitVec 64) (i : Nat) : bit v.toNat i = v.getLsbD i := rfl

theorem field_toNat (v : BitVec 64) (lo len : Nat) : field v.toNat lo len = (v.extractLsb' lo len).toNat := rfl

theorem execRegisterWrite_of_block {s : State} {pa d : Nat} (v : BitVec 64) (hs : space pa = .regs d) (ha : pa % 8 = 0) {r : RegBlock}
    (hr : regBlock pa = r) : execRegisterWrite pa v s = .next (s.blockWrite v.toNat r) := by
  simp only [execRegisterWrite, hs, ha, if_true, State.regWrite, hr]

theorem State.target_setTarget (s : State) (n : Nat) (t : Target) : (s.setTarget n t).target n = t := SMap.get_set_same _ _ _ _

/-! ### ATINV (01 R40, R41) -/

theorem execAtinvWrite_starts {s : State} {n : Nat} (v : BitVec 64) (h : (s.target n).busy = false) :
    ∃ t, execAtinvWrite n v s = .next t ∧ (t.target n).busy = true ∧ (t.target n).invMid = (v.extractLsb' 0 12).toNat ∧
      (t.target n).invAll = v.getLsbD 12 ∧ (t.target n).cache = (s.target n).cache ∧ t.ms.mem = s.ms.mem := by
  refine ⟨_, rfl, ?_⟩
  rw [State.writeAtinv, State.target_setTarget, h]
  exact ⟨rfl, by simp [BitVec.extractLsb'], rfl, rfl, rfl⟩

theorem execAtinvComplete_removes {s : State} {n : Nat} (h : (s.target n).busy = true) :
    ∃ t, execAtinvComplete n s = .next t ∧ (t.target n).busy = false ∧ t.ms.mem = s.ms.mem ∧
      ∀ e ∈ (t.target n).cache, e ∈ (s.target n).cache ∧ (s.target n).invAll = false ∧ e.1 / 32 ≠ (s.target n).invMid := by
  refine ⟨s.setTarget n { s.target n with
    busy := false, invAll := false, invMid := 0
    cache := (s.target n).cache.filter fun e => !((s.target n).invAll || e.1 / 32 == (s.target n).invMid) }, ?_, ?_, rfl, ?_⟩
  · simp only [execAtinvComplete, h, Bool.not_true, Bool.false_eq_true, if_false]
  · rw [State.target_setTarget]
  · rw [State.target_setTarget]
    intro e he
    simpa using List.mem_filter.1 he

/-! ### The level-2 mode (04 R108) -/

/-- Two moorings of one byte, or more moorings than the merged table holds. -/
theorem moorsClash_iff (l : List Mooring) : moorsClash l = true ↔ 4096 < l.length ∨
    ∃ a ∈ l, ∃ b ∈ l, a.asid = b.asid ∧ a.base < b.base + b.len ∧ b.base < a.base + a.len ∧ a.bol ≠ b.bol := by
  simp only [moorsClash, Mooring.overlaps, Bool.or_eq_true, decide_eq_true_eq, List.any_eq_true, Bool.and_eq_true, beq_iff_eq, bne_iff_ne,
    and_assoc]

section
variable {s : State} {v : BitVec 64} (hb : s.ms.l2busy = false) (hv : v.getLsbD 0 ≠ s.ms.part)
include hb hv

/-- A write of L2MODE that names the other mode while a task is resident is refused. -/
theorem execL2modeWrite_resident (hr : s.resident = true) : ∃ t, execL2modeWrite v s = .next t ∧ t.ms.l2ref = true ∧
    t.ms.part = s.ms.part ∧ t.ms.l2busy = false ∧ t.cores = s.cores := by
  refine ⟨_, rfl, ?_⟩
  simp only [State.writeL2mode, bit_toNat, hb, hv, hr, Bool.false_eq_true, or_self, if_false, if_true, and_self]

/-- One that would merge moorings that do not fit is refused. -/
theorem execL2modeWrite_clash (hr : s.resident = false) (hc : (!v.getLsbD 0 && moorsClash (mergedMoors s.ms.moors)) = true) :
    ∃ t, execL2modeWrite v s = .next t ∧ t.ms.l2mfull = true ∧ t.ms.part = s.ms.part ∧ t.ms.l2busy = false ∧ t.cores = s.cores := by
  refine ⟨_, rfl, ?_⟩
  simp only [State.writeL2mode, bit_toNat, hb, hv, hr, hc, Bool.false_eq_true, or_self, if_false, if_true, and_self]

/-- Any other one begins the switch. -/
theorem execL2modeWrite_switches (hr : s.resident = false) (hc : (!v.getLsbD 0 && moorsClash (mergedMoors s.ms.moors)) = false) :
    ∃ t, execL2modeWrite v s = .next t ∧ t.ms.l2busy = true ∧ t.ms.part = s.ms.part ∧ t.cores = s.cores := by
  refine ⟨_, rfl, ?_⟩
  simp only [State.writeL2mode, bit_toNat, hb, hv, hr, hc, Bool.false_eq_true, or_self, if_false, and_self]

end

@[simp] theorem MemSys.flushWhere_part (m : MemSys) (core : Nat) (p : L1Line → Bool) (drop : Bool) : (m.flushWhere core p drop).part = m.part :=
  congrArg Prod.snd (MemSys.flushWhere_apart m core p drop)

@[simp] theorem MemSys.packWrite_part (m : MemSys) (p : Nat) : (m.packWrite p).part = m.part := congrArg Prod.snd (MemSys.packWrite_apart m p)

/-- The end of a switch: level 2 is empty, in the other mode. -/
theorem execL2modeSwitchEnd_switches {s : State} (h : s.ms.l2busy = true) :
    ∃ t, execL2modeSwitchEnd s = .next t ∧ t.ms.part = (!s.ms.part) ∧ t.ms.l2busy = false ∧ t.ms.l2 = [] ∧ t.cores = s.cores := by
  rw [execL2modeSwitchEnd, h, if_neg (by decide)]
  refine ⟨_, rfl, congrArg not ?_, rfl, rfl, rfl⟩
  refine foldl_keeps (J := fun m : MemSys => m.part = s.ms.part) (fun m _ hm => (m.packWrite_part _).trans hm) ?_
  refine foldl_keeps (J := fun m : MemSys => m.part = s.ms.part) (fun m _ hm => (m.flushWhere_part _ _ _).trans hm) ?_
  exact foldl_keeps (J := fun m : MemSys => m.part = s.ms.part) (fun m _ hm => (m.drainWc_part _).trans hm) rfl

/-! ### Range registers (04 R109 to R111) -/

theorem State.rangeReg_setRange (s : State) (n : Nat) (r : RangeReg) : (s.setRange n r).rangeReg n = r := by
  have h : (s.setRange n r).ms.rr = SMap.set {} s.ms.rr n r := by
    unfold State.setRange
    dsimp only
    split <;> rfl
  rw [State.rangeReg, h, SMap.get_set_same]

theorem State.rangeReg_setRange_other (s : State) {n j : Nat} (r : RangeReg) (hj : j ≠ n) : (s.setRange n r).rangeReg j = s.rangeReg j := by
  have h : (s.setRange n r).ms.rr = SMap.set {} s.ms.rr n r := by
    unfold State.setRange
    dsimp only
    split <;> rfl
  rw [State.rangeReg, h, SMap.get_set_other _ _ _ hj]; rfl

theorem State.setRange_mem (s : State) (n : Nat) (r : RangeReg) : (s.setRange n r).ms.mem = s.ms.mem := by
  unfold State.setRange
  dsimp only
  split <;> rfl

theorem State.setRange_l2 {s : State} {n : Nat} {r : RangeReg} (h : r.en = (s.rangeReg n).en) : (s.setRange n r).ms.l2 = s.ms.l2 := by
  rw [State.setRange, if_pos h]

/-- A change of EN makes every retained line ordinary. -/
theorem State.setRange_kept {s : State} {n : Nat} {r : RangeReg} (h : r.en ≠ (s.rangeReg n).en) :
    ∀ e ∈ (s.setRange n r).ms.l2, ∀ l ∈ e.2, l.kept = none := by
  intro e he l hl
  rw [State.setRange, if_neg h] at he
  obtain ⟨ls, hls⟩ := SMap.of_mem_mapVals he
  rw [hls] at hl
  obtain ⟨l0, -, rfl⟩ := List.mem_map.1 hl
  rfl

/-- WAYS over the other enabled registers. -/
def State.otherWays (s : State) (n : Nat) : Nat :=
  (((List.range 8).filter (· ≠ n)).map fun j => if (s.rangeReg j).en then (s.rangeReg j).ways else 0).sum

theorem State.writeRrctl_others (s : State) (n : Nat) :
    ((upto 0 8).filter (· != n)).foldl (fun a k => a + if (s.rangeReg k).en then (s.rangeReg k).ways else 0) 0 = s.otherWays n := by
  have hl : (upto 0 8).filter (· != n) = (List.range 8).filter (· ≠ n) := by
    rw [show upto 0 8 = List.range 8 from by decide]
    exact List.filter_congr fun j _ => by rw [bne, beq_eq_decide, decide_not]
  rw [hl, State.otherWays, List.sum_eq_foldl, List.foldl_map]

section
variable {s : State} {n : Nat} {v : BitVec 64} (hn : n < 8)
include hn

/-- EN = 0 disables a range. -/
theorem execRrctlWrite_disables (hen : v.getLsbD 0 = false) : ∃ t, execRrctlWrite n v s = .next t ∧ (t.rangeReg n).en = false ∧
    (t.rangeReg n).err = (s.rangeReg n).err ∧ t.ms.mem = s.ms.mem := by
  refine ⟨s.writeRrctl n v.toNat, by rw [execRrctlWrite, if_pos hn], ?_⟩
  simp only [State.writeRrctl, bit_toNat, hen, Bool.not_false, if_true, State.rangeReg_setRange, State.setRange_mem, and_self]

/-- The ways that the register has after a write of RRCTL. -/
def RangeReg.waysAfter (r : RangeReg) (v : BitVec 64) : Nat := if r.en then r.ways else (v.extractLsb' 8 4).toNat

/-- A write that is refused leaves the range disabled and sets ERR; where it changes EN, every retained line becomes ordinary. -/
theorem execRrctlWrite_refused (hen : v.getLsbD 0 = true)
    (hbad : 9 ≤ (v.extractLsb' 4 4).toNat ∨ 15 < s.otherWays n + (s.rangeReg n).waysAfter v) :
    ∃ t, execRrctlWrite n v s = .next t ∧ (t.rangeReg n).en = false ∧ (t.rangeReg n).err = true ∧
      (∀ j, j ≠ n → t.rangeReg j = s.rangeReg j) ∧ ((s.rangeReg n).en = false → t.ms.l2 = s.ms.l2) ∧
      ((s.rangeReg n).en = true → ∀ e ∈ t.ms.l2, ∀ l ∈ e.2, l.kept = none) := by
  let r : RangeReg :=
    { s.rangeReg n with ways := (s.rangeReg n).waysAfter v, ratio := (v.extractLsb' 4 4).toNat, en := false, err := true }
  have he : execRrctlWrite n v s = .next (s.setRange n r) := by
    have hw := s.writeRrctl_others n
    unfold RangeReg.waysAfter at hbad
    simp only [execRrctlWrite, hn, if_true, State.writeRrctl, bit_toNat, hen, Bool.not_true, Bool.false_eq_true, if_false, hw, field_toNat, hbad]
    rfl
  have hr := s.rangeReg_setRange n r
  exact ⟨_, he, by rw [hr], by rw [hr], fun j hj => s.rangeReg_setRange_other r hj, fun hoff => State.setRange_l2 hoff.symm,
    fun hon => State.setRange_kept (by rw [hon]; exact Bool.false_ne_true)⟩

/-- A write that is accepted enables it. -/
theorem execRrctlWrite_accepted (hen : v.getLsbD 0 = true) (hratio : (v.extractLsb' 4 4).toNat < 9)
    (hways : s.otherWays n + (s.rangeReg n).waysAfter v ≤ 15) :
    ∃ t, execRrctlWrite n v s = .next t ∧ (t.rangeReg n).en = true ∧ (t.rangeReg n).err = false ∧
      (t.rangeReg n).ways = (s.rangeReg n).waysAfter v ∧ (t.rangeReg n).ratio = (v.extractLsb' 4 4).toNat ∧
      (∀ j, j ≠ n → t.rangeReg j = s.rangeReg j) ∧ ((s.rangeReg n).en = true → t.ms.l2 = s.ms.l2) ∧
      ((s.rangeReg n).en = false → ∀ e ∈ t.ms.l2, ∀ l ∈ e.2, l.kept = none) := by
  let r : RangeReg :=
    { s.rangeReg n with ways := (s.rangeReg n).waysAfter v, ratio := (v.extractLsb' 4 4).toNat, en := true, err := false }
  have he : execRrctlWrite n v s = .next (s.setRange n r) := by
    have hw := s.writeRrctl_others n
    have hok : ¬(9 ≤ (v.extractLsb' 4 4).toNat ∨ 15 < s.otherWays n + (s.rangeReg n).waysAfter v) := by omega
    unfold RangeReg.waysAfter at hok
    simp only [execRrctlWrite, hn, if_true, State.writeRrctl, bit_toNat, hen, Bool.not_true, Bool.false_eq_true, if_false, hw, field_toNat, hok]
    rfl
  have hr := s.rangeReg_setRange n r
  exact ⟨_, he, by rw [hr], by rw [hr], by rw [hr], by rw [hr], fun j hj => s.rangeReg_setRange_other r hj,
    fun hon => State.setRange_l2 hon.symm, fun hoff => State.setRange_kept (by rw [hoff]; exact Bool.false_ne_true.symm)⟩

end

end Sys2Proof.Machine
end

section
/-! PROOFS. The obligation on access tables, registers and the level-2 mode. -/

namespace Sys2Proof.Proofs.AddressSpaces

open Sys2Proof.Machine

/-- Settles O51: an access from outside within one block is one piece, which its check denies or which `writeFrom` and `readFrom`
perform; the registers, ATINV, the level-2 mode and the range registers are settled by the lemmas on each of their writes. -/
theorem tablesAndLevelTwo : Obligations.TablesAndLevelTwo := by
  unfold Obligations.TablesAndLevelTwo
  refine ⟨fun s _ => ⟨?pcie, ?fabric, ?registers, ?atinv, ?atinvDone⟩, fun s => ⟨?resident, ?toParted, ?toShared, ?switched, ?range⟩⟩
  case pcie =>
    intro port rid pa len data hboot hport h0 h mid shut
    refine ⟨fun hc hshut hp ho => ?write, fun hc => ?writeDenied, fun hc hshut hp => ?read, fun hc => ?readDenied⟩
    case write =>
      refine ⟨_, execPcieRequesterAccess_write data hboot hport h0 h hshut hp hc ho, rfl, MemSys.writeFrom_readN h0 h _ _ _ _ _, ?_⟩
      intro b hb hs
      exact MemSys.writeFrom_byte h0 h _ _ _ _ hb (MemSys.checkFrom_still _ _ _ _ _ (.refl hs))
    case writeDenied =>
      obtain ⟨m, hm, he⟩ := execPcieRequesterAccess_denied data hboot hport h0 h true hc
      exact ⟨_, he, rfl, rfl, fun b hs => ((hm _ hs).2 b rfl).1⟩
    case read =>
      refine ⟨_, execPcieRequesterAccess_read data hboot hport h0 h hshut hp hc, rfl, ?_, ?_⟩
      · simp [State.completeRead, State.pieceData, hp]
      · intro b hs
        exact MemSys.readFrom_byte h0 h _ (MemSys.checkFrom_still _ _ _ _ _ (.refl hs))
    case readDenied =>
      obtain ⟨m, hm, he⟩ := execPcieRequesterAccess_denied data hboot hport h0 h false hc
      exact ⟨_, he, rfl, rfl, fun b hs => ((hm _ hs).2 b rfl).1⟩
  case fabric =>
    intro link dev pa len kind mode data hboot hdevn hlink h0 h
    refine ⟨fun hc hp => ?_, fun hc hd => ?_⟩
    · have he := execFabricRemoteAccess_allowed mode data hboot hdevn hlink h0 h hc hp
      by_cases hk : kind = .read
      · rw [if_neg (by simp [hk])] at he
        refine ⟨_, he, rfl, rfl, fun hn => absurd hk hn, fun b _ hs => ?_⟩
        exact MemSys.readFrom_byte h0 h _ (MemSys.checkFrom_still _ _ _ _ _ (.refl hs))
      · rw [if_pos (by simpa using hk)] at he
        refine ⟨_, he, rfl, rfl, fun _ => MemSys.writeFrom_readN h0 h _ _ _ _ _, fun b hb hs => ?_⟩
        exact MemSys.writeFrom_byte h0 h _ _ _ _ (hb.resolve_left hk) (MemSys.checkFrom_still _ _ _ _ _ (.refl hs))
    · refine ⟨_, _, execFabricRemoteAccess_denied mode data hboot hdevn hlink h0 h hc, rfl, State.send_outbox _ _ _ hd, rfl, rfl, rfl, ?_⟩
      intro b hs
      exact ((MemSys.checkFrom_still _ _ _ _ _ (.refl hs)).2 b rfl).1
  case registers =>
    intro v
    have hen := execRegisterWrite_of_block (s := s) (pa := 0xFF002000000) v (d := 0) (by decide) (by decide) (r := .sched 0) (by decide)
    have hstab := execRegisterWrite_of_block (s := s) (pa := 0xFF002000008) v (d := 0) (by decide) (by decide) (r := .sched 8) (by decide)
    have hdevn := execRegisterWrite_of_block (s := s) (pa := 0xFF005000000) v (d := 0) (by decide) (by decide) (r := .fabric 0) (by decide)
    have hatb := execRegisterWrite_of_block (s := s) (pa := 0xFF000000000) v (d := 0) (by decide) (by decide) (r := .target 0 0) (by decide)
    refine ⟨⟨_, hen, rfl, rfl, rfl⟩, ⟨_, hstab, rfl⟩, ⟨_, hdevn, rfl⟩, ⟨_, hatb, ?_⟩⟩
    have ht : (s.blockWrite v.toNat (.target 0 0)).target 0 = { s.target 0 with base := field v.toNat 21 23, en := bit v.toNat 0 } :=
      State.target_setTarget s 0 _
    rw [ht]
    exact ⟨rfl, rfl, rfl⟩
  case atinv =>
    intro n v hb
    exact execAtinvWrite_starts v hb
  case atinvDone =>
    intro n h
    exact execAtinvComplete_removes h
  case resident =>
    intro v hb hv hr
    exact execL2modeWrite_resident hb hv hr
  case toParted =>
    intro v hb hv hr h1
    exact execL2modeWrite_switches hb hv hr (by rw [h1]; rfl)
  case toShared =>
    intro v hb hpart hv hr l clash
    have hother : v.getLsbD 0 ≠ s.ms.part := by rw [hv, hpart]; decide
    have hmoors : (!v.getLsbD 0 && moorsClash (mergedMoors s.ms.moors)) = moorsClash l := by rw [hv]; rfl
    by_cases hc : clash
    · obtain ⟨t, he, hfull, hp, hbusy, hcores⟩ := execL2modeWrite_clash hb hother hr (hmoors.trans ((moorsClash_iff l).2 hc))
      exact ⟨t, he, hp.trans hpart, hcores, fun _ => ⟨hfull, hbusy⟩, fun hn => absurd hc hn⟩
    · obtain ⟨t, he, hbusy, hp, hcores⟩ := execL2modeWrite_switches hb hother hr
        (hmoors.trans (Bool.not_eq_true _ ▸ fun hm => hc ((moorsClash_iff l).1 hm)))
      exact ⟨t, he, hp.trans hpart, hcores, fun hy => absurd hy hc, fun _ => hbusy⟩
  case switched =>
    intro h
    exact execL2modeSwitchEnd_switches h
  case range =>
    intro n v hn r ways ratio others
    have hoffWays (hoff : r.en = false) : r.waysAfter v = ways := by rw [RangeReg.waysAfter, hoff]; rfl
    have honWays (hon : r.en = true) : r.waysAfter v = r.ways := by rw [RangeReg.waysAfter, hon]; rfl
    refine ⟨execRrctlWrite_disables hn, fun hen hratio => ?_, fun hen hoff hmany => ?_, fun hen hratio hoff hfew => ?_,
      fun hen hratio hon hfew => ?_⟩
    · obtain ⟨t, he, hten, hterr, -, hsame, hkept⟩ := execRrctlWrite_refused (s := s) hn hen (.inl hratio)
      exact ⟨t, he, hten, hterr, hsame, hkept⟩
    · obtain ⟨t, he, hten, hterr, hother, hsame, -⟩ := execRrctlWrite_refused (s := s) hn hen (.inr ((hoffWays hoff).symm ▸ hmany))
      exact ⟨t, he, hten, hterr, hsame hoff, hother⟩
    · obtain ⟨t, he, hten, hterr, htways, htratio, hother, -, hkept⟩ :=
        execRrctlWrite_accepted (s := s) hn hen hratio ((hoffWays hoff).symm ▸ hfew)
      exact ⟨t, he, hten, hterr, htways.trans (hoffWays hoff), htratio, hother, hkept hoff⟩
    · obtain ⟨t, he, hten, hterr, htways, htratio, -, hsame, -⟩ :=
        execRrctlWrite_accepted (s := s) hn hen hratio ((honWays hon).symm ▸ hfew)
      exact ⟨t, he, hten, hterr, htways.trans (honWays hon), htratio, hsame hon⟩

end Sys2Proof.Proofs.AddressSpaces
end

section
/-! PROOFS. The exact numbers that codes denote (02 R42 to R47): magnitudes, their order, and the rounding of one to a multiple of a
power of two (02 R59). -/

namespace Sys2Proof.Machine

/-! ### Magnitudes -/

@[simp] theorem pow2_eq (n : Nat) : pow2 n = 2 ^ n := Nat.one_shiftLeft n

/-- The magnitude m * 2^e. -/
def mag (m : Nat) (e : Int) : ℚ := m * 2 ^ e

/-- The factor of a sign. -/
def signFactor (s : Bool) : ℚ := if s then -1 else 1

theorem Exact.value_fin (s : Bool) (m : Nat) (e : Int) : (Exact.fin s m e).value = signFactor s * mag m e := by
  rw [Exact.value, mag, signFactor, mul_assoc]

theorem mag_nonneg (m : Nat) (e : Int) : 0 ≤ mag m e := by unfold mag; positivity

theorem mag_pos {m : Nat} (e : Int) (hm : m ≠ 0) : 0 < mag m e := by
  have : 0 < m := Nat.pos_of_ne_zero hm
  unfold mag
  positivity

theorem mag_add (m : Nat) (e k : Int) : mag m (e + k) = mag m e * 2 ^ k := by
  rw [mag, mag, zpow_add₀ two_ne_zero, mul_assoc]

theorem mag_mul_pow (m n : Nat) (e : Int) : mag (m * 2 ^ n) e = mag m (e + n) := by
  rw [mag_add, mag, mag, zpow_natCast]
  push_cast
  ring

@[simp] theorem abs_signFactor_mul (s : Bool) (x : ℚ) : |signFactor s * x| = |x| := by
  cases s <;> simp [signFactor]

theorem Exact.abs_value_fin (s : Bool) (m : Nat) (e : Int) : |(Exact.fin s m e).value| = mag m e := by
  rw [Exact.value_fin, abs_signFactor_mul, abs_of_nonneg (mag_nonneg m e)]

theorem Exact.value_neg (x : Exact) : x.neg.value = -x.value := by
  cases x with
  | nan => simp [Exact.neg, Exact.value]
  | inf s => simp [Exact.neg, Exact.value]
  | fin s m e => cases s <;> simp [Exact.neg, Exact.value]

theorem Exact.value_shift (x : Exact) (k : Int) : (x.shift k).value = x.value * 2 ^ k := by
  cases x with
  | nan => simp [Exact.shift, Exact.value]
  | inf s => simp [Exact.shift, Exact.value]
  | fin s m e => rw [Exact.shift, Exact.value_fin, Exact.value_fin, mag_add, mul_assoc]

theorem Exact.isFin_shift (x : Exact) (k : Int) : (x.shift k).isFin = x.isFin := by cases x <;> rfl

/-- A number is what its finite form says. -/
theorem Exact.eq_fin_of_isFin {x : Exact} (h : x.isFin = true) : ∃ s m e, x = .fin s m e := by
  cases x with
  | nan => cases h
  | inf s => cases h
  | fin s m e => exact ⟨s, m, e, rfl⟩

/-! ### Scaling by a power of two -/

/-- The last bits of a magnitude, as a fraction of what `scale` keeps. -/
theorem mag_negSucc (m n : Nat) : mag m (Int.negSucc n) = (m / 2 ^ (n + 1) : Nat) + (m % 2 ^ (n + 1) : Nat) / (2 : ℚ) ^ (n + 1) := by
  have hm : (m : ℚ) = 2 ^ (n + 1) * (m / 2 ^ (n + 1) : Nat) + (m % 2 ^ (n + 1) : Nat) := by
    exact_mod_cast (Nat.div_add_mod m (2 ^ (n + 1))).symm
  have h2 : (2 : ℚ) ^ (n + 1) ≠ 0 := by positivity
  rw [mag, zpow_negSucc]
  nth_rw 1 [hm]
  field_simp

theorem scale_negSucc (m n : Nat) : scale m (Int.negSucc n) = m / 2 ^ (n + 1) := Nat.shiftRight_eq_div_pow m (n + 1)

theorem scale_ofNat (m n : Nat) : scale m (Int.ofNat n) = m * 2 ^ n := Nat.shiftLeft_eq m n

theorem mag_ofNat (m n : Nat) : mag m (Int.ofNat n) = (m * 2 ^ n : Nat) := by
  rw [mag, Int.ofNat_eq_natCast, zpow_natCast]
  push_cast
  rfl

theorem fraction_lt_one (m n : Nat) : ((m % 2 ^ n : Nat) : ℚ) / 2 ^ n < 1 := by
  rw [div_lt_one (by positivity)]
  exact_mod_cast Nat.mod_lt m (by positivity)

/-- `scale` rounds down. -/
theorem scale_le_mag (m : Nat) (k : Int) : (scale m k : ℚ) ≤ mag m k := by
  cases k with
  | ofNat n => rw [scale_ofNat, mag_ofNat]
  | negSucc n => rw [scale_negSucc, mag_negSucc]; exact le_add_of_nonneg_right (by positivity)

theorem mag_lt_scale_add_one (m : Nat) (k : Int) : mag m k < (scale m k : ℚ) + 1 := by
  cases k with
  | ofNat n => rw [scale_ofNat, mag_ofNat]; exact lt_add_one _
  | negSucc n => rw [scale_negSucc, mag_negSucc]; exact add_lt_add_right (fraction_lt_one m (n + 1)) _

/-- Where no bit is lost, `scale` is exact. -/
theorem scale_of_not_lost {m : Nat} {k : Int} (h : lost m k = false) : (scale m k : ℚ) = mag m k := by
  cases k with
  | ofNat n => rw [scale_ofNat, mag_ofNat]
  | negSucc n =>
    have h0 : m % 2 ^ (n + 1) = 0 := by simpa [lost] using h
    rw [scale_negSucc, mag_negSucc, h0]
    simp

theorem scale_of_nonneg (m : Nat) {k : Int} (h : 0 ≤ k) : (scale m k : ℚ) = mag m k := by
  obtain ⟨n, rfl⟩ := Int.eq_ofNat_of_zero_le h
  exact scale_of_not_lost rfl

theorem mag_sub_mul (m : Nat) (e q : Int) : mag m (e - q) * 2 ^ q = mag m e := by
  rw [← mag_add, sub_add_cancel]

theorem scale_sub_mul {m : Nat} {e q : Int} (h : q ≤ e) : (scale m (e - q) : ℚ) * 2 ^ q = mag m e := by
  rw [scale_of_nonneg m (by omega), mag_sub_mul]

/-- Magnitudes compare as the whole numbers that they are on a common exponent. -/
theorem scale_lt_scale_iff {m n : Nat} {e g q : Int} (he : q ≤ e) (hg : q ≤ g) :
    scale m (e - q) < scale n (g - q) ↔ mag m e < mag n g := by
  rw [← scale_sub_mul he, ← scale_sub_mul hg, mul_lt_mul_iff_left₀ (by positivity)]
  exact_mod_cast Iff.rfl

theorem magLt_iff (m n : Nat) (e g : Int) : magLt m e n g = true ↔ mag m e < mag n g := by
  rw [magLt, decide_eq_true_eq]
  exact scale_lt_scale_iff (min_le_left e g) (min_le_right e g)

/-! ### The leading bit -/

theorem zpow_lead_le (m : Nat) (e : Int) (hm : m ≠ 0) : (2 : ℚ) ^ lead m e ≤ mag m e := by
  rw [lead, zpow_add₀ two_ne_zero, zpow_natCast, mag]
  have : ((2 ^ log2 m : Nat) : ℚ) ≤ m := by exact_mod_cast Nat.log2_self_le hm
  push_cast at this
  gcongr

theorem mag_lt_zpow_lead (m : Nat) (e : Int) : mag m e < 2 ^ (lead m e + 1) := by
  have h : (m : ℚ) < ((2 ^ (log2 m + 1) : Nat) : ℚ) := by exact_mod_cast Nat.lt_log2_self
  push_cast at h
  have : (2 : ℚ) ^ (lead m e + 1) = 2 ^ (log2 m + 1) * 2 ^ e := by
    rw [← zpow_natCast, ← zpow_add₀ two_ne_zero, lead]
    congr 1
    push_cast
    ring
  rw [this, mag]
  gcongr

theorem mag_lt_zpow {m n : Nat} (e : Int) (h : m < 2 ^ n) : mag m e < 2 ^ (n + e) := by
  have : (m : ℚ) < 2 ^ n := by exact_mod_cast h
  rw [mag, zpow_add₀ two_ne_zero, zpow_natCast]
  gcongr

theorem zpow_le_mag {m n : Nat} (e : Int) (h : 2 ^ n ≤ m) : (2 : ℚ) ^ (n + e) ≤ mag m e := by
  have : (2 : ℚ) ^ n ≤ m := by exact_mod_cast h
  rw [mag, zpow_add₀ two_ne_zero, zpow_natCast]
  gcongr

theorem mag_le_mag {m n : Nat} (e : Int) (h : m ≤ n) : mag m e ≤ mag n e := by
  have : (m : ℚ) ≤ n := by exact_mod_cast h
  unfold mag
  gcongr

/-! ### Rounding to a whole number -/

/-- Of two numbers around `x`, `w` is the nearer one, and where both are equally near `even` holds of it; toward zero it is the lower
one (02 R59). -/
def Picks (rtz : Bool) (lo x hi w : ℚ) (even : Prop) : Prop :=
  if rtz then w = lo
  else (w = lo ∧ x - lo ≤ hi - x ∨ w = hi ∧ hi - x ≤ x - lo) ∧ (x - lo = hi - x → even)

theorem Picks.lower {rtz : Bool} {lo x hi : ℚ} {even : Prop} (h : rtz = false → x - lo ≤ hi - x ∧ (x - lo = hi - x → even)) :
    Picks rtz lo x hi lo even := by
  cases rtz with
  | true => rfl
  | false => exact ⟨.inl ⟨rfl, (h rfl).1⟩, (h rfl).2⟩

theorem Picks.mul {rtz : Bool} {lo x hi w u : ℚ} {even : Prop} (hu : 0 < u) (h : Picks rtz lo x hi w even) :
    Picks rtz (lo * u) (x * u) (hi * u) (w * u) even := by
  cases rtz with
  | true => exact congrArg (· * u) h
  | false =>
    obtain ⟨h, he⟩ := h
    refine ⟨?_, fun ht => he ?_⟩
    · rcases h with ⟨rfl, h⟩ | ⟨rfl, h⟩
      · exact .inl ⟨rfl, by rw [← sub_mul, ← sub_mul]; exact mul_le_mul_of_nonneg_right h hu.le⟩
      · exact .inr ⟨rfl, by rw [← sub_mul, ← sub_mul]; exact mul_le_mul_of_nonneg_right h hu.le⟩
    · rw [← sub_mul, ← sub_mul] at ht
      exact mul_right_cancel₀ hu.ne' ht

theorem Picks.imp {rtz : Bool} {lo x hi w : ℚ} {p q : Prop} (h : Picks rtz lo x hi w p) (hpq : p → q) : Picks rtz lo x hi w q := by
  cases rtz with
  | true => exact h
  | false => exact ⟨h.1, fun ht => hpq (h.2 ht)⟩

/-- What is chosen is one of the two. -/
theorem Picks.eq_or {rtz : Bool} {lo x hi w : ℚ} {even : Prop} (h : Picks rtz lo x hi w even) (hhi : x < hi) :
    w = lo ∨ w = hi ∧ lo < x := by
  cases rtz with
  | true => exact .inl h
  | false =>
    rcases h.1 with ⟨h, -⟩ | ⟨h, h2⟩
    · exact .inl h
    · exact .inr ⟨h, by linarith⟩

/-- `roundQ` chooses between the whole number below and the one above (02 R59), and says whether it met the number itself. -/
theorem roundQ_picks (m : Nat) (e q : Int) (rtz : Bool) :
    Picks rtz (scale m (e - q)) (mag m (e - q)) (scale m (e - q) + 1) (roundQ m e q rtz).1 ((roundQ m e q rtz).1 % 2 = 0) ∧
      ((roundQ m e q rtz).2 = true ↔ ((roundQ m e q rtz).1 : ℚ) = mag m (e - q)) := by
  unfold roundQ
  dsimp only
  cases e - q with
  | ofNat n =>
    rw [scale_ofNat, mag_ofNat]
    refine ⟨.lower fun _ => ?_, by simp⟩
    simp
  | negSucc n =>
    dsimp only
    rw [scale_negSucc, mag_negSucc, pow2_eq, pow2_eq]
    generalize m / 2 ^ (n + 1) = y
    have hlt := fraction_lt_one m (n + 1)
    have hpos : (0 : ℚ) < 2 ^ n := by positivity
    have hhalf (r : Nat) : (r : ℚ) / 2 ^ (n + 1) = r / 2 ^ n / 2 := by rw [pow_succ]; field_simp
    generalize m % 2 ^ (n + 1) = r at hlt
    have hcast : ((2 ^ n : Nat) : ℚ) = 2 ^ n := by push_cast; rfl
    rw [hhalf] at hlt ⊢
    split_ifs with h0 hr h1 h2
    · subst h0
      refine ⟨.lower fun _ => ?_, by simp⟩
      norm_num
    · subst hr
      have : (r : ℚ) ≠ 0 := by exact_mod_cast h0
      refine ⟨rfl, by simp [this, hpos.ne']⟩
    · have h3 : (r : ℚ) / 2 ^ n < 1 := by rw [div_lt_one hpos, ← hcast]; exact_mod_cast h1
      have h4 : (r : ℚ) / 2 ^ n ≠ 0 := by
        have : (r : ℚ) ≠ 0 := by exact_mod_cast h0
        positivity
      exact ⟨.lower fun _ => ⟨by linarith, fun ht => by linarith⟩, by simp [h4]⟩
    · have h3 : 1 < (r : ℚ) / 2 ^ n := by rw [one_lt_div hpos, ← hcast]; exact_mod_cast h2
      obtain rfl : rtz = false := by simpa using hr
      refine ⟨⟨.inr ⟨by push_cast; rfl, by linarith⟩, fun ht => by linarith⟩, ?_⟩
      push_cast
      constructor
      · intro h; cases h
      · intro h; linarith
    · have hrn : r = 2 ^ n := by omega
      have h3 : (r : ℚ) / 2 ^ n = 1 := by rw [hrn, hcast, div_self hpos.ne']
      obtain rfl : rtz = false := by simpa using hr
      rw [h3]
      rcases Nat.mod_two_eq_zero_or_one y with hy | hy
      · rw [hy]
        exact ⟨⟨.inl ⟨rfl, by norm_num⟩, fun _ => hy⟩, by simp⟩
      · rw [hy]
        refine ⟨⟨.inr ⟨by push_cast; rfl, by norm_num⟩, fun _ => by omega⟩, ?_⟩
        push_cast
        constructor
        · intro h; cases h
        · intro h; linarith

end Sys2Proof.Machine
end

section
/-! PROOFS. When a code is the number of its format nearest to a number, or next to it on the side of zero (02 R59): between two
neighbouring magnitudes of the format it is enough to pick one. -/

namespace Sys2Proof.Machine

theorem signFactor_mul_mul (s : Bool) (x : ℚ) : signFactor s * (signFactor s * x) = x := by cases s <;> norm_num [signFactor]

/-- Distances do not depend on a sign that both numbers have. -/
theorem abs_sub_signFactor_mul (s : Bool) (x y : ℚ) : |y - signFactor s * x| = |signFactor s * y - x| := by
  rw [← abs_signFactor_mul s (y - _), mul_sub, signFactor_mul_mul]

/-- No number of the format has a magnitude between `lo` and `hi`. -/
def Fmt.Gap (f : Fmt) (lo hi : ℚ) : Prop := ∀ d, (decodeNum f d).isFin = true → |f.value d| ≤ lo ∨ hi ≤ |f.value d|

/-- Of the numbers outside a gap around `x`, none is nearer to `x` than an end of the gap, and one that is as near as that end is
that end. -/
theorem dist_of_gap {lo x hi t : ℚ} (hx : 0 < x) (hlo : lo ≤ x) (hhi : x < hi) (ht : |t| ≤ lo ∨ hi ≤ |t|) :
    (x - lo ≤ |t - x| ∧ (|t - x| = x - lo → t = lo)) ∨ (hi - x ≤ |t - x| ∧ (|t - x| = hi - x → t = hi)) := by
  rcases ht with ht | ht
  · have h1 := le_abs_self t
    rw [abs_of_nonpos (by linarith)]
    exact .inl ⟨by linarith, fun h => by linarith⟩
  · right
    rcases le_abs'.1 ht with h | h
    · rw [abs_of_nonpos (by linarith)]
      exact ⟨by linarith, fun h1 => by linarith⟩
    · rw [abs_of_nonneg (by linarith)]
      exact ⟨by linarith, fun h1 => by linarith⟩

/-- A code that picks the nearer of two neighbouring magnitudes of its format is nearest (02 R59, rne). -/
theorem Fmt.nearest_of_picks {f : Fmt} {c : Nat} {s : Bool} {lo x hi w : ℚ} (hc : (decodeNum f c).isFin = true)
    (hv : f.value c = signFactor s * w) (h0 : 0 ≤ lo) (hx : 0 < x) (hlo : lo ≤ x) (hhi : x < hi) (hg : f.Gap lo hi)
    (hp : Picks false lo x hi w (c % 2 = 0)) : f.Nearest (signFactor s * x) c := by
  refine ⟨hc, fun d hd => ?_⟩
  rw [abs_sub_signFactor_mul, abs_sub_signFactor_mul, hv, signFactor_mul_mul]
  have ht := hg d hd
  rw [← abs_signFactor_mul s] at ht
  have hne (h : w = signFactor s * f.value d) : ¬ (signFactor s * w ≠ f.value d) := fun hn => hn (by rw [h, signFactor_mul_mul])
  obtain ⟨hp, heven⟩ := hp
  generalize signFactor s * f.value d = t at ht hne
  rcases hp with ⟨rfl, hw⟩ | ⟨rfl, hw⟩
  · rw [abs_of_nonpos (a := w - x) (by linarith)]
    rcases dist_of_gap hx hlo hhi ht with ⟨h1, h2⟩ | ⟨h1, -⟩
    · exact ⟨by linarith, fun he hn => absurd hn (hne (h2 (by linarith)).symm)⟩
    · exact ⟨by linarith, fun he _ => heven (by linarith)⟩
  · rw [abs_of_nonneg (a := w - x) (by linarith)]
    rcases dist_of_gap hx hlo hhi ht with ⟨h1, -⟩ | ⟨h1, h2⟩
    · exact ⟨by linarith, fun he _ => heven (by linarith)⟩
    · exact ⟨h1, fun he hn => absurd hn (hne (h2 he.symm).symm)⟩

/-- A code that picks the lower of two neighbouring magnitudes of its format is next on the side of zero (02 R59, rtz). -/
theorem Fmt.toward_of_picks {f : Fmt} {c : Nat} {s : Bool} {lo x hi w : ℚ} (hc : (decodeNum f c).isFin = true)
    (hv : f.value c = signFactor s * w) (h0 : 0 ≤ lo) (hx : 0 < x) (hlo : lo ≤ x) (hhi : x < hi) (hg : f.Gap lo hi)
    (hp : Picks true lo x hi w (c % 2 = 0)) : f.Toward (signFactor s * x) c := by
  obtain rfl : w = lo := hp
  refine ⟨hc, fun hs => ?_, fun hs => ?_⟩ <;> cases s <;> simp only [signFactor, if_true, if_false, Bool.false_eq_true] at hs hv ⊢
  · refine ⟨by linarith, fun d hd hdx => ?_⟩
    rcases hg d hd with h | h
    · linarith [le_abs_self (f.value d)]
    · rcases le_abs'.1 h with h | h <;> linarith
  · linarith
  · linarith
  · refine ⟨by linarith, fun d hd hdx => ?_⟩
    rcases hg d hd with h | h
    · linarith [neg_abs_le (f.value d)]
    · rcases le_abs'.1 h with h | h <;> linarith

/-- The rounding of 02 R59 in either mode. -/
def Fmt.Rounds (f : Fmt) (rtz : Bool) (v : ℚ) (c : Nat) : Prop := if rtz then f.Toward v c else f.Nearest v c

theorem Fmt.rounds_of_picks {f : Fmt} {c : Nat} {s rtz : Bool} {lo x hi w : ℚ} (hc : (decodeNum f c).isFin = true)
    (hv : f.value c = signFactor s * w) (h0 : 0 ≤ lo) (hx : 0 < x) (hlo : lo ≤ x) (hhi : x < hi) (hg : f.Gap lo hi)
    (hp : Picks rtz lo x hi w (c % 2 = 0)) : f.Rounds rtz (signFactor s * x) c := by
  cases rtz with
  | true => exact Fmt.toward_of_picks hc hv h0 hx hlo hhi hg hp
  | false => exact Fmt.nearest_of_picks hc hv h0 hx hlo hhi hg hp

end Sys2Proof.Machine
end

section
/-! PROOFS. The IEEE-style formats (02 R43, R45): what a code denotes, the numbers of a binade, and the rounding to them (02 R59). -/

namespace Sys2Proof.Machine

/-! ### The parameters of the formats -/

theorem Fmt.ieee_cases {f : Fmt} (hf : f.ieee = true) : f = .fp32 ∨ f = .fp16 ∨ f = .bf16 ∨ f = .a40 := by
  cases f with
  | fp32 => exact .inl rfl
  | fp16 => exact .inr (.inl rfl)
  | bf16 => exact .inr (.inr (.inl rfl))
  | a40 => exact .inr (.inr (.inr rfl))
  | t8 es => cases hf
  | t6 es => cases hf
  | int n sg => cases hf

section
variable {f : Fmt} (hf : f.ieee = true)
include hf

theorem Fmt.two_pow_expBits : 2 ^ f.expBits = 2 * f.bias + 2 := by rcases Fmt.ieee_cases hf with rfl | rfl | rfl | rfl <;> rfl

theorem Fmt.bias_pos : 0 < f.bias := by rcases Fmt.ieee_cases hf with rfl | rfl | rfl | rfl <;> decide

theorem Fmt.frac_pos : 0 < f.frac := by rcases Fmt.ieee_cases hf with rfl | rfl | rfl | rfl <;> decide

theorem Fmt.signBit_of_ieee : f.signBit = 2 ^ f.expBits * 2 ^ f.frac := by
  rcases Fmt.ieee_cases hf with rfl | rfl | rfl | rfl <;> rfl

theorem Fmt.maxCode_of_ieee : f.maxCode = (2 ^ f.expBits - 1) * 2 ^ f.frac - 1 := by
  rcases Fmt.ieee_cases hf with rfl | rfl | rfl | rfl <;> rfl

/-! ### What a code denotes -/

theorem decodeNum_of_ieee (code : Nat) : decodeNum f code =
    let s := code.testBit (f.frac + f.expBits)
    if field code f.frac f.expBits = 2 ^ f.expBits - 1 then (if code % 2 ^ f.frac = 0 then .inf s else .nan)
    else if field code f.frac f.expBits = 0 then .fin s (code % 2 ^ f.frac) (f.emin - f.frac)
    else .fin s (2 ^ f.frac + code % 2 ^ f.frac) ((field code f.frac f.expBits : Int) - f.bias - f.frac) := by
  rcases Fmt.ieee_cases hf with rfl | rfl | rfl | rfl <;> simp only [decodeNum, pow2_eq]

end

/-- The fields of a sign and a magnitude of `n` bits below it. -/
theorem fields_of_sign (s : Bool) {eb fb n : Nat} (hn : n < 2 ^ eb * 2 ^ fb) :
    (b2n s * (2 ^ eb * 2 ^ fb) + n) % 2 ^ fb = n % 2 ^ fb ∧ field (b2n s * (2 ^ eb * 2 ^ fb) + n) fb eb = n / 2 ^ fb ∧
      (b2n s * (2 ^ eb * 2 ^ fb) + n).testBit (fb + eb) = s := by
  have hq : n / 2 ^ fb < 2 ^ eb := Nat.div_lt_of_lt_mul (by rwa [mul_comm])
  refine ⟨?_, ?_, ?_⟩
  · rw [← mul_assoc, Nat.mul_add_mod_self_right]
  · rw [field, Nat.shiftRight_eq_div_pow, ← mul_assoc, add_comm, Nat.add_mul_div_right _ _ (by positivity), Nat.add_mul_mod_self_right,
      Nat.mod_eq_of_lt hq]
  · rw [Nat.testBit_eq_decide_div_mod_eq, add_comm fb eb, pow_add, add_comm, Nat.add_mul_div_right _ _ (by positivity), Nat.div_eq_of_lt hn]
    cases s <;> rfl

/-- The magnitude that the code `n` of an IEEE-style format denotes, its sign left out. -/
def Fmt.ieeeMag (f : Fmt) (n : Nat) : ℚ :=
  if n / 2 ^ f.frac = 0 then mag (n % 2 ^ f.frac) (f.emin - f.frac)
  else mag (2 ^ f.frac + n % 2 ^ f.frac) (((n / 2 ^ f.frac : Nat) : Int) - f.bias - f.frac)

section
variable {f : Fmt} (hf : f.ieee = true)
include hf

/-- A code by its sign and what is below it. -/
theorem decodeNum_of_sign (s : Bool) {n : Nat} (hn : n < 2 ^ f.expBits * 2 ^ f.frac) :
    decodeNum f (b2n s * (2 ^ f.expBits * 2 ^ f.frac) + n) =
      if n / 2 ^ f.frac = 2 ^ f.expBits - 1 then (if n % 2 ^ f.frac = 0 then .inf s else .nan)
      else if n / 2 ^ f.frac = 0 then .fin s (n % 2 ^ f.frac) (f.emin - f.frac)
      else .fin s (2 ^ f.frac + n % 2 ^ f.frac) (((n / 2 ^ f.frac : Nat) : Int) - f.bias - f.frac) := by
  obtain ⟨hmod, hfield, hsign⟩ := fields_of_sign s hn
  rw [decodeNum_of_ieee hf]
  dsimp only
  rw [hmod, hfield, hsign]

/-- A code below the infinities denotes a number. -/
theorem value_of_sign (s : Bool) {n : Nat} (hn : n < (2 ^ f.expBits - 1) * 2 ^ f.frac) :
    let x := decodeNum f (b2n s * (2 ^ f.expBits * 2 ^ f.frac) + n)
    x.isFin = true ∧ x.sign = s ∧ x.value = signFactor s * f.ieeeMag n := by
  have hq : n / 2 ^ f.frac < 2 ^ f.expBits - 1 := Nat.div_lt_of_lt_mul (by rwa [mul_comm])
  have hn' : n < 2 ^ f.expBits * 2 ^ f.frac := lt_of_lt_of_le hn (Nat.mul_le_mul_right _ (Nat.sub_le _ _))
  dsimp only
  rw [decodeNum_of_sign hf s hn', if_neg (by omega), Fmt.ieeeMag]
  split_ifs with h0
  · exact ⟨rfl, rfl, Exact.value_fin _ _ _⟩
  · exact ⟨rfl, rfl, Exact.value_fin _ _ _⟩

omit hf in
/-- A significand `q` in the binade `a` binades above the subnormal one, its overflow into the next one included, is the code that
their sum spells (02 R59). -/
theorem ieeeMag_of_binade {a q : Nat} (hq : q ≤ 2 * 2 ^ f.frac) (ha : a = 0 ∨ 2 ^ f.frac ≤ q) :
    f.ieeeMag (a * 2 ^ f.frac + q) = mag q (f.emin + a - f.frac) := by
  have hpos : 0 < 2 ^ f.frac := by positivity
  have hdiv : (a * 2 ^ f.frac + q) / 2 ^ f.frac = a + q / 2 ^ f.frac := by rw [add_comm, Nat.add_mul_div_right _ _ hpos, add_comm]
  have hmod : (a * 2 ^ f.frac + q) % 2 ^ f.frac = q % 2 ^ f.frac := Nat.mul_add_mod_self_right ..
  rw [Fmt.ieeeMag, hdiv, hmod]
  rcases lt_or_ge q (2 ^ f.frac) with h | h
  · obtain rfl : a = 0 := ha.resolve_right (by omega)
    rw [Nat.div_eq_of_lt h, Nat.mod_eq_of_lt h, if_pos rfl]
    simp
  · rcases Nat.lt_or_ge q (2 * 2 ^ f.frac) with h2 | h2
    · have h1 : q / 2 ^ f.frac = 1 := Nat.div_eq_of_lt_le (by omega) (by omega)
      rw [h1, if_neg (by omega), Nat.mod_eq_sub_mul_div, h1, mul_one, Nat.add_sub_cancel' h, Fmt.emin]
      congr 1
      push_cast
      ring
    · obtain rfl : q = 2 * 2 ^ f.frac := le_antisymm hq h2
      rw [Nat.mul_div_cancel _ hpos, Nat.mul_mod_left, if_neg (by omega), add_zero, mul_comm 2]
      have := mag_mul_pow (2 ^ f.frac) 1 (f.emin + a - f.frac)
      rw [pow_one] at this
      rw [this, Fmt.emin]
      congr 1
      push_cast
      ring

/-- What lies in a binade: the numbers that are no multiple of its step lie below it. -/
theorem value_grid {b : Int} (hb : f.emin ≤ b) (d : Nat) (hd : (decodeNum f d).isFin = true) :
    (∃ n : Nat, |f.value d| = mag n (b - f.frac)) ∨ f.emin < b ∧ |f.value d| < 2 ^ b := by
  rw [Fmt.value]
  rw [decodeNum_of_ieee hf] at hd ⊢
  dsimp only at hd ⊢
  have hr : d % 2 ^ f.frac < 2 ^ f.frac := Nat.mod_lt _ (by positivity)
  generalize d % 2 ^ f.frac = r at hd hr
  generalize field d f.frac f.expBits = ex at hd
  have hmono (g : Int) (hg : g ≤ b) : (2 : ℚ) ^ g ≤ 2 ^ b := zpow_le_zpow_right₀ one_le_two hg
  split_ifs at hd ⊢ with h1 h2 h3
  · cases hd
  · cases hd
  · rw [Exact.abs_value_fin]
    rcases hb.eq_or_lt with rfl | hlt
    · exact .inl ⟨r, rfl⟩
    · have hlow := mag_lt_zpow (f.emin - f.frac) hr
      rw [add_sub_cancel] at hlow
      exact .inr ⟨hlt, hlow.trans_le (hmono _ hb)⟩
  · rw [Exact.abs_value_fin]
    rcases le_or_gt b (ex - f.bias) with hle | hlt
    · obtain ⟨k, hk⟩ := Int.eq_ofNat_of_zero_le (a := (ex : Int) - f.bias - b) (by omega)
      exact .inl ⟨(2 ^ f.frac + r) * 2 ^ k, by rw [mag_mul_pow]; congr 1; omega⟩
    · have hlow := mag_lt_zpow (m := 2 ^ f.frac + r) (n := f.frac + 1) ((ex : Int) - f.bias - f.frac) (by rw [pow_succ]; omega)
      refine .inr ⟨by rw [Fmt.emin]; omega, hlow.trans_le (hmono _ ?_)⟩
      push_cast
      omega

/-- Two neighbouring multiples of the step of a binade, of which the lower one does not lie below the binade, have no number of
the format between them. -/
theorem gap_of_binade {b : Int} (hb : f.emin ≤ b) {k : Nat} (hk : b = f.emin ∨ 2 ^ f.frac ≤ k) :
    f.Gap (mag k (b - f.frac)) (mag (k + 1) (b - f.frac)) := by
  intro d hd
  rcases value_grid hf hb d hd with ⟨n, hn⟩ | ⟨hlt, hn⟩
  · rw [hn]
    exact (le_or_gt n k).imp (mag_le_mag _) (mag_le_mag _)
  · have := zpow_le_mag (b - f.frac) (hk.resolve_left (by omega))
    rw [add_sub_cancel] at this
    exact .inl (hn.le.trans this)

/-! ### The greatest number -/

theorem maxCode_lt : f.maxCode < (2 ^ f.expBits - 1) * 2 ^ f.frac := by
  have h1 := Fmt.two_pow_expBits hf
  have h2 : 0 < (2 ^ f.expBits - 1) * 2 ^ f.frac := Nat.mul_pos (by omega) (by positivity)
  rw [Fmt.maxCode_of_ieee hf]
  omega

/-- The greatest code in the binade of the greatest number. -/
theorem maxCode_eq_binade : f.maxCode = (2 * f.bias - 1) * 2 ^ f.frac + (2 * 2 ^ f.frac - 1) := by
  have h1 := Fmt.two_pow_expBits hf
  have h2 := Fmt.bias_pos hf
  have h3 : 0 < 2 ^ f.frac := by positivity
  obtain ⟨n, hn⟩ : ∃ n, f.bias = n + 1 := ⟨f.bias - 1, by omega⟩
  rw [Fmt.maxCode_of_ieee hf, h1, hn]
  have h4 : 2 * (n + 1) + 2 - 1 = 2 * n + 1 + 2 := by omega
  have h5 : 2 * (n + 1) - 1 = 2 * n + 1 := by omega
  rw [h4, h5, add_mul _ 2]
  omega

theorem maxFinite_of_ieee : f.maxFinite = .fin false (2 * 2 ^ f.frac - 1) ((f.bias : Int) - f.frac) := by
  have h1 := Fmt.two_pow_expBits hf
  have h2 := Fmt.bias_pos hf
  have h3 : 0 < 2 ^ f.frac := by positivity
  have hlt : f.maxCode < 2 ^ f.expBits * 2 ^ f.frac := (maxCode_lt hf).trans_le (Nat.mul_le_mul_right _ (Nat.sub_le _ _))
  have hdec := decodeNum_of_sign hf false hlt
  have hq : f.maxCode / 2 ^ f.frac = 2 * f.bias := by
    rw [maxCode_eq_binade hf, add_comm, Nat.add_mul_div_right _ _ h3, Nat.div_eq_of_lt_le (k := 1) (by omega) (by omega)]
    omega
  have hr : f.maxCode % 2 ^ f.frac = 2 ^ f.frac - 1 := by
    rw [maxCode_eq_binade hf, Nat.mul_add_mod_self_right, Nat.mod_eq_sub_mul_div, Nat.div_eq_of_lt_le (k := 1) (by omega) (by omega)]
    omega
  rw [hq, hr, if_neg (by omega), if_neg (by omega)] at hdec
  rw [Fmt.maxFinite]
  simp only [b2n, Bool.false_eq_true, if_false, zero_mul, zero_add] at hdec
  rw [hdec]
  congr 1
  · omega
  · push_cast
    ring

theorem top_of_ieee : f.top = mag (2 * 2 ^ f.frac - 1) ((f.bias : Int) - f.frac) := by
  rw [Fmt.top, maxFinite_of_ieee hf, Exact.value_fin, signFactor, if_neg Bool.false_ne_true, one_mul]

theorem value_of_sign_maxCode (s : Bool) : f.value (b2n s * (2 ^ f.expBits * 2 ^ f.frac) + f.maxCode) = signFactor s * f.top := by
  have hb := Fmt.bias_pos hf
  have hpos : 0 < 2 ^ f.frac := by positivity
  rw [Fmt.value, (value_of_sign hf s (maxCode_lt hf)).2.2, top_of_ieee hf, maxCode_eq_binade hf,
    ieeeMag_of_binade (by omega) (.inr (by omega)), Fmt.emin]
  congr 2
  omega

/-! ### Rounding -/

theorem signBit_eq (s : Bool) : (if s then f.signBit else 0) = b2n s * (2 ^ f.expBits * 2 ^ f.frac) := by
  rw [Fmt.signBit_of_ieee hf]
  cases s <;> simp [b2n]

theorem roundTo_of_ieee (s : Bool) {m : Nat} (e : Int) (rtz wid : Bool) (hm : m ≠ 0) :
    roundTo (.fin s m e) f rtz wid =
      let b := max (lead m e) f.emin
      let y := roundQ m e (b - f.frac) rtz
      let sb := b2n s * (2 ^ f.expBits * 2 ^ f.frac)
      if magLt (2 * 2 ^ f.frac - 1) ((f.bias : Int) - f.frac) m e then (sb + f.maxCode, { sat := true, ix := true })
      else (sb + ((b - f.emin).toNat * 2 ^ f.frac + y.1), { ix := !y.2 }) := by
  dsimp only
  rw [← signBit_eq hf]
  have hmax := maxFinite_of_ieee hf
  rcases Fmt.ieee_cases hf with rfl | rfl | rfl | rfl <;> simp only [roundTo, if_neg hm, hmax, hf, if_true, Nat.shiftLeft_eq]

end

end Sys2Proof.Machine
end

section
/-! PROOFS. The conversion of a number to an IEEE-style format (02 R59). -/

namespace Sys2Proof.Machine

/-- A number inside the range of a format is converted: rounded in the mode, and reported as inexact where it changed (02 R59). -/
def Fmt.Converts (f : Fmt) (rtz : Bool) (v : ℚ) (r : Nat × Ev) : Prop :=
  r.2.sat = false ∧ (r.2.ix = true ↔ f.value r.1 ≠ v) ∧ f.Rounds rtz v r.1

/-- A number beyond the range of a format becomes the end of the range, which is reported (02 R59). -/
def Fmt.Saturates (f : Fmt) (v : ℚ) (r : Nat × Ev) : Prop := r.2.sat = true ∧ r.2.ix = true ∧ f.value r.1 = v

theorem signFactor_mul_inj (s : Bool) (x y : ℚ) : signFactor s * x = signFactor s * y ↔ x = y := by
  cases s <;> simp [signFactor]

/-- A number rounded to a multiple of 2^q stays below the whole multiples above it. -/
theorem roundQ_le {m : Nat} {e q : Int} (rtz : Bool) {n : Nat} (h : mag m (e - q) ≤ n) : (roundQ m e q rtz).1 ≤ n := by
  have hlo := scale_le_mag m (e - q)
  rcases (roundQ_picks m e q rtz).1.eq_or (mag_lt_scale_add_one m (e - q)) with hy | ⟨hy, hlt⟩
  · have : ((roundQ m e q rtz).1 : ℚ) ≤ n := by rw [hy]; exact hlo.trans h
    exact_mod_cast this
  · have h1 : (scale m (e - q) : ℚ) < n := hlt.trans_le h
    have h2 : scale m (e - q) < n := by exact_mod_cast h1
    have h3 : (roundQ m e q rtz).1 = scale m (e - q) + 1 := by exact_mod_cast hy
    omega

theorem scale_le_roundQ (m : Nat) (e q : Int) (rtz : Bool) : scale m (e - q) ≤ (roundQ m e q rtz).1 := by
  rcases (roundQ_picks m e q rtz).1.eq_or (mag_lt_scale_add_one m (e - q)) with hy | ⟨hy, -⟩
  · exact le_of_eq (by exact_mod_cast hy.symm)
  · have : (roundQ m e q rtz).1 = scale m (e - q) + 1 := by exact_mod_cast hy
    omega

section
variable {f : Fmt} (hf : f.ieee = true)
include hf

/-- The binade in which a magnitude is rounded: that of its leading bit, or the subnormal one. -/
def Fmt.binade (f : Fmt) (m : Nat) (e : Int) : Int := max (lead m e) f.emin

omit hf in
/-- The significand of a magnitude in its binade. -/
theorem mag_lt_in_binade (m : Nat) (e : Int) : mag m (e - (f.binade m e - f.frac)) < (2 * 2 ^ f.frac : Nat) := by
  have h1 : mag m e < 2 ^ (f.binade m e + 1) :=
    (mag_lt_zpow_lead m e).trans_le (zpow_le_zpow_right₀ one_le_two (by unfold Fmt.binade; omega))
  have h2 : (2 : ℚ) ^ (f.binade m e + 1) = (2 * 2 ^ f.frac : Nat) * 2 ^ (f.binade m e - f.frac) := by
    push_cast
    rw [← pow_succ', ← zpow_natCast, ← zpow_add₀ two_ne_zero]
    congr 1
    push_cast
    ring
  rw [h2, ← mag_sub_mul m e (f.binade m e - f.frac)] at h1
  exact lt_of_mul_lt_mul_right h1 (by positivity)

omit hf in
theorem le_scale_in_binade {m : Nat} (e : Int) (hm : m ≠ 0) :
    f.binade m e = f.emin ∨ 2 ^ f.frac ≤ scale m (e - (f.binade m e - f.frac)) := by
  rcases max_choice (lead m e) f.emin with h | h
  · right
    have h1 := zpow_lead_le m e hm
    have h2 : (2 : ℚ) ^ lead m e = (2 ^ f.frac : Nat) * 2 ^ (f.binade m e - f.frac) := by
      push_cast
      rw [← zpow_natCast, ← zpow_add₀ two_ne_zero, add_sub_cancel, Fmt.binade, h]
    rw [h2, ← mag_sub_mul m e (f.binade m e - f.frac)] at h1
    have h3 := (le_of_mul_le_mul_right h1 (by positivity)).trans_lt (mag_lt_scale_add_one m _)
    have h4 : 2 ^ f.frac < scale m (e - (f.binade m e - f.frac)) + 1 := by exact_mod_cast h3
    omega
  · exact .inl h

/-- A magnitude inside the range lies in a binade of the format. -/
theorem binade_le_bias {m : Nat} {e : Int} (hm : m ≠ 0) (h : mag m e ≤ f.top) : f.binade m e ≤ f.bias := by
  have hb := Fmt.bias_pos hf
  have htop : f.top < 2 ^ ((f.bias : Int) + 1) := by
    rw [top_of_ieee hf]
    have hlt : 2 * 2 ^ f.frac - 1 < 2 ^ (f.frac + 1) := by
      have : 0 < 2 ^ f.frac := by positivity
      rw [pow_succ]
      omega
    refine (mag_lt_zpow _ hlt).trans_le (zpow_le_zpow_right₀ one_le_two ?_)
    push_cast
    omega
  have hlead : lead m e < (f.bias : Int) + 1 :=
    (zpow_lt_zpow_iff_right₀ one_lt_two).1 (((zpow_lead_le m e hm).trans h).trans_lt htop)
  have hemin : f.emin ≤ f.bias := by rw [Fmt.emin]; omega
  exact max_le (by omega) hemin

/-- The code of a magnitude inside the range lies below that of the infinity. -/
theorem binade_code_lt {m : Nat} {e : Int} (rtz : Bool) (hm : m ≠ 0) (h : mag m e ≤ f.top) :
    (f.binade m e - f.emin).toNat * 2 ^ f.frac + (roundQ m e (f.binade m e - f.frac) rtz).1 < (2 ^ f.expBits - 1) * 2 ^ f.frac := by
  have hle := binade_le_bias hf hm h
  have hpos : 0 < 2 ^ f.frac := by positivity
  have hexp := Fmt.two_pow_expBits hf
  have hbias := Fmt.bias_pos hf
  have hemin : f.emin = 1 - f.bias := rfl
  rcases hle.lt_or_eq with hlt | heq
  · have hy := roundQ_le rtz (mag_lt_in_binade (f := f) m e).le
    have h1 : (f.binade m e - f.emin).toNat + 2 < 2 ^ f.expBits - 1 := by omega
    calc _ ≤ ((f.binade m e - f.emin).toNat + 2) * 2 ^ f.frac := by rw [add_mul]; omega
      _ < _ := Nat.mul_lt_mul_of_pos_right h1 hpos
  · refine lt_of_le_of_lt ?_ (maxCode_lt hf)
    have hy : (roundQ m e (f.binade m e - f.frac) rtz).1 ≤ 2 * 2 ^ f.frac - 1 := by
      refine roundQ_le rtz (le_of_mul_le_mul_right (a := 2 ^ (f.binade m e - f.frac)) ?_ (by positivity))
      rw [mag_sub_mul, heq]
      exact h.trans_eq (top_of_ieee hf)
    rw [maxCode_eq_binade hf]
    have h1 : (f.binade m e - f.emin).toNat = 2 * f.bias - 1 := by omega
    rw [h1]
    omega

/-- A magnitude inside the range is rounded to the code that its significand and its binade spell (02 R59). -/
theorem roundTo_ieee_converts (s : Bool) {m : Nat} {e : Int} (rtz wid : Bool) (hm : m ≠ 0) (h : mag m e ≤ f.top) :
    f.Converts rtz (Exact.fin s m e).value (roundTo (.fin s m e) f rtz wid) := by
  have hin : magLt (2 * 2 ^ f.frac - 1) ((f.bias : Int) - f.frac) m e = false := by
    rw [Bool.eq_false_iff, ne_eq, magLt_iff, ← top_of_ieee hf]
    exact not_lt.2 h
  rw [roundTo_of_ieee hf s e rtz wid hm]
  dsimp only
  rw [hin, if_neg Bool.false_ne_true, ← Fmt.binade]
  have hlt := binade_code_lt hf rtz hm h
  have hk := le_scale_in_binade (f := f) e hm
  have hy := roundQ_le rtz (mag_lt_in_binade (f := f) m e).le
  have hky := scale_le_roundQ m e (f.binade m e - f.frac) rtz
  obtain ⟨hpick, hexact⟩ := roundQ_picks m e (f.binade m e - f.frac) rtz
  have hsum : f.emin + (f.binade m e - f.emin).toNat = f.binade m e := by
    have : f.emin ≤ f.binade m e := le_max_right _ _
    omega
  have ha : (f.binade m e - f.emin).toNat = 0 ∨ 2 ^ f.frac ≤ (roundQ m e (f.binade m e - f.frac) rtz).1 := by omega
  obtain ⟨hfin, -, hval⟩ := value_of_sign hf s hlt
  rw [ieeeMag_of_binade hy ha, hsum] at hval
  have hpow : 2 ^ f.frac % 2 = 0 := Nat.mod_eq_zero_of_dvd (dvd_pow_self 2 (Fmt.frac_pos hf).ne')
  have heven (y : Nat) (h0 : y % 2 = 0) :
      (b2n s * (2 ^ f.expBits * 2 ^ f.frac) + ((f.binade m e - f.emin).toNat * 2 ^ f.frac + y)) % 2 = 0 := by
    simp [Nat.add_mod, Nat.mul_mod, hpow, h0]
  generalize roundQ m e (f.binade m e - f.frac) rtz = y at *
  have hu : (0 : ℚ) < 2 ^ (f.binade m e - f.frac) := by positivity
  refine ⟨rfl, ?_, ?_⟩
  · rw [Fmt.value, hval, Exact.value_fin, ne_eq, signFactor_mul_inj, ← mag_sub_mul m e (f.binade m e - f.frac), mag,
      mul_left_inj' hu.ne', ← hexact]
    simp
  · rw [Exact.value_fin]
    have hp := (hpick.imp (heven y.1)).mul hu
    have hlo := mul_le_mul_of_nonneg_right (scale_le_mag m (e - (f.binade m e - f.frac))) hu.le
    have hhi := mul_lt_mul_of_pos_right (mag_lt_scale_add_one m (e - (f.binade m e - f.frac))) hu
    have hgap := gap_of_binade hf (b := f.binade m e) (le_max_right _ _) hk
    rw [mag, mag, Nat.cast_succ] at hgap
    rw [mag_sub_mul] at hp hlo hhi
    exact Fmt.rounds_of_picks hfin hval (by positivity) (mag_pos e hm) hlo hhi hgap hp

theorem roundTo_ieee_saturates (s : Bool) {m : Nat} {e : Int} (rtz wid : Bool) (hm : m ≠ 0) (h : f.top < mag m e) :
    f.Saturates (signFactor s * f.top) (roundTo (.fin s m e) f rtz wid) := by
  have hin : magLt (2 * 2 ^ f.frac - 1) ((f.bias : Int) - f.frac) m e = true := by rwa [magLt_iff, ← top_of_ieee hf]
  rw [roundTo_of_ieee hf s e rtz wid hm]
  dsimp only
  rw [hin, if_pos rfl]
  exact ⟨rfl, rfl, value_of_sign_maxCode hf s⟩

end

end Sys2Proof.Machine
end

section
/-! PROOFS. The T formats (02 R45 to R47): the order of their codes, and the rounding to them (02 R59). -/

namespace Sys2Proof.Machine

/-! ### What a code denotes -/

/-- A T format, with its magnitude bits and its exponent bits (02 R45). -/
inductive Fmt.IsT : Fmt → Nat → Nat → Prop
  | t8 {es : Nat} (h : es ≤ 2) : Fmt.IsT (.t8 es) 7 es
  | t6 {es : Nat} (h : es ≤ 1) : Fmt.IsT (.t6 es) 5 es

/-- The sign bit of a code says only which of two opposite numbers it denotes, and distinguishes the NaN from zero (02 R47). -/
theorem tDecode_eq (code w es : Nat) : tDecode code w es =
    if code % 2 ^ w = 0 then (if code.testBit w then .nan else zero)
    else if code.testBit w then (tDecode (code % 2 ^ w) w es).neg else tDecode (code % 2 ^ w) w es := by
  have hlow : (code % 2 ^ w).testBit w = false := by rw [Nat.testBit_mod_two_pow]; simp
  unfold tDecode
  simp only [pow2_eq, Nat.mod_mod, hlow]
  generalize code.testBit w = s
  cases s <;> simp only [Bool.false_eq_true, if_false, if_true] <;> split_ifs <;> rfl

/-- A code without its sign bit denotes a number that is not negative. -/
theorem tDecode_of_lt {code w : Nat} (es : Nat) (h : code < 2 ^ w) : ∃ m e, tDecode code w es = .fin false m e := by
  have hlow : code.testBit w = false := Nat.testBit_lt_two_pow h
  unfold tDecode
  simp only [hlow, Bool.false_eq_true, if_false]
  split_ifs <;> exact ⟨_, _, rfl⟩

/-- The choice between two whole numbers by their distances from a third. -/
theorem Picks.of_nat_lower {l x u : Nat} {even : Prop} (hlx : l ≤ x) (hxu : x < u) (h : x - l ≤ u - x) (he : x - l = u - x → even) :
    Picks false l x u l even := by
  have h1 : ((x - l : Nat) : ℚ) = x - l := Nat.cast_sub hlx
  have h2 : ((u - x : Nat) : ℚ) = u - x := Nat.cast_sub hxu.le
  refine ⟨.inl ⟨rfl, ?_⟩, fun ht => he ?_⟩
  · rw [← h1, ← h2]
    exact_mod_cast h
  · rw [← h1, ← h2] at ht
    exact_mod_cast ht

theorem Picks.of_nat_upper {l x u : Nat} {even : Prop} (hlx : l ≤ x) (hxu : x < u) (h : u - x ≤ x - l) (he : x - l = u - x → even) :
    Picks false l x u u even := by
  have h1 : ((x - l : Nat) : ℚ) = x - l := Nat.cast_sub hlx
  have h2 : ((u - x : Nat) : ℚ) = u - x := Nat.cast_sub hxu.le
  refine ⟨.inr ⟨rfl, ?_⟩, fun ht => he ?_⟩
  · rw [← h1, ← h2]
    exact_mod_cast h
  · rw [← h1, ← h2] at ht
    exact_mod_cast ht

section
variable {f : Fmt} {w es : Nat} (hT : f.IsT w es)
include hT

theorem decodeNum_of_isT (code : Nat) : decodeNum f code = tDecode code w es := by cases hT <;> rfl

theorem maxCode_of_isT : f.maxCode + 2 = 2 ^ w := by cases hT <;> rfl

theorem signBit_of_isT : f.signBit = 2 ^ w := by cases hT <;> rfl

theorem maxCode_pos_of_isT : 0 < f.maxCode := by cases hT <;> exact Nat.succ_pos _

theorem width_pos_of_isT : 0 < w := by cases hT <;> decide

theorem value_zero_of_isT : f.value 0 = 0 := by
  rw [Fmt.value, decodeNum_of_isT hT, tDecode_eq, Nat.zero_mod, if_pos rfl, Nat.zero_testBit, if_neg Bool.false_ne_true]
  simp [zero, Exact.value]

/-- A code without its sign bit as a magnitude. -/
theorem decodeNum_of_lt {c : Nat} (h : c < 2 ^ w) : ∃ m e, decodeNum f c = .fin false m e ∧ f.value c = mag m e := by
  obtain ⟨m, e, he⟩ := tDecode_of_lt es h
  rw [← decodeNum_of_isT hT] at he
  refine ⟨m, e, he, ?_⟩
  rw [Fmt.value, he, Exact.value_fin, signFactor, if_neg Bool.false_ne_true, one_mul]

theorem value_nonneg_of_lt {c : Nat} (h : c < 2 ^ w) : 0 ≤ f.value c := by
  obtain ⟨m, e, -, hv⟩ := decodeNum_of_lt hT h
  exact hv ▸ mag_nonneg m e

/-- A code with its sign bit set denotes the opposite number (02 R47). -/
theorem decodeNum_signBit_add {c : Nat} (h0 : 0 < c) (h : c < 2 ^ w) : decodeNum f (2 ^ w + c) = (decodeNum f c).neg := by
  have hmod : (2 ^ w + c) % 2 ^ w = c := by rw [Nat.add_mod_left, Nat.mod_eq_of_lt h]
  have hbit : (2 ^ w + c).testBit w = true := by rw [Nat.testBit_two_pow_add_eq, Nat.testBit_lt_two_pow h]; rfl
  rw [decodeNum_of_isT hT, decodeNum_of_isT hT, tDecode_eq, hmod, if_neg (by omega), hbit, if_pos rfl]

theorem decodeNum_signBit : decodeNum f (2 ^ w) = .nan := by
  rw [decodeNum_of_isT hT, tDecode_eq, Nat.mod_self, if_pos rfl, Nat.testBit_two_pow_self, if_pos rfl]

/-- The magnitude that a code denotes is that of its bits below the sign. -/
theorem abs_value_of_isT {d : Nat} (hd : (decodeNum f d).isFin = true) : |f.value d| = f.value (d % 2 ^ w) := by
  have hlt : d % 2 ^ w < 2 ^ w := Nat.mod_lt _ (by positivity)
  have hnn := value_nonneg_of_lt hT hlt
  have h0 := value_zero_of_isT hT
  rw [Fmt.value] at hnn h0 ⊢
  rw [decodeNum_of_isT hT] at hd h0 ⊢
  rw [decodeNum_of_isT hT] at hnn
  rw [tDecode_eq] at hd ⊢
  split_ifs at hd ⊢ with hz hs hs
  · cases hd
  · rw [hz, Fmt.value, decodeNum_of_isT hT, h0]
    simp [zero, Exact.value]
  · rw [Exact.value_neg, abs_neg, abs_of_nonneg hnn, Fmt.value, decodeNum_of_isT hT]
  · rw [abs_of_nonneg hnn, Fmt.value, decodeNum_of_isT hT]

/-! ### The order of the codes -/

omit hT in
/-- Whether the magnitudes of two codes rise. -/
def Fmt.codeLt (f : Fmt) (c d : Nat) : Bool :=
  match decodeNum f c, decodeNum f d with
  | .fin _ m e, .fin _ n g => magLt m e n g
  | _, _ => false

theorem value_lt_succ {c : Nat} (h : c < f.maxCode) : f.value c < f.value (c + 1) := by
  have hw := maxCode_of_isT hT
  have hlt : f.codeLt c (c + 1) = true := by
    cases hT with
    | t8 h8 => interval_cases es <;> (revert h; revert c; decide)
    | t6 h6 => interval_cases es <;> (revert h; revert c; decide)
  obtain ⟨m, e, he, hv⟩ := decodeNum_of_lt hT (c := c) (by omega)
  obtain ⟨n, g, hg, hu⟩ := decodeNum_of_lt hT (c := c + 1) (by omega)
  rw [Fmt.codeLt, he, hg] at hlt
  rw [hv, hu]
  exact (magLt_iff m n e g).1 hlt

/-- The last code below the sign bit denotes the greatest number too (02 R46). -/
theorem value_last : f.value (f.maxCode + 1) = f.top := by
  have h : decodeNum f (f.maxCode + 1) = decodeNum f f.maxCode := by
    cases hT with
    | t8 h8 => interval_cases es <;> decide
    | t6 h6 => interval_cases es <;> decide
  rw [Fmt.value, h]
  rfl

theorem value_mono {c d : Nat} (hcd : c ≤ d) (hd : d < 2 ^ w) : f.value c ≤ f.value d := by
  have hw := maxCode_of_isT hT
  induction d, hcd using Nat.le_induction with
  | base => exact le_rfl
  | succ d hcd ih =>
    refine (ih (by omega)).trans ?_
    rcases Nat.lt_or_ge d f.maxCode with h | h
    · exact (value_lt_succ hT h).le
    · obtain rfl : d = f.maxCode := by omega
      exact (value_last hT).ge

/-- Between the numbers of two neighbouring codes lies none of the format. -/
theorem gap_of_code {c : Nat} (hc : c < f.maxCode) : f.Gap (f.value c) (f.value (c + 1)) := by
  have hw := maxCode_of_isT hT
  intro d hd
  have hlt : d % 2 ^ w < 2 ^ w := Nat.mod_lt _ (by positivity)
  rw [abs_value_of_isT hT hd]
  rcases Nat.lt_or_ge c (d % 2 ^ w) with h | h
  · exact .inr (value_mono hT h hlt)
  · exact .inl (value_mono hT h (by omega))

/-- Beyond the greatest number lies none. -/
theorem gap_of_top (hi : ℚ) : f.Gap f.top hi := by
  have hw := maxCode_of_isT hT
  intro d hd
  have hlt : d % 2 ^ w < 2 ^ w := Nat.mod_lt _ (by positivity)
  rw [abs_value_of_isT hT hd, ← value_last hT]
  exact .inl (value_mono hT (by omega) (by omega))

/-! ### Rounding -/

/-- `tFloor` finds the greatest code up to `n` whose number is not above a magnitude. -/
theorem tFloor_spec (m : Nat) (e : Int) {n : Nat} (hn : n < 2 ^ w) :
    tFloor f m e n ≤ n ∧ f.value (tFloor f m e n) ≤ mag m e ∧ ∀ d, tFloor f m e n < d → d ≤ n → mag m e < f.value d := by
  induction n with
  | zero => exact ⟨le_rfl, (value_zero_of_isT hT).trans_le (mag_nonneg m e), fun d h1 h2 => by simp [tFloor] at h1; omega⟩
  | succ n ih =>
    obtain ⟨k, g, hk, hv⟩ := decodeNum_of_lt hT hn
    obtain ⟨hle, hval, habove⟩ := ih (by omega)
    rw [tFloor, hk]
    dsimp only
    split_ifs with h
    · rw [magLt_iff, ← hv] at h
      refine ⟨by omega, hval, fun d h1 h2 => ?_⟩
      rcases h2.lt_or_eq with h2 | rfl
      · exact habove d h1 (by omega)
      · exact h
    · rw [magLt_iff, ← hv, not_lt] at h
      exact ⟨le_rfl, h, fun d h1 h2 => by omega⟩


/-- `tRound` chooses between the two neighbouring codes around a magnitude (02 R59), and says whether it met the number itself. -/
theorem tRound_picks {m : Nat} {e : Int} (h : mag m e ≤ f.top) : ∃ hi,
    let r := tRound f m e
    let lo := f.value (tFloor f m e f.maxCode)
    lo ≤ mag m e ∧ mag m e < hi ∧ f.Gap lo hi ∧ Picks false lo (mag m e) hi (f.value r.1) (r.1 % 2 = 0) ∧ r.1 ≤ f.maxCode ∧
      (r.2 = true ↔ f.value r.1 = mag m e) := by
  have hw := maxCode_of_isT hT
  obtain ⟨hle, hlo, habove⟩ := tFloor_spec hT m e (n := f.maxCode) (by omega)
  dsimp only
  unfold tRound
  generalize tFloor f m e f.maxCode = c at *
  obtain ⟨a, g, ha, hva⟩ := decodeNum_of_lt hT (c := c) (by omega)
  obtain ⟨b, k, hb, hvb⟩ := decodeNum_of_lt hT (c := c + 1) (by omega)
  simp only [ha, hb]
  generalize hq : min e (min g k) = q
  have hx := scale_sub_mul (m := m) (e := e) (q := q) (by omega)
  have hl := scale_sub_mul (m := a) (e := g) (q := q) (by omega)
  have hu := scale_sub_mul (m := b) (e := k) (q := q) (by omega)
  have hpos : (0 : ℚ) < 2 ^ q := by positivity
  generalize scale m (e - q) = x at *
  generalize scale a (g - q) = l at *
  generalize scale b (k - q) = u at *
  rw [← hva] at hl
  rw [← hvb] at hu
  rcases hle.lt_or_eq with hlt | rfl
  · have hhi := habove (c + 1) (by omega) (by omega)
    have hlx : l ≤ x := by rw [← hl, ← hx, mul_le_mul_iff_left₀ hpos] at hlo; exact_mod_cast hlo
    have hxu : x < u := by rw [← hu, ← hx, mul_lt_mul_iff_left₀ hpos] at hhi; exact_mod_cast hhi
    refine ⟨f.value (c + 1), hlo, hhi, gap_of_code hT hlt, ?_⟩
    have hlower (he : x - l ≤ u - x) (hp : x - l = u - x → c % 2 = 0) :
        Picks false (f.value c) (mag m e) (f.value (c + 1)) (f.value c) (c % 2 = 0) := by
      rw [← hl, ← hx, ← hu]
      exact (Picks.of_nat_lower hlx hxu he hp).mul hpos
    have hupper (he : u - x ≤ x - l) (hp : x - l = u - x → (c + 1) % 2 = 0) :
        Picks false (f.value c) (mag m e) (f.value (c + 1)) (f.value (c + 1)) ((c + 1) % 2 = 0) := by
      rw [← hl, ← hx, ← hu]
      exact (Picks.of_nat_upper hlx hxu he hp).mul hpos
    have hne (hn : x ≠ l) : f.value c ≠ mag m e := fun he => hn (by
      rw [← hl, ← hx, mul_left_inj' hpos.ne'] at he
      exact_mod_cast he.symm)
    split_ifs with h1 h2 h3
    · subst h1
      exact ⟨hlower (by omega) (by omega), hle, by simp [← hl, ← hx]⟩
    · exact ⟨hlower (by omega) (by omega), hle, by simp [hne h1]⟩
    · exact ⟨hupper (by omega) (by omega), hlt, by simp [hhi.ne']⟩
    · rcases Nat.mod_two_eq_zero_or_one c with hc | hc
      · rw [hc, add_zero]
        exact ⟨hlower (by omega) (fun _ => hc), hle, by simp [hne h1]⟩
      · rw [hc]
        exact ⟨hupper (by omega) (by omega), hlt, by simp [hhi.ne']⟩
  · have htop : f.value f.maxCode = mag m e := le_antisymm hlo h
    obtain rfl : x = l := by
      rw [← hl, ← hx, mul_left_inj' hpos.ne'] at htop
      exact_mod_cast htop.symm
    rw [if_pos rfl]
    refine ⟨mag m e + 1, hlo, lt_add_one _, gap_of_top hT _, .lower fun _ => ?_, le_rfl, by simp [htop]⟩
    rw [htop]
    norm_num

theorem roundTo_of_isT (s : Bool) {m : Nat} (e : Int) (rtz wid : Bool) (hm : m ≠ 0) :
    (f.top < mag m e → roundTo (.fin s m e) f rtz wid = (b2n s * 2 ^ w + f.maxCode, { sat := true, ix := true })) ∧
    (mag m e ≤ f.top → roundTo (.fin s m e) f rtz wid =
      (if (tRound f m e).1 = 0 then 0 else b2n s * 2 ^ w + (tRound f m e).1, { ix := !(tRound f m e).2 })) := by
  have hw := maxCode_of_isT hT
  obtain ⟨n, g, hmax, hv⟩ := decodeNum_of_lt hT (c := f.maxCode) (by omega)
  have hsb : (if s then f.signBit else 0) = b2n s * 2 ^ w := by
    rw [signBit_of_isT hT]
    cases s <;> simp [b2n]
  have hmax' : f.maxFinite = .fin false n g := hmax
  have hlt : (f.top < mag m e) ↔ magLt n g m e = true := by rw [magLt_iff, ← hv]; rfl
  rw [← not_lt, hlt, ← hsb]
  cases hT <;> simp +contextual [roundTo, if_neg hm, hmax', Fmt.ieee]

theorem value_of_isT_sign (s : Bool) {c : Nat} (hc : c ≤ f.maxCode) (h0 : 0 < c) :
    (decodeNum f (b2n s * 2 ^ w + c)).isFin = true ∧ f.value (b2n s * 2 ^ w + c) = signFactor s * f.value c := by
  have hw := maxCode_of_isT hT
  obtain ⟨n, g, he, -⟩ := decodeNum_of_lt hT (c := c) (by omega)
  cases s with
  | false => simp [b2n, he, Exact.isFin, signFactor]
  | true =>
    have hneg := decodeNum_signBit_add hT h0 (by omega)
    rw [b2n, if_pos rfl, one_mul, Fmt.value, hneg, Exact.value_neg]
    refine ⟨by rw [he]; rfl, ?_⟩
    rw [signFactor, if_pos rfl, neg_one_mul]
    rfl

/-- A magnitude inside the range of a T format goes to the nearest of its numbers, whatever the mode (02 R59). -/
theorem roundTo_isT_converts (s : Bool) {m : Nat} {e : Int} (rtz wid : Bool) (hm : m ≠ 0) (h : mag m e ≤ f.top) :
    f.Converts false (Exact.fin s m e).value (roundTo (.fin s m e) f rtz wid) := by
  have hw := maxCode_of_isT hT
  rw [(roundTo_of_isT hT s e rtz wid hm).2 h]
  obtain ⟨hi, hlo, hhi, hgap, hpick, hle, hexact⟩ := tRound_picks hT h
  have hfloor := (tFloor_spec hT m e (n := f.maxCode) (by omega)).1
  have hnn : 0 ≤ f.value (tFloor f m e f.maxCode) := value_nonneg_of_lt hT (by omega)
  generalize tFloor f m e f.maxCode = lo at *
  generalize tRound f m e = r at *
  have hpow : 2 ^ w % 2 = 0 := Nat.mod_eq_zero_of_dvd (dvd_pow_self 2 (width_pos_of_isT hT).ne')
  obtain ⟨hfin, hval⟩ : (decodeNum f (if r.1 = 0 then 0 else b2n s * 2 ^ w + r.1)).isFin = true ∧
      f.value (if r.1 = 0 then 0 else b2n s * 2 ^ w + r.1) = signFactor s * f.value r.1 := by
    split_ifs with h0
    · obtain ⟨n, g, he, -⟩ := decodeNum_of_lt hT (c := 0) (by positivity)
      rw [h0, value_zero_of_isT hT, mul_zero, he]
      exact ⟨rfl, rfl⟩
    · exact value_of_isT_sign hT s hle (Nat.pos_of_ne_zero h0)
  have heven : r.1 % 2 = 0 → (if r.1 = 0 then 0 else b2n s * 2 ^ w + r.1) % 2 = 0 := by
    intro h0
    split_ifs
    · rfl
    · simp [Nat.add_mod, Nat.mul_mod, hpow, h0]
  refine ⟨rfl, ?_, ?_⟩
  · rw [hval, Exact.value_fin, ne_eq, signFactor_mul_inj, ← hexact]
    simp
  · rw [Exact.value_fin]
    exact Fmt.rounds_of_picks hfin hval hnn (mag_pos e hm) hlo hhi hgap (hpick.imp heven)

theorem roundTo_isT_saturates (s : Bool) {m : Nat} {e : Int} (rtz wid : Bool) (hm : m ≠ 0) (h : f.top < mag m e) :
    f.Saturates (signFactor s * f.top) (roundTo (.fin s m e) f rtz wid) := by
  rw [(roundTo_of_isT hT s e rtz wid hm).1 h]
  exact ⟨rfl, rfl, (value_of_isT_sign hT s le_rfl (maxCode_pos_of_isT hT)).2⟩

end

end Sys2Proof.Machine
end

section
/-! PROOFS. The integer formats (02 R42), and the conversion of a number to any format (02 R59). -/

namespace Sys2Proof.Machine

/-! ### Integers -/

/-- The number that a code of an integer format denotes (02 R42). -/
def intOf (n : Nat) (sg : Bool) (code : Nat) : Int := if sg then sint n code else ((code % 2 ^ n : Nat) : Int)

theorem value_int (n : Nat) (sg : Bool) (code : Nat) :
    (decodeNum (.int n sg) code).isFin = true ∧ (Fmt.int n sg).value code = intOf n sg code := by
  have h : decodeNum (.int n sg) code = .fin (decide (intOf n sg code < 0)) (intOf n sg code).natAbs 0 := by
    rw [decodeNum, intOf, pow2_eq]
  refine ⟨by rw [h]; rfl, ?_⟩
  rw [Fmt.value, h, Exact.value_fin, mag, zpow_zero, mul_one, signFactor]
  rcases lt_or_ge (intOf n sg code) 0 with hneg | hpos
  · rw [decide_eq_true hneg, if_pos rfl, Nat.cast_natAbs, abs_of_neg hneg]
    push_cast
    ring
  · rw [decide_eq_false (not_lt.2 hpos), if_neg Bool.false_ne_true, Nat.cast_natAbs, abs_of_nonneg hpos, one_mul]

section
variable {n : Nat} (hn : 0 < n) (sg : Bool)
include hn

/-- The bits of an integer in range, as a number. -/
theorem ofInt_eq {y : Int} (hlo : minInt n sg ≤ y) (hhi : y ≤ maxInt n sg) :
    ofInt n y < 2 ^ n ∧ (ofInt n y : Int) = if 0 ≤ y then y else y + (2 ^ n : Nat) := by
  obtain ⟨k, rfl⟩ : ∃ k, n = k + 1 := ⟨n - 1, by omega⟩
  have hpos : 0 < 2 ^ k := by positivity
  have hpow : 2 ^ (k + 1) = 2 * 2 ^ k := pow_succ' 2 k
  have hrange : -((2 ^ (k + 1) : Nat) : Int) ≤ y ∧ y < (2 ^ (k + 1) : Nat) := by
    simp only [minInt, maxInt, pow2_eq, Nat.add_sub_cancel] at hlo hhi
    rw [hpow] at *
    generalize 2 ^ k = p at *
    cases sg <;> simp only [Bool.false_eq_true, if_false, if_true] at hlo hhi <;> push_cast at * <;> omega
  have hmod : y % ((2 ^ (k + 1) : Nat) : Int) = if 0 ≤ y then y else y + (2 ^ (k + 1) : Nat) := by
    split_ifs with h0
    · exact Int.emod_eq_of_lt h0 hrange.2
    · rw [← Int.add_emod_right]
      exact Int.emod_eq_of_lt (by omega) (by omega)
  rw [ofInt, hmod]
  split_ifs <;> omega

/-- An integer in range is what its code denotes. -/
theorem intOf_ofInt {y : Int} (hlo : minInt n sg ≤ y) (hhi : y ≤ maxInt n sg) : intOf n sg (ofInt n y) = y := by
  obtain ⟨hlt, heq⟩ := ofInt_eq hn sg hlo hhi
  obtain ⟨k, rfl⟩ : ∃ k, n = k + 1 := ⟨n - 1, by omega⟩
  have hpow : 2 ^ (k + 1) = 2 * 2 ^ k := pow_succ' 2 k
  simp only [minInt, maxInt, pow2_eq, Nat.add_sub_cancel] at hlo hhi
  rw [intOf, sint, Nat.mod_eq_of_lt hlt]
  simp only [hpow] at hlt heq hhi ⊢
  generalize ofInt (k + 1) y = c at *
  generalize 2 ^ k = p at *
  cases sg <;> simp only [Bool.false_eq_true, if_false, if_true] at hlo hhi ⊢ <;> push_cast at * <;> split_ifs at * <;> omega

omit hn in
theorem minInt_le_maxInt : minInt n sg ≤ 0 ∧ 0 ≤ maxInt n sg := by
  have h1 : 0 < 2 ^ (n - 1) := by positivity
  have h2 : 0 < 2 ^ n := by positivity
  simp only [minInt, maxInt, pow2_eq]
  cases sg <;> simp only [Bool.false_eq_true, if_false, if_true] <;> omega

omit hn in
theorem maxCode_int : ((Fmt.int n sg).maxCode : Int) = maxInt n sg := by
  have h1 : 0 < 2 ^ (n - 1) := by positivity
  have h2 : 0 < 2 ^ n := by positivity
  simp only [Fmt.maxCode, maxInt, pow2_eq]
  cases sg <;> simp only [Bool.false_eq_true, if_false, if_true] <;> omega

theorem top_int : (Fmt.int n sg).top = maxInt n sg := by
  obtain ⟨h0, h1⟩ := minInt_le_maxInt (n := n) sg
  have hcode : ofInt n (maxInt n sg) = (Fmt.int n sg).maxCode := by
    have := (ofInt_eq hn sg (h0.trans h1) le_rfl).2
    rw [if_pos h1, ← maxCode_int sg] at this
    rw [← maxCode_int sg]
    exact_mod_cast this
  rw [Fmt.top, Fmt.maxFinite, ← hcode]
  exact (value_int n sg _).2.trans (by rw [intOf_ofInt hn sg (h0.trans h1) le_rfl])

theorem ofInt_even {y : Int} (h : y % 2 = 0) : ofInt n y % 2 = 0 := by
  obtain ⟨k, rfl⟩ : ∃ k, n = k + 1 := ⟨n - 1, by omega⟩
  have hdvd : ((2 : Int)) ∣ ((2 ^ (k + 1) : Nat) : Int) := ⟨(2 ^ k : Nat), by push_cast; ring⟩
  have h1 : y % ((2 ^ (k + 1) : Nat) : Int) % 2 = 0 := by rw [Int.emod_emod_of_dvd _ hdvd, h]
  have h2 : 0 ≤ y % ((2 ^ (k + 1) : Nat) : Int) := Int.emod_nonneg _ (by positivity)
  rw [ofInt]
  omega

omit hn in
/-- Between two neighbouring whole numbers lies none. -/
theorem gap_int (k : Nat) : (Fmt.int n sg).Gap k (k + 1) := by
  intro d _
  rw [(value_int n sg d).2, ← Int.cast_abs]
  rcases le_or_gt |intOf n sg d| k with h | h
  · exact .inl (by exact_mod_cast h)
  · exact .inr (by exact_mod_cast h)

/-! ### Rounding to an integer -/

omit hn in
theorem roundTo_int (s : Bool) (m : Nat) (e : Int) (rtz wid : Bool) :
    let q := roundQ m e 0 rtz
    let y : Int := if s then -(q.1 : Int) else q.1
    roundTo (.fin s m e) (.int n sg) rtz wid =
      if y > maxInt n sg then (ofInt n (maxInt n sg), { sat := true, ix := true })
      else if y < minInt n sg then (ofInt n (minInt n sg), { sat := true, ix := true })
      else (ofInt n y, { ix := !q.2 }) := rfl

omit hn in
/-- The rounded integer with its sign. -/
theorem signFactor_mul_nat (s : Bool) (q : Nat) : signFactor s * q = ((if s then -(q : Int) else q : Int) : ℚ) := by
  cases s <;> simp [signFactor]

theorem roundTo_int_converts (s : Bool) {m : Nat} {e : Int} (rtz wid : Bool) (hm : m ≠ 0)
    (hlo : (minInt n sg : ℚ) ≤ (Exact.fin s m e).value) (hhi : (Exact.fin s m e).value ≤ maxInt n sg) :
    (Fmt.int n sg).Converts rtz (Exact.fin s m e).value (roundTo (.fin s m e) (.int n sg) rtz wid) := by
  obtain ⟨h0, h1⟩ := minInt_le_maxInt (n := n) sg
  obtain ⟨hpick, hexact⟩ := roundQ_picks m e 0 rtz
  have hpos := mag_pos e hm
  have hin : minInt n sg ≤ (if s then -((roundQ m e 0 rtz).1 : Int) else (roundQ m e 0 rtz).1) ∧
      (if s then -((roundQ m e 0 rtz).1 : Int) else (roundQ m e 0 rtz).1) ≤ maxInt n sg := by
    rw [Exact.value_fin] at hlo hhi
    cases s with
    | false =>
      have hq : (roundQ m e 0 rtz).1 ≤ (maxInt n sg).toNat := by
        refine roundQ_le rtz ?_
        rw [sub_zero, ← Int.cast_natCast, Int.toNat_of_nonneg h1]
        simpa [signFactor] using hhi
      simp only [Bool.false_eq_true, if_false]
      omega
    | true =>
      have hq : (roundQ m e 0 rtz).1 ≤ (-minInt n sg).toNat := by
        refine roundQ_le rtz ?_
        rw [sub_zero, ← Int.cast_natCast, Int.toNat_of_nonneg (by omega), Int.cast_neg]
        simp only [signFactor, if_true] at hlo
        linarith
      simp only [if_true]
      omega
  rw [roundTo_int sg]
  rw [if_neg (by omega), if_neg (by omega)]
  generalize roundQ m e 0 rtz = q at *
  have hval := (value_int n sg (ofInt n (if s then -(q.1 : Int) else q.1))).2
  rw [intOf_ofInt hn sg hin.1 hin.2, ← signFactor_mul_nat] at hval
  rw [sub_zero] at *
  have heven : q.1 % 2 = 0 → ofInt n (if s then -(q.1 : Int) else q.1) % 2 = 0 := fun h => ofInt_even hn (by split <;> omega)
  refine ⟨rfl, ?_, ?_⟩
  · rw [hval, Exact.value_fin, ne_eq, signFactor_mul_inj, ← hexact]
    simp
  · rw [Exact.value_fin]
    have hlo' := scale_le_mag m e
    have hhi' := mag_lt_scale_add_one m e
    exact Fmt.rounds_of_picks (value_int n sg _).1 hval (Nat.cast_nonneg _) hpos hlo' hhi' (gap_int sg _) (hpick.imp heven)

omit hn in
/-- A magnitude of at least a whole number is not rounded below it. -/
theorem le_roundQ {m : Nat} {e : Int} (rtz : Bool) {y : Int} (h : (y : ℚ) ≤ mag m e) : y ≤ (roundQ m e 0 rtz).1 := by
  have h1 := h.trans_lt (mag_lt_scale_add_one m e)
  have h2 : y < (scale m e : Int) + 1 := by exact_mod_cast h1
  have h3 := scale_le_roundQ m e 0 rtz
  rw [sub_zero] at h3
  omega

theorem roundTo_int_above (s : Bool) {m : Nat} {e : Int} (rtz wid : Bool) (h : (maxInt n sg : ℚ) + 1 ≤ (Exact.fin s m e).value) :
    (Fmt.int n sg).Saturates (maxInt n sg) (roundTo (.fin s m e) (.int n sg) rtz wid) := by
  obtain ⟨h0, h1⟩ := minInt_le_maxInt (n := n) sg
  have h1' : (0 : ℚ) ≤ maxInt n sg := by exact_mod_cast h1
  have hX := mag_nonneg m e
  rw [Exact.value_fin] at h
  cases s with
  | true => exact absurd h (by simp only [signFactor, if_true]; linarith)
  | false =>
    have hq := le_roundQ rtz (m := m) (e := e) (y := maxInt n sg + 1) (by push_cast; simpa [signFactor] using h)
    rw [roundTo_int sg]
    simp only [Bool.false_eq_true, if_false]
    rw [if_pos (by omega)]
    exact ⟨rfl, rfl, (value_int n sg _).2.trans (by rw [intOf_ofInt hn sg (h0.trans h1) le_rfl])⟩

theorem roundTo_int_below (s : Bool) {m : Nat} {e : Int} (rtz wid : Bool) (h : (Exact.fin s m e).value ≤ (minInt n sg : ℚ) - 1) :
    (Fmt.int n sg).Saturates (minInt n sg) (roundTo (.fin s m e) (.int n sg) rtz wid) := by
  obtain ⟨h0, h1⟩ := minInt_le_maxInt (n := n) sg
  have h0' : (minInt n sg : ℚ) ≤ 0 := by exact_mod_cast h0
  have hX := mag_nonneg m e
  rw [Exact.value_fin] at h
  cases s with
  | false => exact absurd h (by simp only [signFactor, Bool.false_eq_true, if_false]; linarith)
  | true =>
    have hq := le_roundQ rtz (m := m) (e := e) (y := -minInt n sg + 1) (by
      simp only [signFactor, if_true] at h
      push_cast
      linarith)
    rw [roundTo_int sg]
    simp only [if_true]
    rw [if_neg (by omega), if_pos (by omega)]
    exact ⟨rfl, rfl, (value_int n sg _).2.trans (by rw [intOf_ofInt hn sg le_rfl (h0.trans h1)])⟩

end

end Sys2Proof.Machine
end

section
/-! PROOFS. The tables of the formats (02 R43, R45 to R47), and the conversion of a number to any of them (02 R59). -/

namespace Sys2Proof.Machine

/-! ### The conversion of a number -/

/-- The mode in which a conversion rounds: a T format always takes the nearest number (02 R59). -/
def Fmt.mode (f : Fmt) (rtz : Bool) : Bool := match f with | .t8 _ => false | .t6 _ => false | _ => rtz

/-- How far beyond its range a format saturates for certain: an integer that is rounded back to the end of the range is in it. -/
def Fmt.beyond (f : Fmt) : ℚ := match f with | .int _ _ => 1 | _ => 0

/-- What the conversion of a number to a format gives: the rounded number, or the end of the range (02 R59). -/
structure Fmt.ConvertsAll (f : Fmt) (rtz : Bool) (v : ℚ) (r : Nat × Ev) : Prop where
  inside : f.low ≤ v → v ≤ f.top → f.Converts (f.mode rtz) v r
  above : f.top < v → f.top + f.beyond ≤ v → f.Saturates f.top r
  below : v < f.low → v ≤ f.low - f.beyond → f.Saturates f.low r

/-- A format whose range is symmetric converts by magnitude. -/
theorem Fmt.ConvertsAll.of_mag {f : Fmt} {s rtz : Bool} {m : Nat} {e : Int} {r : Nat × Ev} (hlow : f.low = -f.top) (htop : 0 ≤ f.top)
    (hconv : mag m e ≤ f.top → f.Converts (f.mode rtz) (Exact.fin s m e).value r)
    (hsat : f.top < mag m e → f.Saturates (signFactor s * f.top) r) : f.ConvertsAll rtz (Exact.fin s m e).value r := by
  have habs := Exact.abs_value_fin s m e
  have hX := mag_nonneg m e
  refine ⟨fun h1 h2 => hconv ?_, fun h _ => ?_, fun h _ => ?_⟩
  · rw [← habs]
    exact abs_le.2 ⟨hlow ▸ h1, h2⟩
  · have h1 := hsat (habs ▸ h.trans_le (le_abs_self _))
    cases s with
    | false => simpa [signFactor] using h1
    | true => exact absurd h (by rw [Exact.value_fin, signFactor, if_pos rfl]; linarith)
  · rw [hlow] at h ⊢
    have h1 := hsat (habs ▸ (lt_neg_of_lt_neg h).trans_le (neg_le_abs _))
    cases s with
    | false => exact absurd h (by rw [Exact.value_fin, signFactor, if_neg Bool.false_ne_true]; linarith)
    | true => simpa [signFactor] using h1

theorem roundTo_ieee_all {f : Fmt} (hf : f.ieee = true) (s rtz wid : Bool) {m : Nat} (e : Int) (hm : m ≠ 0) :
    f.ConvertsAll rtz (Exact.fin s m e).value (roundTo (.fin s m e) f rtz wid) := by
  have hmode : f.mode rtz = rtz := by rcases Fmt.ieee_cases hf with rfl | rfl | rfl | rfl <;> rfl
  have hlow : f.low = -f.top := by rcases Fmt.ieee_cases hf with rfl | rfl | rfl | rfl <;> rfl
  exact .of_mag hlow (top_of_ieee hf ▸ mag_nonneg _ _) (hmode.symm ▸ roundTo_ieee_converts hf s rtz wid hm)
    (roundTo_ieee_saturates hf s rtz wid hm)

theorem roundTo_isT_all {f : Fmt} {w es : Nat} (hT : f.IsT w es) (s rtz wid : Bool) {m : Nat} (e : Int) (hm : m ≠ 0) :
    f.ConvertsAll rtz (Exact.fin s m e).value (roundTo (.fin s m e) f rtz wid) := by
  have hw := maxCode_of_isT hT
  have hmode : f.mode rtz = false := by cases hT <;> rfl
  have hlow : f.low = -f.top := by cases hT <;> rfl
  exact .of_mag hlow (value_nonneg_of_lt hT (c := f.maxCode) (by omega)) (hmode.symm ▸ roundTo_isT_converts hT s rtz wid hm)
    (roundTo_isT_saturates hT s rtz wid hm)

theorem roundTo_int_all {n : Nat} (hn : 0 < n) (sg s rtz wid : Bool) {m : Nat} (e : Int) (hm : m ≠ 0) :
    (Fmt.int n sg).ConvertsAll rtz (Exact.fin s m e).value (roundTo (.fin s m e) (.int n sg) rtz wid) := by
  rw [← (show (Fmt.int n sg).mode rtz = rtz from rfl)]
  constructor
  · intro h1 h2
    exact roundTo_int_converts hn sg s rtz wid hm h1 (top_int hn sg ▸ h2)
  · intro _ h
    rw [top_int hn sg] at h ⊢
    exact roundTo_int_above hn sg s rtz wid h
  · intro _ h
    exact roundTo_int_below hn sg s rtz wid h

/-! ### The IEEE-style formats -/

/-- What a code with the fields `ex` and `fr` denotes (02 R43, R45). -/
theorem ieee_code_denotes {f : Fmt} (hf : f.ieee = true) (s : Bool) {ex fr : Nat} (hex : ex < 2 ^ f.expBits) (hfr : fr < 2 ^ f.frac) :
    let code := b2n s * 2 ^ (f.expBits + f.frac) + ex * 2 ^ f.frac + fr
    let bias : Int := 2 ^ (f.expBits - 1) - 1
    if ex = 2 ^ f.expBits - 1 then decodeNum f code = if fr = 0 then .inf s else .nan
    else (decodeNum f code).isFin = true ∧ (decodeNum f code).sign = s ∧ f.value code =
      if ex = 0 then signFactor s * 2 ^ (1 - bias) * (fr / 2 ^ f.frac)
      else signFactor s * 2 ^ ((ex : Int) - bias) * (1 + fr / 2 ^ f.frac) := by
  have hpos : 0 < 2 ^ f.frac := by positivity
  have hlt : ex * 2 ^ f.frac + fr < 2 ^ f.expBits * 2 ^ f.frac := by
    calc _ < (ex + 1) * 2 ^ f.frac := by rw [add_mul]; omega
      _ ≤ _ := Nat.mul_le_mul_right _ hex
  have hbias : (2 : Int) ^ (f.expBits - 1) - 1 = f.bias := by
    rcases Fmt.ieee_cases hf with rfl | rfl | rfl | rfl <;> rfl
  have hdiv : (ex * 2 ^ f.frac + fr) / 2 ^ f.frac = ex := by
    rw [add_comm, Nat.add_mul_div_right _ _ hpos, Nat.div_eq_of_lt hfr, zero_add]
  have hmod : (ex * 2 ^ f.frac + fr) % 2 ^ f.frac = fr := by rw [Nat.mul_add_mod_self_right, Nat.mod_eq_of_lt hfr]
  have hdec := decodeNum_of_sign hf s hlt
  rw [hdiv, hmod] at hdec
  dsimp only
  rw [hbias, add_assoc, pow_add, Fmt.value, hdec]
  have hscale (k : Int) : (2 : ℚ) ^ (k - f.frac) = 2 ^ k / 2 ^ f.frac := by rw [zpow_sub₀ two_ne_zero, zpow_natCast]
  split_ifs with h1 h2 h3
  · rfl
  · rfl
  · refine ⟨rfl, rfl, ?_⟩
    rw [Exact.value_fin, mag, hscale, Fmt.emin]
    ring
  · refine ⟨rfl, rfl, ?_⟩
    rw [Exact.value_fin, mag, hscale]
    push_cast
    field_simp

/-! ### The T formats -/

/-- The number that a code without its sign bit denotes, times 2^k, where that is a whole number. -/
def Fmt.scaled (f : Fmt) (k c : Nat) : Nat := match decodeNum f c with | .fin _ m e => scale m (e + k) | _ => 0

/-- Whether `Fmt.scaled` loses nothing. -/
def Fmt.scales (f : Fmt) (k c : Nat) : Bool := match decodeNum f c with | .fin false m e => !lost m (e + k) | _ => false

theorem value_mul_of_scales {f : Fmt} {k c : Nat} (h : f.scales k c = true) : f.value c * 2 ^ k = f.scaled k c := by
  rw [Fmt.value, Fmt.scaled]
  unfold Fmt.scales at h
  split at h
  · rename_i m e he
    rw [he, Exact.value_fin, signFactor, if_neg Bool.false_ne_true, one_mul]
    dsimp only
    rw [scale_of_not_lost (by simpa using h), mag_add, zpow_natCast]
  · cases h

/-- A table of a format is one of whole numbers. -/
theorem map_value_mul {f : Fmt} (k : Nat) {l : List Nat} (h : l.all (f.scales k) = true) :
    l.map (fun c => f.value c * 2 ^ k) = (l.map (f.scaled k)).map Nat.cast := by
  rw [List.map_map]
  exact List.map_congr_left fun c hc => value_mul_of_scales (List.all_eq_true.1 h c hc)

theorem t6_table_zero : (upto 0 32).map (fun c => (Fmt.t6 0).value c * 16) =
    [0, 1, 2, 3, 4, 5, 6, 7, 8, 9, 10, 11, 12, 13, 14, 15, 16, 18, 20, 22, 24, 26, 28, 30, 32, 40, 48, 56, 64, 96, 128, 128] := by
  have h := map_value_mul (f := .t6 0) 4 (l := upto 0 32) (by decide)
  have h2 : (upto 0 32).map ((Fmt.t6 0).scaled 4) =
    [0, 1, 2, 3, 4, 5, 6, 7, 8, 9, 10, 11, 12, 13, 14, 15, 16, 18, 20, 22, 24, 26, 28, 30, 32, 40, 48, 56, 64, 96, 128, 128] := by decide
  rw [h2] at h
  norm_num at h ⊢
  exact h

theorem t6_table_one : (upto 0 32).map (fun c => (Fmt.t6 1).value c * 256) =
    [0, 1, 4, 8, 16, 24, 32, 48, 64, 80, 96, 112, 128, 160, 192, 224, 256, 320, 384, 448, 512, 640, 768, 896] ++
      [1024, 1536, 2048, 3072, 4096, 8192, 16384, 16384] := by
  have h := map_value_mul (f := .t6 1) 8 (l := upto 0 32) (by decide)
  have h2 : (upto 0 32).map ((Fmt.t6 1).scaled 8) =
    [0, 1, 4, 8, 16, 24, 32, 48, 64, 80, 96, 112, 128, 160, 192, 224, 256, 320, 384, 448, 512, 640, 768, 896] ++
      [1024, 1536, 2048, 3072, 4096, 8192, 16384, 16384] := by decide
  rw [h2] at h
  norm_num at h ⊢
  exact h

/-- The least code, one, the code above one, and the greatest code of a T8 format (02 R46). -/
theorem t8_anchors {es : Nat} (h : es ≤ 2) : (Fmt.t8 es).value 1 = 2 ^ (-6 * 2 ^ es : Int) ∧ (Fmt.t8 es).value 0x40 = 1 ∧
    (Fmt.t8 es).value 0x41 = 1 + 2 ^ es / 32 ∧ (Fmt.t8 es).value 0x7E = 2 ^ (5 * 2 ^ es) := by
  obtain ⟨h1, h2, h3, h4⟩ : decodeNum (.t8 es) 1 = .fin false 1 (-6 * 2 ^ es) ∧
      decodeNum (.t8 es) 0x40 = .fin false (2 ^ (5 - es)) (es - 5) ∧
      decodeNum (.t8 es) 0x41 = .fin false (2 ^ (5 - es) + 1) (es - 5) ∧ decodeNum (.t8 es) 0x7E = .fin false 1 (5 * 2 ^ es) := by
    interval_cases es <;> decide
  rw [Fmt.value, Fmt.value, Fmt.value, Fmt.value, h1, h2, h3, h4]
  simp only [Exact.value]
  interval_cases es <;> norm_num

/-- The code of the sign bit alone is the NaN, and a code with its sign bit denotes the opposite number (02 R47). -/
theorem signs_of_isT {f : Fmt} {w es : Nat} (hT : f.IsT w es) : decodeNum f (2 ^ w) = .nan ∧
    ∀ c, 0 < c → c < 2 ^ w → f.value (2 ^ w + c) = -f.value c := by
  refine ⟨decodeNum_signBit hT, fun c h0 h => ?_⟩
  rw [Fmt.value, decodeNum_signBit_add hT h0 h, Exact.value_neg]
  rfl

/-! ### A lane of a conversion -/

theorem cvtLane_same (f : Fmt) (rtz : Bool) (c : Nat) : cvtLane f f rtz c = { r := c } := if_pos rfl

/-- The targets that VT.RM governs (11 R289). -/
theorem cvtUsesRm_eq (t : Fmt) :
    cvtUsesRm t = [Fmt.fp32, .int 32 true, .int 32 false, .int 64 true, .int 64 false].contains t := by
  cases t with
  | int n sg =>
    by_cases h32 : n = 32
    · subst h32
      cases sg <;> rfl
    · by_cases h64 : n = 64
      · subst h64
        cases sg <;> rfl
      · simp [cvtUsesRm, h32, h64]
  | fp32 => rfl
  | fp16 => rfl
  | bf16 => rfl
  | a40 => rfl
  | t8 es => simp [cvtUsesRm]
  | t6 es => simp [cvtUsesRm]

/-- A lane of a conversion between two formats is the conversion of the number that its code denotes (11 R289). -/
theorem cvtLane_of_ne {f t : Fmt} (h : f ≠ t) (rtz : Bool) (c : Nat) :
    let y := roundTo (decodeNum f (elemCode f c)) t (rtz && cvtUsesRm t) (widening f t)
    cvtLane f t rtz c = { r := y.1, ev := y.2 } := if_neg h

end Sys2Proof.Machine
end

section
/-! PROOFS. What the vector units write: selections, conversions and reductions (11 R288 to R290). -/

namespace Sys2Proof.Machine

/-- Lanes that raise no event raise none together. -/
theorem lanes_ev_of_none {w : Nat} {on : Nat → Bool} {f : Nat → Lane} (h : ∀ j, (f j).ev = {}) (n : Nat) : (lanes w on f n).ev = {} := by
  induction n with
  | zero => rfl
  | succ n ih =>
    rw [lanes]
    split
    · dsimp only
      rw [ih, h]
      rfl
    · exact ih

/-- The checks of a vector function that meets a legal lane control word and a type that it accepts (11 R282). -/
theorem vecCheck_ok {c : Core} {lc : Word} {acc : Accepts} {f : Fmt} (hl : laneOk lc = true) (he : elemType (vtEt c.vtNow) = some f)
    (ha : acc.ok f = true) : vecCheck c lc acc = .ok f := by
  simp [vecCheck, hl, he, ha]

/-- A trigger of a vector unit leaves the core to its results: `pop` changes neither what the lanes read nor where results go. -/
theorem Core.result_events_wrote {c : Core} {sl : Slot} (cls : Nat) (v : Vec) (ev : Ev) (h : c.FirstResults sl) :
    c.Wrote (.rport sl.num false) .put v (c.la cls) (c.result sl false cls v) ∧
      (c.result sl false cls v).Wrote .vt .orBits (ev.bits.setWidth 1024) (c.la cls) ((c.result sl false cls v).events sl cls ev) := by
  obtain ⟨hr, -, hvt⟩ := h
  exact ⟨Core.write_wrote c sl _ _ _ _ hr, Core.write_wrote _ sl _ _ _ _ (hvt.write (.inl le_rfl) hr)⟩

/-- An event write without events leaves every read as it was. -/
theorem Core.Wrote.read_of_no_events {c c' : Core} {d : Nat} (h : c.Wrote .vt .orBits ((({} : Ev).bits).setWidth 1024) d c') (key m blk : Nat) :
    c'.regs.read key m blk = c.regs.read key m blk := by
  obtain ⟨-, -, hread⟩ := h
  rw [(hread key m blk).1]
  have hnone : (({} : Ev).bits).setWidth 1024 = (0 : Vec) := by simp [Ev.bits, b2n]
  rw [hnone]
  simp [applyOp]

/-- A second write of a core replaces the first. -/
theorem State.setCore_setCore {s : State} (h : s.Ok) (k : Nat) (c d : Core) : (s.setCore k c).setCore k d = s.setCore k d := by
  simp only [State.setCore, SMap.set_set _ _ _ ((SMap.wf_iff _ _).1 h.2).1]

section
variable {u : VexUnit} {w : Width} {g : Guard} {src : Src} {s : State} {f : Fmt}

theorem execVexSel_selects (hok : s.Ok) (hp : s.PassesWith u.slot g src (laneReads u.slot 3 true s.me))
    (hr : s.me.FirstResults u.slot)
    (hl : laneOk (s.me.portW u.slot 3) = true) (he : elemType (vtEt s.me.vtNow) = some f) :
    let lc := s.me.portW u.slot 3
    let x := laneIn s.me u.slot lc w f (s.value u.slot src .vector)
    ∃ c1 c2, s.me.pop.Wrote (.rport u.slot.num false) .put
        (BitVec.ofNat 1024 (lanes x.ew (fun _ => true)
          (fun j => { r := if s.me.maskBit (laneKn lc) j then x.la j else x.lb j }) x.n).r) (s.me.la 3) c1 ∧
      (∀ key m blk, c2.regs.read key m blk = c1.regs.read key m blk) ∧ c2 = { c1 with regs := c2.regs } ∧
      execVexSel u w g src s = .next (s.setCore s.curCore c2) := by
  intro lc x
  have hv : vecCheck s.me.pop (s.me.pop.portW u.slot 3) .any = .ok f := vecCheck_ok hl he rfl
  obtain ⟨h1, h2⟩ := Core.result_events_wrote (c := s.me.pop) 3 (BitVec.ofNat 1024 (lanes x.ew (fun _ => true)
    (fun j => { r := if s.me.maskBit (laneKn lc) j then x.la j else x.lb j }) x.n).r) {} hr
  refine ⟨_, _, h1, h2.read_of_no_events, h2.1, ?_⟩
  rw [execVexSel, vexSelect, trigger_passes hp rfl]
  dsimp only
  rw [hv]
  dsimp only
  rw [State.setCore_setCore hok, deliverLanes]
  rw [lanes_ev_of_none fun _ => rfl, if_neg Bool.false_ne_true]
  rfl

theorem execVexCvt_converts {t : Fmt} (hok : s.Ok) (hp : s.PassesWith u.slot g src (laneReads u.slot 3 false s.me))
    (hr : s.me.FirstResults u.slot)
    (hl : laneOk (s.me.portW u.slot 3) = true) (he : elemType (vtEt s.me.vtNow) = some f)
    (ht : elemType (laneTT (s.me.portW u.slot 3)) = some t) :
    let lc := s.me.portW u.slot 3
    let a := (s.value u.slot src .vector).toNat % 2 ^ w.bits
    let n := w.bits / max (elemWidth f) (elemWidth t)
    let y := lanes (elemWidth t) (s.me.laneOn lc)
      (fun j => cvtLane f t (vtRtz s.me.vtNow) (field a (elemWidth f * j) (elemWidth f))) n
    ∃ c1 c2, s.me.pop.Wrote (.rport u.slot.num false) .put (BitVec.ofNat 1024 y.r) (s.me.la 5) c1 ∧
      c1.Wrote .vt .orBits (y.ev.bits.setWidth 1024) (s.me.la 5) c2 ∧
      execVexCvt u w g src s = .next (s.setCore s.curCore c2) := by
  intro lc a n y
  have hv : vecCheck s.me.pop (s.me.pop.portW u.slot 3) .any = .ok f := vecCheck_ok hl he rfl
  have ht' : elemType (laneTT (s.me.pop.portW u.slot 3)) = some t := ht
  obtain ⟨h1, h2⟩ := Core.result_events_wrote (c := s.me.pop) 5 (BitVec.ofNat 1024 y.r) y.ev hr
  refine ⟨_, _, h1, h2, ?_⟩
  rw [execVexCvt, vexConvert, trigger_passes hp rfl]
  dsimp only
  rw [hv]
  dsimp only
  rw [ht']
  dsimp only
  rw [State.setCore_setCore hok, deliverLanes, laneIn, pow2_eq]
  rfl

/-- A reduction by the tree of its lanes (11 R290). -/
theorem vexReduce_reduces {k : Reduction} (hok : s.Ok) (hp : s.PassesWith u.slot g src (laneReads u.slot 3 false s.me))
    (hr : s.me.FirstResults u.slot)
    (hl : laneOk (s.me.portW u.slot 3) = true) (he : elemType (vtEt s.me.vtNow) = some f) (ha : Accepts.intFp.ok f = true) :
    let lc := s.me.portW u.slot 3
    let x := laneIn s.me u.slot lc w f (s.value u.slot src .vector)
    let y := reduceTree (k.combine f x.rtz) 10 ((upto 0 x.n).map fun j => if s.me.laneOn lc j then x.la j else k.identity f)
    ∃ c1 c2, s.me.pop.Wrote (.rport u.slot.num false) .put (BitVec.ofNat 1024 y.1) (s.me.la 6) c1 ∧
      c1.Wrote .vt .orBits (y.2.bits.setWidth 1024) (s.me.la 6) c2 ∧
      vexReduce s u w g src k = .next (s.setCore s.curCore c2) := by
  intro lc x y
  have hv : vecCheck s.me.pop (s.me.pop.portW u.slot 3) .intFp = .ok f := vecCheck_ok hl he ha
  obtain ⟨h1, h2⟩ := Core.result_events_wrote (c := s.me.pop) 6 (BitVec.ofNat 1024 y.1) y.2 hr
  refine ⟨_, _, h1, h2, ?_⟩
  rw [vexReduce, trigger_passes hp rfl]
  dsimp only
  rw [hv]
  dsimp only
  rw [State.setCore_setCore hok]
  rfl

end

end Sys2Proof.Machine
end

section
/-! PROOFS. The obligations on the number formats. -/

namespace Sys2Proof.Proofs.NumberFormats

open Sys2Proof.Machine

/-- The formats that numbers are converted to (02 R42 to R47). -/
def targets : List Fmt :=
  [.fp32, .fp16, .bf16, .a40, .t8 0, .t8 1, .t8 2, .t6 0, .t6 1, .int 8 true, .int 16 true, .int 32 true, .int 64 true,
    .int 8 false, .int 16 false, .int 32 false, .int 64 false]

/-- They are the IEEE-style ones, the T formats, and the integers. -/
theorem target_kinds {f : Fmt} (hf : f ∈ targets) : f.ieee = true ∨ (∃ w es, f.IsT w es) ∨ ∃ n sg, 0 < n ∧ f = .int n sg := by
  simp only [targets, List.mem_cons, List.not_mem_nil, or_false] at hf
  rcases hf with rfl | rfl | rfl | rfl | rfl | rfl | rfl | rfl | rfl | rfl | rfl | rfl | rfl | rfl | rfl | rfl | rfl
  iterate 4 exact .inl rfl
  iterate 3 exact .inr (.inl ⟨7, _, .t8 (by decide)⟩)
  iterate 2 exact .inr (.inl ⟨5, _, .t6 (by decide)⟩)
  all_goals exact .inr (.inr ⟨_, _, by decide, rfl⟩)

/-- The conversion to every one of them. -/
theorem roundTo_all {f : Fmt} (hf : f ∈ targets) (s rtz wid : Bool) {m : Nat} (e : Int) (hm : m ≠ 0) :
    f.ConvertsAll rtz (Exact.fin s m e).value (roundTo (.fin s m e) f rtz wid) := by
  rcases target_kinds hf with h | ⟨w, es, hT⟩ | ⟨n, sg, hn, rfl⟩
  · exact roundTo_ieee_all h s rtz wid e hm
  · exact roundTo_isT_all hT s rtz wid e hm
  · exact roundTo_int_all hn sg s rtz wid e hm

/-- The rounding of a format's mode, written out by its formats. -/
theorem rounds_mode {f : Fmt} {rtz : Bool} {v : ℚ} {c : Nat} (h : f.Rounds (f.mode rtz) v c) :
    if (match f with | .t8 _ => true | .t6 _ => true | _ => !rtz) then f.Nearest v c else f.Toward v c := by
  cases f with
  | t8 es => exact h
  | t6 es => exact h
  | fp32 => cases rtz <;> exact h
  | fp16 => cases rtz <;> exact h
  | bf16 => cases rtz <;> exact h
  | a40 => cases rtz <;> exact h
  | int n sg => cases rtz <;> exact h

/-- Settles O18: the vector units write what their lanes give (`execVexSel_selects`, `execVexCvt_converts`, `vexReduce_reduces`); a
code of each format denotes what its fields say; and a conversion picks one of the two neighbouring magnitudes of its format around a
number, which is nearest because the format has none between them (`Fmt.rounds_of_picks`). -/
theorem selectConvertReduce : Obligations.SelectConvertReduce := by
  unfold Obligations.SelectConvertReduce
  refine ⟨?select, ?convert, ?reduce, ?ieee, ⟨t6_table_zero, t6_table_one, ?t8, ?t8Signs, ?t6Signs⟩, ?rounding, ?lane⟩
  case select =>
    intro u w g src s f hok hp hr hl he
    exact execVexSel_selects hok hp hr hl he
  case convert =>
    intro u w g src s f t hok hp hr hl he ht
    exact execVexCvt_converts hok hp hr hl he ht
  case reduce =>
    intro e hm u w g src s f hok hp hr hl he ha
    simp only [List.mem_cons, List.not_mem_nil, or_false] at hm
    rcases hm with rfl | rfl | rfl
    all_goals exact vexReduce_reduces hok hp hr hl he ha
  case ieee =>
    intro e hm s ex fr hex hfr
    simp only [List.mem_cons, List.not_mem_nil, or_false] at hm
    rcases hm with rfl | rfl | rfl | rfl
    · exact ieee_code_denotes (f := .fp32) rfl s hex hfr
    · exact ieee_code_denotes (f := .fp16) rfl s hex hfr
    · exact ieee_code_denotes (f := .bf16) rfl s hex hfr
    · exact ieee_code_denotes (f := .a40) rfl s hex hfr
  case t8 =>
    intro es hes c
    obtain ⟨h1, h2, h3, h4⟩ := t8_anchors hes
    exact ⟨h1, h2, h3, h4, fun hc => value_lt_succ (.t8 hes) hc, value_last (.t8 hes)⟩
  case t8Signs =>
    intro es hes
    exact signs_of_isT (.t8 hes)
  case t6Signs =>
    intro es hes
    exact signs_of_isT (.t6 hes)
  case rounding =>
    intro f hf s m e rtz wid hm v r near
    obtain ⟨hin, habove, hbelow⟩ := roundTo_all hf s rtz wid e hm
    refine ⟨fun h1 h2 => ?_, habove, hbelow⟩
    obtain ⟨hsat, hix, hround⟩ := hin h1 h2
    exact ⟨hsat, hix, rounds_mode hround⟩
  case lane =>
    intro f t rtz c
    refine ⟨cvtLane_same f rtz c, fun h => ?_⟩
    intro code y
    have := cvtLane_of_ne h rtz c
    rw [cvtUsesRm_eq] at this
    exact this

end Sys2Proof.Proofs.NumberFormats
end

section
/-! PROOFS. Exact products, the elements of a block, and the A40 sum where its window loses no bit (02 R51 to R54, R62). -/

namespace Sys2Proof.Machine

/-! ### Products -/

theorem mag_mul_mag (m n : Nat) (e g : Int) : mag (m * n) (e + g) = mag m e * mag n g := by
  unfold mag
  rw [zpow_add₀ two_ne_zero]
  push_cast
  ring

theorem signFactor_bne (s t : Bool) : signFactor (s != t) = signFactor s * signFactor t := by
  cases s <;> cases t <;> norm_num [signFactor]

/-- The product of two numbers is exact (13 R312). -/
theorem Exact.mul_of_isFin {a b : Exact} (ha : a.isFin = true) (hb : b.isFin = true) :
    (a.mul b).isFin = true ∧ (a.mul b).value = a.value * b.value := by
  obtain ⟨s, m, e, rfl⟩ := Exact.eq_fin_of_isFin ha
  obtain ⟨t, n, g, rfl⟩ := Exact.eq_fin_of_isFin hb
  refine ⟨rfl, ?_⟩
  rw [Exact.mul, Exact.value_fin, Exact.value_fin, Exact.value_fin, signFactor_bne, mag_mul_mag]
  ring

/-! ### Elements of a block -/

theorem field_extractLsb' {w : Nat} (b : BitVec w) (lo len : Nat) : field b.toNat lo len = (b.extractLsb' lo len).toNat := rfl

theorem blockFmt_of_formatOf {b : Block} {cls : Nat} {f : Fmt} (h : formatOf (b.extractLsb' 0 8).toNat = some (f, cls)) :
    blockFmt cls b = some f := by
  rw [blockFmt, field_extractLsb', h]
  exact if_pos rfl

theorem blockFmt_of_other {b : Block} {cls : Nat} (h : ∀ f, formatOf (b.extractLsb' 0 8).toNat ≠ some (f, cls)) :
    blockFmt cls b = none := by
  rw [blockFmt, field_extractLsb']
  cases he : formatOf (b.extractLsb' 0 8).toNat with
  | none => rfl
  | some r =>
    obtain ⟨f, c⟩ := r
    exact if_neg fun (hc : c = cls) => h f (hc ▸ he)

theorem blockScale_eq (b : Block) : (blockScale b : Int) =
    if (b.extractLsb' 8 8).toNat = 0 ∨ (b.extractLsb' 8 8).toNat = 0xFF then 128 else ((b.extractLsb' 8 8).toNat : Int) := by
  rw [blockScale, field_extractLsb']
  split <;> rfl

/-- An element is its code's number times the block's multiplier (02 R54). -/
theorem elementValue_of_format {b : Block} {cls : Nat} {f : Fmt} (j : Nat) (h : formatOf (b.extractLsb' 0 8).toNat = some (f, cls)) :
    let code := (b.extractLsb' (16 + classBits cls * j) (classBits cls)).toNat
    let sc := (b.extractLsb' 8 8).toNat
    (elementValue cls b j).isFin = (decodeNum f code).isFin ∧
      (elementValue cls b j).value = f.value code * 2 ^ ((if sc = 0 ∨ sc = 0xFF then 128 else (sc : Int)) - 128) := by
  dsimp only
  rw [← blockScale_eq, elementValue, blockFmt_of_formatOf h]
  exact ⟨Exact.isFin_shift _ _, Exact.value_shift _ _⟩

/-! ### The window of a sum -/

/-- A whole number as an exact value. -/
theorem value_natAbs (x u : Int) : (Exact.fin (decide (x < 0)) x.natAbs u).value = x * 2 ^ u := by
  rw [Exact.value_fin, mag, Nat.cast_natAbs, ← mul_assoc, signFactor]
  rcases lt_or_ge x 0 with h | h
  · rw [decide_eq_true h, if_pos rfl, abs_of_neg h]
    push_cast
    ring
  · rw [decide_eq_false (not_lt.2 h), if_neg Bool.false_ne_true, abs_of_nonneg h]
    ring

/-- Where no term loses a bit, what the window holds is the exact sum (02 R62). -/
theorem windowSum_exact {u : Int} {ts : List Exact} (hfin : ∀ t ∈ ts, t.isFin = true)
    (hlost : ∀ g m e, Exact.fin g m e ∈ ts → lost m (e - u) = false) :
    (windowSum u ts).2 = false ∧ ((windowSum u ts).1 : ℚ) * 2 ^ u = (ts.map Exact.value).sum := by
  induction ts with
  | nil => simp [windowSum]
  | cons t ts ih =>
    obtain ⟨h1, h2⟩ := ih (fun x hx => hfin x (List.mem_cons_of_mem _ hx)) fun g m e hx => hlost g m e (List.mem_cons_of_mem _ hx)
    obtain ⟨s, m, e, rfl⟩ := Exact.eq_fin_of_isFin (hfin t (List.mem_cons_self ..))
    have hl := hlost s m e (List.mem_cons_self ..)
    have hterm : (((if s then -(scale m (e - u) : Int) else scale m (e - u)) : Int) : ℚ) * 2 ^ u = (Exact.fin s m e).value := by
      rw [← signFactor_mul_nat, scale_of_not_lost hl, mul_assoc, mag_sub_mul, Exact.value_fin]
    rw [windowSum]
    refine ⟨by simp [h1, hl], ?_⟩
    rw [List.map_cons, List.sum_cons, ← h2, ← hterm, ← add_mul, add_comm]
    push_cast
    rfl

/-! ### The sum -/

/-- A sum of numbers that are not all zero is what its window holds, rounded (02 R62). -/
theorem a40Sum_of_isFin {ts : List Exact} {em : Int} (hfin : ∀ t ∈ ts, t.isFin = true) (hlead : maxLead ts = some em) :
    a40Sum ts = roundA40 (windowSum (em - 47) ts).1 (em - 47) (windowSum (em - 47) ts).2 := by
  have hnone (p : Exact → Bool) (hp : ∀ s m e, p (.fin s m e) = false) : ts.any p = false := by
    refine List.any_eq_false.2 fun t ht => ?_
    obtain ⟨s, m, e, rfl⟩ := Exact.eq_fin_of_isFin (hfin t ht)
    simp [hp]
  rw [a40Sum, hnone Exact.isNan fun _ _ _ => rfl, hnone (fun t => t.isInf && !t.sign) fun _ _ _ => rfl,
    hnone (fun t => t.isInf && t.sign) fun _ _ _ => rfl, hlead]
  simp

theorem roundA40_exact {x : Int} (u : Int) (hx : x ≠ 0) :
    roundA40 x u false = (roundTo (.fin (decide (x < 0)) x.natAbs u) .a40 false true).1 := by
  rw [roundA40, if_neg hx]
  dsimp only
  split
  · rfl
  · split <;> rfl

/-- The A40 sum of terms that lose no bit is their exact sum rounded once (02 R62). -/
theorem a40Sum_rounds {ts : List Exact} {em : Int} (hfin : ∀ t ∈ ts, t.isFin = true) (hlead : maxLead ts = some em)
    (hlost : ∀ g m e, Exact.fin g m e ∈ ts → lost m (e - (em - 47)) = false) :
    let v := (ts.map Exact.value).sum
    let r := a40Sum ts
    (v = 0 → r = 0) ∧ (|v| ≤ Fmt.a40.top → Fmt.a40.Nearest v r) ∧
      (Fmt.a40.top < |v| → Fmt.a40.value r = if v < 0 then -Fmt.a40.top else Fmt.a40.top) := by
  obtain ⟨hst, hsum⟩ := windowSum_exact hfin hlost
  have htop : 0 ≤ Fmt.a40.top := top_of_ieee (f := .a40) rfl ▸ mag_nonneg _ _
  have hu : (2 : ℚ) ^ (em - 47) ≠ 0 := by positivity
  dsimp only
  rw [a40Sum_of_isFin hfin hlead, hst, ← hsum]
  generalize (windowSum (em - 47) ts).1 = x
  by_cases hx : x = 0
  · have h0 : decodeNum .a40 0 = .fin false 0 (Fmt.a40.emin - Fmt.a40.frac) := by decide
    have hv : Fmt.a40.value 0 = 0 := by rw [Fmt.value, h0, Exact.value_fin]; simp [mag]
    rw [hx, roundA40, if_pos rfl, Int.cast_zero, zero_mul, abs_zero]
    refine ⟨fun _ => rfl, fun _ => ⟨by rw [h0]; rfl, fun d _ => ?_⟩, fun h => absurd h (not_lt.2 htop)⟩
    rw [hv]
    simp
  · have hall := roundTo_ieee_all (f := .a40) rfl (decide (x < 0)) false true (em - 47) (Int.natAbs_ne_zero.2 hx)
    rw [value_natAbs] at hall
    rw [roundA40_exact _ hx]
    obtain ⟨hin, habove, hbelow⟩ := hall
    have hbeyond : Fmt.a40.beyond = 0 := rfl
    refine ⟨fun h => ?_, fun h => (hin (abs_le.1 h).1 (abs_le.1 h).2).2.2, fun h => ?_⟩
    · rcases mul_eq_zero.1 h with h | h
      · exact absurd (by exact_mod_cast h) hx
      · exact absurd h hu
    · rcases lt_abs.1 h with h | h
      · rw [if_neg (by linarith)]
        exact (habove h (by rw [hbeyond, add_zero]; exact h.le)).2.2
      · rw [if_pos (by linarith)]
        exact (hbelow (lt_neg_of_lt_neg h) (by rw [hbeyond, sub_zero]; exact (lt_neg_of_lt_neg h).le)).2.2

end Sys2Proof.Machine
end

section
/-! PROOFS. A cell of an accumulator tile after a step (13 R312), and after it is cleared (13 R315). -/

namespace Sys2Proof.Machine

/-! ### Maps written by a list of entries -/

theorem SMap.get_foldl_set_of_not_mem {β : Type} [DecidableEq β] (d : β) {l : List (Nat × β)} {k : Nat}
    (h : ∀ e ∈ l, e.1 ≠ k) (m : SMap β) :
    SMap.get d (l.foldl (fun a e => SMap.set d a e.1 e.2) m) k = SMap.get d m k := by
  induction l generalizing m with
  | nil => rfl
  | cons e l ih =>
    rw [List.foldl_cons, ih fun x hx => h x (List.mem_cons_of_mem _ hx), SMap.get_set_other _ _ _ (h e (List.mem_cons_self ..)).symm]

/-- A key to which every entry of a list writes one value holds it, if an entry writes it or it held it before. -/
theorem SMap.get_foldl_set_of_mem {β : Type} [DecidableEq β] (d : β) {l : List (Nat × β)} {k : Nat} {v : β}
    (h : ∀ e ∈ l, e.1 = k → e.2 = v) {m : SMap β} (hm : SMap.get d m k = v ∨ ∃ e ∈ l, e.1 = k) :
    SMap.get d (l.foldl (fun a e => SMap.set d a e.1 e.2) m) k = v := by
  induction l generalizing m with
  | nil => exact hm.resolve_right (by simp)
  | cons e l ih =>
    rw [List.foldl_cons]
    refine ih (fun x hx => h x (List.mem_cons_of_mem _ hx)) ?_
    by_cases hk : e.1 = k
    · left
      rw [hk, SMap.get_set_same, h e (List.mem_cons_self ..) hk]
    · rw [SMap.get_set_other _ _ _ (Ne.symm hk)]
      refine hm.imp_right fun ⟨x, hx, hxk⟩ => ⟨x, (List.mem_cons.1 hx).resolve_left ?_, hxk⟩
      rintro rfl
      exact hk hxk

/-! ### Cells -/

/-- A cell's number names its tile, row and column. -/
theorem accKey_inj {n n' r r' j j' : Nat} (hr : r < 96) (hr' : r' < 96) (hj : j < 96) (hj' : j' < 96) :
    accKey n r j = accKey n' r' j' ↔ n = n' ∧ r = r' ∧ j = j' := by
  unfold accKey
  omega

/-- The elements that a step reads of row `r` of tile register `t` (13 R311). -/
def stepRow (m : Matrix) (p : Word) (kv t r : Nat) : List Exact := m.tileRow (shapeCls p) (shapeDepth p / 2) t r kv

theorem stepRow_eq (m : Matrix) (p : Word) (kv t r : Nat) : stepRow m p kv t r = (upto 0 kv).map fun x =>
    elementValue (shapeCls p) (SMap.get 0 m.tiles (2 * (96 * t + r) + if x < shapeDepth p / 2 then 0 else 1)) (x % (shapeDepth p / 2)) := by
  have hkey (h : Nat) : tileKey t r h = 2 * (96 * t + r) + h := by unfold tileKey; omega
  rw [stepRow, Matrix.tileRow, hkey, hkey]
  refine List.map_congr_left fun x _ => ?_
  split <;> rfl

/-- What a step writes to a cell: the A40 sum of its products and of what it held (13 R312). -/
def stepValue (m : Matrix) (w p q : Word) (i j : Nat) : BitVec 40 :=
  stepCell (stepRow m p (stepDepth p q) (stepAt w) i) (stepRow m p (stepDepth p q) (stepBt w) j)
    (if w.getLsbD 16 then zero else a40 (m.elem (wfield w 5 0) i j).toNat)

theorem stepValue_eq (m : Matrix) (w p q : Word) (i j : Nat) :
    let h := shapeDepth p / 2
    let el (t r x : Nat) : Exact :=
      elementValue (shapeCls p) (SMap.get 0 m.tiles (2 * (96 * t + r) + if x < h then 0 else 1)) (x % h)
    let old : Exact := if w.getLsbD 16 then zero else a40 (m.elem (wfield w 5 0) i j).toNat
    stepValue m w p q i j =
      BitVec.ofNat 40 (a40Sum ((upto 0 (stepDepth p q)).map (fun x => (el (stepAt w) i x).mul (el (stepBt w) j x)) ++ [old])) := by
  dsimp only
  rw [stepValue, stepCell, stepRow_eq, stepRow_eq, List.zip_map', List.map_map]
  rfl

/-- The cells that a step writes, in the order in which it writes them. -/
def stepWrites (m : Matrix) (w p q : Word) : List (Nat × BitVec 40) :=
  stepCells m w ((upto 0 (shapeVr p)).map fun i => (i, stepRow m p (stepDepth p q) (stepAt w) i))
    ((upto 0 (shapeVr q)).map fun j => (j, stepRow m p (stepDepth p q) (stepBt w) j))

theorem Matrix.step_acc (m : Matrix) (w p q : Word) :
    (m.step w p q).acc = (stepWrites m w p q).foldl (fun a e => SMap.set 0 a e.1 e.2) m.acc := rfl

theorem mem_stepWrites_iff {m : Matrix} {w p q : Word} {e : Nat × BitVec 40} : e ∈ stepWrites m w p q ↔
    ∃ i < shapeVr p, ∃ j < shapeVr q, e = (accKey (wfield w 5 0) i j, stepValue m w p q i j) := by
  unfold stepWrites stepCells
  simp only [List.map_map, List.mem_flatten, List.mem_map, Function.comp_apply, mem_upto_iff, Nat.zero_le, true_and, Nat.zero_add]
  constructor
  · rintro ⟨l, ⟨i, hi, rfl⟩, he⟩
    obtain ⟨j, hj, rfl⟩ := List.mem_map.1 he
    exact ⟨i, hi, j, by simpa [mem_upto_iff] using hj, rfl⟩
  · rintro ⟨i, hi, j, hj, rfl⟩
    exact ⟨_, ⟨i, hi, rfl⟩, List.mem_map.2 ⟨j, by simpa [mem_upto_iff] using hj, rfl⟩⟩

/-- A step writes its valid cells and no others (13 R312). -/
theorem Matrix.step_elem (m : Matrix) {w p q : Word} {n i j : Nat} (hp : shapeVr p ≤ 96) (hq : shapeVr q ≤ 96) (hi : i < 96) (hj : j < 96) :
    (m.step w p q).elem n i j =
      if n = wfield w 5 0 ∧ i < shapeVr p ∧ j < shapeVr q then stepValue m w p q i j else m.elem n i j := by
  have hkey {a b : Nat} (ha : a < shapeVr p) (hb : b < shapeVr q) :
      accKey (wfield w 5 0) a b = accKey n i j ↔ wfield w 5 0 = n ∧ a = i ∧ b = j :=
    accKey_inj (by omega) hi (by omega) hj
  rw [Matrix.elem, Matrix.step_acc]
  split_ifs with h
  · obtain ⟨rfl, h1, h2⟩ := h
    refine SMap.get_foldl_set_of_mem 0 (fun e he hk => ?_) (.inr ⟨_, mem_stepWrites_iff.2 ⟨i, h1, j, h2, rfl⟩, rfl⟩)
    obtain ⟨a, ha, b, hb, rfl⟩ := mem_stepWrites_iff.1 he
    obtain ⟨-, rfl, rfl⟩ := (hkey ha hb).1 hk
    rfl
  · refine SMap.get_foldl_set_of_not_mem 0 (fun e he hk => h ?_) m.acc
    obtain ⟨a, ha, b, hb, rfl⟩ := mem_stepWrites_iff.1 he
    obtain ⟨rfl, rfl, rfl⟩ := (hkey ha hb).1 hk
    exact ⟨rfl, ha, hb⟩

/-- The cells of some tiles are cleared, and no others. -/
theorem get_filter_tiles (acc : SMap (BitVec 40)) (a b : Nat) {n r j : Nat} (hr : r < 96) (hj : j < 96) :
    (SMap.get 0 (acc.filter fun x => decide (x.1 < accKey a 0 0) || decide (accKey (a + b + 1) 0 0 ≤ x.1)) (accKey n r j) : BitVec 40) =
      if a ≤ n ∧ n ≤ a + b then 0 else SMap.get 0 acc (accKey n r j) := by
  have hin : (a ≤ n ∧ n ≤ a + b) ↔ accKey a 0 0 ≤ accKey n r j ∧ accKey n r j < accKey (a + b + 1) 0 0 := by
    unfold accKey
    omega
  rw [if_congr hin rfl rfl]
  split_ifs with h
  · exact SMap.get_filter_of_drop 0 acc _ _ fun v => by simp; omega
  · exact SMap.get_filter_of_keep 0 acc _ _ fun v => by simp; omega

end Sys2Proof.Machine
end

section
/-! PROOFS. Commands of the matrix engine that fire, second tries, and flits that arrive (13 R305, R319; 14 R343, R344). -/

namespace Sys2Proof.Machine

/-- Two changes of one core are one. -/
theorem State.modCore_modCore {s : State} (h : s.Ok) (k : Nat) (f g : Core → Core) :
    (s.modCore k f).modCore k g = s.modCore k fun c => g (f c) := by
  rw [State.modCore_eq, State.core_modCore, State.modCore_eq, State.setCore_setCore h]
  rfl

theorem State.modMx_eq (s : State) (k : Nat) (f : Matrix → Matrix) : s.modMx k f = s.modCore k fun c => { c with mx := f c.mx } := rfl

/-- The core after one of its engines has been busy for a cycle. -/
def Core.busy (s : State) (e : Nat) (c : Core) : Core := { c with clk := c.clk.count (s.pwr.window - 32000) s.now e true }

theorem State.countBusy_eq (s : State) (k e : Nat) : s.countBusy k e = s.modCore k (Core.busy s e) := rfl

/-- A change of the matrix engine in a cycle that counts as busy is a change of its core alone. -/
theorem State.modMx_countBusy {s : State} (h : s.Ok) (k e : Nat) (f : Matrix → Matrix) :
    (s.modMx k f).countBusy k e = s.setCore k (Core.busy s e { s.core k with mx := f (s.core k).mx }) := by
  rw [State.countBusy_eq, State.modMx_eq, State.modCore_modCore h]
  rfl

theorem State.modMx_modMx {s : State} (h : s.Ok) (k : Nat) (f g : Matrix → Matrix) :
    (s.modMx k f).modMx k g = s.modMx k fun m => g (f m) := by
  rw [State.modMx_eq, State.modMx_eq, State.modCore_modCore h]
  rfl

/-! ### The command at the head of the queue -/

/-- The tiles that `azero` names are cleared (13 R315). -/
def Matrix.azero (m : Matrix) (w : Nat) : Matrix :=
  let lo := accKey (field w 0 6) 0 0
  let hi := accKey (field w 0 6 + field w 8 6 + 1) 0 0
  { m.accClean fun x => decide (lo ≤ x) && decide (x < hi) with acc := m.acc.filter fun x => decide (x.1 < lo) || decide (hi ≤ x.1) }

theorem tryMx_azero (s : State) (k : Nat) {e : MxEntry} {w : Nat} (he : e.cmd = .azero w) :
    tryMx s k e = .done (s.modMx k fun m => m.azero w) := by
  rw [tryMx, he]
  rfl

/-- With no row to forward, the released command at the head of the queue is the one that is tried (13 R305). -/
theorem execMatrixCommandFire_of_done {s t : State} {k : Nat} {e : MxEntry} {es : List MxEntry} (hp : s.pausedBy (clusterOf k) = false)
    (hf : (s.core k).mx.forwards = []) (hq : (s.core k).mx.queue = e :: es) (hr : e.released = true) (hh : (s.core k).mxHeld e = false)
    (ht : tryMx s k e = .done t) : execMatrixCommandFire k s = .next ((t.modMx k fun m => { m with queue := es }).countBusy k 2) := by
  rw [execMatrixCommandFire, hp, if_neg Bool.false_ne_true, hf, forwardFirst]
  dsimp only
  rw [hq, fireFrom, hr, hh, ht]
  rfl

theorem matrixCommandFire_azero {s : State} {k w : Nat} {e : MxEntry} {es : List MxEntry} (hok : s.Ok) (hp : s.pausedBy (clusterOf k) = false)
    (hf : (s.core k).mx.forwards = []) (hq : (s.core k).mx.queue = e :: es) (hr : e.released = true) (hh : (s.core k).mxHeld e = false)
    (he : e.cmd = .azero w) :
    execMatrixCommandFire k s = .next (s.setCore k (Core.busy s 2 { s.core k with mx := { (s.core k).mx.azero w with queue := es } })) := by
  rw [execMatrixCommandFire_of_done hp hf hq hr hh (tryMx_azero s k he), State.modMx_modMx hok, State.modMx_countBusy hok]

/-! ### A second try (13 R319) -/

theorem retrySplit_append {l a b : List MxEntry} {e : MxEntry} (ha : ∀ x ∈ a, x.retry = false) (he : e.retry = true) :
    retrySplit l (a ++ e :: b) = some (l ++ a, e, b) := by
  induction a generalizing l with
  | nil => rw [List.nil_append, retrySplit, if_pos he, List.append_nil]
  | cons x a ih =>
    rw [List.cons_append, retrySplit, ha x (List.mem_cons_self ..), if_neg Bool.false_ne_true,
      ih fun y hy => ha y (List.mem_cons_of_mem _ hy), List.append_assoc, List.singleton_append]

/-- A command that belongs to no pass that has fired ends none. -/
theorem State.endPass_of_none {e : MxEntry} (s : State) (k crew rank : Nat) (forward : Bool) (h : e.cmd.pass = none ∨ e.pass = none) :
    s.endPass k crew rank e forward = s := by
  unfold State.endPass
  rcases h with h | h
  · rw [h]
  · rw [h]
    cases e.cmd.pass <;> rfl

theorem State.foldl_endPass_of_none (s : State) (k crew rank : Nat) (forward : MxEntry → Bool) {l : List MxEntry}
    (hl : ∀ x ∈ l, x.cmd.pass = none ∨ x.pass = none) : l.foldl (fun s x => s.endPass k crew rank x (forward x)) s = s := by
  induction l with
  | nil => rfl
  | cons x l ih =>
    rw [List.foldl_cons, State.endPass_of_none s k crew rank (forward x) (hl x (List.mem_cons_self ..))]
    exact ih fun y hy => hl y (List.mem_cons_of_mem _ hy)

/-- A tile fault at which no pass ends records its command and what is left of the queue, and changes its core alone (13 R306). -/
theorem State.tileFault_of_no_pass {s : State} {k fc : Nat} {before after : List MxEntry} {e : MxEntry} (he : e.cmd.pass = none)
    (ha : ∀ x ∈ after, x.pass = none) : s.tileFault k before e after fc =
      s.modCore k fun c => c.recordTile e (e :: after.filter fun x => x.released) (before ++ after.filter fun x => !x.released) fc := by
  unfold State.tileFault
  dsimp only
  split
  · refine State.foldl_endPass_of_none _ k _ _ (fun x => fc != 0x07 || x.bundle != e.bundle || x.blk != e.blk) fun x hx => ?_
    rcases List.mem_cons.1 hx with rfl | hx
    · exact .inl he
    · exact .inr (ha x (List.mem_filter.1 hx).1)
  · rfl

theorem Core.forgiveAll_mx (c : Core) (es : List MxEntry) : (c.forgiveAll es).mx = c.mx := by
  unfold Core.forgiveAll
  induction es generalizing c with
  | nil => rfl
  | cons e es ih =>
    rw [List.foldl_cons, ih]
    unfold Core.forgive
    split <;> rfl

theorem Core.recordTile_mx {c : Core} (e : MxEntry) (gone rest : List MxEntry) (fc : Nat) (h : c.mx.fp = false) :
    let m := (c.recordTile e gone rest fc).mx
    m.fp = true ∧ m.fc = fc ∧ m.fword = e.word ∧ m.queue = rest ∧ m.acc = c.mx.acc ∧ m.runc = c.mx.runc := by
  simp [Core.recordTile, Core.forgiveAll_mx, h]

section
variable {s : State} {k w : Nat} {p q : Word} {a b : List MxEntry} {e : MxEntry} (hok : s.Ok) (hp : s.pausedBy (clusterOf k) = false)
  (hq : (s.core k).mx.queue = a ++ e :: b) (ha : ∀ x ∈ a, x.retry = false) (he : e.retry = true) (hc : e.cmd = .step w p q)
include hok hp hq ha he hc

/-- A second try that succeeds performs the step from its captured inputs. -/
theorem residueRetry_performs : execResidueRetry k true s = .next (s.setCore k
      (Core.busy s 2 { s.core k with mx := { (s.core k).mx.step (BitVec.ofNat 64 w) p q with queue := a ++ b } })) := by
  rw [execResidueRetry, hq, retrySplit_append ha he]
  dsimp only
  rw [hc]
  dsimp only
  rw [hp, if_neg Bool.false_ne_true, if_pos rfl, State.modMx_countBusy hok]
  rfl

/-- A second mismatch is a machine check of the step. -/
theorem residueRetry_faults (hb : ∀ x ∈ b, x.pass = none) : execResidueRetry k false s = .next (s.setCore k
      (({ s.core k with mx := { (s.core k).mx with runc := min ((s.core k).mx.runc + 1) 65535 } } : Core).recordTile e
        (e :: b.filter fun x => x.released) (a ++ b.filter fun x => !x.released) 0x04)) := by
  rw [execResidueRetry, hq, retrySplit_append ha he]
  dsimp only
  rw [hc]
  dsimp only
  rw [hp, if_neg Bool.false_ne_true, if_neg Bool.false_ne_true, State.tileFault_of_no_pass (by rw [hc]; rfl) hb, State.modMx_eq,
    State.modCore_modCore hok]
  rfl

end

/-! ### A flit that arrives (14 R343, R344) -/

/-- What the first arriving flit leaves when it is delivered after `retries` tries: the counters, and the flits behind it. -/
def Matrix.arrive (m : Matrix) (fs : List Flit) (retries : Nat) : Matrix :=
  { m with arriving := fs, crcr := min (m.crcr + min retries 8) 0xFFFFFFFF
           crcf := if decide (8 < retries) then min (m.crcf + 1) 65535 else m.crcf }

/-- A flit of a chain of the core's own crew is put into the slot that takes it. -/
theorem deliverFlit_puts {s : State} {k j : Nat} {f : Flit} {x : RecvSlot} (hc : (s.core k).inCrew f.crew = true) (hs : s.stale k f = false)
    (hx : slotOfChain (s.core k).mx.recv f.crew f.ch = some (j, x)) (ht : x.takes f = true) :
    deliverFlit s k f = some (s.modMx k fun m => { m with recv := setAt m.recv j (some (x.put f)) }) := by
  have hy : s.yieldedHop k f = none := by rw [State.yieldedHop, hc, if_pos rfl]
  rw [deliverFlit, hy]
  dsimp only
  rw [hs, if_neg Bool.false_ne_true, hx]
  dsimp only
  rw [if_pos ht]

/-- The first of the arriving flits is not held back by one before it. -/
theorem deliverFirst_of_some {s t : State} {k retries : Nat} {f : Flit} {fs : List Flit}
    (h : deliverFlit (s.modMx k fun m => m.arrive fs retries) k { f with bad := f.bad || decide (8 < retries) } = some t) :
    deliverFirst s k retries [] (f :: fs) = t := by
  rw [deliverFirst]
  have hfirst : ∀ o, deliverFlit (s.modMx k fun m => m.arrive fs retries) k { f with bad := f.bad || decide (8 < retries) } = o →
      (if List.any [] f.sameWay = true then none else o) = some t := fun o ho => by rw [← ho, h]; rfl
  split
  · rename_i u hu
    exact Option.some.inj (hu.symm.trans (hfirst _ rfl))
  · rename_i hu
    exact absurd (hu.symm.trans (hfirst _ rfl)) (by simp)

theorem basinRowArrival_delivers {s : State} {k j : Nat} {f : Flit} {fs : List Flit} (retries : Nat) {x : RecvSlot} (hok : s.Ok)
    (ha : (s.core k).mx.arriving = f :: fs) (hc : (s.core k).inCrew f.crew = true) (hs : s.stale k f = false)
    (hx : slotOfChain (s.core k).mx.recv f.crew f.ch = some (j, x)) (ht : x.takes f = true) :
    execBasinRowArrival k retries s = .next (s.setCore k { s.core k with mx :=
      { (s.core k).mx.arrive fs retries with
        recv := setAt (s.core k).mx.recv j (some (x.put { f with bad := f.bad || decide (8 < retries) })) } }) := by
  have hcore : (s.modMx k fun m => m.arrive fs retries).core k = { s.core k with mx := (s.core k).mx.arrive fs retries } := by
    rw [State.modMx_eq, State.core_modCore]
  have hd : deliverFlit (s.modMx k fun m => m.arrive fs retries) k { f with bad := f.bad || decide (8 < retries) } = some _ :=
    deliverFlit_puts (by rw [hcore]; exact hc) hs (by rw [hcore]; exact hx) ht
  rw [execBasinRowArrival, ha, deliverFirst_of_some hd, State.modMx_modMx hok]
  rfl

end Sys2Proof.Machine
end

section
/-! PROOFS. A broken chain: each pass that waits on it for rows takes its fault (14 R335). -/

namespace Sys2Proof.Machine

/-! ### What a tile fault of one core leaves of the others -/

/-- The recorded fault, the accumulators and the queue of a matrix engine are as they were. -/
structure Matrix.SameTile (m n : Matrix) : Prop where
  fp : n.fp = m.fp
  fc : n.fc = m.fc
  fword : n.fword = m.fword
  acc : n.acc = m.acc
  queue : n.queue = m.queue

theorem Matrix.SameTile.refl (m : Matrix) : m.SameTile m := ⟨rfl, rfl, rfl, rfl, rfl⟩

theorem Matrix.SameTile.trans {a b c : Matrix} (h : a.SameTile b) (g : b.SameTile c) : a.SameTile c :=
  ⟨g.fp.trans h.fp, g.fc.trans h.fc, g.fword.trans h.fword, g.acc.trans h.acc, g.queue.trans h.queue⟩

/-- What an event of the accumulate network leaves, when only the engines of the cores in `ks` record faults: memory and the fabric,
where the crews' members are, and on every other core the recorded fault, the accumulators and the queue. -/
structure State.BasinStep (s t : State) (ks : List Nat) : Prop where
  ms : t.ms = s.ms
  fab : t.fab = s.fab
  hop : ∀ crew x j, t.hopAt crew x j = s.hopAt crew x j
  task : ∀ j, (t.core j).task = (s.core j).task
  tile : ∀ j, j ∉ ks → (s.core j).mx.SameTile (t.core j).mx

theorem State.BasinStep.refl (s : State) (ks : List Nat) : s.BasinStep s ks :=
  ⟨rfl, rfl, fun _ _ _ => rfl, fun _ => rfl, fun _ _ => .refl _⟩

theorem State.BasinStep.trans {s t u : State} {ks : List Nat} (h : s.BasinStep t ks) (g : t.BasinStep u ks) : s.BasinStep u ks :=
  ⟨g.ms.trans h.ms, g.fab.trans h.fab, fun c x j => (g.hop c x j).trans (h.hop c x j), fun j => (g.task j).trans (h.task j),
    fun j hj => (h.tile j hj).trans (g.tile j hj)⟩

theorem State.BasinStep.mono {s t : State} {ks ls : List Nat} (h : s.BasinStep t ks) (hl : ∀ j, j ∈ ks → j ∈ ls) : s.BasinStep t ls :=
  ⟨h.ms, h.fab, h.hop, h.task, fun j hj => h.tile j fun hk => hj (hl j hk)⟩

theorem State.BasinStep.foldl {α : Type} {f : State → α → State} {ks : List Nat} {l : List α}
    (h : ∀ u : State, ∀ x ∈ l, u.BasinStep (f u x) ks)
    (s : State) : s.BasinStep (l.foldl f s) ks := by
  induction l generalizing s with
  | nil => exact .refl _ _
  | cons x l ih =>
    exact (h s x (List.mem_cons_self ..)).trans (ih (fun u y hy => h u y (List.mem_cons_of_mem _ hy)) _)

/-- A change of one core's engine that keeps its task. -/
theorem State.BasinStep.modCore {s : State} {k : Nat} {f : Core → Core} {ks : List Nat} (ht : (f (s.core k)).task = (s.core k).task)
    (hm : k ∈ ks ∨ (s.core k).mx.SameTile (f (s.core k)).mx) : s.BasinStep (s.modCore k f) ks := by
  refine ⟨rfl, rfl, fun _ _ _ => rfl, fun j => ?_, fun j hj => ?_⟩
  · by_cases h : j = k
    · rw [h, State.core_modCore, ht]
    · rw [State.core_modCore_other s f h]
  · by_cases h : j = k
    · subst h
      rw [State.core_modCore]
      exact hm.resolve_left hj
    · rw [State.core_modCore_other s f h]
      exact .refl _

/-- A chain of a crew is changed: where the members are stays. -/
theorem State.BasinStep.setChain (s : State) (crew ch : Nat) (v : Option Chain) (ks : List Nat) : s.BasinStep (s.setChain crew ch v) ks := by
  refine ⟨rfl, rfl, fun c x j => ?_, fun _ => rfl, fun _ _ => .refl _⟩
  have hcrew : (s.setChain crew ch v).crew c =
      (s.crew c).map fun d => if d.id = crew then { d with chains := SMap.set none d.chains ch v } else d := by
    unfold State.crew State.setChain State.modCrew
    dsimp only
    rw [List.find?_map]
    congr 2
    funext d
    simp only [Function.comp_apply]
    split <;> rfl
  unfold State.hopAt
  rw [hcrew, Option.bind_map]
  congr 1
  funext d
  simp only [Function.comp_apply]
  split <;> rfl

theorem State.BasinStep.setFrames (s : State) (f : SMap (Option Core)) (ks : List Nat) :
    s.BasinStep { s with sched := { s.sched with frames := f } } ks :=
  ⟨rfl, rfl, fun _ _ _ => rfl, fun _ => rfl, fun _ _ => .refl _⟩

theorem State.BasinStep.setRecv (s : State) (k crew : Nat) (l : List (Option RecvSlot)) (ks : List Nat) :
    s.BasinStep (s.setRecv k crew l) ks := by
  unfold State.setRecv
  dsimp only
  split
  · exact .modCore rfl (.inr ⟨rfl, rfl, rfl, rfl, rfl⟩)
  · split
    · exact .setFrames s _ ks
    · exact .refl _ _

theorem State.BasinStep.endPass (s : State) (k crew rank : Nat) (e : MxEntry) (forward : Bool) (ks : List Nat) :
    s.BasinStep (s.endPass k crew rank e forward) ks := by
  unfold State.endPass
  split
  · split
    · exact .refl _ _
    · split
      · exact .refl _ _
      · dsimp only
        have hdrop (x : Chain) (ch n : Nat) : s.BasinStep ((s.setChain crew ch (some x)).dropPass k crew ch n) ks :=
          (State.BasinStep.setChain s crew ch (some x) ks).trans (.setRecv _ k crew _ ks)
        split
        · exact (hdrop _ _ _).trans (.modCore rfl (.inr ⟨rfl, rfl, rfl, rfl, rfl⟩))
        · exact hdrop _ _ _
  · exact .refl _ _

theorem Core.forgiveAll_task (c : Core) (es : List MxEntry) : (c.forgiveAll es).task = c.task := by
  unfold Core.forgiveAll
  induction es generalizing c with
  | nil => rfl
  | cons e es ih =>
    rw [List.foldl_cons, ih]
    unfold Core.forgive
    split <;> rfl

/-- A tile fault records itself in its core, and ends the passes that it discards (13 R306, 14 R337). -/
theorem State.tileFault_records (s : State) (k : Nat) (before : List MxEntry) (e : MxEntry) (after : List MxEntry) (fc : Nat) (ks : List Nat) :
    (s.modCore k fun c => c.recordTile e (e :: after.filter fun x => x.released) (before ++ after.filter fun x => !x.released) fc).BasinStep
      (s.tileFault k before e after fc) ks := by
  unfold State.tileFault
  dsimp only
  split
  · exact .foldl (fun u x _ => .endPass u k _ _ x _ ks) _
  · exact .refl _ _

theorem State.BasinStep.tileFault (s : State) (k : Nat) (before : List MxEntry) (e : MxEntry) (after : List MxEntry) (fc : Nat) :
    s.BasinStep (s.tileFault k before e after fc) [k] :=
  (State.BasinStep.modCore (by rw [Core.recordTile]; exact Core.forgiveAll_task _ _) (.inl (List.mem_singleton_self k))).trans
    (s.tileFault_records k before e after fc [k])

/-! ### The pass that waits -/

theorem breakPass_step (crew ch : Nat) (x : Chain) (s : State) (k : Nat) : s.BasinStep (breakPass crew ch x s k) [k] := by
  unfold breakPass
  extract_lets c waits receives
  split
  · exact .refl _ _
  · split
    · split
      · exact .tileFault s k _ _ _ _
      · exact .refl _ _
    · exact .refl _ _

/-- The first pass in the queue that waits on a chain is the one that is found. -/
theorem findIdx_of_first {p : MxEntry → Bool} {a b : List MxEntry} {e : MxEntry} (ha : ∀ y ∈ a, p y = false) (he : p e = true) :
    (a ++ e :: b).findIdx? p = some a.length := by
  induction a with
  | nil => simp [List.findIdx?_cons, he]
  | cons y a ih =>
    rw [List.cons_append, List.findIdx?_cons, ha y (List.mem_cons_self ..), ih fun z hz => ha z (List.mem_cons_of_mem _ hz)]
    rfl

/-- The pass of `e`, the first in the queue of core `k` that has fired, waits at a receiving hop of a chain for rows. -/
structure State.WaitsOn (s : State) (k crew ch : Nat) (x : Chain) (a : List MxEntry) (e : MxEntry) (b : List MxEntry) : Prop where
  inCrew : (s.core k).inCrew crew = true
  receives : ∃ i, s.hopAt crew x k = some i ∧ (x.role i = .middle ∨ x.role i = .last ∨ x.role i = .destination)
  queue : (s.core k).mx.queue = a ++ e :: b
  first : ∀ y ∈ a, y.pass = none
  released : e.released = true
  fired : e.pass ≠ none
  cmd : ∃ w, e.cmd = .bwait w ∧ passCh w = ch

/-- It waits until its own core is reached. -/
theorem State.WaitsOn.of_step {s t : State} {k crew ch : Nat} {x : Chain} {a b : List MxEntry} {e : MxEntry} {ks : List Nat}
    (h : s.WaitsOn k crew ch x a e b) (hst : s.BasinStep t ks) (hk : k ∉ ks) : t.WaitsOn k crew ch x a e b where
  inCrew := by
    have hc := h.inCrew
    rwa [Core.inCrew, ← hst.task k] at hc
  receives := hst.hop crew x k ▸ h.receives
  queue := (hst.tile k hk).queue.trans h.queue
  first := h.first
  released := h.released
  fired := h.fired
  cmd := h.cmd

/-- A pass that waits at a receiving hop of a broken chain is a tile fault (14 R335). -/
theorem breakPass_of_waiting {crew ch k : Nat} {x : Chain} {s : State} {a b : List MxEntry} {e : MxEntry}
    (h : s.WaitsOn k crew ch x a e b) : breakPass crew ch x s k = s.tileFault k a e b 0x06 := by
  obtain ⟨hc, ⟨i, hh, hr⟩, hq, ha, he, hp, w, hw, hch⟩ := h
  unfold breakPass
  extract_lets c waits receives
  have hrec : receives = true := by
    unfold receives
    rw [hh]
    dsimp only
    rcases hr with h | h | h <;> rw [h] <;> rfl
  have hidx : c.mx.queue.findIdx? waits = some a.length := by
    unfold c waits
    rw [hq]
    refine findIdx_of_first (fun y hy => ?_) ?_
    · rw [ha y hy]
      simp
    · rw [he, hw]
      simp [MxCmd.pass, hch, Option.isSome_iff_ne_none, hp]
  rw [if_neg (by rw [hrec, hc]; decide), hidx]
  unfold c
  rw [hq]
  dsimp only
  rw [List.drop_left, List.take_left]

/-! ### The mark reaches every core -/

theorem State.BasinStep.dropChain (s : State) (crew ch : Nat) (x : Chain) (ks : List Nat) : s.BasinStep (s.dropChain crew ch x) ks := by
  refine .foldl (fun u r _ => ?_) s
  split
  · split
    · exact .refl _ _
    · exact .setRecv u _ crew _ ks
  · exact .refl _ _

theorem SMap.nodup_keys {β : Type} {m : SMap β} (h : SMap.rising none m = true) : (m.map Prod.fst).Nodup := by
  induction m with
  | nil => exact List.nodup_nil
  | cons e m ih =>
    obtain ⟨ha, hm⟩ := (SMap.rising_cons _ _ _).1 h
    refine List.nodup_cons.2 ⟨fun hmem => ?_, ih hm⟩
    obtain ⟨y, hy, hk⟩ := List.mem_map.1 hmem
    have := ha y hy
    omega

theorem breakAll_step (crew ch : Nat) (x : Chain) (l : List Nat) (s : State) : s.BasinStep (l.foldl (breakPass crew ch x) s) l :=
  .foldl (fun u k hk => (breakPass_step crew ch x u k).mono fun _ hj => List.mem_singleton.1 hj ▸ hk) s

/-- What a broken chain does to a member's pass that waits for rows at a receiving hop (14 R335). -/
theorem chainBroken_faults {s : State} {crew ch k : Nat} {x : Chain} {a b : List MxEntry} {e : MxEntry} (hok : s.Ok)
    (h : s.WaitsOn k crew ch x a e b) (hfp : (s.core k).mx.fp = false) :
    let m := ((((s.cores.map Prod.fst).foldl (breakPass crew ch x) s).dropChain crew ch x).core k).mx
    m.fp = true ∧ m.fc = 0x06 ∧ m.fword = e.word ∧ m.acc = (s.core k).mx.acc ∧ m.queue = a ++ b.filter fun y => !y.released := by
  have hmem : k ∈ s.cores.map Prod.fst := by
    by_contra hno
    have hq := h.queue
    rw [State.core, SMap.get_of_not_mem hno] at hq
    exact absurd hq (by simp)
  have hnodup := SMap.nodup_keys ((SMap.wf_iff _ _).1 hok.2).1
  obtain ⟨before, after, hl⟩ := List.append_of_mem hmem
  rw [hl] at hnodup ⊢
  obtain ⟨-, hnd, hdisj⟩ := List.nodup_append.1 hnodup
  have hb : k ∉ before := fun h => hdisj k h k (List.mem_cons_self ..) rfl
  have hf : k ∉ after := (List.nodup_cons.1 hnd).1
  rw [List.foldl_append, List.foldl_cons]
  have h1 := breakAll_step crew ch x before s
  generalize before.foldl (breakPass crew ch x) s = t at h1 ⊢
  have htile := h1.tile k hb
  rw [breakPass_of_waiting (h.of_step h1 hb)]
  have h2 := t.tileFault_records k a e b 0x06 []
  have hrec := Core.recordTile_mx (c := t.core k) e (e :: b.filter fun y => y.released) (a ++ b.filter fun y => !y.released) 0x06
    (htile.fp.trans hfp)
  have h3 := ((breakAll_step crew ch x after (t.tileFault k a e b 0x06)).trans (.dropChain _ crew ch x after)).tile k hf
  have h4 := (h2.tile k (by simp)).trans h3
  rw [State.core_modCore] at h4
  obtain ⟨rfp, rfc, rword, rqueue, racc, -⟩ := hrec
  exact ⟨h4.fp.trans rfp, h4.fc.trans rfc, h4.fword.trans rword, h4.acc.trans (racc.trans htile.acc), h4.queue.trans rqueue⟩

end Sys2Proof.Machine
end

section
/-! PROOFS. The obligation on the matrix engine's commands and numbers. -/

namespace Sys2Proof.Proofs.NumberFormats

open Sys2Proof.Machine

/-- Settles O48: a command that fires, a second try and a flit change their own core alone; a broken chain runs over the cores one by
one, each of which records its own fault and leaves the others' (`State.BasinStep`); an A40 sum whose window loses no bit holds the
exact sum, which is rounded as any number is (`a40Sum_rounds`); and a step writes each of its cells once (`Matrix.step_elem`). -/
theorem matrixEngineFires : Obligations.MatrixEngineFires := by
  unfold Obligations.MatrixEngineFires
  refine ⟨fun s k => ⟨?fire, ?retry, ?flit, ?chain⟩, ?element, ?sum, ?product, ?step⟩
  case fire =>
    intro e es w hok hp hf hq hr hh he
    refine ⟨_, matrixCommandFire_azero hok hp hf hq hr hh he, rfl, rfl, rfl, rfl, fun n r j hr' hj => ?_⟩
    exact get_filter_tiles _ _ _ hr' hj
  case retry =>
    intro a e b w p q hok hp hq ha hr hc
    refine ⟨⟨_, residueRetry_performs hok hp hq ha hr hc, rfl, rfl⟩, fun hfp hb => ?_⟩
    obtain ⟨rfp, rfc, rword, rqueue, racc, rrunc⟩ := Core.recordTile_mx
      (c := { s.core k with mx := { (s.core k).mx with runc := min ((s.core k).mx.runc + 1) 65535 } }) e
      (e :: b.filter fun x => x.released) (a ++ b.filter fun x => !x.released) 0x04 hfp
    exact ⟨_, residueRetry_faults hok hp hq ha hr hc hb, rfp, rfc, rword, rrunc, racc, rqueue⟩
  case flit =>
    intro f fs retries j x hok ha hc hs hx ht
    refine ⟨_, basinRowArrival_delivers retries hok ha hc hs hx ht, rfl, rfl, rfl, ?_, rfl, rfl⟩
    simp [Matrix.arrive]
  case chain =>
    intro crew ch x hok hx hb
    have hexec : exec (.chainBroken crew ch) s = .next (((s.cores.map Prod.fst).foldl (breakPass crew ch x) s).dropChain crew ch x) := by
      change execChainBroken crew ch s = _
      rw [execChainBroken, hx]
      dsimp only
      rw [if_pos hb]
    have hstep := (breakAll_step crew ch x (s.cores.map Prod.fst) s).trans (.dropChain _ crew ch x _)
    exact ⟨_, hexec, hstep.ms, hstep.fab, fun i hc hh hr a e b w hq ha he hp hw hch hfp =>
      chainBroken_faults hok ⟨hc, ⟨i, hh, hr⟩, hq, ha, he, hp, w, hw, hch⟩ hfp⟩
  case element =>
    intro cw hcw b j
    have hbits : classBits cw.1 = cw.2 := by
      simp only [List.mem_cons, List.not_mem_nil, or_false] at hcw
      rcases hcw with rfl | rfl | rfl <;> rfl
    rw [← hbits]
    refine ⟨fun f hf => elementValue_of_format j hf, fun hno => ?_⟩
    rw [elementValue, blockFmt_of_other hno]
  case sum =>
    intro ts em hfin hlead hlost
    exact a40Sum_rounds hfin hlead hlost
  case product =>
    intro a b ha hb
    exact Exact.mul_of_isFin ha hb
  case step =>
    intro m w p q n i j hp hq hi hj h el old
    rw [m.step_elem hp hq hi hj]
    refine if_ctx_congr Iff.rfl (fun hn => ?_) fun _ => rfl
    obtain ⟨rfl, -, -⟩ := hn
    exact stepValue_eq m w p q i j

end Sys2Proof.Proofs.NumberFormats
end

section
/-! SUPPORT. A dirty pack that leaves level 2: its tag, its bytes and its mode (03 R82 to R85). -/

namespace Sys2Proof.Machine

/-- The tag of four blocks has a block's bit where the block is kept. -/
theorem tag_testBit (keep : Nat → Bool) {i : Nat} (hi : i < 4) :
    (b2n (keep 0) + 2 * b2n (keep 1) + 4 * b2n (keep 2) + 8 * b2n (keep 3)).testBit i = keep i := by
  generalize h0 : keep 0 = b0
  generalize h1 : keep 1 = b1
  generalize h2 : keep 2 = b2
  generalize h3 : keep 3 = b3
  have hbits : ∀ b0 b1 b2 b3 : Bool, let tag := b2n b0 + 2 * b2n b1 + 4 * b2n b2 + 8 * b2n b3
      tag.testBit 0 = b0 ∧ tag.testBit 1 = b1 ∧ tag.testBit 2 = b2 ∧ tag.testBit 3 = b3 := by decide
  obtain ⟨t0, t1, t2, t3⟩ := hbits b0 b1 b2 b3
  match i, hi with
  | 0, _ => exact t0.trans h0.symm
  | 1, _ => exact t1.trans h1.symm
  | 2, _ => exact t2.trans h2.symm
  | 3, _ => exact t3.trans h3.symm

/-- Where every block is kept, none is dropped. -/
theorem foldl_drop_of_keep {keep : Nat → Bool} (drop : List Host.Cell → Nat → List Host.Cell) (hk : ∀ i, keep i = true)
    (l : List Nat) (m : List Host.Cell) : l.foldl (fun m i => if keep i then m else drop m i) m = m :=
  foldl_keeps (J := (· = m)) (fun x i hx => by rw [if_pos (hk i)]; exact hx) rfl

section
variable {m : MemSys} {p : Nat} {raw : Bool} (h : SMap.get none m.dirtyPacks p = some raw)
include h

theorem MemSys.packWrite_dirtyPacks : (m.packWrite p).dirtyPacks = SMap.erase m.dirtyPacks p := by
  rw [MemSys.packWrite, h]

theorem MemSys.packWrite_mode : (SMap.get none (m.packWrite p).dirtyPacks p : Option Bool) = none := by
  rw [MemSys.packWrite_dirtyPacks h, SMap.get_erase_same]

/-- A block of the pack is absent afterwards where it has been omitted; the other packs' blocks are as they were. -/
theorem MemSys.packWrite_absent (b : Nat) :
    (m.packWrite p).absent b = if b / 256 = p then !m.kept raw (b / 64) else m.absent b := by
  rw [MemSys.absent, MemSys.packWrite_dirtyPacks h]
  by_cases hb : b / 256 = p
  · have hblock : 4 * p + b / 64 % 4 = b / 64 := by omega
    rw [if_pos hb, hb, SMap.get_erase_same, MemSys.packWrite, h]
    dsimp only
    rw [SMap.get_set_same, tag_testBit (fun i => m.kept raw (4 * p + i)) (Nat.mod_lt _ (by decide)), hblock]
    rfl
  · rw [if_neg hb, SMap.erase, SMap.get_filter_of_keep _ _ _ _ fun v => by simp [hb], MemSys.packWrite, h]
    dsimp only
    rw [SMap.get_set_other _ _ _ hb]
    rfl

/-- The cell of a byte outside the blocks that are omitted stays. -/
theorem MemSys.packWrite_cell {b : Nat} (hb : b / 256 ≠ p ∨ m.kept raw (b / 64) = true) :
    SMap.get emptyByte (m.packWrite p).mem b = SMap.get emptyByte m.mem b := by
  rw [MemSys.packWrite, h]
  refine SMap.get_foldl_filter (upto 0 4) (fun i => m.kept raw (4 * p + i))
    (fun i b => decide (256 * p + 64 * i ≤ b) && decide (b < 256 * p + 64 * i + 64)) m.mem b fun i hi => ?_
  by_cases hin : b / 64 = 4 * p + i
  · have hi4 : i < 4 := by simpa using (mem_upto_iff.1 hi).2
    exact .inl (hin ▸ hb.resolve_left (by omega))
  · exact .inr (by simp only [Bool.and_eq_false_iff, decide_eq_false_iff_not]; omega)

theorem MemSys.packWrite_byte_of_kept {b : Nat} (hb : b / 256 ≠ p ∨ m.kept raw (b / 64) = true) :
    (m.packWrite p).byte b = m.byte b := by
  rw [MemSys.byte, MemSys.byte, MemSys.packWrite_absent h, MemSys.packWrite_cell h hb]
  by_cases hp : b / 256 = p
  · have hdirty : m.absent b = false := by simp [MemSys.absent, hp, h]
    rw [if_pos hp, hb.resolve_left (not_not_intro hp), hdirty]
    rfl
  · rw [if_neg hp]

theorem MemSys.packWrite_byte_of_omitted {b : Nat} (hp : b / 256 = p) (hb : m.kept raw (b / 64) = false) :
    (m.packWrite p).byte b = 0 := by
  rw [MemSys.byte, MemSys.packWrite_absent h, if_pos hp, hb]
  rfl

end

/-- A pack that leaves in raw mode keeps all its blocks (03 R84). -/
theorem MemSys.packWrite_mem_of_raw {m : MemSys} {p : Nat} (h : SMap.get none m.dirtyPacks p = some true) :
    (m.packWrite p).mem = m.mem := by
  rw [MemSys.packWrite, h]
  exact foldl_drop_of_keep _ (fun _ => rfl) _ _

end Sys2Proof.Machine
end

section
/-! SUPPORT. What an error of a stored block, of a copy or of core storage leaves (03 R87; 04 R90, R116; 18 R378). -/

namespace Sys2Proof.Machine

/-! ### Memory and its copies -/

theorem MemSys.setPoison_true_poisoned (m : MemSys) (a b : Nat) :
    (m.setPoison a true).poisoned b = (decide (b / 64 = a / 64) || m.poisoned b) := setInsert_contains _ _ _

theorem MemSys.foldl_setPoison_poisoned (a : Nat → Nat) (l : List Nat) (m : MemSys) (b : Nat) :
    (l.foldl (fun m i => m.setPoison (a i) true) m).poisoned b = (m.poisoned b || l.any fun i => decide (b / 64 = a i / 64)) := by
  induction l generalizing m with
  | nil => simp
  | cons i l ih =>
    rw [List.foldl_cons, ih, MemSys.setPoison_true_poisoned, List.any_cons, Bool.or_comm (decide _) (m.poisoned b), Bool.or_assoc]

theorem MemSys.foldl_setPoison_mem (a : Nat → Nat) (l : List Nat) (m : MemSys) :
    (l.foldl (fun m i => m.setPoison (a i) true) m).mem = m.mem :=
  foldl_keeps (J := fun x : MemSys => x.mem = m.mem) (fun _ _ hx => hx) rfl

/-- The four blocks of a pack are those whose bytes have its number. -/
theorem any_block_of_pack (n b : Nat) : ((upto 0 4).any fun i => decide (b / 64 = (256 * n + 64 * i) / 64)) = decide (b / 256 = n) := by
  rw [Bool.eq_iff_iff, List.any_eq_true, decide_eq_true_iff]
  refine ⟨fun ⟨i, hi, hb⟩ => ?_, fun hb => ⟨b / 64 % 4, mem_upto_iff.2 (by omega), decide_eq_true (by omega)⟩⟩
  have := mem_upto_iff.1 hi
  have := of_decide_eq_true hb
  omega

theorem MemSys.mem_spoilLine_iff (m : MemSys) (k line : Nat) (l : L1Line) : l ∈ (m.spoilLine k line).lines k ↔
    (l ∈ m.lines k ∧ l.line ≠ line) ∨ ∃ x ∈ m.lines k, x.line = line ∧ x.pending = true ∧ l = { x with poison := true } := by
  rw [MemSys.spoilLine, MemSys.lines_setLines, if_pos rfl, List.mem_filterMap]
  constructor
  · rintro ⟨x, hx, he⟩
    by_cases hl : x.line = line
    · by_cases hp : x.pending = true
      · exact .inr ⟨x, hx, hl, hp, by simpa [hl, hp] using he.symm⟩
      · simp [hl, hp] at he
    · obtain rfl : x = l := by simpa [hl] using he
      exact .inl ⟨hx, hl⟩
  · rintro (⟨hx, hl⟩ | ⟨x, hx, hl, hp, rfl⟩)
    · exact ⟨l, hx, by simp [hl]⟩
    · exact ⟨x, hx, by simp [hl, hp]⟩

theorem MemSys.slice_setSlice_same (m : MemSys) (sl : Nat) (ls : List L2Line) : (m.setSlice sl ls).slice sl = ls :=
  SMap.get_set_same _ _ _ _

theorem MemSys.spoilFrame_of_dirty {m : MemSys} {sl i : Nat} {l : L2Line} (hl : (m.slice sl)[i]? = some l)
    (h : SMap.get none m.dirtyPacks (l.line / 4) ≠ none) : m.spoilFrame sl i = m.setPoison (64 * l.line) true := by
  rw [MemSys.spoilFrame, hl]
  exact if_pos (Option.isSome_iff_ne_none.2 h)

theorem MemSys.spoilFrame_of_clean {m : MemSys} {sl i : Nat} {l : L2Line} (hl : (m.slice sl)[i]? = some l)
    (h : SMap.get none m.dirtyPacks (l.line / 4) = none) :
    m.spoilFrame sl i = m.setSlice sl ((m.slice sl).filter fun k => k.line != l.line) := by
  rw [MemSys.spoilFrame, hl]
  exact if_neg (by rw [h]; decide)

theorem MemSys.spoilFrame_mem (m : MemSys) (sl i : Nat) : (m.spoilFrame sl i).mem = m.mem := by
  unfold MemSys.spoilFrame
  split
  · split <;> rfl
  · rfl

theorem MemSys.spoilTlb_mem (m : MemSys) (u i : Nat) : (m.spoilTlb u i).mem = m.mem := by
  unfold MemSys.spoilTlb
  split <;> rfl

theorem MemSys.spoilTlb_levelOne (m : MemSys) {u : Nat} (i : Nat) (hu : u < 512) :
    SMap.get [] (m.spoilTlb u i).tlb u = (SMap.get [] m.tlb u).eraseIdx i := by
  rw [MemSys.spoilTlb, if_pos hu, SMap.get_set_same]

theorem MemSys.spoilTlb_levelTwo (m : MemSys) {u : Nat} (i : Nat) (hu : 512 ≤ u) :
    SMap.get [] (m.spoilTlb u i).tlb2 (u - 512) = (SMap.get [] m.tlb2 (u - 512)).eraseIdx i := by
  rw [MemSys.spoilTlb, if_neg (Nat.not_lt.2 hu), SMap.get_set_same]

theorem MemSys.countCorrected_counter (m : MemSys) (u : EccUnit) (n : Nat) :
    SMap.get 0 (m.countCorrected u n).corrected (1024 * eccIndex u + eccPlace u n) =
      SMap.get 0 m.corrected (1024 * eccIndex u + eccPlace u n) + 1 := by
  rw [MemSys.countCorrected, SMap.get_set_same]

theorem execEccError_hbmBlock (s : State) {n : Nat} (h : space (64 * n) = .hbm) :
    exec (.eccError .hbmBlock n false) s = .next { s with ms := s.ms.setPoison (64 * n) true } :=
  congrArg (fun m => Host.Outcome.next ({ s with ms := m } : State)) (if_pos h)

theorem execEccError_packTag (s : State) {n : Nat} (h : space (256 * n) = .hbm) : exec (.eccError .packTag n false) s =
    .next { s with ms := (upto 0 4).foldl (fun m i => m.setPoison (256 * n + 64 * i) true) s.ms } :=
  congrArg (fun m => Host.Outcome.next ({ s with ms := m } : State)) (if_pos h)

/-! ### Registers and ports -/

theorem RegFile.read_append (r : RegFile) (p : PWrite) (i k m blk : Nat) :
    ({ r with pend := r.pend ++ [p], nextId := i } : RegFile).read k m blk =
      if p.key = k ∧ p.visible m blk = true then applyOp p.op (r.read k m blk) p.val else r.read k m blk := by
  simp [RegFile.read, List.foldl_append]

theorem RegFile.bad_append (r : RegFile) (p : PWrite) (i k m blk : Nat) :
    ({ r with pend := r.pend ++ [p], nextId := i } : RegFile).bad k m blk =
      if p.key = k ∧ p.visible m blk = true then if p.op = .put then p.bad else p.bad <|> r.bad k m blk else r.bad k m blk := by
  simp [RegFile.bad, List.foldl_append]

section
variable (c : Core) (l : Loc) (v : Vec)

theorem Core.spoil_badAt : ((c.spoil l v).badAt l).map Notice.code = some 0x71 := by
  rw [Core.badAt, Core.spoil, RegFile.bad_append, if_pos ⟨rfl, by simp [PWrite.visible]⟩]
  rfl

theorem Core.spoil_read_other {key : Nat} (m blk : Nat) (hk : key ≠ c.key l) :
    (c.spoil l v).regs.read key m blk = c.regs.read key m blk := by
  rw [Core.spoil, RegFile.read_append, if_neg fun h => hk h.1.symm]

theorem Core.spoil_bad_other {key : Nat} (m blk : Nat) (hk : key ≠ c.key l) :
    (c.spoil l v).regs.bad key m blk = c.regs.bad key m blk := by
  rw [Core.spoil, RegFile.bad_append, if_neg fun h => hk h.1.symm]

end

/-- An uncorrectable error in a register, port, mask or shape spoils its place, in its own core. -/
theorem execEccError_spoils (s : State) {u : EccUnit} {l : Loc} {n : Nat} (h : (u, l) ∈ eccLocs (n / 256)) :
    ∃ v, exec (.eccError u n false) s = .next (s.tick.modCore (n % 256) fun c => c.spoil l v) := by
  simp only [eccLocs, List.mem_cons, Prod.mk.injEq, List.not_mem_nil, or_false] at h
  rcases h with ⟨rfl, rfl⟩ | ⟨rfl, rfl⟩ | ⟨rfl, rfl⟩ | ⟨rfl, rfl⟩ | ⟨rfl, rfl⟩ | ⟨rfl, rfl⟩ | ⟨rfl, rfl⟩ <;> exact ⟨_, rfl⟩

/-! ### The matrix engine -/

theorem getElem?_modAt_same {α : Type} (l : List α) (j : Nat) (f : α → α) : (modAt l j f)[j]? = l[j]?.map f := by
  induction l generalizing j with
  | nil => rfl
  | cons x l ih =>
    cases j with
    | zero => rfl
    | succ j => exact ih j

theorem Matrix.spoilHalf_row {m : Matrix} {j p : Nat} {x : RecvSlot} {h : SlotHalf} (hx : m.recv[j]? = some (some x))
    (hh : SMap.get none x.rows p = some h) :
    ∃ x', (m.spoilHalf j p).recv[j]? = some (some x') ∧ SMap.get none x'.rows p = some { h with bad := true } := by
  refine ⟨_, (getElem?_modAt_same _ _ _).trans (by rw [hx]; rfl), ?_⟩
  rw [SMap.get_set_same, hh]
  rfl

end Sys2Proof.Machine
end

section
/-! PROOFS. The obligation on pack writes and errors. -/

namespace Sys2Proof.Proofs.CoefficientTrees

open Sys2Proof.Machine

/-- Settles O50: a pack that leaves drops the cells of its omitted blocks alone (`MemSys.packWrite_absent`, `MemSys.packWrite_cell`);
an error changes one entry of what holds it, or adds a write with a notice to its core's register file (`execEccError_spoils`). -/
theorem packAndErrorEvents : Obligations.PackAndErrorEvents := by
  unfold Obligations.PackAndErrorEvents
  refine fun s _ => ⟨?pack, ?block, ?tag, ?copy, ?frame, ?icache, ?tlb, ?corrected, ?register, ?storage, ?scrub⟩
  case pack =>
    intro p raw h
    refine ⟨_, rfl, rfl, MemSys.packWrite_mode h, fun b hb => MemSys.packWrite_byte_of_kept h hb,
      fun b hp hb => MemSys.packWrite_byte_of_omitted h hp hb, ?_⟩
    rintro rfl
    exact MemSys.packWrite_mem_of_raw h
  case block =>
    intro n hn
    exact ⟨_, execEccError_hbmBlock s hn, MemSys.setPoison_poisoned_same _ _ _, rfl, rfl, fun b hb => MemSys.setPoison_poisoned _ _ _ _ (by omega)⟩
  case tag =>
    intro n hn
    refine ⟨_, execEccError_packTag s hn, MemSys.foldl_setPoison_mem _ _ _, rfl, fun b => ?_⟩
    exact (MemSys.foldl_setPoison_poisoned _ _ _ _).trans (congrArg _ (any_block_of_pack n b))
  case copy =>
    intro n
    refine ⟨_, rfl, rfl, rfl, fun l hl he => ?_, fun l hl hne => (MemSys.mem_spoilLine_iff _ _ _ _).2 (.inl ⟨hl, hne⟩)⟩
    rcases (MemSys.mem_spoilLine_iff _ _ _ _).1 hl with ⟨-, hne⟩ | ⟨x, -, -, hp, rfl⟩
    · exact absurd he hne
    · exact ⟨hp, rfl⟩
  case frame =>
    intro n l hl
    refine ⟨_, rfl, MemSys.spoilFrame_mem _ _ _, rfl, fun hclean => ?_, fun hdirty => ?_⟩
    · rw [MemSys.spoilFrame_of_clean hl hclean]
      exact ⟨rfl, MemSys.slice_setSlice_same _ _ _⟩
    · rw [MemSys.spoilFrame_of_dirty hl hdirty]
      exact ⟨MemSys.setPoison_poisoned_same _ _ _, rfl, fun b hb => MemSys.setPoison_poisoned _ _ _ _ (by omega)⟩
  case icache =>
    exact fun n => ⟨_, rfl, rfl, rfl, SMap.get_set_same _ _ _ _⟩
  case tlb =>
    exact fun n => ⟨_, rfl, MemSys.spoilTlb_mem _ _ _, rfl, MemSys.spoilTlb_levelOne _ _, MemSys.spoilTlb_levelTwo _ _⟩
  case corrected =>
    exact fun u n => ⟨_, rfl, rfl, rfl, MemSys.countCorrected_counter _ _ _⟩
  case register =>
    intro n u l c h
    obtain ⟨v, hexec⟩ := execEccError_spoils s h
    exact ⟨_, c.spoil l v, hexec, rfl, State.core_modCore _ _ _, c.spoil_badAt l v, rfl, rfl,
      fun key m blk hk => ⟨c.spoil_read_other l v m blk hk, c.spoil_bad_other l v m blk hk⟩,
      fun j hj => State.core_modCore_other _ _ hj⟩
  case storage =>
    intro n c
    have hcore : ∀ f : Core → Core, (s.tick.modCore (n % 256) f).core (n % 256) = f c := State.core_modCore _ _
    refine ⟨⟨_, rfl, ?_⟩, ⟨_, rfl, ?_⟩, ⟨_, rfl, ?_⟩, ?_⟩
    · rw [hcore]
      exact ⟨mem_setInsert _ _, rfl, rfl⟩
    · rw [hcore]
      exact ⟨mem_setInsert _ _, mem_setInsert _ _, rfl, rfl⟩
    · rw [hcore]
      exact ⟨mem_setInsert _ _, mem_setInsert _ _, rfl, rfl⟩
    · intro x h i hx hh
      obtain ⟨x', hrecv, hrow⟩ := Matrix.spoilHalf_row hx hh
      refine ⟨_, x', rfl, ?_, hrow, rfl⟩
      rw [hcore]
      exact hrecv
  case scrub =>
    intro b
    change ∃ t, execHbmScrub b s = .next t ∧ _
    unfold execHbmScrub
    split
    · exact ⟨_, rfl, rfl, rfl, rfl⟩
    · exact ⟨_, rfl, rfl, rfl, rfl⟩

end Sys2Proof.Proofs.CoefficientTrees
end

section
/-! PROOFS. Triggers of `ls2` that pass: what the state in which the parcel is done keeps, and what the faults of the parcel are there
(06 R179, 08 R204, 18 R380). -/

namespace Sys2Proof.Machine

/-- The state in which the parcel at the head of the bundle is done. -/
def State.popped (s : State) : State := s.setCore s.curCore s.me.pop

@[simp] theorem State.core_popped (s : State) : s.popped.core s.curCore = s.me.pop := State.core_setCore _ _ _

@[simp] theorem State.popped_ms (s : State) : s.popped.ms = s.ms := rfl

@[simp] theorem State.who_popped (s : State) : s.popped.who s.curCore = s.who s.curCore := by
  simp only [State.who, State.core_popped]
  rfl

@[simp] theorem State.xlWaits_popped (s : State) : s.popped.xlWaits s.curCore = s.xlWaits s.curCore := by
  simp only [State.xlWaits, State.core_popped]
  rfl

@[simp] theorem State.storeFull_popped (s : State) : s.popped.storeFull s.curCore = s.storeFull s.curCore := by
  simp only [State.storeFull, State.core_popped]
  rfl

/-! ### The faults of the parcel -/

theorem moveFault_popped (s : State) (sl : Slot) (code addr : Nat) : moveFault s.popped s.curCore sl code addr = s.faults sl code addr 0 := by
  rw [moveFault, State.core_popped]
  rfl

theorem kindFault_popped (s : State) (sl : Slot) (code addr kind : Nat) :
    kindFault s.popped s.curCore sl code addr kind = s.faults sl code addr kind := by
  rw [kindFault, State.core_popped]
  rfl

theorem kindFault_popped_withMs (s : State) (ms : MemSys) (sl : Slot) (code addr kind : Nat) :
    kindFault { s.popped with ms := ms } s.curCore sl code addr kind = { s with ms := ms }.faults sl code addr kind := by
  unfold kindFault
  rw [State.core_congr (s := s.popped) (t := { s.popped with ms := ms }) rfl, State.core_popped]
  rfl

theorem accessFaultAt_popped (s : State) (ms : MemSys) (sl : Slot) (f : XFault) (kind : Nat) :
    accessFaultAt { s.popped with ms := ms } s.curCore sl f kind = s.accessFaults ms sl f kind := by
  unfold accessFaultAt
  rw [State.core_congr (s := s.popped) (t := { s.popped with ms := ms }) rfl, State.core_popped]
  rfl

/-! ### The change of the core whose turn it is -/

theorem State.setCore_popped {s : State} (h : s.Ok) (ms : MemSys) (f : Core → Core) :
    ({ s.popped with ms := ms } : State).setCore s.curCore (f s.me.pop) = { s with ms := ms }.after f :=
  congrArg (fun t : State => { t with ms := ms }) (State.setCore_setCore h s.curCore s.me.pop (f s.me.pop))

/-! ### Triggers -/

section
variable {s : State} {sl : Slot} {dk : DKind} {g : Guard} {src : Src} {need : Core → Bool} {act : State → Nat → Core → Vec → State}
  (h : s.Passes sl g src) (hn : need s.me = true)
include h hn

theorem accessTrigger_passes (hx : s.xlWaits s.curCore = false) :
    accessTrigger s sl dk g src need act = .next (act s.popped s.curCore s.me.pop (s.value sl src dk)) := by
  rw [accessTrigger, triggerOr_passes (reads := fun _ => []) h hn]
  change Host.Outcome.next (Option.getD (if s.popped.xlWaits s.curCore = true then none else some _) s) = _
  rw [State.xlWaits_popped, hx]
  rfl

theorem storeTrigger_passes {access : Bool} (hx : (access && s.xlWaits s.curCore) = false) (hf : s.storeFull s.curCore = false) :
    storeTrigger access s sl dk g src need act = .next (act s.popped s.curCore s.me.pop (s.value sl src dk)) := by
  rw [storeTrigger, triggerOr_passes (reads := fun _ => []) h hn]
  change Host.Outcome.next (Option.getD
    (if (access && s.popped.xlWaits s.curCore || s.popped.storeFull s.curCore) = true then none else some _) s) = _
  rw [State.xlWaits_popped, State.storeFull_popped, hx, hf]
  rfl

theorem regTrigger_passes (hok : s.Ok) {f : Core → Vec → Core} :
    regTrigger s sl dk g src need f = .next (s.after fun c => f c (s.value sl src dk)) := by
  rw [regTrigger, trigger_passes (reads := fun _ => []) h hn, State.setCore_setCore hok]
  rfl

end

end Sys2Proof.Machine
end

section
/-! PROOFS. Accesses to coherent pages by the ordering operations (05 R134 to R142, 08 R219 to R221). -/

namespace Sys2Proof.Machine

/-- The common form of the ordering operations on an address: `p` is the port that holds it, `code` the fault of an address that is not
aligned to `size`. -/
def coherentOp (s : State) (g : Guard) (src : Src) (p code size : Nat) (kind : XKind) (act : Core → Word → Xlat → Core) : Out :=
  accessTrigger s .s2 .scalar g src Core.loadRoom fun s k c v =>
    let a := (c.portW .s2 p).toNat
    if a % size ≠ 0 then kindFault s k .s2 code a kind.code
    else
      match translate s.ms (s.who k) a kind with
      | (ms, .error f) => accessFaultAt { s with ms := ms } k .s2 f kind.code
      | (ms, .ok x) =>
        if !leafCoh x.leaf then kindFault { s with ms := ms } k .s2 0x11 a kind.code
        else { s with ms := ms }.setCore k (act c (v.setWidth 64) x)

/-- What such an operation does where its parcel passes: the faults of the address, of the translation and of the page, in this order,
and otherwise the change of the core. -/
def State.coherentAccess (s : State) (code a size : Nat) (kind : XKind) (act : Xlat → Core) : State :=
  if a % size ≠ 0 then s.faults .s2 code a kind.code
  else
    match translate s.ms (s.who s.curCore) a kind with
    | (ms, .error f) => s.accessFaults ms .s2 f kind.code
    | (ms, .ok x) => if leafCoh x.leaf = false then { s with ms := ms }.faults .s2 0x11 a kind.code else { s with ms := ms }.after fun _ => act x

section
variable {s : State} {g : Guard} {src : Src} (hok : s.Ok) (h : s.Passes .s2 g src) (hn : s.me.loadRoom = true)
  (hx : s.xlWaits s.curCore = false)
include hok h hn hx

theorem coherentOp_passes (p code size : Nat) (kind : XKind) (act : Core → Word → Xlat → Core) : coherentOp s g src p code size kind act =
    .next (s.coherentAccess code (s.me.portW .s2 p).toNat size kind fun x => act s.me.pop (s.word .s2 src) x) := by
  rw [coherentOp, accessTrigger_passes h hn hx, State.coherentAccess]
  dsimp only
  rw [State.popped_ms, State.who_popped, Core.pop_portW]
  split
  · rw [kindFault_popped]
  · rcases translate s.ms (s.who s.curCore) (s.me.portW .s2 p).toNat kind with ⟨ms, f | x⟩
    · dsimp only
      rw [accessFaultAt_popped]
    · dsimp only
      cases leafCoh x.leaf
      · rw [Bool.not_false, if_pos rfl, if_pos rfl, kindFault_popped_withMs]
      · rw [Bool.not_true, if_neg Bool.false_ne_true, if_neg (Ne.symm Bool.false_ne_true)]
        exact congrArg _ (State.setCore_popped hok ms fun _ => act s.me.pop (s.word .s2 src) x)

theorem flagOp_passes (kind : XKind) (act : Core → Xlat → Nat → Core) : flagOp s g src kind act =
    .next (s.coherentAccess 0x05 (s.me.portW .s2 0).toNat 8 kind fun x => act s.me.pop x (wfield (s.word .s2 src) 2 0)) :=
  coherentOp_passes hok h hn hx 0 0x05 8 kind fun c w x => act c x (wfield w 2 0)

theorem bollardOp_passes (p : Nat) (kind : XKind) (act : Core → Word → Xlat → Core) : bollardOp s g src p kind act =
    .next (s.coherentAccess 0x11 (s.me.portW .s2 p).toNat 64 kind fun x => act s.me.pop (s.word .s2 src) x) :=
  coherentOp_passes hok h hn hx p 0x11 64 kind act

/-- What an ordering operation with a row of `orderForms` does to its core: it is held with its operands, and owes its result. -/
def Core.holdOrdered (c : Core) (owed : Option Bool) (op : HOp) : Core :=
  match owed with
  | some ld => (c.owe .s2 (.rport 2 false) .put 11 ld).hold .s2 op (some c.nextId)
  | none => c.hold .s2 op none

/-- Each ordering operation on an address is an access to a coherent page with the operands of its row. -/
theorem exec_orderForms : ∀ e ∈ orderForms, exec (e.1 g src) s =
    .next (s.coherentAccess e.2.1.2.2.1 (s.me.portW .s2 e.2.1.1).toNat e.2.1.2.1 e.2.1.2.2.2 fun x =>
      s.me.pop.holdOrdered e.2.2.1 (e.2.2.2 (s.word .s2 src) (s.me.portW .s2 0) (s.me.portW .s2 1) x)) := by
  simp only [orderForms, List.forall_mem_cons]
  refine ⟨?ldAcq, ?stRel, ?acq, ?rel, ?moor, ?unmoor, by simp⟩
  case ldAcq => exact flagOp_passes hok h hn hx .load fun c x sc => c.oweR 11 true (.ldAcq sc x)
  case stRel => exact flagOp_passes hok h hn hx .store fun c x sc => c.hold .s2 (.stRel sc x (c.portW .s2 1)) none
  case acq => exact bollardOp_passes hok h hn hx 0 .load fun c w x => c.oweR 11 true (.acq (wfield w 2 0) x)
  case rel => exact bollardOp_passes hok h hn hx 0 .store fun c w x => c.hold .s2 (.rel (wfield w 2 0) x (c.portW .s2 1)) none
  case moor => exact bollardOp_passes hok h hn hx 1 .load fun c w x => c.oweR 11 false (.moor w (c.portW .s2 0) x)
  case unmoor => exact bollardOp_passes hok h hn hx 1 .load fun c w x => c.oweR 11 false (.unmoor w x)

end

end Sys2Proof.Machine
end

section
/-! PROOFS. The obligation on the ordering operations. -/

namespace Sys2Proof.Proofs.Ordering

open Sys2Proof.Machine

/-- Settles O32: each ordering operation is an access to a coherent page (`exec_orderForms`), whose faults come in the order of its
checks. -/
theorem orderingHeld : Obligations.OrderingHeld := by
  unfold Obligations.OrderingHeld
  intro e he g src s hok hp hn hx
  have hexec := exec_orderForms hok hp hn hx e he
  dsimp only
  generalize (s.me.portW .s2 e.2.1.1).toNat = a at *
  unfold State.coherentAccess at hexec
  split
  case isTrue hm => rwa [if_pos hm] at hexec
  case isFalse hm =>
    rw [if_neg hm] at hexec
    generalize translate s.ms (s.who s.curCore) a e.2.1.2.2.2 = r at hexec ⊢
    rcases r with ⟨ms, f | x⟩
    · exact hexec
    · dsimp only at hexec ⊢
      split
      case isTrue hc => rwa [if_pos hc] at hexec
      case isFalse hc => rwa [if_neg hc] at hexec

end Sys2Proof.Proofs.Ordering
end

section
/-! PROOFS. Fences, maintenance, pool operations and address generation as they are dispatched (05 R144, 08 R209, R222 to R225). -/

namespace Sys2Proof.Machine

/-- The room that a store finds once its parcel is done is the room that it found before. -/
theorem makeStoreRoom_popped (s : State) : makeStoreRoom s.popped s.curCore = s.withRoom s := by
  have hst : (s.popped.core s.curCore).st + (s.popped.core s.curCore).stHeld + s.popped.treesOut s.curCore = s.stCounted := by
    rw [State.core_popped]
    rfl
  rw [makeStoreRoom, hst, State.withRoom]
  by_cases hroom : s.stCounted < 63
  · rw [if_neg (by omega), if_pos hroom]
    rfl
  · rw [if_pos (by omega), if_neg hroom]
    rfl

theorem State.setCore_popped_self {s : State} (h : s.Ok) (f : Core → Core) : s.popped.setCore s.curCore (f s.me.pop) = s.after f :=
  State.setCore_setCore h s.curCore s.me.pop (f s.me.pop)

/-- A privilege fault of the parcel: FADDR is a free value (log entry 20). -/
theorem privilegeFault_popped (s : State) (sl : Slot) : privilegeFault s.popped s.curCore sl = takeFault s.popped.tick s.curCore
    { code := 0x03, addr := (Config.faultAddr s.fresh).toNat, slot := sl.num, bidx := s.me.ctl.bidx } := by
  unfold privilegeFault moveFault
  rw [State.core_congr (s := s.popped) (t := s.popped.tick) rfl, State.core_popped]
  rfl

section
variable {s : State} {g : Guard} {src : Src} (hok : s.Ok) (h : s.Passes .s2 g src) (hn : s.me.storeRoom = true)
include hok h hn

theorem execLs2Fence_holds : execLs2Fence g src s = .next (s.after fun c => c.hold .s2
    (.fence (wfield (s.word .s2 src) 2 0) (wfield (s.word .s2 src) 14 8) (wfield (s.word .s2 src) 22 16)) none) :=
  regTrigger_passes h hn hok

theorem execLs2Xlwait_holds : execLs2Xlwait g src s = .next (s.after fun c => c.hold .s2 (.xlwait none) none) :=
  regTrigger_passes h hn hok

theorem rangeOp_passes (op : Nat → Nat → HOp) : rangeOp s g src op =
    .next (if (s.me.portW .s2 0).toNat % 64 ≠ 0 ∨ (s.me.portW .s2 0).toNat = 0 ∨ 2 ^ 40 < (s.me.portW .s2 0).toNat
      then s.faults .s2 0x04 (s.me.portW .s2 0).toNat 0
      else s.after fun c => c.hold .s2 (op (s.word .s2 src).toNat (s.me.portW .s2 0).toNat) none) := by
  rw [rangeOp, trigger_passes (reads := fun _ => []) h hn]
  dsimp only
  rw [Core.pop_portW, pow2_eq]
  split
  · exact congrArg _ (moveFault_popped s ..)
  · exact congrArg _ (State.setCore_popped_self hok fun c => c.hold .s2 (op (s.word .s2 src).toNat (s.me.portW .s2 0).toNat) none)

omit hok in
theorem flushOp_passes (hf : s.storeFull s.curCore = false) (inv : Bool) : flushOp s g src inv =
    .next (if (s.me.portW .s2 0).toNat % 64 ≠ 0 ∨ (s.me.portW .s2 0).toNat = 0 ∨ 2 ^ 40 < (s.me.portW .s2 0).toNat
      then s.faults .s2 0x04 (s.me.portW .s2 0).toNat 0
      else (s.withRoom s).modCore s.curCore fun c =>
        c.hold .s2 (.cacheRegion inv (s.word .s2 src).toNat (s.me.portW .s2 0).toNat) none) := by
  rw [flushOp, storeTrigger_passes h hn rfl hf]
  dsimp only
  rw [Core.pop_portW, pow2_eq, makeStoreRoom_popped]
  split
  · rw [moveFault_popped]
  · rfl

/-- In supervisor mode: the operand that breaks a limit of `xlinv` faults, and without one the operation is held. -/
theorem execLs2Xlinv_sup (hs : s.me.trap.sup = true) {bad : Option Word}
    (hb : xlinvBad ((s.word .s2 src).extractLsb' 0 2).toNat (s.me.portW .s2 0) (s.me.portW .s2 1) (s.me.portW .s2 2) = bad) :
    execLs2Xlinv g src s = .next (bad.elim
      (s.after fun c => c.hold .s2 (.xlinv ((s.word .s2 src).extractLsb' 0 2).toNat (s.me.portW .s2 0).toNat
        (s.me.portW .s2 1).toNat (s.me.portW .s2 2).toNat) none)
      fun b => s.faults .s2 0x04 b.toNat 0) := by
  rw [execLs2Xlinv, trigger_passes (reads := fun _ => []) h hn]
  dsimp only
  rw [Core.pop_trap, hs, Bool.not_true, if_neg Bool.false_ne_true, Core.pop_portW, Core.pop_portW, Core.pop_portW]
  change xlinvBad (wfield ((s.value .s2 src .scalar).setWidth 64 : Word) 1 0) _ _ _ = bad at hb
  rw [hb]
  cases bad with
  | some b => exact congrArg _ (moveFault_popped s ..)
  | none => exact congrArg _ (State.setCore_popped_self hok fun c => c.hold .s2 _ none)

omit hok in
theorem execLs2Xlinv_user (hs : s.me.trap.sup = false) : execLs2Xlinv g src s = .next (takeFault s.popped.tick s.curCore
    { code := 0x03, addr := (Config.faultAddr s.fresh).toNat, slot := 2, bidx := s.me.ctl.bidx }) := by
  rw [execLs2Xlinv, trigger_passes (reads := fun _ => []) h hn]
  dsimp only
  rw [Core.pop_trap, hs, Bool.not_false, if_pos rfl]
  exact congrArg _ (privilegeFault_popped s .s2)

end

/-! ### Pool operations -/

/-- The result that a pool operation owes, with memory in state `ms`. -/
def State.poolHeld (s : State) (ms : MemSys) (op : HOp) : State :=
  { s with ms := ms }.after fun c => c.oweR 14 false op

/-- The fault of a pool operation on a page that is not pooled. -/
def State.unpooled (s : State) (ms : MemSys) (va : Nat) : State := s.accessFaults ms .s2 { code := 0x15, lvl := 7, addr := va } 2

/-- What a pool operation on one entry does where its parcel passes. -/
def State.poolAccess (s : State) (a : Nat) (op : Xlat → Nat → HOp) : State :=
  match poolEntry s.ms (s.who s.curCore) a with
  | (ms, .error f) => s.accessFaults ms .s2 f 2
  | (ms, .ok none) => s.unpooled ms a
  | (ms, .ok (some (x, p))) => s.poolHeld ms (op x p)

/-- What `pool.share` does where its parcel passes: both addresses are translated before a page that is not pooled faults. -/
def State.poolShared (s : State) (a b : Nat) : State :=
  match poolEntry s.ms (s.who s.curCore) a with
  | (ms, .error f) => s.accessFaults ms .s2 f 2
  | (m1, .ok d) =>
    match poolEntry m1 (s.who s.curCore) b with
    | (ms, .error f) => s.accessFaults ms .s2 f 2
    | (m2, .ok e) =>
      match d, e with
      | none, _ => s.unpooled m2 a
      | some _, none => s.unpooled m2 b
      | some (x, p), some (y, q) => s.poolHeld m2 (.poolShare x y p q)

theorem poolFault_popped (s : State) (ms : MemSys) (va : Nat) : poolFault { s.popped with ms := ms } s.curCore va = s.unpooled ms va :=
  accessFaultAt_popped ..

section
variable {s : State} {g : Guard} {src : Src} (hok : s.Ok) (h : s.Passes .s2 g src) (hn : s.me.storeRoom = true)
  (hx : s.xlWaits s.curCore = false)
include hok h hn hx

theorem poolOp1_passes (op : Xlat → Nat → HOp) : poolOp1 s g src op = .next (s.poolAccess (s.word .s2 src).toNat op) := by
  rw [poolOp1, accessTrigger_passes h hn hx, State.poolAccess, State.word]
  dsimp only
  rw [State.popped_ms, State.who_popped]
  rcases poolEntry s.ms (s.who s.curCore) ((s.value .s2 src .scalar).setWidth 64 : Word).toNat with ⟨ms, f | _ | ⟨x, p⟩⟩
  · exact congrArg _ (accessFaultAt_popped ..)
  · exact congrArg _ (poolFault_popped ..)
  · exact congrArg _ (State.setCore_popped hok ms fun c => c.oweR 14 false (op x p))

theorem poolOp2_passes : poolOp2 s g src = .next (s.poolShared (s.word .s2 src).toNat (s.me.portW .s2 0).toNat) := by
  rw [poolOp2, accessTrigger_passes h hn hx, State.poolShared, State.word]
  dsimp only
  rw [State.popped_ms, State.who_popped, Core.pop_portW]
  rcases poolEntry s.ms (s.who s.curCore) ((s.value .s2 src .scalar).setWidth 64 : Word).toNat with ⟨m1, f | d⟩
  · exact congrArg _ (accessFaultAt_popped ..)
  · dsimp only
    rcases poolEntry m1 (s.who s.curCore) (s.me.portW .s2 0).toNat with ⟨m2, f | e⟩
    · exact congrArg _ (accessFaultAt_popped ..)
    · rcases d with _ | ⟨x, p⟩
      · exact congrArg _ (poolFault_popped ..)
      · rcases e with _ | ⟨y, q⟩
        · exact congrArg _ (poolFault_popped ..)
        · exact congrArg _ (State.setCore_popped hok m2 fun c => c.oweR 14 false (.poolShare x y p q))

end

/-! ### Address generation -/

theorem addressGen_delivers {s : State} {g : Guard} {src : Src} (hok : s.Ok) (h : s.Passes .s2 g src) (hf : s.me.FirstAt .s2 (.rport 2 true))
    (i : Nat) : ∃ c', s.me.pop.Wrote (.rport 2 true) .put ((s.word .s2 src + s.me.portW .s2 0 <<< i).setWidth 1024) (s.me.la 15) c' ∧
      addressGen s g src i = .next (s.setCore s.curCore c') :=
  ⟨_, Core.write_wrote s.me.pop .s2 _ _ _ _ hf, regTrigger_passes h rfl hok⟩

end Sys2Proof.Machine
end

section
/-! PROOFS. The obligation on fences, pool operations, maintenance and address generation. -/

namespace Sys2Proof.Proofs.Ordering

open Sys2Proof.Machine

/-- Settles O33: each operation passes as the trigger of its form does, and its fields are those of the written value. -/
theorem maintenanceAndAddresses : Obligations.MaintenanceAndAddresses := by
  unfold Obligations.MaintenanceAndAddresses
  refine ⟨?maintenance, ?pool, ?ea⟩
  case maintenance =>
    intro g src s hok hp hn
    refine ⟨execLs2Fence_holds hok hp hn, execLs2Xlwait_holds hok hp hn, rangeOp_passes hok hp hn _, fun hf => ?_, fun hs => ?_,
      fun hs => execLs2Xlinv_user hp hn hs⟩
    · simp only [List.forall_mem_cons]
      exact ⟨flushOp_passes hp hn hf false, flushOp_passes hp hn hf true, by simp⟩
    · split
      case h_1 b hb => exact execLs2Xlinv_sup hok hp hn hs hb
      case h_2 hb => exact execLs2Xlinv_sup hok hp hn hs hb
  case pool =>
    intro g src s hok hp hn hx
    exact ⟨poolOp1_passes hok hp hn hx _, poolOp1_passes hok hp hn hx _, poolOp2_passes hok hp hn hx⟩
  case ea =>
    intro e he g src s hok hp hf
    revert e
    simp only [List.forall_mem_cons]
    exact ⟨addressGen_delivers hok hp hf 0, addressGen_delivers hok hp hf 1, addressGen_delivers hok hp hf 2, addressGen_delivers hok hp hf 3,
      addressGen_delivers hok hp hf 4, addressGen_delivers hok hp hf 5, addressGen_delivers hok hp hf 6, by simp⟩

end Sys2Proof.Proofs.Ordering
end

section
/-! PROOFS. What a core's own stores leave pending in a line that has reached its home (04 R99 to R101), through the accesses that
follow. -/

namespace Sys2Proof.Machine

/-- Core `core` has nothing to write back to line `line`. -/
def OwnCalm (core line : Nat) : Nat → L1Line → Prop := fun k l => k = core → l.line = line → l.pending = false

theorem ownCalm_settleClosed (core line : Nat) : SettleClosed (OwnCalm core line) := by
  intro k drop l l' hs _ _ _
  obtain ⟨-, -, hp⟩ := L1Line.settled_some hs
  exact hp

section
variable {core line : Nat} {m : MemSys}

/-- What a flush of any line leaves. -/
theorem MemSys.flushLine_ownCalm (drop : Bool) (l : L1Line) (h : m.LinesHave (OwnCalm core line)) :
    (MemSys.flushLine core drop m l).LinesHave (OwnCalm core line) := by
  have hsent : (if l.pending = true then MemSys.sendLine core (if l.coh = true then m.expel l.line (some core) else m) l
      else m).LinesHave (OwnCalm core line) :=
    ite_linesHave (MemSys.sendLine_linesHave _ _ (ite_linesHave (MemSys.expel_linesHave _ _ h) h)) h
  refine MemSys.setLines_linesHave _ _ (fun l' hl' => ?_) hsent
  obtain ⟨j, hj, hjl⟩ := List.mem_filterMap.1 hl'
  split at hjl
  · obtain ⟨-, -, hp⟩ := L1Line.settled_some hjl
    exact fun _ _ => hp
  · cases hjl
    exact hsent _ _ hj

/-- A flush of the line itself settles every copy that the core has of it. -/
theorem MemSys.flushLine_brings_ownCalm (m : MemSys) (drop : Bool) {l : L1Line} (hl : l.line = line) :
    (MemSys.flushLine core drop m l).LinesHave (OwnCalm core line) := by
  rintro _ l' hl' rfl hline
  rw [MemSys.flushLine, MemSys.lines_setLines, if_pos rfl] at hl'
  obtain ⟨j, -, hjl⟩ := List.mem_filterMap.1 hl'
  split at hjl
  · obtain ⟨-, -, hp⟩ := L1Line.settled_some hjl
    exact hp
  · rename_i hne
    cases hjl
    exact absurd (hline.trans hl.symm) hne

/-- What the core has stored into a line has reached its home. -/
theorem MemSys.ownHome_ownCalm (m : MemSys) (core line : Nat) (need : Block) :
    (m.ownHome core line need).LinesHave (OwnCalm core line) := by
  unfold MemSys.ownHome MemSys.flushWhere
  generalize m.drainWhere core (fun e => e.line == line && e.mask &&& need != 0) = d
  generalize hgone : (d.lines core).filter (fun l => l.line == line && l.pending) = gone
  cases gone with
  | nil =>
    rintro _ l hl rfl hline
    simpa [hline] using List.filter_eq_nil_iff.1 hgone l hl
  | cons l ls =>
    have hl : l ∈ (d.lines core).filter (fun l => l.line == line && l.pending) := hgone ▸ List.mem_cons_self
    have hline : l.line = line := by simpa using (Bool.and_eq_true_iff.1 (List.mem_filter.1 hl).2).1
    exact foldl_brings (fun m x hm => MemSys.flushLine_ownCalm false x hm) List.mem_cons_self
      fun m => MemSys.flushLine_brings_ownCalm m false hline

end

section
variable {P : Nat → L1Line → Prop} {m : MemSys}

/-- A read at a home takes lines out of the level-1 caches or settles them. -/
theorem homeRead_linesHave (hP : SettleClosed P) (w : Who) (x : Xlat) (pa n path : Nat) (kind : AccessKind) (h : m.LinesHave P) :
    (homeRead m w x pa n path kind).1.LinesHave P := by
  have hc := MemSys.check_linesHave hP w.die w.mid pa kind (leafTh x.leaf) h
  have hv := MemSys.visit_linesHave w.die pa (leafTh x.leaf) false (MemSys.recall_linesHave hP (pa / 64) hc)
  unfold homeRead
  dsimp only
  split
  · exact hc
  · split
    · exact hc
    · split
      · split
        · exact hv.congr rfl
        · exact hv
      · exact hv

theorem MemSys.claim_linesHave (die pa : Nat) (th : Bool) (h : m.LinesHave P) : (m.claim die pa th).LinesHave P := by
  unfold MemSys.claim MemSys.reach
  refine ite_linesHave h ?_
  have hcls := MemSys.classOf_linesHave false (homeSlice m die pa th) pa (if m.rr = [] then [] else upto 0 8) h
  have hleft := fun c [Decidable c] => ite_linesHave (c := c) (MemSys.leavePartitions_linesHave die (pa / 64) hcls) hcls
  exact ite_linesHave (MemSys.occupy_linesHave _ _ _ (hleft _))
    (foldl_keeps (fun _ _ hm => MemSys.occupy_linesHave _ _ _ hm) (MemSys.freshPack_linesHave _ _ (hleft _)))

/-- Where the home has been claimed for a core that has nothing to write back to the line, no tracked copy has. -/
theorem MemSys.claimHome_calm {core pa : Nat} (die : Nat) (th : Bool) (h : m.LinesHave (OwnCalm core (pa / 64))) :
    (m.claimHome die pa th (some core)).LinesHave (Calm (pa / 64)) := by
  intro j l hl hline hcoh
  by_cases hj : j = core
  · exact MemSys.claim_linesHave die pa th (MemSys.expel_linesHave (pa / 64) (some core) h) j l hl hj hline
  · have huntracked : (m.expel (pa / 64) (some core)).LinesHave (Untracked j (pa / 64)) :=
      MemSys.expel_untracked m (pa / 64) fun he => hj (Option.some.inj he).symm
    have hgone := MemSys.claim_linesHave die pa th huntracked j l hl rfl hline
    rw [hcoh] at hgone
    cases hgone

theorem MemSys.claimHome_still {m0 : MemSys} {q : Nat} (die pa : Nat) (th : Bool) (own : Option Nat) (h : MemSys.Still m0 q m) :
    MemSys.Still m0 q (m.claimHome die pa th own) := MemSys.reach_still _ _ _ _ _ (MemSys.expel_still _ _ h)

end

/-! ### The write half of an atomic (05 R147, 08 R211) -/

/-- Memory in which a value of `n` bytes has been written at a home that the writer has claimed, and the writer's copy follows. -/
def MemSys.claimedWrite (m : MemSys) (w : Who) (x : Xlat) (n v : Nat) : MemSys :=
  ((m.claimHome w.die x.pa (leafTh x.leaf) (some w.core)).putHome x.pa n v (allOnes n) (leafPk x.leaf) false).refresh w.core (x.pa / 64)

theorem MemSys.claimedWrite_readN {m : MemSys} {w : Who} {x : Xlat} {n : Nat} (v : Nat) (hn : x.pa % 64 + n ≤ 64)
    (h : m.LinesHave (OwnCalm w.core (x.pa / 64))) : (m.claimedWrite w x n v).readN x.pa n = v % 2 ^ (8 * n) := by
  have hones : allOnes n = 2 ^ n - 1 := by rw [allOnes, pow2_eq]
  refine MemSys.readN_of_put (m.claimHome w.die x.pa (leafTh x.leaf) (some w.core)) _ x.pa n v (leafPk x.leaf) false (by omega) fun i hi => ?_
  rw [MemSys.claimedWrite, MemSys.refresh_byte, hones]
  exact MemSys.putHome_byte_line _ _ _ _ _ _ _ _ (by omega) (MemSys.claimHome_calm w.die _ h)

theorem MemSys.claimedWrite_byte {m : MemSys} {w : Who} {x : Xlat} {n b : Nat} (v : Nat) (hn : x.pa % 64 + n ≤ 64)
    (hb : b < x.pa ∨ x.pa + n ≤ b) (hs : m.Settled (b / 256)) : (m.claimedWrite w x n v).byte b = m.byte b := by
  have hstill := MemSys.claimHome_still w.die x.pa (leafTh x.leaf) (some w.core) (MemSys.Still.refl hs)
  rw [MemSys.claimedWrite, MemSys.refresh_byte, MemSys.putHome_byte _ _ _ _ _ _ _ (by omega) hb hstill.1]
  exact (hstill.2 b rfl).1

/-- A returning atomic at a local home pays the old value and stores the combined one. -/
theorem State.atomicAt_home {s : State} {w : Who} {op : AtOp} {w8 : Bool} {x : Xlat} (a c : Nat) (rid : Option Nat) {ms : MemSys} {old : Nat}
    (hd : x.dev = none) (hop : op ≠ .cas)
    (hr : homeRead (s.ms.ownHome w.core (x.pa / 64) (spanOf x.pa (if w8 then 8 else 4))) w x x.pa (if w8 then 8 else 4) 1 .atomic = (ms, .ok old)) :
    s.atomicAt w op w8 x a c rid =
      let n := if w8 then 8 else 4
      { s with ms := ms.claimedWrite w x n (atApply op n old (a % 2 ^ (8 * n)) (c % 2 ^ (8 * n))) }.modCore w.core fun c =>
        c.pay rid (BitVec.ofNat 1024 old) none := by
  have hcas : (op == AtOp.cas) = false := by simpa using hop
  rw [State.atomicAt, hd]
  dsimp only
  rw [hr]
  dsimp only [Got.ok]
  simp only [hcas, Bool.false_and, Bool.not_false, if_true, pow2_eq]
  rfl

end Sys2Proof.Machine
end

section
/-! PROOFS. The head of the block store buffer is performed and leaves it (05 R147, 06 R173, 08 R211, R225). -/

namespace Sys2Proof.Machine

/-! ### The scratchpad -/

/-- Byte `a` of a scratchpad after a write of `n` bytes at `off`. -/
theorem padWrite_get (n : Nat) (m : SMap (BitVec 8)) (off v a : Nat) : SMap.get 0 (padWrite n m off v) a =
    if off ≤ a ∧ a < off + n then BitVec.ofNat 8 (v >>> (8 * (a - off))) else SMap.get 0 m a := by
  induction n generalizing m off v with
  | zero => rw [padWrite, if_neg (by omega)]
  | succ n ih =>
    rw [padWrite, ih]
    rcases Nat.lt_trichotomy a off with hlt | rfl | hgt
    · rw [if_neg (by omega), if_neg (by omega), SMap.get_set_other _ _ _ (by omega)]
    · rw [if_neg (by omega), if_pos (by omega), SMap.get_set_same, Nat.sub_self]
      rfl
    · by_cases hin : a < off + (n + 1)
      · rw [if_pos (by omega), if_pos (by omega), show 8 * (a - off) = 8 + 8 * (a - (off + 1)) by omega, Nat.shiftRight_add,
          Nat.shiftRight_eq_div_pow v 8]
      · rw [if_neg (by omega), if_neg (by omega), SMap.get_set_other _ _ _ (by omega)]

/-! ### The head of the buffer -/

/-- The core once the head of its block store buffer has left. -/
def Core.popStore (c : Core) : Core := { c with ctl := { c.ctl with store := c.ctl.store.drop 1 } }

theorem State.popStore_eq (s : State) (k : Nat) : s.popStore k = s.setCore k (s.core k).popStore := rfl

@[simp] theorem State.core_popStore (s : State) (k : Nat) : (s.popStore k).core k = (s.core k).popStore := State.core_setCore _ _ _

theorem State.core_popStore_other (s : State) {k j : Nat} (h : j ≠ k) : (s.popStore k).core j = s.core j := State.core_setCore_other _ _ h

@[simp] theorem State.who_popStore (s : State) (k : Nat) : (s.popStore k).who k = s.who k := by
  simp only [State.who, State.core_popStore]
  rfl

theorem Core.popStore_pay_regs (c : Core) (rid : Option Nat) (v : Vec) (b : Option Notice) :
    (c.popStore.pay rid v b).regs = (c.pay rid v b).regs := by
  cases rid with
  | none => rfl
  | some id => rfl

/-- A core that still holds operations does not go on. -/
theorem afterRelease_of_store {s : State} {k : Nat} (h : (s.core k).ctl.store ≠ []) : afterRelease s k = s := by
  unfold afterRelease
  rw [if_pos (.inr h)]

/-- The head of the buffer, which nothing keeps waiting, is performed and leaves it; the core does not go on, as another operation stands
behind it. -/
theorem performHead_performs {s t : State} {k : Nat} {p : HOp → Bool} {h h' : Held} {rest : List Held} (hs : (s.core k).ctl.store = h :: rest)
    (hr : h.released = true) (hp : p h.op = true) (hb : (s.core k).ctl.phase ≠ .barrier) (hw : (s.core k).waitsEx h = false)
    (hbar : h.op ≠ .bar) (hxl : h.op ≠ .xlwait none) (hx : s.retranslate k h = (s, h')) (ht : performHeld (s.popStore k) k h' = some t)
    (hrest : (t.core k).ctl.store ≠ []) : performHead s k p = t := by
  have hreached : h.reached s.ms.nextInval = h := if_neg hxl
  have hphase : ((s.core k).ctl.phase != .barrier) = true := by simpa using hb
  have hready : (h.released && p h.op && (s.core k).ctl.phase != .barrier && !(s.core k).waitsEx h) = true := by
    rw [hr, hp, hphase, hw]
    rfl
  rw [performHead, hs]
  dsimp only
  rw [if_pos hready, if_neg hbar, hreached, hx]
  dsimp only
  rw [ht]
  exact afterRelease_of_store hrest

/-- An operation that has no translation is not translated again. -/
theorem State.retranslate_of_no_xlats (s : State) (k : Nat) {h : Held} (hx : h.op.xlats = []) (hm : ∀ f, h.op.mapX f = h.op) :
    s.retranslate k h = (s, { h with again := false }) := by
  cases ha : h.again with
  | false =>
    rw [State.retranslate, ha]
    rw [Bool.not_false, if_pos rfl, ← ha]
  | true =>
    rw [State.retranslate, ha, Bool.not_true, if_neg Bool.false_ne_true, hx]
    dsimp only [List.foldl_nil]
    rw [hm]

section
variable {s : State} {k : Nat} {h e : Held} {rest : List Held} (hs : (s.core k).ctl.store = h :: e :: rest) (hr : h.released = true)
  (hw : (s.core k).waitsEx h = false)
include hs

theorem Core.popStore_store : (s.core k).popStore.ctl = { (s.core k).ctl with store := e :: rest } := by
  rw [Core.popStore, hs]
  rfl

include hr hw

/-- A store to the scratchpad. -/
theorem accessAtTarget_sstore (hok : s.Ok) (hb : (s.core k).ctl.phase ≠ .barrier) {n off : Nat} {v : BitVec 1024} (hop : h.op = .sstore n off v) :
    exec (.accessAtTarget k) s = .next (s.setCore k ((s.core k).popStore.padPut off n v.toNat false)) := by
  have hperf : performHead s k (fun o => !o.isReturning && !o.isIcinv) = (s.popStore k).modCore k fun c => c.padPut off n v.toNat false := by
    refine performHead_performs (h' := { h with again := false }) hs hr (by rw [hop]; rfl) hb hw (by rw [hop]; nofun) (by rw [hop]; nofun)
      (State.retranslate_of_no_xlats s k (by rw [hop]; rfl) fun f => by rw [hop]; rfl) ?_ ?_
    · unfold performHeld
      dsimp only
      rw [hop]
    · rw [State.core_modCore, State.core_popStore]
      change (s.core k).popStore.ctl.store ≠ []
      rw [Core.popStore_store hs]
      nofun
  change execAccessAtTarget k s = _
  rw [execAccessAtTarget, if_neg (by rw [hs]; nofun), hperf, State.modCore_eq, State.core_popStore, State.popStore_eq,
    State.setCore_setCore hok]

/-- A returning atomic at a local home. -/
theorem atomicAtHome_performs (hb : (s.core k).ctl.phase ≠ .barrier) {op : AtOp} {cw : Nat} {x : Xlat} {a y : Word} {ms : MemSys} {old : Nat}
    (hop : h.op = .atomic op cw x a y) (hret : cw.testBit 2 = true) (hrel : cw.testBit 1 = false) (hd : x.dev = none) (hcas : op ≠ .cas)
    (hagain : h.again = false) :
    let n := if cw.testBit 3 then 8 else 4
    let w : Who := { s.who k with sup := h.sup }
    homeRead (s.ms.ownHome k (x.pa / 64) (spanOf x.pa n)) w x x.pa n 1 .atomic = (ms, .ok old) →
    exec (.atomicAtHome k) s = .next ({ s.popStore k with
        ms := ms.claimedWrite w x n (atApply op n old (a.toNat % 2 ^ (8 * n)) (y.toNat % 2 ^ (8 * n))) }.modCore k fun c =>
      c.pay h.rid (BitVec.ofNat 1024 old) none) := by
  intro n w hread
  have hx : s.retranslate k h = (s, h) := by rw [State.retranslate, hagain]; rfl
  change Host.Outcome.next (performHead s k HOp.isReturning) = _
  congr 1
  refine performHead_performs hs hr (by rw [hop]; exact hret) hb hw (by rw [hop]; nofun) (by rw [hop]; nofun) hx ?_ ?_
  · have hat := State.atomicAt_home (s := s.popStore k) (w := w) (w8 := cw.testBit 3) a.toNat y.toNat h.rid hd hcas hread
    simp only [performHeld, hop, bit, hret, hrel, Bool.false_and, Bool.false_eq_true, if_false, if_true, State.who_popStore, State.sent, hd,
      Option.isSome_none, ite_self]
    exact congrArg some hat
  · rw [State.core_modCore, Core.pay_ctl]
    change ((s.popStore k).core k).ctl.store ≠ []
    rw [State.core_popStore, Core.popStore_store hs]
    nofun

/-- An invalidation of instruction caches. -/
theorem icinvComplete_removes {base len : Nat} (hop : h.op = .icinv base len) :
    exec (.icinvComplete k) s = .next ({ s with ms := s.ms.icInvalidate base len }.popStore k) := by
  have hgo : ((({ s with ms := s.ms.icInvalidate base len } : State).popStore k).core k).ctl.store ≠ [] := by
    rw [State.core_popStore]
    change (s.core k).popStore.ctl.store ≠ []
    rw [Core.popStore_store hs]
    nofun
  change execIcinvComplete k s = _
  unfold execIcinvComplete
  simp only [hs, hop, hr, hw, Bool.not_true, Bool.or_self, Bool.false_eq_true, if_false]
  exact congrArg _ (afterRelease_of_store hgo)

end

/-- No line of an instruction cache that meets the range stays. -/
theorem MemSys.icInvalidate_outside (m : MemSys) (base len : Nat) : ∀ p ∈ (m.icInvalidate base len).icache, ∀ l ∈ p.2,
    l.va + 64 ≤ base ∨ base + len ≤ l.va := by
  intro p hp l hl
  obtain ⟨q, -, rfl⟩ := List.mem_map.1 (List.mem_filter.1 hp).1
  have hkeep := (List.mem_filter.1 hl).2
  simp only [Bool.not_eq_true', Bool.and_eq_false_iff, decide_eq_false_iff_not] at hkeep
  omega

end Sys2Proof.Machine
end

section
/-! PROOFS. The obligation on the head of the block store buffer. -/

namespace Sys2Proof.Proofs.Ordering

open Sys2Proof.Machine

/-- Settles O45: the operation at the head is performed where nothing keeps it waiting (`performHead_performs`); what an atomic writes
reads back, as its core's own stores have reached the home before it (`MemSys.claimedWrite_readN`). -/
theorem heldOperationsPerformed : Obligations.HeldOperationsPerformed := by
  unfold Obligations.HeldOperationsPerformed
  intro s k h e rest c hok hs hr hw hb
  refine ⟨?sstore, ?atomic, ?icinv⟩
  case sstore =>
    intro n off v hop
    refine ⟨_, accessAtTarget_sstore hs hr hw hok hb hop, Core.popStore_store hs, rfl, fun i hi => ?_, fun a ha => ?_⟩
    · refine (padWrite_get n c.scratch off v.toNat (off + i)).trans ?_
      rw [if_pos (by omega), Nat.add_sub_cancel_left]
    · refine (padWrite_get n c.scratch off v.toNat a).trans ?_
      rw [if_neg (by omega)]
  case atomic =>
    intro op cw x a y ms old hop hret hrel hd hcas hagain n w hn hread
    have hspan : x.pa % 64 + n ≤ 64 := by
      have hsize : n = 8 ∨ n = 4 := by
        unfold n
        split
        · exact .inl rfl
        · exact .inr rfl
      rcases hsize with h8 | h4
      · rw [h8] at hn ⊢
        omega
      · rw [h4] at hn ⊢
        omega
    have hown : ms.LinesHave (OwnCalm w.core (x.pa / 64)) := by
      have hkept := homeRead_linesHave (ownCalm_settleClosed k (x.pa / 64)) w x x.pa n 1 .atomic
        (MemSys.ownHome_ownCalm s.ms k (x.pa / 64) (spanOf x.pa n))
      rwa [hread] at hkept
    refine ⟨_, atomicAtHome_performs hs hr hw hb hop hret hrel hd hcas hagain hread, ?_, ?_, MemSys.claimedWrite_readN _ hspan hown,
      fun b hb hset => MemSys.claimedWrite_byte _ hspan hb hset, fun j hj => ?_⟩
    · rw [State.core_modCore, Core.pay_ctl]
      exact (congrArg Core.ctl (State.core_popStore s k)).trans (Core.popStore_store hs)
    · rw [State.core_modCore]
      exact (congrArg (fun c : Core => (c.pay h.rid (BitVec.ofNat 1024 old) none).regs) (State.core_popStore s k)).trans
        (Core.popStore_pay_regs _ _ _ _)
    · rw [State.core_modCore_other _ _ hj]
      exact State.core_popStore_other s hj
  case icinv =>
    intro base len hop
    refine ⟨_, icinvComplete_removes hs hr hw hop, ?_, rfl, MemSys.icInvalidate_outside s.ms base len, fun j hj => ?_⟩
    · exact (congrArg Core.ctl (State.core_popStore _ k)).trans (Core.popStore_store hs)
    · exact State.core_popStore_other _ hj

end Sys2Proof.Proofs.Ordering
end

section
/-! PROOFS. What the end of a task or a copy record, and of a launch, leaves of the cores and the crews (05 R148; 09 R231, R245, R254). -/

namespace Sys2Proof.Machine

/-! ### Completion of records -/

theorem State.countEnding_cores (s : State) (owner : Option Nat) (status : Nat) : (s.countEnding owner status).cores = s.cores := by
  unfold State.countEnding
  split
  · dsimp only
    split
    · split <;> rfl
    · rfl
  · rfl

theorem State.shareOwner_cores (s : State) (owner : Option Nat) (cl : Nat) (f : Nat → Nat) : (s.shareOwner owner cl f).cores = s.cores := by
  unfold State.shareOwner
  split
  · exact ((State.Flies.refl s).share _ _ _).cores
  · rfl

theorem completeRecord_cores (s : State) (core : Nat) (q : ReadyRec) (sup : Bool) (status aux : Nat) (cont : Option Nat) :
    (completeRecord s core q sup status aux cont).cores = s.cores := by
  have h := State.Flies.refl s
  unfold completeRecord
  split
  rename_i he
  replace he := (h.ctxWho _ _ _).of_eq he
  split
  rename_i he2
  have hu := State.Flies.of_eq he2 (s := s) (by
    split
    · exact he.withMs _
    · exact he.withMs _)
  dsimp -iota only
  split
  rename_i he3
  rw [State.shareOwner_cores, State.countEnding_cores]
  refine (State.Flies.releaseAll (.of_eq he3 ?_)).cores
  split
  · exact (hu.setStatus _ _ _).successors
  · exact hu.setStatus _ _ _

theorem completeMember_cores (s : State) (core : Nat) (t : Task) (status : Nat) (cont : Option Nat) :
    (completeMember s core t status cont).cores = s.cores := by
  unfold completeMember
  split
  rename_i he
  dsimp only
  rw [State.shareOwner_cores, State.countEnding_cores]
  exact (((State.Flies.refl s).ctxWho _ _ _).of_eq he).releaseAll.cores

/-! ### A core that its task leaves -/

theorem State.core_freeCore (s : State) (k : Nat) : (s.core k).clear.Reclocked ((s.freeCore k).core k) := by
  rw [State.freeCore, State.applyCore]
  generalize hu : ({ s with ms := s.ms.completeFlush k } : State) = u
  have hc : u.core k = s.core k := State.core_congr (hu ▸ rfl) k
  have hm := State.core_modCore u k Core.clear
  rw [← hc, ← hm]
  exact State.core_applyCluster_of_waiting (by rw [hm]; rfl)

theorem State.core_freeCore_other (s : State) {k j : Nat} (h : clusterOf j ≠ clusterOf k) : (s.freeCore k).core j = s.core j := by
  rw [State.freeCore, State.applyCore, State.core_applyCluster_other _ h, State.core_modCore_other _ _ fun hj => h (by rw [hj])]
  rfl

theorem State.leaveChains_cores (s : State) (t : Task) : (s.leaveChains t).cores = s.cores := by
  unfold State.leaveChains
  split <;> rfl

theorem State.endInCrew_cores (s : State) (t : Task) : (s.endInCrew t).cores = s.cores := by
  unfold State.endInCrew
  split <;> rfl

/-- The machine in which an ending task has left its core and its crew. -/
def State.taskLeft (s : State) (k : Nat) (t : Task) : State :=
  (({ s with ms := s.ms.completeFlush k }.leaveChains t).endInCrew t).freeCore k

theorem State.core_taskLeft (s : State) (k : Nat) (t : Task) : (s.core k).clear.Reclocked ((s.taskLeft k t).core k) := by
  have h := State.core_freeCore (({ s with ms := s.ms.completeFlush k }.leaveChains t).endInCrew t) k
  rwa [State.core_congr ((State.endInCrew_cores _ t).trans (State.leaveChains_cores _ t)) k] at h

theorem State.core_taskLeft_other (s : State) {k j : Nat} (t : Task) (h : clusterOf j ≠ clusterOf k) : (s.taskLeft k t).core j = s.core j :=
  (State.core_freeCore_other _ h).trans (State.core_congr ((State.endInCrew_cores _ t).trans (State.leaveChains_cores _ t)) j)

/-- An ending task whose accesses are performed leaves its core; then its record, or its share of the launch, completes. -/
theorem recordComplete_ends {s : State} {k status aux : Nat} {t : Task} (hp : (s.core k).ctl.phase = .ending status aux)
    (ht : (s.core k).task = some t) (ha : s.accessesLeft k = false) :
    ∃ t', exec (.recordComplete k) s = .next t' ∧ t'.cores = (s.taskLeft k t).cores := by
  change ∃ t', execRecordComplete k s = .next t' ∧ _
  unfold execRecordComplete
  dsimp only
  rw [hp, ht]
  dsimp only
  rw [ha, if_neg Bool.false_ne_true]
  refine ⟨_, rfl, ?_⟩
  split
  · exact completeRecord_cores ..
  · exact completeMember_cores ..

/-! ### Copy records -/

theorem State.endCopy_cores (s : State) (k : Nat) (rc : RecordCopy) (sup : Bool) (status aux : Nat) :
    (s.endCopy k rc sup status aux).cores = (s.modCore k fun c => { c with cp := { c.cp with record := none } }).cores :=
  completeRecord_cores ..

theorem State.core_endCopy (s : State) (k : Nat) (rc : RecordCopy) (sup : Bool) (status aux : Nat) :
    (s.endCopy k rc sup status aux).core k = { s.core k with cp := { (s.core k).cp with record := none } } :=
  (State.core_congr (State.endCopy_cores ..) k).trans (State.core_modCore _ _ _)

theorem State.core_endCopy_other (s : State) {k j : Nat} (rc : RecordCopy) (sup : Bool) (status aux : Nat) (h : j ≠ k) :
    (s.endCopy k rc sup status aux).core j = s.core j :=
  (State.core_congr (State.endCopy_cores ..) j).trans (State.core_modCore_other _ _ h)

theorem State.settleCopy_of_performed {s : State} {k : Nat} {rc : RecordCopy} (h : rowsOut s k 8 = false) :
    s.settleCopy k rc = s.endCopy k rc rc.sup 0 (if rc.mode = 1 then rc.crc else 0) := by
  rw [State.settleCopy, h, if_neg Bool.false_ne_true]

theorem State.settleCopy_of_rowsOut {s : State} {k : Nat} {rc : RecordCopy} (h : rowsOut s k 8 = true) :
    s.settleCopy k rc = s.modCore k fun c => { c with cp := { c.cp with record := some rc } } := if_pos h

theorem execCopyRecordRun_of_done {s : State} {k : Nat} {rc : RecordCopy} (hrc : (s.core k).cp.record = some rc) (hd : 0 < rc.doneBytes) :
    execCopyRecordRun k s = .next (s.settleCopy k rc) := by
  rw [execCopyRecordRun, hrc]
  exact if_pos hd

section
variable {s s2 : State} {k : Nat} {rc : RecordCopy} {w : Who} (hrc : (s.core k).cp.record = some rc) (hd : rc.doneBytes = 0)
  (hp : s.pausedBy (clusterOf k) = false) (hw : s.ctxWho k rc.ctx rc.creatorSup = (s2, w))
include hrc hd hp hw

theorem execCopyRecordRun_of_unread {ms : MemSys} {f : Nat} (hr : recordRead s2.ms w rc.addr false = (ms, .error f)) :
    execCopyRecordRun k s = .next ({ s2 with ms := ms }.endCopy k rc false 0x07 f) := by
  unfold execCopyRecordRun
  rw [hrc]
  change (if 0 < rc.doneBytes then _ else if s.pausedBy (clusterOf k) = true then _ else _) = _
  rw [hd, if_neg (Nat.lt_irrefl 0), hp, if_neg Bool.false_ne_true, hw]
  change (match recordRead s2.ms w rc.addr false with | (ms, .error e) => _ | (ms, .ok (x, r)) => _) = _
  rw [hr]

theorem execCopyRecordRun_copies {ms : MemSys} {x : Xlat} {r v : Nat} {s4 : State} (hr : recordRead s2.ms w rc.addr false = (ms, .ok (x, r)))
    (hbad : recordBad (leafCoh x.leaf) r = false) (hsup : recSup r = true → rc.creatorSup = true) :
    let s3 := { s2 with ms := ms }.setStatus w rc.addr (linkWord 0 3)
    let src := recWord r 2
    let dst := recWord r 3
    let len := field (recWord r 4) 0 32
    let mode := field (recWord r 4) 32 2
    recordBlocks { w with sup := recSup r, sched := false } s3 (decide (src < dst + len) && decide (dst < src + len)) (mode == 1) (len / 64) src dst
      0xFFFFFFFF s3 = (s4, .ok v) →
    execCopyRecordRun k s = .next (s4.settleCopy k { rc with
      sup := recSup r, src := src, dst := dst, len := len, doneBytes := len, crc := v ^^^ 0xFFFFFFFF, mode := mode }) := by
  intro s3 src dst len mode hcopy
  have hmode : (recSup r && !rc.creatorSup) = false := by
    cases hr : recSup r
    · rfl
    · rw [hsup hr]; rfl
  unfold execCopyRecordRun
  rw [hrc]
  change (if 0 < rc.doneBytes then _ else if s.pausedBy (clusterOf k) = true then _ else _) = _
  rw [hd, if_neg (Nat.lt_irrefl 0), hp, if_neg Bool.false_ne_true, hw]
  change (match recordRead s2.ms w rc.addr false with | (ms, .error e) => _ | (ms, .ok (x, r)) => _) = _
  rw [hr]
  dsimp only
  rw [hbad, if_neg Bool.false_ne_true, hmode, if_neg Bool.false_ne_true, hcopy]

end

/-! ### The crews of a launch that has completed -/

theorem State.sched_of_frame {s t u : State} {α : Type} {r : State × α} {a : α} (hu : u.sched = s.sched) (hr : ∃ m, r.1 = { u with ms := m })
    (ht : r = (t, a)) : t.sched = s.sched := by
  subst ht
  obtain ⟨m, hm⟩ := hr
  dsimp only at hm
  rw [hm]
  exact hu

theorem headReady_keeps_sched (s : State) (n : Nat) : (headReady s n).1.sched = s.sched := by
  unfold headReady
  split
  rename_i he
  replace he := State.sched_of_frame rfl (s.streamEntry_frame n) he
  split
  · exact he
  split
  rename_i he2
  replace he2 := State.sched_of_frame he ⟨_, State.readCtx_frame _ _⟩ he2
  split
  · exact he2
  dsimp -iota only
  split
  rename_i he3
  replace he3 := State.sched_of_frame he2 (State.ctxWho_frame _ _ _ _) he3
  split
  · exact he3
  · exact he3

theorem hasWork_keeps_sched (s : State) (n : Nat) : (hasWork s n).1.sched = s.sched := by
  unfold hasWork
  split
  · rfl
  · exact headReady_keeps_sched s n

theorem saveShares_crews (s : State) (n : Nat) : (saveShares s n).sched.crews = s.sched.crews :=
  foldl_keeps (J := fun u : State => u.sched.crews = s.sched.crews) (fun _ _ h => h) rfl

/-- One counter of a launch is loaded. -/
def loadShare (n : Nat) (s : State) (c : Nat) : State :=
  let (ms, v) := s.ms.hwRead (s.shareAddr n c) 4
  { s with ms := ms, sched := { s.sched with share := SMap.set 0 s.sched.share (32 * n + c) v } }

theorem loadShares_eq (s : State) (n : Nat) : loadShares s n = (upto 0 32).foldl (loadShare n) s := rfl

theorem loadShare_frame (s : State) (n c : Nat) :
    ∃ ms v, loadShare n s c = { s with ms := ms, sched := { s.sched with share := SMap.set 0 s.sched.share (32 * n + c) v } } := by
  rw [loadShare]
  generalize s.ms.hwRead (s.shareAddr n c) 4 = r
  obtain ⟨ms, v⟩ := r
  exact ⟨ms, v, rfl⟩

theorem loadShare_crews (s : State) (n c : Nat) : (loadShare n s c).sched.crews = s.sched.crews := by
  obtain ⟨ms, v, h⟩ := loadShare_frame s n c
  rw [h]

theorem loadShares_crews (s : State) (n : Nat) : (loadShares s n).sched.crews = s.sched.crews := by
  rw [loadShares_eq]
  exact foldl_keeps (J := fun u : State => u.sched.crews = s.sched.crews) (fun u c h => (loadShare_crews u n c).trans h) rfl

theorem mapStream_crews (s : State) (h n : Nat) : (mapStream s h n).sched.crews = s.sched.crews := by
  unfold mapStream
  dsimp only
  split
  · exact loadShares_crews _ n
  · rfl

theorem unmapSlot_crews (s : State) (h : Nat) : (unmapSlot s h).sched.crews = s.sched.crews := by
  unfold unmapSlot
  split
  · rfl
  rename_i x _
  dsimp -iota only
  generalize hu : State.setSlot _ h none = u
  have huc : u.sched.crews = s.sched.crews := by
    rw [← hu]
    split
    · exact saveShares_crews s x.stream
    · rfl
  have hw := hasWork_keeps_sched u x.stream
  generalize hasWork u x.stream = r at hw
  obtain ⟨v, b⟩ := r
  have hvc : (if b then v.setStream x.stream { u.stream x.stream with waitFrom := some v.now } else v).sched.crews = s.sched.crews := by
    split
    · exact (congrArg Sched.crews hw).trans huc
    · exact (congrArg Sched.crews hw).trans huc
  dsimp only
  split
  · exact (mapStream_crews ..).trans hvc
  · exact hvc

/-- The crews of a launch go with it. -/
theorem finishLaunch_crews (s : State) (l : Launch) (status aux : Nat) :
    ∀ c ∈ (finishLaunch s l status aux).sched.crews, c.stream ≠ l.stream := by
  unfold finishLaunch
  generalize completeLaunchRecord s l.stream l.addr l.ctx l.creatorSup status aux = t
  dsimp only
  generalize hu : ({ t.setStream l.stream { t.stream l.stream with flight := none } with sched := _ } : State) = u
  have huc : ∀ c ∈ u.sched.crews, c.stream ≠ l.stream := by
    rw [← hu]
    intro c hc
    simpa using (List.mem_filter.1 hc).2
  have hw := congrArg Sched.crews (hasWork_keeps_sched u l.stream)
  generalize hasWork u l.stream = r at hw
  split
  · exact huc
  have hrc : ∀ c ∈ r.1.sched.crews, c.stream ≠ l.stream := by rw [hw]; exact huc
  split
  · split
    · exact hrc
    · rw [unmapSlot_crews]; exact hrc
  · split
    · exact hrc
    · rw [unmapSlot_crews]; exact hrc

theorem launchComplete_completes {s : State} {n : Nat} {l : Launch} (hf : (s.stream n).flight = some l) (hn : l.stream = n)
    (hk : l.killed = false) (hr : ∀ d ∈ allowedDies (entryDmask (s.streamEntry n).2), ∀ c < 8, 8 * d + c ∈ l.reports) :
    ∃ t, exec (.launchComplete n) s = .next t ∧ (t.stream n).flight = none ∧ t.cores = s.cores ∧ ∀ c ∈ t.sched.crews, c.stream ≠ n := by
  subst hn
  have hs := (State.Flies.refl s).streamEntry l.stream
  rcases hst : s.streamEntry l.stream with ⟨s1, e⟩
  rw [hst] at hr hs
  have hall : ((allowedDies (entryDmask e)).all fun d => (upto (8 * d) 8).all fun c => l.reports.contains c) = true := by
    simp only [List.all_eq_true, List.contains_iff_mem]
    intro d hd c hc
    obtain ⟨hlo, hhi⟩ := mem_upto_iff.1 hc
    have hmem := hr d hd (c - 8 * d) (by omega)
    rwa [Nat.add_sub_cancel' hlo] at hmem
  have hfin := finishLaunch_flight s1 l l.status.1 l.status.2
  refine ⟨_, ?_, hfin.2, hfin.1.trans hs.cores, finishLaunch_crews _ _ _ _⟩
  change execLaunchComplete l.stream s = _
  -- The entry's read stays closed: the kernel would evaluate it.
  obtain ⟨g, hg⟩ : ∃ g, State.streamEntry = g := ⟨_, rfl⟩
  rw [execLaunchComplete, hf]
  rw [hg] at hst ⊢
  dsimp only
  rw [hst]
  dsimp only
  rw [hall, hk, Bool.not_true, Bool.or_false, if_neg Bool.false_ne_true]

/-! ### Crew barriers -/

/-- A core that a barrier has let pass: the barrier is gone from its block, which goes on or ends. -/
def Core.passBar (c : Core) : Core :=
  { c with ctl := { c.ctl with store := c.ctl.store.drop 1, phase := if c.ctl.store.drop 1 = [] then .head else .release } }

/-- What a barrier of crew `id` makes of a core that may stand at it. -/
def Core.passAt (c : Core) (id : Nat) : Core := if c.inCrew id && c.ctl.phase == .barrier then c.passBar else c

/-- No operation that ends the core's block is left, and the block ends no iteration. -/
def Control.Plain (l : Control) : Prop := l.final = [] ∧ l.iterate = false

theorem Core.passBar_phase (c : Core) : c.passBar.ctl.phase ≠ .barrier := by
  unfold Core.passBar
  dsimp only
  split <;> nofun

theorem Core.passAt_passAt (c : Core) (id : Nat) : (c.passAt id).passAt id = c.passAt id := by
  by_cases h : (c.inCrew id && c.ctl.phase == .barrier) = true
  · have hp : c.passAt id = c.passBar := if_pos h
    have hb : (c.passBar.ctl.phase == .barrier) = false := beq_eq_false_iff_ne.2 c.passBar_phase
    rw [hp, Core.passAt, hb, Bool.and_false, if_neg Bool.false_ne_true]
  · have hp : c.passAt id = c := if_neg h
    rw [hp, hp]

theorem Core.passAt_plain {c : Core} (id : Nat) (h : c.ctl.Plain) : (c.passAt id).ctl.Plain := by
  unfold Core.passAt
  split
  · exact h
  · exact h

/-- Core k goes on past a barrier at the head of its held operations. -/
def State.goOn (s : State) (k : Nat) : State := afterRelease ((s.popStore k).modCtl k fun l => { l with phase := .release }) k

/-- What BARRIER_COMPLETE does for one member. -/
def State.passMember (id : Nat) (s : State) (m : Member) : State :=
  if (s.core m.core).inCrew id && (s.core m.core).ctl.phase == .barrier then s.goOn m.core else s

section
variable {s : State} {k : Nat}

theorem State.core_modCtl (f : Control → Control) : (s.modCtl k f).core k = { s.core k with ctl := f (s.core k).ctl } := State.core_modCore _ _ _

theorem State.core_modCtl_other (f : Control → Control) {j : Nat} (h : j ≠ k) : (s.modCtl k f).core j = s.core j := State.core_modCore_other _ _ h

/-- Where operations are still held, the block goes on; else it ends. -/
theorem State.goOn_eq (h : (s.core k).ctl.Plain) : s.goOn k =
    let u := (s.popStore k).modCtl k fun l => { l with phase := .release }
    if (s.core k).ctl.store.drop 1 = [] then u.modCtl k fun l => { l with final := [], phase := .head } else u := by
  obtain ⟨hfinal, hiter⟩ := h
  have hu : (((s.popStore k).modCtl k fun l => { l with phase := .release }).core k).ctl =
      { (s.core k).ctl with store := (s.core k).ctl.store.drop 1, phase := .release } := by
    rw [State.core_modCtl, State.core_popStore, Core.popStore]
  rw [State.goOn, afterRelease]
  generalize (s.popStore k).modCtl k (fun l => { l with phase := .release }) = u at hu
  dsimp only
  rw [hu]
  dsimp only
  rw [hiter, hfinal]
  split
  · next hr =>
    rw [if_neg (hr.resolve_left (not_not_intro rfl))]
  · next hr =>
    rw [not_or, not_not, not_not] at hr
    rw [if_pos hr.2, if_neg Bool.false_ne_true]
    rfl

variable (h : (s.core k).ctl.Plain)
include h

theorem State.core_goOn : (s.goOn k).core k = (s.core k).passBar := by
  have hfinal := h.1
  rw [State.goOn_eq h, Core.passBar]
  dsimp only
  split
  · rw [State.core_modCtl, State.core_modCtl, State.core_popStore, Core.popStore]
    dsimp only
    rw [hfinal]
  · rw [State.core_modCtl, State.core_popStore, Core.popStore]

theorem State.core_goOn_other {j : Nat} (hj : j ≠ k) : (s.goOn k).core j = s.core j := by
  rw [State.goOn_eq h]
  dsimp only
  split
  · rw [State.core_modCtl_other _ hj, State.core_modCtl_other _ hj, State.core_popStore_other _ hj]
  · rw [State.core_modCtl_other _ hj, State.core_popStore_other _ hj]

theorem State.goOn_sched : (s.goOn k).sched = s.sched := by
  rw [State.goOn_eq h]
  dsimp only
  split
  · rw [State.modCtl_sched, State.modCtl_sched, State.popStore, State.modCtl_sched]
  · rw [State.modCtl_sched, State.popStore, State.modCtl_sched]

end

section
variable {s : State} {m : Member} (id : Nat) (h : (s.core m.core).ctl.Plain)
include h

theorem State.passMember_core : (s.passMember id m).core m.core = (s.core m.core).passAt id := by
  unfold State.passMember Core.passAt
  split
  · exact State.core_goOn h
  · rfl

theorem State.passMember_other {j : Nat} (hj : j ≠ m.core) : (s.passMember id m).core j = s.core j := by
  unfold State.passMember
  split
  · exact State.core_goOn_other h hj
  · rfl

theorem State.passMember_sched : (s.passMember id m).sched = s.sched := by
  unfold State.passMember
  split
  · exact State.goOn_sched h
  · rfl

end

theorem foldl_passMember {id : Nat} (ms : List Member) : ∀ {s : State}, (∀ m ∈ ms, (s.core m.core).ctl.Plain) →
    (ms.foldl (State.passMember id) s).sched = s.sched ∧
      (∀ m ∈ ms, (ms.foldl (State.passMember id) s).core m.core = (s.core m.core).passAt id) ∧
      ∀ j, (∀ m ∈ ms, m.core ≠ j) → (ms.foldl (State.passMember id) s).core j = s.core j := by
  induction ms with
  | nil => exact fun _ => ⟨rfl, nofun, fun _ _ => rfl⟩
  | cons m ms ih =>
    intro s h
    have hm := h m List.mem_cons_self
    have hsame := State.passMember_core id hm
    have hother := fun j => State.passMember_other id hm (j := j)
    obtain ⟨hsched, hin, hout⟩ := ih (s := s.passMember id m) fun n hn => by
      by_cases hc : n.core = m.core
      · rw [hc, hsame]; exact Core.passAt_plain id hm
      · rw [hother _ hc]; exact h n (List.mem_cons_of_mem _ hn)
    rw [List.foldl_cons]
    have hrest (n : Member) (hn : n ∈ ms) : (ms.foldl (State.passMember id) (s.passMember id m)).core n.core = (s.core n.core).passAt id := by
      rw [hin n hn]
      by_cases hc : n.core = m.core
      · rw [hc, hsame, Core.passAt_passAt]
      · rw [hother _ hc]
    refine ⟨hsched.trans (State.passMember_sched id hm), fun n hn => ?_, fun j hj => ?_⟩
    · rcases List.mem_cons.1 hn with rfl | hn
      · by_cases hc : ∃ x ∈ ms, x.core = n.core
        · obtain ⟨x, hx, hxc⟩ := hc
          rw [← hxc]; exact hrest x hx
        · rw [hout n.core fun x hx hxc => hc ⟨x, hx, hxc⟩, hsame]
      · exact hrest n hn
    · rw [hout j fun x hx => hj x (List.mem_cons_of_mem _ hx)]
      exact hother j (hj m List.mem_cons_self).symm

theorem State.crew_id {s : State} {id : Nat} {c : Crew} (h : s.crew id = some c) : c.id = id := by
  simpa using List.find?_some h

theorem State.crew_modCrew {s : State} {id : Nat} {c : Crew} {f : Crew → Crew} (hf : ∀ d, (f d).id = d.id) (h : s.crew id = some c) :
    (s.modCrew id f).crew id = some (f c) := by
  have hid : (fun d : Crew => (if d.id = id then f d else d).id == id) = fun d => d.id == id := by
    funext d
    split
    · rw [hf]
    · rfl
  unfold State.crew at h ⊢
  change (List.map _ _).find? _ = _
  rw [List.find?_map]
  change Option.map _ (List.find? (fun d : Crew => (if d.id = id then f d else d).id == id) _) = _
  rw [hid, h, Option.map_some, if_pos (State.crew_id h)]

theorem execBarrierComplete_eq {s : State} {id : Nat} {c : Crew} (h : s.crew id = some c) (ha : c.admitted = true)
    (hany : ∃ m ∈ c.members, m.ended = false) (hall : ∀ m ∈ c.members, m.ended = true ∨ c.released < m.arrived) :
    execBarrierComplete id s = .next ((c.members.filter fun m => !m.ended).foldl (State.passMember id)
      (s.modCrew id fun d => { d with released := d.released + 1 })) := by
  have hany' : (c.members.any fun m => !m.ended) = true := by
    obtain ⟨m, hm, he⟩ := hany
    exact List.any_eq_true.2 ⟨m, hm, by rw [he]; rfl⟩
  have hall' : (c.members.all fun m => m.ended || decide (c.released < m.arrived)) = true :=
    List.all_eq_true.2 fun m hm => by rw [Bool.or_eq_true, decide_eq_true_iff]; exact hall m hm
  rw [execBarrierComplete, h]
  dsimp only
  rw [ha, hany', hall', if_pos (by rfl)]
  rfl

theorem barrierComplete_passes {s : State} {id : Nat} {c : Crew} (h : s.crew id = some c) (ha : c.admitted = true)
    (hany : ∃ m ∈ c.members, m.ended = false) (hall : ∀ m ∈ c.members, m.ended = true ∨ c.released < m.arrived)
    (hbar : ∀ m ∈ c.members, m.ended = false → (s.core m.core).inCrew id = true ∧ (s.core m.core).ctl.phase = .barrier ∧
      (s.core m.core).ctl.final = [] ∧ (s.core m.core).ctl.iterate = false) :
    ∃ t, exec (.barrierComplete id) s = .next t ∧ t.crew id = some { c with released := c.released + 1 } ∧
      (∀ m ∈ c.members, m.ended = false → t.core m.core = (s.core m.core).passBar) ∧
      ∀ j, (∀ m ∈ c.members, m.ended = false → m.core ≠ j) → t.core j = s.core j := by
  have hmem (m : Member) : m ∈ c.members.filter (fun m => !m.ended) ↔ m ∈ c.members ∧ m.ended = false := by
    rw [List.mem_filter, Bool.not_eq_true']
  obtain ⟨hsched, hin, hout⟩ := foldl_passMember (id := id) (s := s.modCrew id fun d => { d with released := d.released + 1 })
    (c.members.filter fun m => !m.ended) fun m hm => by
      obtain ⟨hm, he⟩ := (hmem m).1 hm
      exact (hbar m hm he).2.2
  refine ⟨_, execBarrierComplete_eq h ha hany hall, ?_, fun m hm he => ?_, fun j hj => ?_⟩
  · rw [State.crew, hsched]
    exact State.crew_modCrew (f := fun d => { d with released := d.released + 1 }) (fun _ => rfl) h
  · obtain ⟨hcrew, hphase, -⟩ := hbar m hm he
    refine (hin m ((hmem m).2 ⟨hm, he⟩)).trans ?_
    change (s.core m.core).passAt id = _
    rw [Core.passAt, hcrew, hphase]
    rfl
  · exact hout j fun m hm => hj m ((hmem m).1 hm).1 ((hmem m).1 hm).2

end Sys2Proof.Machine
end

section
/-! PROOFS. How tasks, copy records, launches and barriers end. -/

namespace Sys2Proof.Proofs.Ordering
open Sys2Proof.Machine

/-- Settles O53: each of the six steps, by its own lemma; tasks and copy records rest on what completing a record leaves of the cores. -/
theorem workEnds : Obligations.WorkEnds := by
  unfold Obligations.WorkEnds
  intro s
  refine ⟨fun k t status aux hp ht ha => ?_, fun k rc s2 s4 w ms x r v hrc hd hp hw hr hbad hsup => ?_, fun k rc hrc hd hrows => ?_,
    fun k rc s2 w ms f hrc hd hp hw hr => ?_, fun n l => launchComplete_completes, fun id c h ha hany hall hbar => ?_⟩
  · obtain ⟨t', hexec, hcores⟩ := recordComplete_ends hp ht ha
    obtain ⟨run, hrun⟩ := State.core_taskLeft s k t
    have hk : t'.core k = { (s.core k).clear with clk := { (s.core k).clear.clk with run := run } } := (State.core_congr hcores k).trans hrun
    refine ⟨t', hexec, ?_, ?_, ?_, fun j hj => (State.core_congr hcores j).trans (State.core_taskLeft_other s t hj)⟩
    · rw [hk]; rfl
    · rw [hk]; rfl
    · rw [hk]; rfl
  · intro s3 src dst len mode hcopy done
    have hexec := execCopyRecordRun_copies hrc hd hp hw hr hbad hsup hcopy
    refine ⟨fun hrows => hexec.trans ?_, fun hrows => hexec.trans ?_⟩
    · rw [State.settleCopy_of_performed hrows]
      rfl
    · rw [State.settleCopy_of_rowsOut hrows]
  · refine ⟨s.endCopy k rc rc.sup 0 (if rc.mode = 1 then rc.crc else 0), ?_, rfl, State.core_endCopy ..,
      fun j hj => State.core_endCopy_other _ _ _ _ _ hj⟩
    rw [← State.settleCopy_of_performed hrows]
    exact execCopyRecordRun_of_done hrc hd
  · refine ⟨_, execCopyRecordRun_of_unread hrc hd hp hw hr, rfl, ?_⟩
    rw [State.core_endCopy]
  · obtain ⟨t, hexec, hcrew, hin, hout⟩ := barrierComplete_passes h ha hany hall hbar
    refine ⟨t, hexec, hcrew, fun m hm he => ?_, hout⟩
    rw [hin m hm he]
    exact ⟨rfl, rfl⟩

end Sys2Proof.Proofs.Ordering
end

section
/-! PROOFS. Parcels: each field of an encoding is decoded to what was encoded (06 R163 to R166; 07 R193, R198). -/

namespace Sys2Proof.Machine

/-! ### The fields of a parcel (06 R163) -/

section
variable (a : BitVec 5) (b : BitVec 10) (c : BitVec 9)

theorem extract_guardField : (a ++ b ++ c).extractLsb' 19 5 = a := by
  rw [BitVec.extractLsb'_append_eq_of_le (by decide)]
  exact BitVec.extractLsb'_append_eq_left

theorem extract_srcField : (a ++ b ++ c).extractLsb' 9 10 = b := by
  rw [BitVec.extractLsb'_append_eq_of_le (by decide)]
  exact BitVec.extractLsb'_append_eq_right

theorem extract_dstField : (a ++ b ++ c).extractLsb' 0 9 = c := BitVec.extractLsb'_append_eq_right

end

theorem encode_eq {i : Instr} {sl : Slot} {g : Guard} {src : Src} {d : BitVec 9} (h : encodeParts i = some (sl, g, src, d)) :
    encode i = some (sl, encodeGuard g ++ encodeSrc src ++ d) := by
  rw [encode, h]

/-- An encoding is made of the parts of its instruction. -/
theorem encode_eq_some {i : Instr} {sl : Slot} {p : Parcel} (h : encode i = some (sl, p)) :
    ∃ g src d, encodeParts i = some (sl, g, src, d) ∧ p = encodeGuard g ++ encodeSrc src ++ d := by
  rcases he : encodeParts i with _ | ⟨sl', g, src, d⟩
  · rw [encode, he] at h
    cases h
  · rw [encode_eq he] at h
    cases h
    exact ⟨g, src, d, rfl, rfl⟩

theorem encode_eq_none {i : Instr} (h : encode i = none) : encodeParts i = none := by
  rcases he : encodeParts i with _ | ⟨sl, g, src, d⟩
  · rfl
  · rw [encode_eq he] at h
    cases h

/-! ### Guards, sources and destinations (06 R164 to R166; 07 R198) -/

theorem decodeGuard_encodeGuard (g : Guard) : decodeGuard (encodeGuard g) = some g := by
  cases g with
  | always => rfl
  | p n | q n | notP n => revert n; decide

theorem decodeSpecial_encodeSpecial {x : Special} (h : x.ok = true) : decodeSpecial (encodeSpecial x) = some x := by
  cases x with
  | tc n | li n | ca n => revert n; decide
  | coreNum | devn | rank | crewn | trec | qall | pall | rcyc | plvl => rfl

theorem decodeSrc_special (x : BitVec 7) : decodeSrc (1#3 ++ x) = (decodeSpecial x).map .special := by
  revert x; decide

theorem decodeSrc_short (i : BitVec 9) : decodeSrc (1#1 ++ i) = some (.short i) := by
  have hb : (1#1 ++ i : BitVec 10).getLsbD 9 = true := by rw [BitVec.getLsbD_append]; rfl
  have hi : (1#1 ++ i : BitVec 10).extractLsb' 0 9 = i := BitVec.extractLsb'_append_eq_right
  rw [decodeSrc, if_pos hb, hi]

theorem decodeSrc_encodeSrc {src : Src} (h : src.ok = true) : decodeSrc (encodeSrc src) = some src := by
  cases src with
  | sreg n | vreg n | pred n | mask n | result n | pairedResult n => revert n; decide
  | special x =>
    rw [encodeSrc, decodeSrc_special, decodeSpecial_encodeSpecial h]
    rfl
  | long f => cases f <;> rfl
  | short i => exact decodeSrc_short i

theorem decodeDst_encodeDst {sl : Slot} {d : Dst} (h : d.ok sl = true) : decodeDst sl (encodeDst d) = some d := by
  cases d with
  | sreg n | vreg n | pred n | mask n | otherSreg n | otherVreg n | oport n | pairedOport n => revert n; cases sl <;> decide

/-! ### Instructions (07 R193 to R197) -/

theorem decodeBody_move {sl : Slot} {g : Guard} {src : Src} {d : Dst} (h : d.ok sl = true) :
    decodeBody sl g src (0#1 ++ encodeDst d) = some (.move sl g src d) := by
  have hb : (0#1 ++ encodeDst d : BitVec 9).getLsbD 8 = false := by rw [BitVec.getLsbD_append]; rfl
  have hd : (0#1 ++ encodeDst d : BitVec 9).extractLsb' 0 8 = encodeDst d := BitVec.extractLsb'_append_eq_right
  rw [decodeBody, hb, if_neg Bool.false_ne_true, hd, decodeDst_encodeDst h]
  rfl

/-- The parts of a well-formed instruction's encoding: its source is well-formed, and its slot and its destination code give the
instruction back. -/
theorem decodeBody_encodeParts {i : Instr} {sl : Slot} {g : Guard} {src : Src} {d : BitVec 9} (hw : wellFormed i = true)
    (he : encodeParts i = some (sl, g, src, d)) : src.ok = true ∧ decodeBody sl g src d = some i := by
  cases i with
  | move =>
    cases he
    obtain ⟨hs, hd⟩ := Bool.and_eq_true_iff.1 hw
    exact ⟨hs, decodeBody_move hd⟩
  | vexAdd u w | vexSub u w | vexAdds u w | vexSubs u w | vexMin u w | vexMax u w | vexAbs u w | vexNeg u w | vexAnd u w
  | vexOr u w | vexXor u w | vexAndn u w | vexShl u w | vexShr u w | vexSar u w | vexMul u w | vexFma u w | vexFms u w
  | vexFnma u w | vexCeq u w | vexCne u w | vexClt u w | vexCle u w | vexCdet u w | vexSel u w | vexCvt u w | vexPerm u w
  | vexBcast u w | vexSlide u w | vexRsum u w | vexRmin u w | vexRmax u w =>
    cases he
    refine ⟨hw, ?_⟩
    cases u <;> cases w <;> rfl
  | vtset u | vtget u | vtthr u | vtclr u | kand u | kor u | kxor u | kandn u | knot u | kgen u | kpopc u | kffs u =>
    cases he
    refine ⟨hw, ?_⟩
    cases u <;> rfl
  | sfx5Rcp w | sfx5Rsqrt w | sfx5Sqrt w | sfx5Div w | sfx5Exp2 w | sfx5Log2 w | sfx5Tanh w | sfx5Sigm w | sfx5Sinpi w
  | sfx5Cospi w =>
    cases he
    refine ⟨hw, ?_⟩
    cases w <;> rfl
  | exitBr x | exitJmp x | exitCall x | exitCalla x | exitRet x =>
    cases he
    refine ⟨hw, ?_⟩
    cases x <;> rfl
  | ls2AtAdd | ls2AtAnd | ls2AtOr | ls2AtXor | ls2AtMin | ls2AtMax | ls2AtMinu | ls2AtMaxu | ls2AtFadd | ls2AtSwp | ls2AtCas
  | ls2LdAcq | ls2StRel | ls2Acq | ls2Rel | ls2Fence | ls2Xlinv =>
    cases he
    exact ⟨Laws.F.first_check hw, rfl⟩
  | _ => cases he <;> exact ⟨hw, rfl⟩

end Sys2Proof.Machine
end

section
/-! PROOFS. The obligations on the encoding of parcels. -/

namespace Sys2Proof.Proofs.BundlesAssembly

open Sys2Proof.Machine

/-- Settles O2: the guard, the source, and the slot with the destination code are each read back from their field. -/
theorem decodeOfEncode : Obligations.DecodeOfEncode := by
  unfold Obligations.DecodeOfEncode
  intro i sl p hw he
  obtain ⟨g, src, d, hparts, rfl⟩ := encode_eq_some he
  obtain ⟨hsrc, hbody⟩ := decodeBody_encodeParts hw hparts
  rw [decodeParcel, extract_guardField, extract_srcField, extract_dstField, decodeGuard_encodeGuard, decodeSrc_encodeSrc hsrc]
  exact hbody

/-- Refutes O3: the parcel `2: sa0 -> ls2.at.add` is decoded, and its instruction is not well-formed. R205 makes an atomic whose
control word is no immediate illegal; `staticOk` checks that at block entry, the decoder does not. -/
theorem not_encodeOfDecode : ¬ Obligations.EncodeOfDecode := by
  unfold Obligations.EncodeOfDecode
  rintro ⟨-, h⟩
  have hdecode : decodeParcel .s2 0b00000_0000000000_1_00110000 = some (.ls2AtAdd .always (.sreg 0)) := rfl
  exact absurd (h _ _ _ hdecode).2 (by decide)

/-- Settles O1: the decoder is evaluated on each word. -/
theorem decodeOfWrittenWords : Obligations.DecodeOfWrittenWords := by
  unfold Obligations.DecodeOfWrittenWords
  exact ⟨rfl, rfl, rfl, rfl, rfl, rfl, rfl, rfl, rfl, rfl⟩

end Sys2Proof.Proofs.BundlesAssembly
end

section
/-! PROOFS. Every instruction with an encoding is a move, an exit or a trigger, and what each of them does where its guard is false or
what it reads has not landed (06 R164, R172, R173, R177, R179). -/

namespace Sys2Proof.Machine

/-! ### Triggers -/

/-- The outcome of a trigger of slot `sl` under a guard with a source. -/
def IsTrigger (s : State) (sl : Slot) (g : Guard) (src : Src) (o : Out) : Prop :=
  ∃ dk need act reads, o = triggerOr s sl dk g src need act reads

section
variable {s : State} {sl : Slot} {g : Guard} {src : Src} {u : VexUnit} {w : Width}

theorem triggerOr_isTrigger {dk need act reads} : IsTrigger s sl g src (triggerOr s sl dk g src need act reads) := ⟨_, _, _, _, rfl⟩
theorem trigger_isTrigger {dk need act reads} : IsTrigger s sl g src (trigger s sl dk g src need act reads) := triggerOr_isTrigger
theorem accessTrigger_isTrigger {dk need act reads} : IsTrigger s sl g src (accessTrigger s sl dk g src need act reads) := triggerOr_isTrigger
theorem storeTrigger_isTrigger {access dk need act reads} : IsTrigger s sl g src (storeTrigger access s sl dk g src need act reads) :=
  triggerOr_isTrigger
theorem regTrigger_isTrigger {dk need act reads} : IsTrigger s sl g src (regTrigger s sl dk g src need act reads) := trigger_isTrigger

/-! The forms that the instructions of a unit share. -/

theorem ix1Two_isTrigger {cls f h} : IsTrigger s .s1 g src (ix1Two s g src cls f h) := regTrigger_isTrigger
theorem ix1One_isTrigger {cls f} : IsTrigger s .s1 g src (ix1One s g src cls f) := regTrigger_isTrigger
theorem sfx5Alu_isTrigger {f} : IsTrigger s .s5 g src (sfx5Alu s g src f) := regTrigger_isTrigger
theorem vexFn_isTrigger {cls acc bits f} : IsTrigger s u.slot g src (vexFn s u w g src cls acc bits f) := trigger_isTrigger
theorem vexSelect_isTrigger : IsTrigger s u.slot g src (vexSelect s u w g src) := trigger_isTrigger
theorem vexConvert_isTrigger : IsTrigger s u.slot g src (vexConvert s u w g src) := trigger_isTrigger
theorem vexReduce_isTrigger {r} : IsTrigger s u.slot g src (vexReduce s u w g src r) := trigger_isTrigger
theorem vtWrite_isTrigger {op ok} : IsTrigger s u.slot g src (vtWrite s u g src op ok) := trigger_isTrigger
theorem maskFn_isTrigger {f} : IsTrigger s u.slot g src (maskFn s u g src f) := regTrigger_isTrigger
theorem sfxFn_isTrigger {f} : IsTrigger s .s5 g src (sfxFn s w g src f) := trigger_isTrigger
theorem addressGen_isTrigger {i} : IsTrigger s .s2 g src (addressGen s g src i) := regTrigger_isTrigger
theorem scalarLoad_isTrigger {n signed} : IsTrigger s .s2 g src (scalarLoad s g src n signed) := triggerOr_isTrigger
theorem scratchLoad_isTrigger {n signed} : IsTrigger s .s2 g src (scratchLoad s g src n signed) := triggerOr_isTrigger
theorem heldLoad_isTrigger {n} : IsTrigger s .s2 g src (heldLoad s g src n) := accessTrigger_isTrigger
theorem scalarStore_isTrigger {n} : IsTrigger s .s2 g src (scalarStore s g src n) := storeTrigger_isTrigger
theorem scratchStore_isTrigger {n} : IsTrigger s .s2 g src (scratchStore s g src n) := storeTrigger_isTrigger
theorem atomicOp_isTrigger {op} : IsTrigger s .s2 g src (atomicOp s g src op) := triggerOr_isTrigger
theorem flagOp_isTrigger {kind act} : IsTrigger s .s2 g src (flagOp s g src kind act) := accessTrigger_isTrigger
theorem bollardOp_isTrigger {p kind act} : IsTrigger s .s2 g src (bollardOp s g src p kind act) := accessTrigger_isTrigger
theorem poolOp1_isTrigger {op} : IsTrigger s .s2 g src (poolOp1 s g src op) := accessTrigger_isTrigger
theorem poolOp2_isTrigger : IsTrigger s .s2 g src (poolOp2 s g src) := accessTrigger_isTrigger
theorem rangeOp_isTrigger {op} : IsTrigger s .s2 g src (rangeOp s g src op) := trigger_isTrigger
theorem flushOp_isTrigger {inv} : IsTrigger s .s2 g src (flushOp s g src inv) := storeTrigger_isTrigger
theorem vectorLoad_isTrigger {n} : IsTrigger s .s7 g src (vectorLoad s g src n) := accessTrigger_isTrigger
theorem scratchVectorLoad_isTrigger {n} : IsTrigger s .s7 g src (scratchVectorLoad s g src n) := trigger_isTrigger
theorem vectorStore_isTrigger {n} : IsTrigger s .s7 g src (vectorStore s g src n) := storeTrigger_isTrigger
theorem scratchVectorStore_isTrigger {n} : IsTrigger s .s7 g src (scratchVectorStore s g src n) := storeTrigger_isTrigger
theorem elementOp_isTrigger {store act} : IsTrigger s .s7 g src (elementOp s g src store act) := triggerOr_isTrigger
theorem treeOp_isTrigger {form home act} : IsTrigger s .s7 g src (treeOp s g src form home act) := by
  unfold treeOp
  exact triggerOr_isTrigger
theorem levelLoad_isTrigger {row home} : IsTrigger s .s7 g src (levelLoad s g src row home) := treeOp_isTrigger
theorem detailLoad_isTrigger {home} : IsTrigger s .s7 g src (detailLoad s g src home) := treeOp_isTrigger
theorem quayOp_isTrigger {dk bad act} : IsTrigger s .s7 g src (quayOp s g src dk bad act) := trigger_isTrigger
theorem channelOp_isTrigger {act} : IsTrigger s .s7 g src (channelOp s g src act) := trigger_isTrigger
theorem mxOp_isTrigger {dk word bad act names} : IsTrigger s .s6 g src (mxOp s g src dk word bad act names) := triggerOr_isTrigger
theorem ctlWrite_isTrigger {bad act} : IsTrigger s .s0 g src (ctlWrite s g src bad act) := trigger_isTrigger
theorem recordOp_isTrigger {bad act} : IsTrigger s .s0 g src (recordOp s g src bad act) := trigger_isTrigger
theorem ctlHeld_isTrigger {bad act} : IsTrigger s .s0 g src (ctlHeld s g src bad act) := trigger_isTrigger
theorem ctlPrivileged_isTrigger {bad act} : IsTrigger s .s0 g src (ctlPrivileged s g src bad act) := trigger_isTrigger

end

/-! ### Instructions with an encoding (06 R163) -/

theorem laneCode_trigger (w : Width) (f : BitVec 6) : (1#1 ++ (w.code ++ f) : BitVec 9).getLsbD 8 = true := by
  rw [BitVec.getLsbD_append]
  rfl

/-- What an instruction with an encoding does: it is a move, an exit, or a trigger, and its destination code says which. -/
theorem exec_cases (s : State) {i : Instr} {sl : Slot} {g : Guard} {src : Src} {d : BitVec 9}
    (he : encodeParts i = some (sl, g, src, d)) :
    (∃ x, d = 0#1 ++ encodeDst x ∧ exec i s = execMove sl g src x s) ∨
    (0x1F0 ≤ d.toNat ∧ d.getLsbD 8 = true ∧ ∃ x relative link, x.slot = sl ∧ exec i s = exitMove x g src s relative link) ∨
    (d.getLsbD 8 = true ∧ IsTrigger s sl g src (exec i s)) := by
  delta exec
  cases i with
  | move _ _ _ x =>
    cases he
    exact .inl ⟨x, rfl, rfl⟩
  | exitBr x | exitJmp x | exitCall x | exitCalla x | exitRet x =>
    cases he
    exact .inr (.inl ⟨by decide, rfl, x, _, _, rfl, rfl⟩)
  | ix1Add | ix1Sub | ix1Mul | ix1Mulu => cases he; exact .inr (.inr ⟨rfl, ix1Two_isTrigger⟩)
  | ix1Adds | ix1Subs | ix1And | ix1Or | ix1Xor | ix1Andn | ix1Shl | ix1Shr | ix1Sar | ix1Rol | ix1Min | ix1Max | ix1Minu
  | ix1Maxu | ix1Clts | ix1Cltu | ix1Ceq | ix1Cne | ix1Cles | ix1Cleu | ix1Shl8 | ix1Shl16 | ix1Shl32 | ix1Shr8 | ix1Shr16
  | ix1Shr32 | ix1Sar8 | ix1Sar16 | ix1Sar32 | ix1Add8 | ix1Add16 | ix1Add32 | ix1Div | ix1Divu | ix1Rem | ix1Remu | ix1Bext
  | ix1Bexts | ix1Bins | ix1Clz | ix1Ctz | ix1Popc | ix1Brev | ix1Bswap => cases he; exact .inr (.inr ⟨rfl, ix1One_isTrigger⟩)
  | sfx5Add | sfx5Sub | sfx5Adds | sfx5Subs | sfx5And | sfx5Or | sfx5Xor | sfx5Andn | sfx5Shl | sfx5Shr | sfx5Sar | sfx5Rol
  | sfx5Min | sfx5Max | sfx5Minu | sfx5Maxu | sfx5Clts | sfx5Cltu | sfx5Ceq | sfx5Cne | sfx5Cles | sfx5Cleu | sfx5Shl8
  | sfx5Shl16 | sfx5Shl32 | sfx5Shr8 | sfx5Shr16 | sfx5Shr32 | sfx5Sar8 | sfx5Sar16 | sfx5Sar32 | sfx5Add8 | sfx5Add16
  | sfx5Add32 => cases he; exact .inr (.inr ⟨rfl, sfx5Alu_isTrigger⟩)
  | vexAdd | vexSub | vexAdds | vexSubs | vexMin | vexMax | vexAbs | vexNeg | vexAnd | vexOr | vexXor | vexAndn | vexShl | vexShr
  | vexSar | vexMul | vexFma | vexFms | vexFnma | vexCeq | vexCne | vexClt | vexCle | vexCdet | vexPerm | vexBcast | vexSlide =>
    cases he; exact .inr (.inr ⟨laneCode_trigger .., vexFn_isTrigger⟩)
  | vexSel => cases he; exact .inr (.inr ⟨laneCode_trigger .., vexSelect_isTrigger⟩)
  | vexCvt => cases he; exact .inr (.inr ⟨laneCode_trigger .., vexConvert_isTrigger⟩)
  | vexRsum | vexRmin | vexRmax => cases he; exact .inr (.inr ⟨laneCode_trigger .., vexReduce_isTrigger⟩)
  | vtset | vtthr | vtclr => cases he; exact .inr (.inr ⟨rfl, vtWrite_isTrigger⟩)
  | kand | kor | kxor | kandn | knot | kgen | kpopc | kffs => cases he; exact .inr (.inr ⟨rfl, maskFn_isTrigger⟩)
  | sfx5Rcp | sfx5Rsqrt | sfx5Sqrt | sfx5Div | sfx5Exp2 | sfx5Log2 | sfx5Tanh | sfx5Sigm | sfx5Sinpi | sfx5Cospi =>
    cases he; exact .inr (.inr ⟨laneCode_trigger .., sfxFn_isTrigger⟩)
  | ctlLvl | ctlCabase | ctlCastr | ctlLoop | ctlBsel => cases he; exact .inr (.inr ⟨rfl, ctlWrite_isTrigger⟩)
  | ctlFork | ctlJoin | ctlSpawn | ctlLaunch => cases he; exact .inr (.inr ⟨rfl, recordOp_isTrigger⟩)
  | ctlDone | ctlBar | ctlTrap | ctlYield | ctlClkset | ctlVset | ctlClkrd | ctlSwsel =>
    cases he; exact .inr (.inr ⟨rfl, ctlHeld_isTrigger⟩)
  | ctlRfe | ctlPark | ctlAbort | ctlUnpark => cases he; exact .inr (.inr ⟨rfl, ctlPrivileged_isTrigger⟩)
  | ls2LdB | ls2LdH | ls2LdW | ls2LdD | ls2LdBs | ls2LdHs | ls2LdWs => cases he; exact .inr (.inr ⟨rfl, scalarLoad_isTrigger⟩)
  | ls2SldB | ls2SldH | ls2SldW | ls2SldD | ls2SldBs | ls2SldHs | ls2SldWs =>
    cases he; exact .inr (.inr ⟨rfl, scratchLoad_isTrigger⟩)
  | ls2LdioB | ls2LdioH | ls2LdioW | ls2LdioD => cases he; exact .inr (.inr ⟨rfl, heldLoad_isTrigger⟩)
  | ls2StB | ls2StH | ls2StW | ls2StD => cases he; exact .inr (.inr ⟨rfl, scalarStore_isTrigger⟩)
  | ls2SstB | ls2SstH | ls2SstW | ls2SstD => cases he; exact .inr (.inr ⟨rfl, scratchStore_isTrigger⟩)
  | ls2AtAdd | ls2AtAnd | ls2AtOr | ls2AtXor | ls2AtMin | ls2AtMax | ls2AtMinu | ls2AtMaxu | ls2AtFadd | ls2AtSwp | ls2AtCas =>
    cases he; exact .inr (.inr ⟨rfl, atomicOp_isTrigger⟩)
  | ls2LdAcq | ls2StRel => cases he; exact .inr (.inr ⟨rfl, flagOp_isTrigger⟩)
  | ls2Acq | ls2Rel | ls2Moor | ls2Unmoor => cases he; exact .inr (.inr ⟨rfl, bollardOp_isTrigger⟩)
  | ls2PoolShare => cases he; exact .inr (.inr ⟨rfl, poolOp2_isTrigger⟩)
  | ls2PoolDrop | ls2PoolAlloc => cases he; exact .inr (.inr ⟨rfl, poolOp1_isTrigger⟩)
  | ls2Icinv => cases he; exact .inr (.inr ⟨rfl, rangeOp_isTrigger⟩)
  | ls2Cwb | ls2Cinv => cases he; exact .inr (.inr ⟨rfl, flushOp_isTrigger⟩)
  | ls2Ea0 | ls2Ea1 | ls2Ea2 | ls2Ea3 | ls2Ea4 | ls2Ea5 | ls2Ea6 => cases he; exact .inr (.inr ⟨rfl, addressGen_isTrigger⟩)
  | mx6Tld | mx6Tldv | mx6Tst | mx6Trd | mx6Shget | mx6Step | mx6Azero | mx6Ard | mx6Awr | mx6Acvt | mx6Aldq | mx6Bsend
  | mx6Bwait | mx6Bfree | mx6Bsts | mx6Rsts | mx6Rclr => cases he; exact .inr (.inr ⟨rfl, mxOp_isTrigger⟩)
  | ex7Vld32 | ex7Vld64 | ex7Vld128 => cases he; exact .inr (.inr ⟨rfl, vectorLoad_isTrigger⟩)
  | ex7Svld32 | ex7Svld64 | ex7Svld128 => cases he; exact .inr (.inr ⟨rfl, scratchVectorLoad_isTrigger⟩)
  | ex7Vst32 | ex7Vst64 | ex7Vst128 => cases he; exact .inr (.inr ⟨rfl, vectorStore_isTrigger⟩)
  | ex7Svst32 | ex7Svst64 | ex7Svst128 => cases he; exact .inr (.inr ⟨rfl, scratchVectorStore_isTrigger⟩)
  | ex7Eld | ex7Est => cases he; exact .inr (.inr ⟨rfl, elementOp_isTrigger⟩)
  | ex7Lavg | ex7LavgHome | ex7LavgRow | ex7LavgRowHome => cases he; exact .inr (.inr ⟨rfl, levelLoad_isTrigger⟩)
  | ex7Ldet | ex7LdetHome => cases he; exact .inr (.inr ⟨rfl, detailLoad_isTrigger⟩)
  | ex7Trst => cases he; exact .inr (.inr ⟨rfl, treeOp_isTrigger⟩)
  | ex7QSet | ex7QPush | ex7QPop | ex7QAdv | ex7QSts => cases he; exact .inr (.inr ⟨rfl, quayOp_isTrigger⟩)
  | ex7CpDrain | ex7CpSts => cases he; exact .inr (.inr ⟨rfl, channelOp_isTrigger⟩)
  | vtget | ls2Fence | ls2Xlwait => cases he; exact .inr (.inr ⟨rfl, regTrigger_isTrigger⟩)
  | ctlWait | ctlSrd | ctlSwr | ls2Xlinv | mx6Shset | mx6Acvts | mx6Bchain | ex7CpReg | ex7SqCqack =>
    cases he; exact .inr (.inr ⟨rfl, trigger_isTrigger⟩)
  | ex7Tdld | ex7SqPost => cases he; exact .inr (.inr ⟨rfl, accessTrigger_isTrigger⟩)
  | ex7CpGo => cases he; exact .inr (.inr ⟨rfl, triggerOr_isTrigger⟩)
  | _ => cases he

end Sys2Proof.Machine
end

section
/-! PROOFS. A parcel whose guard is false, one that waits, and an access behind an `xlwait` (06 R164, R173, R177, R179; 08 R224). -/

namespace Sys2Proof.Machine

/-! ### False guards (06 R164, R173) -/

theorem Core.metBad_none {c : Core} (h : c.ctl.deferred = none) (sl : Slot) : c.metBad sl none = none := by
  rw [Core.metBad, h]
  rfl

section
variable {s : State} {sl : Slot} {g : Guard} {src : Src}

/-- A trigger whose guard is false is skipped. -/
theorem IsTrigger.skips {o : Out} (h : IsTrigger s sl g src o) (hr : s.me.guardReady g = true) (hb : s.me.guardBad g = none)
    (hg : s.me.guard g = false) (hd : s.me.ctl.deferred = none) : o = .next (s.setCore s.curCore s.me.skip) := by
  obtain ⟨dk, need, act, reads, rfl⟩ := h
  have hm : s.me.metBad sl (s.me.guardBad g) = none := by rw [hb, Core.metBad_none hd]
  simp only [State.me] at hr hg hm ⊢
  simp only [triggerOr, hr, hm, hg, Bool.not_true, Bool.not_false, Bool.false_eq_true, if_false, if_true]

theorem execMove_skips {d : Dst} (hr : s.me.guardReady g = true) (hb : s.me.guardBad g = none) (hg : s.me.guard g = false) :
    execMove sl g src d s = .next (s.after id) := by
  simp only [State.me] at hr hb hg
  simp only [execMove, hr, hb, hg, Bool.not_true, Bool.not_false, Bool.false_eq_true, if_false, if_true]
  rfl

/-- An exit behind one that has fired does nothing, whatever its guard (06 R172). -/
theorem exitMove_behind {x : ExitSlot} {relative link : Bool} (h : s.me.ctl.exit.isSome = true) :
    exitMove x g src s relative link = .next (s.setCore s.curCore s.me.pop) := by
  simp only [State.me] at h
  rw [exitMove, if_pos h]
  rfl

theorem exitMove_isTrigger {x : ExitSlot} {relative link : Bool} (h : s.me.ctl.exit = none) :
    IsTrigger s x.slot g src (exitMove x g src s relative link) := by
  have he : ¬ (s.core s.curCore).ctl.exit.isSome = true := by
    change ¬ s.me.ctl.exit.isSome = true
    simp [h]
  rw [exitMove, if_neg he]
  exact regTrigger_isTrigger

end

/-! The entry that a held trigger of slots 0 to 5 takes even where its guard is false (06 R173). -/

theorem moveDst_parcel (a : BitVec 5) (b : BitVec 10) (d : BitVec 9) : moveDst (a ++ b ++ d) = d.toNat :=
  congrArg BitVec.toNat (extract_dstField a b d)

theorem moveCode_lt (x : Dst) : (0#1 ++ encodeDst x : BitVec 9).toNat < 256 := by
  rw [BitVec.toNat_append, BitVec.toNat_zero, Nat.zero_shiftLeft, Nat.zero_or]
  exact (encodeDst x).isLt

theorem isHeld_move {sl : Slot} {p : Parcel} (h : moveDst p < 256) : isHeld (sl, p) = false := by
  have ho : moveOp p = none := if_neg (by omega)
  cases sl <;> simp only [isHeld, ho]

/-- No exit is held. -/
theorem isHeld_exit {sl : Slot} {p : Parcel} (h : 0x1F0 ≤ moveDst p) : isHeld (sl, p) = false := by
  obtain ⟨op, ho, hle⟩ : ∃ op, moveOp p = some op ∧ 0xF0 ≤ op := ⟨_, if_pos (by omega), by omega⟩
  cases sl <;> simp only [isHeld, ho, Bool.or_eq_false_iff, Bool.and_eq_false_iff, decide_eq_false_iff_not] <;> omega

theorem Core.skip_eq {c : Core} {m : Slot × Parcel} (h : c.ctl.todo.head? = some m) :
    c.skip = if isHeld m = true then if c.storeRoom = true then { c.pop with ctl := { c.pop.ctl with held := c.ctl.held + 1 } } else c
      else c.pop := by
  rw [Core.skip, h]
  rfl

/-! ### Parcels that wait (06 R177, R179) -/

section
variable {s : State} {sl : Slot} {g : Guard} {src : Src}

/-- What a parcel waits for: its guard's predicate, or, where that is true, what its source reads. -/
def State.Unlanded (s : State) (sl : Slot) (g : Guard) (src : Src) : Prop :=
  s.me.guardReady g = false ∨
    (s.me.guardBad g = none ∧ s.me.ctl.deferred = none ∧ s.me.guard g = true ∧ s.me.srcReady sl src = false)

theorem IsTrigger.waits {o : Out} (h : IsTrigger s sl g src o) (hw : s.Unlanded sl g src) : o = .next s := by
  obtain ⟨dk, need, act, reads, rfl⟩ := h
  rcases hw with hr | ⟨hb, hd, hg, hs⟩
  · simp only [State.me] at hr
    simp only [triggerOr, hr, Bool.not_false, if_true]
  · have hm : s.me.metBad sl (s.me.guardBad g) = none := by rw [hb, Core.metBad_none hd]
    simp only [State.me] at hg hm hs
    simp only [triggerOr, hm, hg, hs, Bool.false_and, Bool.not_true, Bool.not_false, Bool.false_eq_true, if_false, if_true, ite_self]

theorem execMove_waits {d : Dst} (hw : s.Unlanded sl g src) : execMove sl g src d s = .next s := by
  rcases hw with hr | ⟨hb, -, hg, hs⟩
  · simp only [State.me] at hr
    simp only [execMove, hr, Bool.not_false, if_true]
  · simp only [State.me] at hb hg hs
    simp only [execMove, hb, hg, hs, Bool.not_true, Bool.not_false, Bool.false_eq_true, if_false, if_true, ite_self]

/-! ### Accesses behind an `xlwait` (08 R224) -/

/-- A trigger that passes, and whose unit answers that it waits, changes nothing. -/
theorem triggerOr_declines {dk : DKind} {need : Core → Bool} {act : State → Nat → Core → Vec → Option State} (h : s.Passes sl g src)
    (ha : ∀ v, act s.popped s.curCore s.me.pop v = none) : triggerOr s sl dk g src need act = .next s := by
  cases hn : need s.me with
  | true => exact (triggerOr_passes (reads := fun _ => []) h hn).trans (by rw [← State.popped, ha]; rfl)
  | false =>
    obtain ⟨hr, hm, hg, hs, -, -⟩ := h
    simp only [State.me] at hr hm hg hs hn
    simp only [triggerOr, hr, hm, hg, hn, Bool.and_false, Bool.not_true, Bool.not_false, Bool.false_eq_true, if_false, if_true]

theorem accessTrigger_declines {dk : DKind} {need : Core → Bool} {act : State → Nat → Core → Vec → State} (h : s.Passes sl g src)
    (hx : s.xlWaits s.curCore = true) : accessTrigger s sl dk g src need act = .next s :=
  triggerOr_declines h fun _ => if_pos (s.xlWaits_popped.trans hx)

theorem storeTrigger_declines {access : Bool} {dk : DKind} {need : Core → Bool} {act : State → Nat → Core → Vec → State}
    (h : s.Passes sl g src) (hf : (access && s.xlWaits s.curCore || s.storeFull s.curCore) = true) :
    storeTrigger access s sl dk g src need act = .next s :=
  triggerOr_declines h fun _ => if_pos (by rwa [State.xlWaits_popped, State.storeFull_popped])

end

section
variable {s : State} {g : Guard} {src : Src} (hx : s.xlWaits s.curCore = true)
include hx

section
variable (h : s.Passes .s2 g src)
include h

theorem scalarLoad_declines {n : Nat} {signed : Bool} : scalarLoad s g src n signed = .next s :=
  triggerOr_declines h fun _ => if_pos (s.xlWaits_popped.trans hx)

theorem heldLoad_declines {n : Nat} : heldLoad s g src n = .next s := accessTrigger_declines h hx

theorem atomicOp_declines {op : AtOp} : atomicOp s g src op = .next s :=
  triggerOr_declines h fun _ => if_pos (by rw [State.xlWaits_popped, hx, Bool.true_or])

theorem scalarStore_declines {n : Nat} : scalarStore s g src n = .next s := storeTrigger_declines h (by rw [hx]; rfl)

theorem flagOp_declines {kind : XKind} {act : Core → Xlat → Nat → Core} : flagOp s g src kind act = .next s :=
  accessTrigger_declines h hx

theorem bollardOp_declines {p : Nat} {kind : XKind} {act : Core → Word → Xlat → Core} : bollardOp s g src p kind act = .next s :=
  accessTrigger_declines h hx

theorem poolOp1_declines {op : Xlat → Nat → HOp} : poolOp1 s g src op = .next s := accessTrigger_declines h hx

theorem poolOp2_declines : poolOp2 s g src = .next s := accessTrigger_declines h hx

theorem accessForms2_decline : ∀ f ∈ accessForms2, exec (f g src) s = .next s := by
  have hload : ∀ n signed, scalarLoad s g src n signed = .next s := fun _ _ => scalarLoad_declines hx h
  have hstore : ∀ n, scalarStore s g src n = .next s := fun _ => scalarStore_declines hx h
  have hheld : ∀ n, heldLoad s g src n = .next s := fun _ => heldLoad_declines hx h
  have hatomic : ∀ op, atomicOp s g src op = .next s := fun _ => atomicOp_declines hx h
  simp only [-reduceCtorEq, accessForms2, loadForms, storeForms, heldLoadForms, atomicForms, orderForms, List.forall_mem_append, List.forall_mem_map,
    List.forall_mem_cons, List.not_mem_nil, false_implies, implies_true, and_true]
  delta exec
  refine ⟨⟨⟨⟨⟨?load, ?store⟩, ?held⟩, ?atomic⟩, ?order⟩, ?pool⟩
  case load => exact ⟨hload .., hload .., hload .., hload .., hload .., hload .., hload ..⟩
  case store => exact ⟨hstore _, hstore _, hstore _, hstore _⟩
  case held => exact ⟨hheld _, hheld _, hheld _, hheld _⟩
  case atomic => exact ⟨hatomic _, hatomic _, hatomic _, hatomic _, hatomic _, hatomic _, hatomic _, hatomic _, hatomic _, hatomic _, hatomic _⟩
  case order => exact ⟨flagOp_declines hx h, flagOp_declines hx h, bollardOp_declines hx h, bollardOp_declines hx h, bollardOp_declines hx h,
    bollardOp_declines hx h⟩
  case pool => exact ⟨poolOp2_declines hx h, poolOp1_declines hx h, poolOp1_declines hx h⟩

end

section
variable (h : s.Passes .s7 g src)
include h

theorem vectorLoad_declines {n : Nat} : vectorLoad s g src n = .next s := accessTrigger_declines h hx

theorem vectorStore_declines {n : Nat} : vectorStore s g src n = .next s := storeTrigger_declines h (by rw [hx]; rfl)

theorem elementOp_declines {store : Bool} {act : State → Core → Nat → List Xlat → State} : elementOp s g src store act = .next s :=
  triggerOr_declines h fun _ => if_pos (by rw [State.xlWaits_popped, hx, Bool.true_or])

theorem treeOp_declines {form : TreeForm} {home : Bool} {act : State → Nat → Core → BitVec 256 → Nat → Nat → List Xlat → State} :
    treeOp s g src form home act = .next s := by
  unfold treeOp
  exact triggerOr_declines h fun _ => if_pos (by rw [State.xlWaits_popped, hx, Bool.true_or])

theorem levelLoad_declines {row home : Bool} : levelLoad s g src row home = .next s := treeOp_declines hx h

theorem detailLoad_declines {home : Bool} : detailLoad s g src home = .next s := treeOp_declines hx h

theorem accessForms7_decline : ∀ f ∈ accessForms7, exec (f g src) s = .next s := by
  simp only [-reduceCtorEq, accessForms7, vectorForms, treeForms, List.forall_mem_append, List.forall_mem_map, List.forall_mem_cons, List.not_mem_nil,
    false_implies, implies_true, and_true]
  delta exec
  refine ⟨⟨⟨?load, ?store⟩, ?tree⟩, ?eld, ?est, ?tdld, ?trst, ?sqPost⟩
  case load => exact ⟨vectorLoad_declines hx h, vectorLoad_declines hx h, vectorLoad_declines hx h⟩
  case store => exact ⟨vectorStore_declines hx h, vectorStore_declines hx h, vectorStore_declines hx h⟩
  case tree => exact ⟨levelLoad_declines hx h, levelLoad_declines hx h, levelLoad_declines hx h, levelLoad_declines hx h,
    detailLoad_declines hx h, detailLoad_declines hx h⟩
  case eld => exact elementOp_declines hx h
  case est => exact elementOp_declines hx h
  case tdld => exact accessTrigger_declines h hx
  case trst => exact treeOp_declines hx h
  case sqPost => exact accessTrigger_declines h hx

end

end

end Sys2Proof.Machine
end

section
/-! PROOFS. The obligations on false guards and on parcels that wait. -/

namespace Sys2Proof.Proofs.BundlesAssembly

open Sys2Proof.Machine

/-- Settles O9: a move with a false guard is passed over, and so is an exit, which is never held; every other instruction with an
encoding is a trigger, which is skipped. -/
theorem falseGuardDoesNothing : Obligations.FalseGuardDoesNothing := by
  unfold Obligations.FalseGuardDoesNothing
  intro i sl g src d p s hparts hp htodo hr hb hg hd
  have hdst : moveDst p = d.toNat := by
    rw [encode_eq hparts] at hp
    cases hp
    exact moveDst_parcel ..
  have skips {o : Out} (hd8 : d.getLsbD 8 = true) (ht : IsTrigger s sl g src o) : o = .next (s.setCore s.curCore s.me.skip) :=
    ht.skips hr hb hg (hd.resolve_left (by rw [hd8]; decide))
  rcases exec_cases s hparts with ⟨x, rfl, hx⟩ | ⟨hexit, hd8, x, relative, link, rfl, hx⟩ | ⟨hd8, ht⟩
  · have hheld : isHeld (sl, p) = false := isHeld_move (hdst.trans_lt (moveCode_lt x))
    rw [hx, execMove_skips hr hb hg, hheld, if_neg Bool.false_ne_true]
  · have hheld : isHeld (x.slot, p) = false := isHeld_exit (by rwa [hdst])
    rw [hx, hheld, if_neg Bool.false_ne_true]
    cases he : s.me.ctl.exit with
    | some t => exact exitMove_behind (by rw [he]; rfl)
    | none =>
      rw [skips hd8 (exitMove_isTrigger he), Core.skip_eq htodo, hheld, if_neg Bool.false_ne_true]
      rfl
  · rw [skips hd8 ht, Core.skip_eq htodo]
    split
    · split <;> rfl
    · rfl

/-- Settles O10: a move and a trigger ask for their guard and then for their source before all else; the unit of an access answers that
it waits where an `xlwait` of its block does. -/
theorem unlandedOperandWaits : Obligations.UnlandedOperandWaits := by
  unfold Obligations.UnlandedOperandWaits
  refine ⟨fun i sl g src d s hparts hexit hw => ?_, fun g src s hx => ⟨accessForms2_decline hx, accessForms7_decline hx⟩⟩
  rcases exec_cases s hparts with ⟨x, -, hx⟩ | ⟨-, -, x, relative, link, rfl, hx⟩ | ⟨-, ht⟩
  · exact hx.trans (execMove_waits hw)
  · exact hx.trans ((exitMove_isTrigger hexit).waits hw)
  · exact ht.waits hw

end Sys2Proof.Proofs.BundlesAssembly
end

section
/-! PROOFS. What a move writes, how it converts its value, and the exit that fires (06 R166 to R169, R172, R177; 10 R262). -/

namespace Sys2Proof.Machine

/-! ### Conversions (06 R168) -/

theorem extract_broadcast (x : Word) {j : Nat} (hj : j < 16) : (broadcast x).extractLsb' (64 * j) 64 = x := by
  refine BitVec.eq_of_getLsbD_eq fun i hi => ?_
  rw [broadcast, BitVec.getLsbD_extractLsb', BitVec.getLsbD_setWidth, BitVec.getLsbD_replicate]
  have hmod : (64 * j + i) % 64 = i := by omega
  rw [hmod]
  simp only [hi, show 64 * j + i < 1024 by omega, decide_true, Bool.true_and]

/-! ### Moves (06 R166, R169, R177; 18 R379) -/

section
variable {s : State} {sl : Slot} {g : Guard} {src : Src} {d : Dst} {n : Notice}

theorem execMove_moves (h : s.Moves sl g src) : execMove sl g src d s =
    .next (s.after fun c => c.write sl (dstLoc sl d).1 .put (s.value sl src (dstLoc sl d).2.1) (dstLoc sl d).2.2) := by
  obtain ⟨hr, hb, hg, hs, hbad⟩ := h
  simp only [State.me] at hr hb hg hs hbad
  simp only [execMove, hr, hb, hg, hs, hbad, Bool.not_true, Bool.false_eq_true, if_false]
  rfl

/-- The value that a move meets and may not copy: its guard's, or, where that is true, its source's. -/
def State.MoveBad (s : State) (sl : Slot) (g : Guard) (src : Src) (n : Notice) : Prop :=
  s.me.guardBad g = some n ∨ (s.me.guardBad g = none ∧ s.me.guard g = true ∧ s.me.srcReady sl src = true ∧ s.me.srcBad sl src = some n)

theorem execMove_defers (hr : s.me.guardReady g = true) (h : s.MoveBad sl g src n) :
    execMove sl g src d s = .next (s.after fun c => c.deferBad n sl.num) := by
  simp only [State.me] at hr
  rcases h with hb | ⟨hb, hg, hs, hbad⟩
  · simp only [State.me] at hb
    simp only [execMove, hr, hb, Bool.not_true, Bool.false_eq_true, if_false]
    rfl
  · simp only [State.me] at hb hg hs hbad
    simp only [execMove, hr, hb, hg, hs, hbad, Bool.not_true, Bool.false_eq_true, if_false]
    rfl

end

theorem Core.deferBad_regs (c : Core) (n : Notice) (slot : Nat) : (c.deferBad n slot).regs = c.regs := by
  unfold Core.deferBad
  split
  · split <;> rfl
  · rfl

theorem Core.deferBad_deferred {c : Core} (h : c.ctl.deferred = none) (n : Notice) (slot : Nat) :
    (c.deferBad n slot).ctl.deferred = some (n, slot) := by
  rw [Core.deferBad, h]

/-- A move to the other file is visible from the second bundle on, every other from the next (06 R160, R177). -/
theorem dstLoc_delay (sl : Slot) (d : Dst) :
    (dstLoc sl d).2.2 = match d with | .otherSreg _ => 2 | .otherVreg _ => 2 | _ => 1 := by
  cases d <;> rfl

/-! ### Exits (06 R172, 10 R262) -/

/-- The core as an exit with its target leaves it, but for the link. -/
def Core.exits (c : Core) (target : Word) : Core := { c with ctl := { c.ctl with exit := some target.toNat, exitNeg := target.msb } }

theorem Core.fireExit_of_link (c : Core) (sl : Slot) (target : Word) : c.fireExit sl target true =
    (c.exits target).write sl (.sreg false 31) .put (BitVec.ofNat 1024 c.ctl.cur.stop) 1 := rfl

theorem Core.fireExit_of_noLink (c : Core) (sl : Slot) (target : Word) : c.fireExit sl target false = c.exits target := rfl

/-- The target of an exit from the written value (10 R262). -/
def State.exitTarget (s : State) (x : ExitSlot) (src : Src) (relative : Bool) : Word :=
  if relative then BitVec.ofNat 64 s.me.ctl.cur.index + s.word x.slot src else s.word x.slot src

section
variable {s : State} {x : ExitSlot} {g : Guard} {src : Src}

theorem exitMove_fires (hok : s.Ok) (he : s.me.ctl.exit = none) (h : s.Passes x.slot g src) (relative link : Bool) :
    exitMove x g src s relative link = .next (s.after fun c => c.fireExit x.slot (s.exitTarget x src relative) link) := by
  have hnone : ¬ (s.core s.curCore).ctl.exit.isSome = true := by
    change ¬ s.me.ctl.exit.isSome = true
    rw [he]
    exact Bool.false_ne_true
  rw [exitMove, if_neg hnone, regTrigger_passes h rfl hok]
  rfl

/-- Each exit is an exit move with its row of `exitForms`. -/
theorem exec_exitForms (x : ExitSlot) (g : Guard) (src : Src) (s : State) :
    ∀ e ∈ exitForms, exec (e.1 x g src) s = exitMove x g src s e.2.1 e.2.2 := by
  simp only [-reduceCtorEq, exitForms, List.forall_mem_cons]
  exact ⟨rfl, rfl, rfl, rfl, rfl, List.forall_mem_nil _⟩

end

end Sys2Proof.Machine
end

section
/-! PROOFS. The obligations on moves, conversions and exits. -/

namespace Sys2Proof.Proofs.BundlesAssembly

open Sys2Proof.Machine

/-- Settles O12: a move that passes is one write of its converted source; one that meets a value which it may not copy defers it. -/
theorem moveResult : Obligations.MoveResult := by
  unfold Obligations.MoveResult
  exact ⟨fun s sl g src d h hf => ⟨dstLoc_delay sl d, _, Core.write_wrote s.me.pop sl _ _ _ _ hf, execMove_moves h⟩,
    fun s sl g src d n hr h => ⟨execMove_defers hr h, fun hd => Core.deferBad_deferred (c := s.me.pop) hd n sl.num, Core.deferBad_regs ..⟩⟩

/-- Settles O13: each conversion is a row of `convert`; that of a scalar to a vector is read back element by element. -/
theorem conversions : Obligations.Conversions := by
  unfold Obligations.Conversions
  exact fun v => ⟨fun _ => rfl, fun j hj => extract_broadcast _ hj, rfl, rfl, rfl, rfl, rfl, fun _ => rfl⟩

/-- Settles O23: the first exit whose guard is true fires with its target, and a link is one write; an exit behind it only passes. -/
theorem exitFires : Obligations.ExitFires := by
  unfold Obligations.ExitFires
  intro e he x g src s
  have hexec := exec_exitForms x g src s e he
  refine ⟨fun hx => hexec.trans (exitMove_behind hx), fun hok hx hp hf => ?_⟩
  rw [exitMove_fires hok hx hp] at hexec
  dsimp only
  split
  case isTrue hlink =>
    rw [hlink] at hexec
    exact ⟨_, Core.write_wrote (s.me.pop.exits (s.exitTarget x src e.2.1)) x.slot _ _ _ _ hf, hexec⟩
  case isFalse hlink =>
    rw [Bool.eq_false_of_not_eq_true hlink] at hexec
    exact hexec

end Sys2Proof.Proofs.BundlesAssembly
end

section
/-! PROOFS. A step of a core whose parcel passes, waits, or is held by throttling, and of an event on the agenda (06 R169, R179;
20 R411, R421). -/

namespace Sys2Proof.Machine

section
variable {s t : State} {sl : Slot} {p : Parcel} {i : Instr}

/-- With nothing on the agenda a core of a device that runs has its turn. -/
theorem step_eq_turn (ha : s.agenda = []) (hb : s.boot = .running) (hc : s.curCore < 256) : step s = turn s := by
  simp only [step, ha, hb, ne_eq, not_true_eq_false, if_false]
  rw [if_neg (by omega)]

theorem Core.parcel_eq {c : Core} (hp : c.ctl.phase = .run) (hw : c.ctl.waiting = none) : c.parcel = c.ctl.todo.head? :=
  if_pos ⟨hp, hw⟩

theorem turn_of_paused (h : s.pausedBy (clusterOf s.curCore) = true) : turn s = coreTurn s s.curCore := by
  unfold turn
  split
  · rfl
  · rw [if_pos h]

theorem State.waits_iff {k : Nat} : s.waits t k = true ↔ (t.core k).ctl.todo = (s.core k).ctl.todo := beq_iff_eq

/-- The turn of a core whose parcel is performed: it counts as passed unless the bundle stands as it was. -/
theorem turn_of_parcel (hm : s.me.parcel = some (sl, p)) (hp : s.pausedBy (clusterOf s.curCore) = false)
    (hi : decodeParcel sl p = some i) (he : exec i s = .next t) :
    turn s = if s.waits t s.curCore then coreTurn s s.curCore else .next (t.countBusy s.curCore (slotEngine sl)) := by
  have hrun : runParcel (sl, p) s = some (.next t) := by rw [runParcel, hi, ← he]; rfl
  simp only [State.me] at hm
  simp only [turn, hm, hp, hrun, Bool.false_eq_true, if_false]

theorem step_of_event {rest : List Instr} (ha : s.agenda = i :: rest) (he : encode i = none) :
    step s = exec i { s with agenda := rest } := by
  simp only [step, ha, encode_eq_none he, Option.isNone_none, if_true]

end

end Sys2Proof.Machine
end

section
/-! PROOFS. The obligation on a step. -/

namespace Sys2Proof.Proofs.BundlesAssembly

open Sys2Proof.Machine

/-- Settles O4: the turn of the core is that of its parcel, of its other parts where the parcel waits or throttling holds it. -/
theorem stepRunsDecoded : Obligations.StepRunsDecoded := by
  unfold Obligations.StepRunsDecoded
  refine ⟨fun s t sl p i ha hb hc hph hw hp htodo hi he hne => ?_, fun s t sl p i ha hb hc hph hw htodo hi he heq => ?_,
    fun s ha hb hc hp => (step_eq_turn ha hb hc).trans (turn_of_paused hp), fun s i rest ha he => step_of_event ha he⟩
  · rw [step_eq_turn ha hb hc, turn_of_parcel ((Core.parcel_eq hph hw).trans htodo) hp hi he, if_neg (mt State.waits_iff.1 hne)]
  · rw [step_eq_turn ha hb hc]
    cases hp : s.pausedBy (clusterOf s.curCore) with
    | true => exact turn_of_paused hp
    | false => rw [turn_of_parcel ((Core.parcel_eq hph hw).trans htodo) hp hi he, if_pos (State.waits_iff.2 heq)]

end Sys2Proof.Proofs.BundlesAssembly
end

section
/-! PROOFS. Scalar stores and scratchpad stores as they are dispatched (06 R173, R176; 08 R208). -/

namespace Sys2Proof.Machine

/-- The room that a store finds once its parcel is done and memory is in state `ms` is the room that it found before. -/
theorem makeStoreRoom_popped_withMs (s : State) (ms : MemSys) :
    makeStoreRoom { s.popped with ms := ms } s.curCore = s.withRoom { s with ms := ms } := by
  have hcore : ({ s.popped with ms := ms } : State).core s.curCore = s.me.pop := s.core_popped
  have hst : s.me.pop.st + s.me.pop.stHeld + ({ s.popped with ms := ms } : State).treesOut s.curCore = s.stCounted := rfl
  rw [makeStoreRoom, hcore, hst, State.withRoom]
  by_cases hroom : s.stCounted < 63
  · rw [if_neg (by omega), if_pos hroom]
    rfl
  · rw [if_pos (by omega), if_neg hroom]
    rfl

theorem Core.padOk_not_iff {c : Core} {a n : Nat} : (!c.padOk a n) = true ↔ 32768 * c.ways < a + n := by
  rw [Core.padOk, Bool.not_eq_true', decide_eq_false_iff_not, Nat.not_le]

/-- The data of a store of `n` bytes: the low bytes of `ls2.o1` (08 R208). -/
def State.storeData (s : State) (n : Nat) : BitVec 1024 := BitVec.ofNat 1024 ((s.me.portW .s2 1).toNat % 2 ^ (8 * n))

/-- The address of a scalar access of `ls2` (08 R208). -/
def State.scalarEa (s : State) (src : Src) : Nat := (s.word .s2 src + s.me.portW .s2 0).toNat

section
variable {s : State} {g : Guard} {src : Src} (h : s.Passes .s2 g src) (hn : s.me.storeRoom = true) (hf : s.storeFull s.curCore = false)
include h hn hf

theorem scalarStore_misaligned (hx : s.xlWaits s.curCore = false) {n : Nat} (ha : s.scalarEa src % n ≠ 0) :
    scalarStore s g src n = .next (s.faults .s2 0x05 (s.scalarEa src) 1) := by
  rw [scalarStore, storeTrigger_passes h hn (by rw [hx]; rfl) hf, ← kindFault_popped]
  exact congrArg _ (if_pos ha)

theorem scalarStore_holds (hx : s.xlWaits s.curCore = false) {n : Nat} {ms : MemSys} {x : Xlat} (ha : s.scalarEa src % n = 0)
    (ht : translate s.ms (s.who s.curCore) (s.scalarEa src) .store = (ms, .ok x)) : scalarStore s g src n =
      .next ((s.withRoom { s with ms := ms }).modCore s.curCore fun c => c.hold .s2 (.store n x (s.storeData n)) none) := by
  rw [scalarStore, storeTrigger_passes h hn (by rw [hx]; rfl) hf]
  refine congrArg _ ((if_neg (not_not.2 ha)).trans ?_)
  rw [State.scalarEa, State.word] at ht
  dsimp only
  rw [Core.pop_portW, Core.pop_portW, pow2_eq, State.popped_ms, State.who_popped, ht]
  dsimp only
  rw [makeStoreRoom_popped_withMs]
  rfl

theorem scratchStore_passes (n : Nat) : scratchStore s g src n =
    .next (if s.scalarEa src % n ≠ 0 then s.faults .s2 0x05 (s.scalarEa src) 1
      else if 32768 * s.me.ways < s.scalarEa src + n then s.faults .s2 0x0D (s.scalarEa src) 1
      else (s.withRoom s).modCore s.curCore fun c => c.hold .s2 (.sstore n (s.scalarEa src) (s.storeData n)) none) := by
  rw [scratchStore, storeTrigger_passes h hn rfl hf, ← kindFault_popped, ← kindFault_popped, ← makeStoreRoom_popped]
  refine congrArg _ (ite_congr rfl (fun _ => rfl) fun _ => ite_congr (propext ?_) (fun _ => rfl) fun _ => ?_)
  · exact Core.padOk_not_iff
  · dsimp only
    rw [Core.pop_portW, pow2_eq]
    rfl

end

/-! ### Stores without room in `st` (06 R176; log entry 21) -/

section
variable {s : State} {g : Guard} {src : Src} (h : s.Passes .s2 g src) (hf : s.storeFull s.curCore = true)
include h hf

theorem scalarStore_full {n : Nat} : scalarStore s g src n = .next s := storeTrigger_declines h (by rw [hf, Bool.or_true])
theorem scratchStore_full {n : Nat} : scratchStore s g src n = .next s := storeTrigger_declines h (by rw [hf, Bool.or_true])
theorem flushOp_full {inv : Bool} : flushOp s g src inv = .next s := storeTrigger_declines h (by rw [hf, Bool.or_true])

end

/-! ### The instructions -/

section
variable (g : Guard) (src : Src) (s : State)

theorem exec_storeForms : ∀ e ∈ storeForms, exec (e.1 g src) s = scalarStore s g src e.2 := by
  simp only [-reduceCtorEq, storeForms, List.forall_mem_cons]
  exact ⟨rfl, rfl, rfl, rfl, List.forall_mem_nil _⟩

theorem exec_scratchStoreForms : ∀ e ∈ scratchStoreForms, exec (e.1 g src) s = scratchStore s g src e.2 := by
  simp only [-reduceCtorEq, scratchStoreForms, List.forall_mem_cons]
  exact ⟨rfl, rfl, rfl, rfl, List.forall_mem_nil _⟩

end

end Sys2Proof.Machine
end

section
/-! PROOFS. The obligation on scalar stores. -/

namespace Sys2Proof.Proofs.BundlesAssembly

open Sys2Proof.Machine

/-- Settles O30: a store that passes is held with the room that `st` has for it, and one without room waits. -/
theorem storesHeld : Obligations.StoresHeld := by
  unfold Obligations.StoresHeld
  refine ⟨fun e he g src s ms x _ hp hn hx hf => ?_, fun f hf g src s hp hfull => ?_, fun e he g src s _ hp hn hf => ?_⟩
  · rw [exec_storeForms g src s e he]
    exact ⟨scalarStore_misaligned hp hn hf hx, scalarStore_holds hp hn hf hx⟩
  · revert f
    simp only [-reduceCtorEq, List.forall_mem_append, List.forall_mem_map, List.forall_mem_cons]
    refine ⟨⟨fun e he => ?_, fun e he => ?_⟩, flushOp_full hp hfull, flushOp_full hp hfull, List.forall_mem_nil _⟩
    · rw [exec_storeForms g src s e he, scalarStore_full hp hfull]
    · rw [exec_scratchStoreForms g src s e he, scratchStore_full hp hfull]
  · have hexec := (exec_scratchStoreForms g src s e he).trans (scratchStore_passes hp hn hf e.2)
    dsimp only
    split
    case isTrue ha => exact hexec.trans (congrArg _ (if_pos ha))
    case isFalse ha =>
      split
      case isTrue hpad => exact hexec.trans (congrArg _ ((if_neg ha).trans (if_pos hpad)))
      case isFalse hpad => exact hexec.trans (congrArg _ ((if_neg ha).trans (if_neg hpad)))

end Sys2Proof.Proofs.BundlesAssembly
end

section
/-! PROOFS. Blocks as they are entered, and bundles as they pass (06 R171, R179, R181). -/

namespace Sys2Proof.Machine

theorem refillRange_of_kept {s : State} {k : Nat} (h : (s.core k).rangeLost = false) : refillRange s k = (s, none) := by
  rw [refillRange, h]
  rfl

/-- The core as a block boundary leaves it once it has taken no fault there: the faults of its drained channels are met. -/
def Core.metDrains (c : Core) : Core := { c with cp := { c.cp with drained := [] } }

/-- A legal block is entered at its first bundle. -/
theorem enterBlock_enters {s : State} {k : Nat} {ms : MemSys} {fs : List Fetched} {b : Bundle} {bs : List Bundle} (hok : s.Ok)
    (hneg : (s.core k).ctl.negative = false) (hhead : (s.core k).ctl.head < (s.core k).code.npar) (hlost : (s.core k).rangeLost = false)
    (hfetch : blockBundles s k = (ms, .ok fs)) (hlegal : firstIllegal 63 0 fs = none) (hbound : (s.core k).atBoundary = none)
    (hfs : fs.map Fetched.bundle = b :: bs) (hstop : (s.core k).stopped b = false) :
    enterBlock s k = { s with ms := ms }.modCore k fun c => c.metDrains.enterBundle b bs 0 := by
  have hin : ((s.core k).ctl.negative || decide ((s.core k).code.npar ≤ (s.core k).ctl.head)) = false := by
    rw [hneg, Bool.false_or, decide_eq_false_iff_not]
    omega
  simp only [enterBlock, hin, refillRange_of_kept hlost, hfetch, hlegal, hbound, hfs, hstop, Bool.false_eq_true, if_false]
  exact congrArg (fun t : State => { t with ms := ms }) (State.modCore_modCore hok k Core.metDrains fun c => c.enterBundle b bs 0)

/-- The core once the clocks of the task that enters have switched (21 R426). -/
def Core.clocksSwitched (c : Core) : Core := { c with clk := { c.clk with entering := false } }

theorem execBlockEntry_of_ready {s : State} {k : Nat} (hp : (s.core k).ctl.phase = .head) (hd : (s.core k).draining = false)
    (hpre : (s.core k).preemptHere = false) (hclk : (s.core k).clk.entering = false ∨ s.clocksReady k = true) :
    execBlockEntry k s = .next (enterBlock (s.modCore k Core.clocksSwitched) k) := by
  have hclk' : ((s.core k).clk.entering && !s.clocksReady k) = false := by
    rcases hclk with h | h <;> rw [h] <;> simp only [Bool.false_and, Bool.not_true, Bool.and_false]
  simp only [execBlockEntry, hp, hd, hpre, hclk', ne_eq, not_true_eq_false, Bool.false_eq_true, or_self, if_false]
  rfl

section
variable {s : State} {k : Nat} (hp : (s.core k).ctl.phase = .run) (ht : (s.core k).ctl.todo = []) (hw : (s.core k).ctl.waiting = none)
  (hd : (s.core k).ctl.deferred = none)
include hp ht hw hd

theorem execBundlePass_commits (hb : (s.core k).ctl.bundles = []) :
    execBundlePass k s = .next (s.setCore k { s.core k with ctl := { (s.core k).ctl with phase := .commit } }) := by
  simp only [execBundlePass, hp, ht, hw, hd, hb, ne_eq, not_true_eq_false, Option.isSome_none, Bool.false_eq_true, or_self, if_false]

theorem execBundlePass_next {b : Bundle} {bs : List Bundle} (hb : (s.core k).ctl.bundles = b :: bs) (hs : (s.core k).stopped b = false) :
    execBundlePass k s = .next (s.setCore k (Core.enterBundle
      { s.core k with ctl := { (s.core k).ctl with bcount := (s.core k).ctl.bcount + 1 } } b bs ((s.core k).ctl.bidx + 1))) := by
  simp only [execBundlePass, hp, ht, hw, hd, hb, hs, ne_eq, not_true_eq_false, Option.isSome_none, Bool.false_eq_true, or_self, if_false]

end

end Sys2Proof.Machine
end

section
/-! PROOFS. The obligation on blocks and bundles. -/

namespace Sys2Proof.Proofs.BundlesAssembly

open Sys2Proof.Machine

/-- Settles O43: a legal block is entered at its first bundle, and a bundle that every slot has passed gives way. -/
theorem blocksAndBundles : Obligations.BlocksAndBundles := by
  unfold Obligations.BlocksAndBundles
  refine ⟨?entry, ?pass⟩
  case pass =>
    intro s k c hp ht hw hd
    exact ⟨execBundlePass_commits hp ht hw hd, fun b bs hb hs => execBundlePass_next hp ht hw hd hb hs⟩
  case entry =>
    intro s k ms fs b bs c hok hp hdrain hpre hclk hneg hhead hlost hfetch hlegal hbound hfs hstop
    have hcore : (s.modCore k Core.clocksSwitched).core k = c.clocksSwitched := State.core_setCore ..
    have henter := enterBlock_enters (State.modCore_ok k Core.clocksSwitched hok) (by rw [hcore]; exact hneg) (by rw [hcore]; exact hhead)
      (by rw [hcore]; exact hlost) hfetch hlegal (by rw [hcore]; exact hbound) hfs (by rw [hcore]; exact hstop)
    refine ⟨c.clocksSwitched.metDrains.enterBundle b bs 0, ?_, rfl, rfl, rfl, rfl, rfl, rfl, rfl, rfl, rfl, rfl, rfl, rfl, rfl⟩
    refine (execBlockEntry_of_ready hp hdrain hpre hclk).trans (congrArg _ (henter.trans ?_))
    exact congrArg (fun t : State => { t with ms := ms }) (State.modCore_modCore hok k Core.clocksSwitched fun c => c.metDrains.enterBundle b bs 0)

end Sys2Proof.Proofs.BundlesAssembly
end

section
/-! PROOFS. What remote homes acknowledge (22 R433, R435). -/

namespace Sys2Proof.Machine

theorem ackOrdered_sublist (p : Unacked → Bool) (us : List Unacked) (late : List Nat) : (ackOrdered p late us).Sublist us := by
  induction us generalizing late with
  | nil => exact List.nil_sublist []
  | cons u us ih =>
    rw [ackOrdered]
    split
    · exact (ih late).cons u
    · exact (ih _).cons_cons u

/-- An access that nothing before it to its device holds up is acknowledged. -/
theorem count_ackOrdered_lt {p : Unacked → Bool} {u : Unacked} (hu : p u = true) (post : List Unacked) {late : List Nat}
    (hlate : u.dev ∉ late) {pre : List Unacked} (hpre : ∀ v ∈ pre, v.dev = u.dev → p v = true) :
    (ackOrdered p late (pre ++ u :: post)).count u < (pre ++ u :: post).count u := by
  induction pre generalizing late with
  | nil =>
    have hack : (p u && !late.contains u.dev) = true := by simp [hu, hlate]
    have hpost := (ackOrdered_sublist p post late).count_le u
    rw [List.nil_append, ackOrdered, if_pos hack, List.count_cons_self]
    omega
  | cons v pre ih =>
    have hpre' : ∀ w ∈ pre, w.dev = u.dev → p w = true := fun w hw => hpre w (List.mem_cons_of_mem v hw)
    rw [List.cons_append, ackOrdered]
    split
    · exact (ih hlate hpre').trans_le (List.count_le_count_cons ..)
    · next hkept =>
      have hdev : u.dev ≠ v.dev := fun he => hkept (by simp [hpre v List.mem_cons_self he.symm, ← he, hlate])
      have hrest := ih (late := v.dev :: late) (by simp [hdev, hlate]) hpre'
      rw [List.count_cons, List.count_cons]
      omega

theorem State.ackLink_sublist (s : State) (p : Unacked → Bool) (link : Nat) (us : List Unacked) :
    (s.ackLink p link us).Sublist us := by
  rw [State.ackLink]
  split
  · exact List.filter_sublist
  · split
    · exact List.Sublist.refl us
    · exact ackOrdered_sublist p us []

/-- The accesses of the unordered class are acknowledged, and the first of a device on a link that is not paused. -/
theorem State.count_ackLink_lt {s : State} {p : Unacked → Bool} {link : Nat} {pre post : List Unacked} {u : Unacked}
    (hu : p u = true)
    (hlink : link = unorderedLink ∨ SMap.get 0 s.fab.paused link = 0 ∧ ∀ v ∈ pre, v.dev = u.dev → p v = true) :
    (s.ackLink p link (pre ++ u :: post)).count u < (pre ++ u :: post).count u := by
  rw [State.ackLink]
  split
  · have hgone : (List.filter (fun v => !p v) (pre ++ u :: post)).count u = 0 := List.count_eq_zero.mpr (by simp [hu])
    rw [hgone]
    exact List.count_pos_iff.mpr (by simp)
  · next hne =>
    obtain ⟨hpaused, hpre⟩ := hlink.resolve_left hne
    rw [if_neg (not_not_intro hpaused)]
    exact count_ackOrdered_lt hu post (List.not_mem_nil) hpre

theorem flatMap_snd_filter_isEmpty {α : Type} (l : List (Nat × List α)) :
    (l.filter fun e => !e.2.isEmpty).flatMap Prod.snd = l.flatMap Prod.snd := by
  induction l with
  | nil => rfl
  | cons e l ih =>
    obtain ⟨n, _ | ⟨x, xs⟩⟩ := e
    · simp [ih]
    · simp [ih]

/-- Accesses are acknowledged, none are sent: with one acknowledged there are fewer. -/
theorem State.count_acked_lt {s : State} {p : Unacked → Bool} {link : Nat} {us : List Unacked} {u : Unacked}
    (hmem : (link, us) ∈ s.fab.unacked) (hlt : (s.ackLink p link us).count u < us.count u) :
    ((s.acked p).fab.unacked.flatMap Prod.snd).count u < (s.fab.unacked.flatMap Prod.snd).count u := by
  change List.count u (List.flatMap Prod.snd (List.filter _ (List.map _ _))) < _
  rw [flatMap_snd_filter_isEmpty, List.flatMap_map, List.count_flatMap, List.count_flatMap]
  exact List.sum_lt_sum _ _ (fun e _ => (s.ackLink_sublist p e.1 e.2).count_le u) ⟨(link, us), hmem, hlt⟩

/-- The writes of core k that a remote home acknowledges. -/
def Unacked.writeOf (k : Nat) (u : Unacked) : Bool := u.core == k && u.rid.isNone

theorem execResultLanding_acks {s : State} {k link : Nat} {us : List Unacked} {u : Unacked}
    (hpend : ((s.core k).regs.pend.any fun p => p.id == 0) = false)
    (hrid : (s.fab.unacked.any fun e => e.2.any fun v => v.rid == some 0) = false)
    (hmem : (link, us) ∈ s.fab.unacked) (hu : u ∈ us) (hw : u.writeOf k = true) :
    execResultLanding k 0 s = .next (s.acked (Unacked.writeOf k)) := by
  have hload : ((s.core k).regs.pend.any fun p => p.id == 0 && p.load && !p.later && !p.landed) = false := by
    simp only [List.any_eq_false] at hpend ⊢
    intro p hp h
    simp only [Bool.and_eq_true] at h
    exact hpend p hp h.1.1.1
  have hresult : (s.fab.unacked.any fun e => e.2.any fun v => v.core == k && v.rid == some 0) = false := by
    simp only [List.any_eq_false] at hrid ⊢
    intro e he h
    obtain ⟨v, hv, hvk⟩ := List.any_eq_true.mp h
    exact hrid e he (List.any_eq_true.mpr ⟨v, hv, (Bool.and_eq_true_iff.mp hvk).2⟩)
  have hwrite : (s.fab.unacked.any fun e => e.2.any fun v => v.core == k && v.rid.isNone) = true :=
    List.any_eq_true.mpr ⟨(link, us), hmem, List.any_eq_true.mpr ⟨u, hu, hw⟩⟩
  simp only [execResultLanding, hload, hresult, hwrite, Bool.false_eq_true, Bool.not_false, Bool.not_true, if_false, and_self, if_true]
  rfl

end Sys2Proof.Machine
end

section
/-! PROOFS. The data of a load lands (06 R177). -/

namespace Sys2Proof.Machine

theorem execResultLanding_load {s : State} {k : Nat} {p : PWrite} (hp : p ∈ (s.core k).regs.pend) (hload : p.load = true)
    (hlater : p.later = false) (hlanded : p.landed = false) (hwait : (s.core k).waitingLoad p.id = none) :
    execResultLanding k p.id s = .next (s.setCore k { s.core k with regs := (s.core k).regs.arrive p.id }) := by
  have hany : ((s.core k).regs.pend.any fun q => q.id == p.id && q.load && !q.later && !q.landed) = true :=
    List.any_eq_true.mpr ⟨p, hp, by simp [hload, hlater, hlanded]⟩
  simp only [execResultLanding, hany, if_true, hwait]

theorem RegFile.landed_of_mem_arrive {r : RegFile} {id : Nat} {q : PWrite} (hq : q ∈ (r.arrive id).pend) (hid : q.id = id) :
    q.landed = true := by
  obtain ⟨p, -, rfl⟩ := List.mem_map.mp hq
  by_cases h : p.id = id
  · rw [if_pos h]
  · rw [if_neg h] at hid
    exact absurd hid h

@[simp] theorem RegFile.read_arrive (r : RegFile) (id key m blk : Nat) : (r.arrive id).read key m blk = r.read key m blk := by
  simp only [RegFile.read, RegFile.arrive, List.foldl_map]
  congr 1
  funext v p
  split <;> rfl

@[simp] theorem RegFile.bad_arrive (r : RegFile) (id key m blk : Nat) : (r.arrive id).bad key m blk = r.bad key m blk := by
  simp only [RegFile.bad, RegFile.arrive, List.foldl_map]
  congr 1
  funext b p
  split <;> rfl

end Sys2Proof.Machine
end

section
/-! PROOFS. Notices that reach a core (01 R39, 18 R378), and the end of a wait (10 R271). -/

namespace Sys2Proof.Machine

theorem seeFirst_append {code : Nat} {n : Notice} (b : List Notice) (hcode : n.code = code) (hseen : n.seen = false)
    {a : List Notice} (ha : ∀ m ∈ a, m.code = code → m.seen = true) :
    seeFirst code (a ++ n :: b) = a ++ { n with seen := true } :: b := by
  induction a with
  | nil => simp [seeFirst, hcode, hseen]
  | cons m a ih =>
    have hm : ¬(m.code = code ∧ (!m.seen) = true) := fun h => by simp [ha m List.mem_cons_self h.1] at h
    rw [List.cons_append, seeFirst, if_neg hm, ih fun x hx => ha x (List.mem_cons_of_mem m hx)]
    rfl

theorem Core.noticesOn_of_no_notices {c : Core} (h : c.notices = []) (mask : Nat) (mc : Bool) : c.noticesOn mask mc = [] := by
  rw [Core.noticesOn, h]
  rfl

theorem Core.faultedChannels_of_no_fault {c : Core} (h : ∀ ch, (c.channel ch).fp = false) (mc : Bool) : c.faultedChannels mc = [] := by
  simp [Core.faultedChannels, h]

/-- A core with no notice and no fault of its tile, its quay or its channels has nothing to deliver. -/
theorem Core.recorded_eq_none {c : Core} (hnot : c.notices = []) (htile : c.mx.fp = false) (hquay : c.cp.qflt.getLsbD 7 = false)
    (hch : ∀ ch, (c.channel ch).fp = false) (mask : Nat) (tl quay : Bool) (chs : Nat → Bool) : c.recorded mask tl quay chs = none := by
  simp only [Core.recorded, Matrix.mcFault, Core.noticesOn_of_no_notices hnot, Core.faultedChannels_of_no_fault hch, htile, hquay,
    Bool.false_and, Bool.and_false, Bool.false_eq_true, if_false, List.filter_nil, List.append_nil, List.head?_nil]

/-- The state in which a wait looks at its counts: a limit on `st` has the counted stores performed (10 R271). -/
def State.atWait (s : State) (k w : Nat) : State := if field w 6 6 < 63 then performStores s k else s

theorem execWaitReady_ends {s : State} {k w : Nat} (hw : (s.core k).ctl.waiting = some w) (hp : (s.core k).ctl.phase = .run)
    (hmet : ((s.atWait k w).core k).ld ≤ field w 0 6 ∧ ((s.atWait k w).core k).st + (s.atWait k w).treesOut k ≤ field w 6 6 ∧
      ((s.atWait k w).core k).cpCount ≤ field w 12 6 ∧ ((s.atWait k w).core k).tl ≤ field w 18 6)
    (hrec : ∀ mask tl quay chs, ((s.atWait k w).core k).recorded mask tl quay chs = none) :
    execWaitReady k s = .next ((s.atWait k w).setCore k
      { (s.atWait k w).core k with ctl := { ((s.atWait k w).core k).ctl with waiting := none } }) := by
  unfold State.atWait at hmet hrec ⊢
  simp only [execWaitReady, hw, hp, ne_eq, not_true_eq_false, if_false, if_pos hmet, hrec]

end Sys2Proof.Machine
end

section
/-! PROOFS. Iteration boundaries (10 R267). -/

namespace Sys2Proof.Machine

/-- The core at the start of the next iteration of its innermost level, which has had `l`. -/
def Core.nextIteration (c : Core) (l : Nat) (ls : List Nat) : Core :=
  { c with
    seq := { c.seq with
      li := (l + 1) :: ls, icount := (c.seq.icount + 1) % pow2 32
      q := (c.seq.q <<< 1) ||| (if (c.seq.icount + 1) % pow2 32 < c.seq.qn then 1 else 0) }
    ctl := { c.ctl with head := c.seq.rstart, iterate := false } }

theorem advanceLevels_innermost {c : Core} {n l : Nat} {ls : List Nat} (hn : 0 < n) (hl : l + 1 < (c.rd (.trip 0)).toNat) :
    advanceLevels c n 0 (l :: ls) = ((l + 1) :: ls, true) := by
  obtain ⟨m, rfl⟩ := Nat.exists_eq_succ_of_ne_zero hn.ne'
  rw [advanceLevels, List.getD_cons_zero, if_pos hl]
  rfl

theorem Core.advance_eq {c : Core} {l : Nat} {ls : List Nat} (hlv : 0 < c.seq.lv) (hli : c.seq.li = l :: ls)
    (hl : l + 1 < (c.rd (.trip 0)).toNat) : c.advance = c.nextIteration l ls := by
  simp only [Core.advance, hli, advanceLevels_innermost hlv hl, if_true]
  rfl

theorem execIterationBoundary_advances {s : State} {k : Nat} (hok : s.Ok) (hp : (s.core k).ctl.phase = .iter)
    (hfinal : (s.core k).advance.ctl.final = []) :
    execIterationBoundary k s = .next (s.setCore k
      { (s.core k).advance with ctl := { (s.core k).advance.ctl with final := [], phase := .head } }) := by
  simp only [execIterationBoundary, hp, if_true, State.core_modCore, hfinal, runFinals]
  exact congrArg _ (State.modCore_modCore hok k Core.advance _)

end Sys2Proof.Machine
end

section
/-! PROOFS. A block commits (06 R174, 15 R361). -/

namespace Sys2Proof.Machine

@[simp] theorem Core.quay_setQuay (c : Core) (q : Nat) (x : Quay) : (c.setQuay q x).quay q = x := SMap.get_set_same _ _ _ _

theorem Core.feed_frame (c : Core) (h : Held) : ∃ qs, c.feed h = { c with cp := { c.cp with quays := qs } } := by
  rw [Core.feed]
  split
  · split
    · exact ⟨c.cp.quays, rfl⟩
    · exact ⟨_, rfl⟩
  · exact ⟨c.cp.quays, rfl⟩

/-- A released nest gives nothing but its quays' feeds. -/
theorem Core.foldl_feed_frame (hs : List Held) (c : Core) : ∃ qs, hs.foldl Core.feed c = { c with cp := { c.cp with quays := qs } } := by
  induction hs generalizing c with
  | nil => exact ⟨c.cp.quays, rfl⟩
  | cons h hs ih =>
    obtain ⟨qs, hqs⟩ := c.feed_frame h
    obtain ⟨qs', hqs'⟩ := ih (c.feed h)
    exact ⟨qs', by rw [List.foldl_cons, hqs', hqs]⟩

theorem Core.forgiveAll_frame (es : List MxEntry) (c : Core) : ∃ r, c.forgiveAll es = { c with regs := r } := by
  induction es generalizing c with
  | nil => exact ⟨c.regs, rfl⟩
  | cons e es ih =>
    obtain ⟨r, hr⟩ := ih (c.forgive e.rid)
    have hhead : ∃ r', c.forgive e.rid = { c with regs := r' } := by
      cases e.rid with
      | none => exact ⟨c.regs, rfl⟩
      | some id => exact ⟨_, rfl⟩
    obtain ⟨r', hr'⟩ := hhead
    exact ⟨r, by rw [Core.forgiveAll, List.foldl_cons, ← Core.forgiveAll, hr, hr']⟩

/-- The control state that a release leaves (06 R174). -/
def Control.released (l : Control) : Control :=
  { l with phase := .release, blk := l.blk + 1, bcount := l.bcount + 1, held := 0, bundles := [], todo := [], loop := none
           store := l.store.map fun (h : Held) => { h with released := true } }

/-- What the copy engine holds once the block is released. -/
def Core.releasedCp (c : Core) : CopyEngine :=
  { c.cp with quays := (c.cp.queue.foldl Core.feed c).cp.quays
              queue := c.cp.queue.map fun (h : Held) => { h with released := true } }

theorem Core.release_frame (c : Core) : ∃ r m, c.release = { c with regs := r, mx := m, cp := c.releasedCp, ctl := c.ctl.released } := by
  obtain ⟨qs, hqs⟩ := Core.foldl_feed_frame c.cp.queue c
  obtain ⟨r, hr⟩ := Core.forgiveAll_frame (if c.mx.fp then c.mx.queue.filter fun e => !e.released else [])
    { c with cp := { c.cp with quays := qs } }
  simp only [Core.release, Core.releasedCp, hqs, hr]
  exact ⟨_, _, rfl⟩

/-- The nest released last names the quay's feed. -/
theorem Core.feed_releasedCp {c : Core} {a : List Held} {h : Held} {ch : Nat} {rs : List Word} {td : BitVec 256}
    (hq : c.cp.queue = a ++ [h]) (hrel : h.released = false) (hop : h.op = .cpGo ch rs td) (hdk : nestDk rs = 2) :
    (SMap.get {} c.releasedCp.quays ((nestReg rs 1).toNat % 16)).feed = ch := by
  have hfeed : (c.cp.queue.foldl Core.feed c).quay ((nestReg rs 1).toNat % 16) =
      { (a.foldl Core.feed c).quay ((nestReg rs 1).toNat % 16) with feed := ch } := by
    rw [hq, List.foldl_append, List.foldl_cons, List.foldl_nil, Core.feed, hop]
    simp only [hrel, hdk, bne_self_eq_false, Bool.or_self, Bool.false_eq_true, if_false, Core.quay_setQuay]
  exact congrArg Quay.feed hfeed

theorem commitBlock_of_no_loop {s : State} {k : Nat} (hend : (s.core k).endsTask = false) (hloop : (s.core k).ctl.loop = none) :
    commitBlock s k = s.setCore k (s.chooseSchedules k (s.core k).leaveBlock.release) := by
  simp only [commitBlock, hend, hloop, Bool.false_eq_true, if_false]

/-- A block that holds operations is released with them, and waits for them. -/
theorem execBlockCommit_releases {s : State} {k : Nat} (hp : (s.core k).ctl.phase = .commit) (hl : (s.core k).commitLanded = true)
    (hend : (s.core k).endsTask = false) (hloop : (s.core k).ctl.loop = none) (hstore : (s.core k).ctl.store ≠ []) :
    execBlockCommit k s = .next (s.setCore k (s.chooseSchedules k (s.core k).leaveBlock.release)) := by
  have hkept : (s.chooseSchedules k (s.core k).leaveBlock.release).ctl.store ≠ [] := by
    obtain ⟨r, m, hr⟩ := Core.release_frame (s.core k).leaveBlock
    rw [State.chooseSchedules, hr]
    simpa [Control.released, Core.leaveBlock] using hstore
  rw [execBlockCommit, if_pos ⟨hp, hl⟩, commitBlock_of_no_loop hend hloop, afterRelease_of_store (by rwa [State.core_setCore])]

theorem Core.head_leaveBlock (c : Core) : c.leaveBlock.ctl.head = c.ctl.exit.getD c.ctl.cur.stop := by
  unfold Core.leaveBlock
  cases c.ctl.exit <;> rfl

end Sys2Proof.Machine
end

section
/-! PROOFS. The obligation on commit and landing. -/

namespace Sys2Proof.Proofs.BundlesAssembly

open Sys2Proof.Machine

/-- Settles O44: what a commit, a landing, an iteration boundary, an acknowledgement, the end of a wait and a notice do. -/
theorem commitAndLanding : Obligations.CommitAndLanding := by
  unfold Obligations.CommitAndLanding
  intro s k c
  refine ⟨?commit, ?landing, ?iteration, ?acks, ?wait, ?notices⟩
  case commit =>
    intro hp hl hend hloop hstore
    obtain ⟨r, m, hr⟩ := Core.release_frame c.leaveBlock
    refine ⟨_, execBlockCommit_releases hp hl hend hloop hstore, ?_⟩
    rw [State.chooseSchedules, hr]
    refine ⟨rfl, c.head_leaveBlock, rfl, rfl, rfl, List.map_map, rfl, rfl, rfl, ?_⟩
    intro a h ch rs td hq hrel hop hdk
    exact Core.feed_releasedCp (c := c.leaveBlock) hq hrel hop hdk
  case landing =>
    intro p hp hload hlater hlanded hwait
    exact ⟨c.regs.arrive p.id, execResultLanding_load hp hload hlater hlanded hwait, fun q hq => RegFile.landed_of_mem_arrive hq, rfl,
      fun key m blk => ⟨RegFile.read_arrive .., RegFile.bad_arrive ..⟩⟩
  case iteration =>
    intro l ls hok hp hfinal hlv hli hl
    have hadv : c.advance = c.nextIteration l ls := Core.advance_eq hlv hli hl
    refine ⟨_, execIterationBoundary_advances hok hp (by rw [hadv]; exact hfinal), ?_⟩
    rw [hadv]
    exact ⟨rfl, rfl, rfl, rfl, rfl, rfl⟩
  case acks =>
    intro link us pre post u hmem hus hcore hrid hlink hpend hnone
    subst hus
    have hw : ∀ {v : Unacked}, v.core = k ∧ v.rid = none → v.writeOf k = true := fun ⟨hc, hr⟩ => by simp [Unacked.writeOf, hc, hr]
    have hu : u.writeOf k = true := hw ⟨hcore, hrid⟩
    refine ⟨_, execResultLanding_acks hpend hnone hmem (by simp) hu, State.flushHeld_cores _, State.flushHeld_ms _, ?_⟩
    refine State.count_acked_lt hmem (State.count_ackLink_lt hu (hlink.imp_right fun ⟨hpaused, hpre⟩ => ⟨hpaused, ?_⟩))
    exact fun v hv hdev => hw (hpre v hv hdev)
  case wait =>
    intro w hw hp t d hld hst hcp htl hnot htile hquay hch
    exact execWaitReady_ends hw hp ⟨hld, hst, hcp, htl⟩ (Core.recorded_eq_none hnot htile hquay hch)
  case notices =>
    intro i code hi a b n hn hcode hseen ha
    have hsee : seeFirst code c.notices = a ++ { n with seen := true } :: b := by rw [hn, seeFirst_append b hcode hseen ha]
    simp only [List.mem_cons, Prod.mk.injEq, List.not_mem_nil, or_false] at hi
    obtain ⟨rfl, rfl⟩ | ⟨rfl, rfl⟩ := hi <;> exact congrArg (fun ns => (.next (s.setCore k { c with notices := ns }) : Out)) hsee

end Sys2Proof.Proofs.BundlesAssembly
end

section
/-! PROOFS. Accesses of a parcel at one translated address: the fault of the address, then that of its translation, then the access itself
(08 R204, R208; 18 R380). -/

namespace Sys2Proof.Machine

/-- How the unit of an access begins; `ret` is how it answers a state. -/
def beginAccess {α : Type} (ret : State → α) (s : State) (k : Nat) (sl : Slot) (a size : Nat) (kind : XKind) (act : MemSys → Xlat → α) : α :=
  if a % size ≠ 0 then ret (kindFault s k sl 0x05 a kind.code)
  else
    match translate s.ms (s.who k) a kind with
    | (ms, .error f) => ret (accessFaultAt { s with ms := ms } k sl f kind.code)
    | (ms, .ok x) => act ms x

/-- What an access does where its parcel passes. -/
def State.accessAt (s : State) (sl : Slot) (a size : Nat) (kind : XKind) (act : MemSys → Xlat → State) : State :=
  if a % size ≠ 0 then s.faults sl 0x05 a kind.code
  else
    match translate s.ms (s.who s.curCore) a kind with
    | (ms, .error f) => s.accessFaults ms sl f kind.code
    | (ms, .ok x) => act ms x

section
variable {s : State} {sl : Slot} {a size : Nat} {kind : XKind}

/-- Once the parcel is done, an access that begins is the access of the parcel. -/
theorem beginAccess_popped {α : Type} {ret : State → α} {out : α → State} {act : MemSys → Xlat → α} {act' : MemSys → Xlat → State}
    (hret : ∀ t, out (ret t) = t) (hact : ∀ ms x, out (act ms x) = act' ms x) :
    out (beginAccess ret s.popped s.curCore sl a size kind act) = s.accessAt sl a size kind act' := by
  unfold beginAccess State.accessAt
  rw [State.popped_ms, State.who_popped]
  split
  · rw [hret, kindFault_popped]
  · rcases translate s.ms (s.who s.curCore) a kind with ⟨ms, f | x⟩
    · exact (hret _).trans (accessFaultAt_popped ..)
    · exact hact ms x

variable {act : MemSys → Xlat → State} {ms : MemSys}

theorem State.accessAt_misaligned (ha : a % size ≠ 0) : s.accessAt sl a size kind act = s.faults sl 0x05 a kind.code := if_pos ha

theorem State.accessAt_error (ha : ¬ a % size ≠ 0) {f : XFault} (ht : translate s.ms (s.who s.curCore) a kind = (ms, .error f)) :
    s.accessAt sl a size kind act = s.accessFaults ms sl f kind.code := by
  rw [State.accessAt, if_neg ha, ht]

theorem State.accessAt_ok (ha : ¬ a % size ≠ 0) {x : Xlat} (ht : translate s.ms (s.who s.curCore) a kind = (ms, .ok x)) :
    s.accessAt sl a size kind act = act ms x := by
  rw [State.accessAt, if_neg ha, ht]

end

theorem moveFault_popped_withMs (s : State) (ms : MemSys) (sl : Slot) (code addr : Nat) :
    moveFault { s.popped with ms := ms } s.curCore sl code addr = { s with ms := ms }.faults sl code addr 0 :=
  kindFault_popped_withMs s ms sl code addr 0

end Sys2Proof.Machine
end

section
/-! PROOFS. Loads and atomics of `ls2` as they are dispatched (06 R174; 08 R208, R210, R211). -/

namespace Sys2Proof.Machine

/-! ### Numbers -/

/-- The two's complement reading of a number's low bits is that of the word of these bits. -/
theorem sint_eq_toInt (n x : Nat) : sint n x = (BitVec.ofNat n x).toInt := by
  rw [sint, BitVec.toInt, BitVec.toNat_ofNat]
  by_cases hlow : 2 * (x % 2 ^ n) < 2 ^ n
  · rw [if_pos hlow, if_neg (by omega)]
  · rw [if_neg hlow, if_pos (by omega)]

theorem extend_eq (signed : Bool) (n v : Nat) : extend signed n v =
    if signed then BitVec.ofInt 64 (BitVec.ofNat (8 * n) v).toInt else BitVec.ofNat 64 (v % 2 ^ (8 * n)) := by
  rw [extend, sextWord, sint_eq_toInt, pow2_eq]

theorem Xlat.uncached_iff (x : Xlat) : x.uncached = true ↔ x.dev ≠ none ∨ (x.hole = false ∧ inAperture x.pa = false) := by
  rw [Xlat.uncached]
  cases x.dev <;> simp

/-! ### What a load asks of its core -/

@[simp] theorem Core.pop_vectorAt (c : Core) (pa n : Nat) : c.pop.vectorAt pa n = c.vectorAt pa n := rfl
@[simp] theorem Core.pop_keepsLoad (c : Core) (ea pa n : Nat) : c.pop.keepsLoad ea pa n = c.keepsLoad ea pa n := rfl
@[simp] theorem Core.pop_padStoreAt (c : Core) (off n : Nat) : c.pop.padStoreAt off n = c.padStoreAt off n := rfl
@[simp] theorem Core.pop_padErr (c : Core) (a n : Nat) : c.pop.padErr a n = c.padErr a n := rfl
@[simp] theorem Core.pop_padPoisoned (c : Core) (a : Nat) : c.pop.padPoisoned a = c.padPoisoned a := rfl

@[simp] theorem Core.pop_padBytes (c : Core) (a n : Nat) : c.pop.padBytes a n = c.padBytes a n := by
  induction n generalizing a with
  | zero => rfl
  | succ n ih => rw [Core.padBytes, Core.padBytes, ih, Core.pop_scratch]

/-! ### Loads -/

/-- What a plain load does once its address `ea` is translated. -/
def State.loaded (s : State) (n : Nat) (signed : Bool) (ea : Nat) (ms : MemSys) (x : Xlat) : State :=
  if x.uncached then { s with ms := ms }.faults .s2 0x06 ea 0
  else if s.me.vectorAt x.pa n then s
  else if s.me.keepsLoad ea x.pa n then { s with ms := ms }.after fun c => c.deferLoad n signed x
  else if x.hole then { s with ms := ms }.after fun c => c.loadResult .s2 (.rport 2 false) 8 0 false none
  else
    let r := cachedLoad ms (s.who s.curCore) s.me.ways x x.pa n 1
    { s with ms := r.1 }.after fun c =>
      (c.loadResult .s2 (.rport 2 false) 8 (wordVec (extend signed n (forward x.pa r.2.val s.me.ctl.store n))) false r.2.bad).note r.2.bad

/-- What the unit answers for a plain load whose address `ea` is translated. -/
def loadAnswer (n : Nat) (signed : Bool) (ea : Nat) (s : State) (k : Nat) (c : Core) (ms : MemSys) (x : Xlat) : Option State :=
  if x.uncached then some (moveFault { s with ms := ms } k .s2 0x06 ea)
  else if c.vectorAt x.pa n then none
  else if c.keepsLoad ea x.pa n then some ({ s with ms := ms }.setCore k (c.deferLoad n signed x))
  else
    let r := holeOr x (cachedLoad ms (s.who k) c.ways x x.pa n 1) ms
    let w := if x.hole then r.2.val else forward x.pa r.2.val c.ctl.store n
    some ({ s with ms := r.1 }.setCore k
      ((c.loadResult .s2 (.rport 2 false) 8 (wordVec (extend signed n w)) false r.2.bad).note r.2.bad))

theorem scalarLoad_eq (s : State) (g : Guard) (src : Src) (n : Nat) (signed : Bool) : scalarLoad s g src n signed =
    triggerOr s .s2 .scalar g src Core.ldRoom fun s k c v => if s.xlWaits k then none else
      beginAccess some s k .s2 (v.setWidth 64 + c.portW .s2 0 : Word).toNat n .load
        (loadAnswer n signed (v.setWidth 64 + c.portW .s2 0 : Word).toNat s k c) := rfl

theorem wordVec_extend_zero (signed : Bool) (n : Nat) : wordVec (extend signed n 0) = 0 := by
  rw [extend_eq]
  cases signed <;> simp [wordVec]

theorem loadAnswer_popped {s : State} (hok : s.Ok) (n : Nat) (signed : Bool) (ea : Nat) (ms : MemSys) (x : Xlat) :
    (loadAnswer n signed ea s.popped s.curCore s.me.pop ms x).getD s = s.loaded n signed ea ms x := by
  unfold loadAnswer State.loaded
  rw [Core.pop_vectorAt, Core.pop_keepsLoad, State.who_popped]
  split_ifs with hu hv hk hh
  · exact moveFault_popped_withMs ..
  · rfl
  · exact State.setCore_popped hok ms fun c => c.deferLoad n signed x
  · rw [holeOr, if_pos hh]
    dsimp only [Got.ok]
    rw [wordVec_extend_zero]
    exact State.setCore_popped hok ms fun c => c.loadResult .s2 (.rport 2 false) 8 0 false none
  · rw [holeOr, if_neg hh]
    exact State.setCore_popped hok _ fun c => (c.loadResult .s2 (.rport 2 false) 8 _ false _).note _

/-- What a scratchpad load at offset `ea` does where its parcel passes. -/
def State.padLoaded (s : State) (n : Nat) (signed : Bool) (ea : Nat) : State :=
  if ea % n ≠ 0 then s.faults .s2 0x05 ea 0
  else if 32768 * s.me.ways < ea + n then s.faults .s2 0x0D ea 0
  else if s.me.padStoreAt ea n then s
  else if s.me.padErr ea n then takePadError s.popped s.curCore .s2
  else
    let bad := if s.me.padPoisoned ea then some (poisonNotice ea 0 1) else none
    s.after fun c => (c.loadResult .s2 (.rport 2 false) 8
      (wordVec (extend signed n (forwardPad ea (s.me.padBytes ea n) s.me.ctl.store n))) true bad).note bad

/-! ### Atomics (08 R210, R211) -/

/-- The counted stores that are performed for a store's sake leave the operand ports as they were. -/
theorem State.withRoom_portW (s : State) (ms : MemSys) (sl : Slot) (n : Nat) :
    ((s.withRoom { s with ms := ms }).core s.curCore).portW sl n = s.me.portW sl n := by
  unfold State.withRoom performStores State.after
  split
  · rw [State.core_setCore]
    rfl
  · rw [State.core_setCore, State.core_setCore]
    rfl

/-- What the unit answers for an atomic with control word `cw` whose address is translated. -/
def atomicAnswer (op : AtOp) (cw : Word) (s : State) (k : Nat) (c : Core) (ms : MemSys) (x : Xlat) : Option State :=
  if !inAperture x.pa && space x.pa != .reserved then some (kindFault { s with ms := ms } k .s2 0x06 (c.portW .s2 0).toNat 2)
  else if bit cw.toNat 2 then
    some ({ s with ms := ms }.setCore k ((c.owe .s2 (.rport 2 false) .put 11 true).hold .s2
      (.atomic op cw.toNat x (c.portW .s2 1) (c.portW .s2 2)) (some c.nextId)))
  else
    some ((makeStoreRoom { s with ms := ms } k).modCore k fun c =>
      c.hold .s2 (.atomic op cw.toNat x (c.portW .s2 1) (c.portW .s2 2)) none)

theorem atomicOp_eq (s : State) (g : Guard) (src : Src) (op : AtOp) : atomicOp s g src op =
    triggerOr s .s2 .scalar g src Core.loadRoom fun s k c v =>
      if s.xlWaits k || (!bit (v.setWidth 64 : Word).toNat 2 && s.storeFull k) then none
      else beginAccess some s k .s2 (c.portW .s2 0).toNat (if bit (v.setWidth 64 : Word).toNat 3 then 8 else 4) .atomic
        (atomicAnswer op (v.setWidth 64) s k c) := rfl

/-- What an atomic with control word `cw` does once its address is translated: it is held, and counts in `st` where it owes no value. -/
noncomputable def State.atomicHeld (s : State) (op : AtOp) (cw : Word) (ms : MemSys) (x : Xlat) : State :=
  let held : HOp := .atomic op cw.toNat x (s.me.portW .s2 1) (s.me.portW .s2 2)
  if inAperture x.pa = false ∧ space x.pa ≠ .reserved then { s with ms := ms }.faults .s2 0x06 (s.me.portW .s2 0).toNat 2
  else if cw.getLsbD 2 then { s with ms := ms }.after fun c => (c.owe .s2 (.rport 2 false) .put 11 true).hold .s2 held (some c.nextId)
  else (s.withRoom { s with ms := ms }).modCore s.curCore fun c => c.hold .s2 held none

theorem atomicAnswer_popped {s : State} (hok : s.Ok) (op : AtOp) (cw : Word) (ms : MemSys) (x : Xlat) :
    (atomicAnswer op cw s.popped s.curCore s.me.pop ms x).getD s = s.atomicHeld op cw ms x := by
  unfold atomicAnswer State.atomicHeld
  rw [bit_toNat]
  simp only [Bool.and_eq_true, Bool.not_eq_true', bne_iff_ne, Core.pop_portW]
  split_ifs with hd hret
  · exact kindFault_popped_withMs ..
  · exact State.setCore_popped hok ms fun c => (c.owe .s2 (.rport 2 false) .put 11 true).hold .s2 _ (some c.nextId)
  · rw [makeStoreRoom_popped_withMs]
    dsimp only [Option.getD]
    rw [State.modCore_eq, State.modCore_eq, State.withRoom_portW, State.withRoom_portW]

section
variable {s : State} {g : Guard} {src : Src} (hok : s.Ok) (h : s.Passes .s2 g src)
include hok h

theorem scalarLoad_passes (hn : s.me.ldRoom = true) (hx : s.xlWaits s.curCore = false) (n : Nat) (signed : Bool) :
    scalarLoad s g src n signed = .next (s.accessAt .s2 (s.scalarEa src) n .load (s.loaded n signed (s.scalarEa src))) := by
  rw [scalarLoad_eq, triggerOr_passes (reads := fun _ => []) h hn, ← State.popped, State.xlWaits_popped, hx, if_neg Bool.false_ne_true]
  exact congrArg _ (beginAccess_popped (out := (Option.getD · s)) (fun _ => rfl) (loadAnswer_popped hok n signed (s.scalarEa src)))

theorem heldLoad_passes (hn : s.me.loadRoom = true) (hx : s.xlWaits s.curCore = false) (n : Nat) : heldLoad s g src n =
    .next (s.accessAt .s2 (s.scalarEa src) n .load fun ms x => { s with ms := ms }.after fun c =>
      (c.owe .s2 (.rport 2 false) .put 8 true).hold .s2 (.ldio n x) (some c.nextId)) :=
  (accessTrigger_passes h hn hx).trans <| congrArg _ <|
    beginAccess_popped (ret := id) (out := id) (fun _ => rfl) fun ms x => State.setCore_popped hok ms fun c =>
      (c.owe .s2 (.rport 2 false) .put 8 true).hold .s2 (.ldio n x) (some c.nextId)

theorem scratchLoad_passes (hn : s.me.ldRoom = true) (n : Nat) (signed : Bool) :
    scratchLoad s g src n signed = .next (s.padLoaded n signed (s.scalarEa src)) := by
  rw [scratchLoad, triggerOr_passes (reads := fun _ => []) h hn, ← State.popped]
  dsimp only
  rw [Core.pop_portW, ← State.word, ← State.scalarEa, Core.pop_padStoreAt, Core.pop_padErr, Core.pop_padPoisoned, Core.pop_padBytes]
  simp only [State.padLoaded, Core.padOk_not_iff, Core.pop_ways]
  generalize (if s.me.padPoisoned (s.scalarEa src) = true then some (poisonNotice (s.scalarEa src) 0 1) else none) = bad
  split_ifs with ha hp hs he
  · exact congrArg _ (moveFault_popped ..)
  · exact congrArg _ (moveFault_popped ..)
  · rfl
  · rfl
  · exact congrArg _ (State.setCore_popped_self hok fun c => (c.loadResult .s2 (.rport 2 false) 8 _ true _).note _)

theorem atomicOp_passes (hn : s.me.loadRoom = true) (hx : s.xlWaits s.curCore = false) (op : AtOp) : atomicOp s g src op =
    .next (if (s.word .s2 src).getLsbD 2 = false ∧ s.storeFull s.curCore = true then s
      else s.accessAt .s2 (s.me.portW .s2 0).toNat (if (s.word .s2 src).getLsbD 3 then 8 else 4) .atomic (s.atomicHeld op (s.word .s2 src))) := by
  rw [atomicOp_eq, triggerOr_passes (reads := fun _ => []) h hn, ← State.popped, State.xlWaits_popped, State.storeFull_popped, hx,
    ← State.word, bit_toNat, bit_toNat]
  simp only [Bool.false_or, Bool.and_eq_true, Bool.not_eq_true']
  by_cases hw : (s.word .s2 src).getLsbD 2 = false ∧ s.storeFull s.curCore = true
  · rw [if_pos hw, if_pos hw]
    rfl
  · rw [if_neg hw, if_neg hw]
    exact congrArg _ (beginAccess_popped (out := (Option.getD · s)) (fun _ => rfl) (atomicAnswer_popped hok op (s.word .s2 src)))

end

/-! ### The instructions -/

section
variable (g : Guard) (src : Src) (s : State)

theorem exec_loadForms : ∀ e ∈ loadForms, exec (e.1 g src) s = scalarLoad s g src e.2.1 e.2.2 := by
  simp only [-reduceCtorEq, loadForms, List.forall_mem_cons]
  exact ⟨rfl, rfl, rfl, rfl, rfl, rfl, rfl, List.forall_mem_nil _⟩

theorem exec_scratchForms : ∀ e ∈ scratchForms, exec (e.1 g src) s = scratchLoad s g src e.2.1 e.2.2 := by
  simp only [-reduceCtorEq, scratchForms, List.forall_mem_cons]
  exact ⟨rfl, rfl, rfl, rfl, rfl, rfl, rfl, List.forall_mem_nil _⟩

theorem exec_heldLoadForms : ∀ e ∈ heldLoadForms, exec (e.1 g src) s = heldLoad s g src e.2 := by
  simp only [-reduceCtorEq, heldLoadForms, List.forall_mem_cons]
  exact ⟨rfl, rfl, rfl, rfl, List.forall_mem_nil _⟩

theorem exec_atomicForms : ∀ e ∈ atomicForms, exec (e.1 g src) s = atomicOp s g src e.2 := by
  simp only [-reduceCtorEq, atomicForms, List.forall_mem_cons]
  exact ⟨rfl, rfl, rfl, rfl, rfl, rfl, rfl, rfl, rfl, rfl, rfl, List.forall_mem_nil _⟩

end

end Sys2Proof.Machine
end

section
/-! PROOFS. The obligations on loads and atomics. -/

namespace Sys2Proof.Proofs.MemoryInstructions

open Sys2Proof.Machine

/-- Settles O29: a load and a scratchpad load each answer the first of their checks that is met. -/
theorem scalarLoad : Obligations.ScalarLoad := by
  unfold Obligations.ScalarLoad
  refine ⟨fun e he g src s hok hp hn hx => ?plain, fun e he g src s hok hp hn => ?scratch⟩
  case plain =>
    have hexec := (exec_loadForms g src s e he).trans (scalarLoad_passes hok hp hn hx e.2.1 e.2.2)
    dsimp only
    split
    case isTrue ha => exact hexec.trans (congrArg _ (State.accessAt_misaligned ha))
    case isFalse ha =>
      split
      case h_1 ms f ht => exact hexec.trans (congrArg _ (State.accessAt_error ha ht))
      case h_2 ms x ht =>
        rw [hexec, State.scalarEa, State.accessAt_ok ha ht]
        unfold State.loaded
        simp only [Xlat.uncached_iff, ← extend_eq]
        split_ifs <;> rfl
  case scratch =>
    have hexec := (exec_scratchForms g src s e he).trans (scratchLoad_passes hok hp hn e.2.1 e.2.2)
    dsimp only
    rw [hexec, State.scalarEa]
    unfold State.padLoaded
    simp only [← extend_eq]
    split_ifs <;> rfl

/-- Settles O31: an atomic without room in `st` waits, and otherwise it and `ldio` are held once their address is translated. -/
theorem atomicsAndLdioHeld : Obligations.AtomicsAndLdioHeld := by
  unfold Obligations.AtomicsAndLdioHeld
  refine ⟨fun e he g src s hok hp hn hx => ?atomic, fun e he g src s hok hp hn hx => ?ldio⟩
  case atomic =>
    have hexec := (exec_atomicForms g src s e he).trans (atomicOp_passes hok hp hn hx e.2)
    dsimp only
    generalize (if (s.word .s2 src).getLsbD 3 = true then 8 else 4) = size at hexec ⊢
    split
    case isTrue hw => rwa [if_pos hw] at hexec
    case isFalse hw =>
      rw [if_neg hw] at hexec
      split
      case isTrue ha => exact hexec.trans (congrArg _ (State.accessAt_misaligned ha))
      case isFalse ha =>
        split
        case h_1 ms f ht => exact hexec.trans (congrArg _ (State.accessAt_error ha ht))
        case h_2 ms x ht =>
          rw [hexec, State.accessAt_ok ha ht]
          unfold State.atomicHeld
          split_ifs <;> rfl
  case ldio =>
    have hexec := (exec_heldLoadForms g src s e he).trans (heldLoad_passes hok hp hn hx e.2)
    dsimp only
    split
    case isTrue ha => exact hexec.trans (congrArg _ (State.accessAt_misaligned ha))
    case isFalse ha =>
      split
      case h_1 ms f ht => exact hexec.trans (congrArg _ (State.accessAt_error ha ht))
      case h_2 ms x ht => exact hexec.trans (congrArg _ (State.accessAt_ok ha ht))

end Sys2Proof.Proofs.MemoryInstructions
end

section
/-! PROOFS. What a held store to the scratchpad leaves, and the combining functions of the atomics (08 R208, R211). -/

namespace Sys2Proof.Machine

theorem performHeld_sstore (s : State) (k : Nat) {h : Held} {n off : Nat} {v : BitVec 1024} (hop : h.op = .sstore n off v) :
    performHeld s k h = some (s.modCore k fun c => c.padPut off n v.toNat false) := by
  unfold performHeld
  dsimp only
  rw [hop]

theorem Core.padPut_get (c : Core) (off n v a : Nat) (bad : Bool) : SMap.get 0 (c.padPut off n v bad).scratch a =
    if off ≤ a ∧ a < off + n then BitVec.ofNat 8 (v >>> (8 * (a - off))) else SMap.get 0 c.scratch a :=
  padWrite_get n c.scratch off v a

/-- The extreme of two elements in two's complement. -/
theorem toInt_ite_le (n o x : Nat) :
    (BitVec.ofNat n (if sint n o ≤ sint n x then o else x)).toInt = min (BitVec.ofNat n o).toInt (BitVec.ofNat n x).toInt ∧
    (BitVec.ofNat n (if sint n o ≤ sint n x then x else o)).toInt = max (BitVec.ofNat n o).toInt (BitVec.ofNat n x).toInt := by
  rw [sint_eq_toInt, sint_eq_toInt]
  split_ifs with hle
  · exact ⟨(min_eq_left hle).symm, (max_eq_right hle).symm⟩
  · exact ⟨(min_eq_right (le_of_not_ge hle)).symm, (max_eq_left (le_of_not_ge hle)).symm⟩

end Sys2Proof.Machine
end

section
/-! PROOFS. The obligation on the effects of held operations. -/

namespace Sys2Proof.Proofs.MemoryInstructions

open Sys2Proof.Machine

/-- Settles O34: the bytes of the scratchpad are read back from `padWrite`, and an extreme is the first or the second operand. -/
theorem heldEffects : Obligations.HeldEffects := by
  unfold Obligations.HeldEffects
  refine ⟨fun s k h n off v hop => ?store, fun w o x c _ _ _ => ?combine⟩
  case store =>
    refine ⟨_, performHeld_sstore s k hop, rfl, fun j hj => State.core_setCore_other _ _ hj, ?_, fun i hi => ?_, fun a ha => ?_⟩
    all_goals rw [State.core_modCore]
    · rfl
    · rw [Core.padPut_get, if_pos (by omega), Nat.add_sub_cancel_left]
    · rw [Core.padPut_get, if_neg (by omega)]
  case combine =>
    obtain ⟨hmin, hmax⟩ := toInt_ite_le (8 * w) o x
    exact ⟨congrArg ((o + x) % ·) (pow2_eq _), rfl, rfl, rfl, hmin, hmax, rfl, rfl, rfl, rfl⟩

end Sys2Proof.Proofs.MemoryInstructions
end

section
/-! PROOFS. Vector loads and stores as they are dispatched (08 R212). -/

namespace Sys2Proof.Machine

/-- The address of a vector access (08 R212). -/
def State.vectorEa (s : State) (src : Src) : Nat := (s.word .s7 src + s.me.portW .s7 1).toNat

section
variable {s : State} {g : Guard} {src : Src} (h : s.Passes .s7 g src)
include h

section
variable (hok : s.Ok) (hn : s.me.exLoadRoom = true)
include hok hn

theorem vectorLoad_passes (hx : s.xlWaits s.curCore = false) (n : Nat) : vectorLoad s g src n =
    .next (s.accessAt .s7 (s.vectorEa src) n .load fun ms x => { s with ms := ms }.after fun c => c.oweEx false 9 true (.vload n x)) :=
  (accessTrigger_passes h hn hx).trans <| congrArg _ <|
    beginAccess_popped (ret := id) (out := id) (fun _ => rfl) fun ms x => State.setCore_popped hok ms fun c => c.oweEx false 9 true (.vload n x)

theorem scratchVectorLoad_passes (n : Nat) : scratchVectorLoad s g src n =
    .next (if s.vectorEa src % n ≠ 0 then s.faults .s7 0x05 (s.vectorEa src) 0
      else if 32768 * s.me.ways < s.vectorEa src + n then s.faults .s7 0x0D (s.vectorEa src) 0
      else if s.me.padErr (s.vectorEa src) n then takePadError s.popped s.curCore .s7
      else s.after fun c => c.oweEx false 9 true (.svload n (s.vectorEa src))) := by
  rw [scratchVectorLoad, trigger_passes (reads := fun _ => []) h hn, ← State.popped, ← kindFault_popped, ← kindFault_popped]
  refine congrArg _ (ite_congr rfl (fun _ => rfl) fun _ => ite_congr (propext ?_) (fun _ => rfl) fun _ =>
    ite_congr rfl (fun _ => rfl) fun _ => ?_)
  · exact Core.padOk_not_iff
  · exact State.setCore_popped_self hok fun c => c.oweEx false 9 true (.svload n (s.vectorEa src))

end

section
variable (hn : s.me.exRoom = true) (hf : s.storeFull s.curCore = false)
include hn hf

theorem vectorStore_passes (hx : s.xlWaits s.curCore = false) (n : Nat) : vectorStore s g src n =
    .next (s.accessAt .s7 (s.vectorEa src) n .store fun ms x =>
      (s.withRoom { s with ms := ms }).modCore s.curCore fun c => c.holdEx (.vstore n x (s.me.port .s7 0)) none) :=
  (storeTrigger_passes h hn (by rw [hx]; rfl) hf).trans <| congrArg _ <|
    beginAccess_popped (ret := id) (out := id) (fun _ => rfl) fun ms x =>
      congrArg (fun t : State => t.modCore s.curCore fun c => c.holdEx (.vstore n x (s.me.port .s7 0)) none)
        (makeStoreRoom_popped_withMs s ms)

theorem scratchVectorStore_passes (n : Nat) : scratchVectorStore s g src n =
    .next (if s.vectorEa src % n ≠ 0 then s.faults .s7 0x05 (s.vectorEa src) 1
      else if 32768 * s.me.ways < s.vectorEa src + n then s.faults .s7 0x0D (s.vectorEa src) 1
      else (s.withRoom s).modCore s.curCore fun c => c.holdEx (.svstore n (s.vectorEa src) (s.me.port .s7 0)) none) := by
  rw [scratchVectorStore, storeTrigger_passes h hn rfl hf, ← kindFault_popped, ← kindFault_popped, ← makeStoreRoom_popped]
  refine congrArg _ (ite_congr rfl (fun _ => rfl) fun _ => ite_congr (propext ?_) (fun _ => rfl) fun _ => rfl)
  exact Core.padOk_not_iff

end

theorem vectorStore_full (hf : s.storeFull s.curCore = true) {n : Nat} : vectorStore s g src n = .next s :=
  storeTrigger_declines h (by rw [hf, Bool.or_true])

theorem scratchVectorStore_full (hf : s.storeFull s.curCore = true) {n : Nat} : scratchVectorStore s g src n = .next s :=
  storeTrigger_declines h (by rw [hf, Bool.or_true])

end

theorem exec_vectorForms (g : Guard) (src : Src) (s : State) : ∀ e ∈ vectorForms,
    exec (e.2.1 g src) s = vectorLoad s g src e.1 ∧ exec (e.2.2.1 g src) s = vectorStore s g src e.1 ∧
    exec (e.2.2.2.1 g src) s = scratchVectorLoad s g src e.1 ∧ exec (e.2.2.2.2 g src) s = scratchVectorStore s g src e.1 := by
  simp only [-reduceCtorEq, vectorForms, List.forall_mem_cons]
  exact ⟨⟨rfl, rfl, rfl, rfl⟩, ⟨rfl, rfl, rfl, rfl⟩, ⟨rfl, rfl, rfl, rfl⟩, List.forall_mem_nil _⟩

end Sys2Proof.Machine
end

section
/-! PROOFS. The obligation on vector accesses. -/

namespace Sys2Proof.Proofs.MemoryInstructions

open Sys2Proof.Machine

/-- Settles O35: a vector access of memory is one at a translated address, one of the scratchpad checks its range; a store without room
in `st` waits. -/
theorem vectorAccessesHeld : Obligations.VectorAccessesHeld := by
  unfold Obligations.VectorAccessesHeld
  intro e he g src s hok hp hx
  obtain ⟨hvld, hvst, hsvld, hsvst⟩ := exec_vectorForms g src s e he
  dsimp only
  rw [hvld, hvst, hsvld, hsvst]
  refine ⟨fun hn => ⟨?_, ?_⟩, fun hf => ⟨vectorStore_full hp hf, scratchVectorStore_full hp hf⟩, fun hn hf => ⟨?_, ?_⟩⟩
  · exact vectorLoad_passes hp hok hn hx e.1
  · exact scratchVectorLoad_passes hp hok hn e.1
  · exact vectorStore_passes hp hn hf hx e.1
  · exact scratchVectorStore_passes hp hn hf e.1

end Sys2Proof.Proofs.MemoryInstructions
end

section
/-! PROOFS. Element accesses and loads of tree descriptors as they are dispatched (08 R213, R214, R218). -/

namespace Sys2Proof.Machine

/-- The high bits of a word as a number. -/
theorem wfield_top (w : Word) {lo : Nat} (h : lo ≤ 63) : wfield w 63 lo = w.toNat / 2 ^ lo := by
  have hlt : w.toNat / 2 ^ lo < 2 ^ (63 + 1 - lo) := by
    rw [Nat.div_lt_iff_lt_mul (by positivity), ← pow_add, show 63 + 1 - lo + lo = 64 by omega]
    exact w.isLt
  rw [wfield, field, Nat.shiftRight_eq_div_pow, Nat.mod_eq_of_lt hlt]

/-! ### The operands of an element access -/

theorem elementClass_eq (o3 : Word) : o3.toNat % 4 = (o3.extractLsb' 0 2).toNat := field_toNat o3 0 2

section
variable {c o3 : Word} (hlo : 1 ≤ c.toNat) (hhi : c.toNat ≤ 32) (hcls : 1 ≤ (o3.extractLsb' 0 2).toNat)
include hlo hhi hcls

theorem elementBad_load (ho : o3.toNat = (o3.extractLsb' 0 2).toNat) : elementBad c o3 false = none := by
  have hlt : (o3.extractLsb' 0 2).toNat < 4 := (o3.extractLsb' 0 2).isLt
  have hhigh : field o3.toNat 2 62 = 0 := by
    rw [field, Nat.shiftRight_eq_div_pow]
    omega
  simp only [elementBad, Bool.false_eq_true, if_false, hhigh, Bool.false_and]
  rw [if_neg (by omega), if_neg (by omega)]

theorem elementBad_store (ho : o3.toNat = (o3.extractLsb' 0 2).toNat + 2 ^ 8 * (o3.extractLsb' 8 8).toNat)
    (hcode : codeInClass (o3.extractLsb' 0 2).toNat (o3.extractLsb' 8 8).toNat = true) : elementBad c o3 true = none := by
  have hlt : (o3.extractLsb' 0 2).toNat < 4 := (o3.extractLsb' 0 2).isLt
  have hlt8 : (o3.extractLsb' 8 8).toNat < 256 := (o3.extractLsb' 8 8).isLt
  have hhigh : field o3.toNat 16 48 = 0 := by
    rw [field, Nat.shiftRight_eq_div_pow]
    omega
  have hmid : field o3.toNat 2 6 = 0 := by
    rw [field, Nat.shiftRight_eq_div_pow]
    omega
  rw [elementBad, hhigh, hmid, elementClass_eq, field_toNat o3 8 8, hcode]
  simp only [if_true]
  rw [if_neg (by omega), if_neg (by omega)]
  rfl

end

/-! ### The access -/

section
variable {s : State} {g : Guard} {src : Src} (h : s.Passes .s7 g src) (hx : s.xlWaits s.curCore = false)
include h hx

/-- An element access with legal operands, whose blocks are translated, is made. -/
theorem elementOp_passes {store : Bool} (hn : (if store then Core.exRoom else Core.exLoadRoom) s.me = true)
    (hf : (store && s.storeFull s.curCore) = false) (hb : elementBad (s.me.portW .s7 2) (s.me.portW .s7 3) store = none)
    (ha : (s.word .s7 src).toNat % 64 = 0) {ms : MemSys} {xs : List Xlat}
    (ht : translateAll (s.who s.curCore) (if store then .store else .load) (elementBlocks (s.word .s7 src).toNat (s.me.portW .s7 1).toNat
      (s.me.portW .s7 2).toNat ((s.me.portW .s7 3).extractLsb' 0 2).toNat) s.ms = (ms, .ok xs))
    (act : State → Core → Nat → List Xlat → State) :
    elementOp s g src store act = .next (act { s.popped with ms := ms } s.me.pop (s.word .s7 src).toNat xs) := by
  rw [elementOp, triggerOr_passes (reads := fun _ => []) h hn, ← State.popped, State.xlWaits_popped, State.storeFull_popped, hx, hf]
  dsimp only
  rw [Core.pop_portW, Core.pop_portW, Core.pop_portW, hb, ← State.word, State.who_popped, State.popped_ms, elementClass_eq]
  refine congrArg _ ((if_neg (not_not.2 ha)).trans ?_)
  rw [ht]

section
variable (hlo : 1 ≤ (s.me.portW .s7 2).toNat) (hhi : (s.me.portW .s7 2).toNat ≤ 32) (hcls : 1 ≤ ((s.me.portW .s7 3).extractLsb' 0 2).toNat)
  (ha : (s.word .s7 src).toNat % 64 = 0) {ms : MemSys} {xs : List Xlat}
include hlo hhi hcls ha

theorem execEx7Eld_holds (hok : s.Ok) (hn : s.me.exLoadRoom = true)
    (ho : (s.me.portW .s7 3).toNat = ((s.me.portW .s7 3).extractLsb' 0 2).toNat)
    (ht : translateAll (s.who s.curCore) .load (elementBlocks (s.word .s7 src).toNat (s.me.portW .s7 1).toNat
      (s.me.portW .s7 2).toNat ((s.me.portW .s7 3).extractLsb' 0 2).toNat) s.ms = (ms, .ok xs)) :
    execEx7Eld g src s = .next ({ s with ms := ms }.after fun c =>
      ((c.owe .s7 (.rport 7 false) .put 9 true).owe .s7 .vt .orBits 9 false).holdEx
        (.eld (s.word .s7 src).toNat (s.me.portW .s7 1).toNat (s.me.portW .s7 2).toNat ((s.me.portW .s7 3).extractLsb' 0 2).toNat xs)
        (some c.nextId)) := by
  rw [execEx7Eld, elementOp_passes h hx (store := false) hn rfl (elementBad_load hlo hhi hcls ho) ha ht]
  dsimp only
  rw [Core.pop_portW, Core.pop_portW, Core.pop_portW, elementClass_eq]
  exact congrArg _ (State.setCore_popped hok ms fun c =>
    ((c.owe .s7 (.rport 7 false) .put 9 true).owe .s7 .vt .orBits 9 false).holdEx (.eld _ _ _ _ xs) (some c.nextId))

theorem execEx7Est_holds (hn : s.me.exRoom = true) (hf : s.storeFull s.curCore = false)
    (ho : (s.me.portW .s7 3).toNat = ((s.me.portW .s7 3).extractLsb' 0 2).toNat + 2 ^ 8 * ((s.me.portW .s7 3).extractLsb' 8 8).toNat)
    (hcode : codeInClass ((s.me.portW .s7 3).extractLsb' 0 2).toNat ((s.me.portW .s7 3).extractLsb' 8 8).toNat = true)
    (ht : translateAll (s.who s.curCore) .store (elementBlocks (s.word .s7 src).toNat (s.me.portW .s7 1).toNat
      (s.me.portW .s7 2).toNat ((s.me.portW .s7 3).extractLsb' 0 2).toNat) s.ms = (ms, .ok xs)) :
    execEx7Est g src s = .next ((s.withRoom { s with ms := ms }).modCore s.curCore fun c =>
      (c.owe .s7 .vt .orBits 9 false).holdEx
        (.est (s.word .s7 src).toNat (s.me.portW .s7 1).toNat (s.me.portW .s7 2).toNat ((s.me.portW .s7 3).extractLsb' 0 2).toNat
          ((s.me.portW .s7 3).extractLsb' 8 8).toNat (s.me.port .s7 0) xs) (some c.nextId)) := by
  rw [execEx7Est, elementOp_passes h hx (store := true) hn hf (elementBad_store hlo hhi hcls ho hcode) ha ht]
  dsimp only
  rw [Core.pop_portW, Core.pop_portW, Core.pop_portW, Core.pop_port, elementClass_eq, field_toNat]
  exact congrArg _ (congrArg (fun t : State => t.modCore s.curCore fun c =>
    (c.owe .s7 .vt .orBits 9 false).holdEx (.est _ _ _ _ _ _ xs) (some c.nextId)) (makeStoreRoom_popped_withMs s ms))

end

theorem execEx7Tdld_passes (hok : s.Ok) (hn : s.me.exLoadRoom = true) : execEx7Tdld g src s =
    .next (if 7 < (s.me.portW .s7 1).toNat then s.faults .s7 0x04 (s.me.portW .s7 1).toNat 0
      else s.accessAt .s7 (s.word .s7 src).toNat 32 .load fun ms x => { s with ms := ms }.after fun c =>
        (c.owe .s7 (.td (s.me.portW .s7 1).toNat) .put 9 true).holdEx (.tdld (s.me.portW .s7 1).toNat x) (some c.nextId)) := by
  rw [execEx7Tdld, accessTrigger_passes h hn hx]
  have hhigh : wfield (s.me.portW .s7 1) 63 3 ≠ 0 ↔ 7 < (s.me.portW .s7 1).toNat := by
    rw [wfield_top _ (by decide)]
    omega
  refine congrArg _ (ite_congr (propext hhigh) (fun _ => moveFault_popped ..) fun hle => ?_)
  have hlow : wfield (s.me.portW .s7 1) 2 0 = (s.me.portW .s7 1).toNat := Nat.mod_eq_of_lt (by omega)
  refine beginAccess_popped (ret := id) (out := id) (fun _ => rfl) fun ms x => ?_
  rw [id, Core.pop_portW, hlow]
  exact State.setCore_popped hok ms fun c => (c.owe .s7 (.td _) .put 9 true).holdEx (.tdld _ x) (some c.nextId)

end

end Sys2Proof.Machine
end

section
/-! PROOFS. Tree accesses as they are dispatched: the descriptor, the operands, the translations and the placement, in this order
(08 R215 to R217; 03 R71, R77). -/

namespace Sys2Proof.Machine

/-- The kind of a tree access: an update is one atomic. -/
def TreeForm.kind (form : TreeForm) : XKind := if form = .update then .atomic else .load

/-- The descriptor register that the selector of a tree access names. -/
def State.treeReg (s : State) : Loc := .td (selTd (s.me.portW .s7 1))

/-- The tree of a tree access. -/
def State.treeOf (s : State) : TreeDesc := treeDesc (tdWords (s.me.rd s.treeReg))

/-- Where the tree of a tree access begins. -/
def State.treeAt (s : State) : Nat := s.treeOf.treeBase (selGx (s.me.portW .s7 1)) (selGy (s.me.portW .s7 1))

/-- The addresses of the blocks of a tree access. -/
def State.treeAddrs (s : State) (src : Src) (form : TreeForm) : List Nat :=
  (treeBlockNums form s.treeOf (selLvl (s.me.portW .s7 1)) (posOf s.treeOf (s.word .s7 src).toNat) (selSel (s.me.portW .s7 1))).map
    fun b => (s.treeAt + 64 * b) % 2 ^ 64

/-- What a tree access does where its parcel passes and its descriptor register can be read. -/
def State.treeAccess (s : State) (src : Src) (form : TreeForm) (home : Bool) (act : MemSys → List Xlat → State) : State :=
  let sel := s.me.portW .s7 1
  let pos := s.word .s7 src
  if selReserved sel || wfield pos 63 32 != 0 then s.faults .s7 0x0F (if selReserved sel then sel else pos).toNat form.kind.code
  else if !tdValid (s.me.rd s.treeReg) then s.faults .s7 0x0E sel.toNat form.kind.code
  else
    match treeOperandBad form s.treeOf sel pos with
    | some w => s.faults .s7 0x0F w.toNat form.kind.code
    | none =>
      match translateAll (s.who s.curCore) form.kind (s.treeAddrs src form) s.ms with
      | (ms, .error f) => s.accessFaults ms .s7 f form.kind.code
      | (ms, .ok xs) =>
        if home && !placementOk s.treeOf s.treeAt xs then { s with ms := ms }.faults .s7 0x10 s.treeAt form.kind.code
        else act ms xs

section
variable {s : State} {g : Guard} {src : Src} {form : TreeForm} {home : Bool}

theorem treeOp_passes (h : s.Passes .s7 g src) (hx : s.xlWaits s.curCore = false)
    (hn : (if form = .update then s.me.exRoom else s.me.exLoadRoom) = true) (hr : s.me.isReady s.treeReg = true)
    (hf : (form.kind == .atomic && s.storeFull s.curCore) = false) (hb : s.me.badAt s.treeReg = none)
    (act : State → Nat → Core → BitVec 256 → Nat → Nat → List Xlat → State) : treeOp s g src form home act =
      .next (s.treeAccess src form home fun ms xs => act { s.popped with ms := ms } s.curCore s.me.pop (tdWords (s.me.rd s.treeReg))
        (s.me.portW .s7 1).toNat (s.word .s7 src).toNat xs) := by
  unfold treeOp
  rw [triggerOr_passes (reads := fun _ => []) h (by rw [hn]; exact hr), ← State.popped, State.xlWaits_popped, State.storeFull_popped, hx,
    ← TreeForm.kind, hf, Bool.or_self, if_neg Bool.false_ne_true]
  dsimp only [Option.getD_some]
  rw [Core.pop_portW, ← State.treeReg, show s.me.pop.badAt s.treeReg = none from hb, Core.pop_rd, ← State.word, State.who_popped,
    State.popped_ms, ← State.treeOf, ← State.treeAt, pow2_eq, ← State.treeAddrs]
  unfold State.treeAccess
  refine congrArg _ (ite_congr rfl (fun _ => kindFault_popped ..) fun _ => ite_congr rfl (fun _ => kindFault_popped ..) fun _ => ?_)
  cases treeOperandBad form s.treeOf (s.me.portW .s7 1) (s.word .s7 src) with
  | some w => exact kindFault_popped ..
  | none =>
    rcases translateAll (s.who s.curCore) form.kind (s.treeAddrs src form) s.ms with ⟨ms, f | xs⟩
    · exact accessFaultAt_popped ..
    · exact ite_congr rfl (fun _ => kindFault_popped_withMs ..) fun _ => rfl

variable {act : MemSys → List Xlat → State}

theorem State.treeAccess_selector (hs : selReserved (s.me.portW .s7 1) = true) :
    s.treeAccess src form home act = s.faults .s7 0x0F (s.me.portW .s7 1).toNat form.kind.code := by
  simp only [State.treeAccess, hs, Bool.true_or, if_true]

theorem State.treeAccess_position (hs : selReserved (s.me.portW .s7 1) = false) (hp : wfield (s.word .s7 src) 63 32 ≠ 0) :
    s.treeAccess src form home act = s.faults .s7 0x0F (s.word .s7 src).toNat form.kind.code := by
  rw [State.treeAccess, hs]
  exact if_pos (bne_iff_ne.2 hp)

theorem State.treeAccess_invalid (hs : selReserved (s.me.portW .s7 1) = false) (hp : wfield (s.word .s7 src) 63 32 = 0)
    (hv : tdValid (s.me.rd s.treeReg) = false) :
    s.treeAccess src form home act = s.faults .s7 0x0E (s.me.portW .s7 1).toNat form.kind.code := by
  simp only [State.treeAccess, hs, hp, hv, bne_self_eq_false, Bool.or_self, Bool.false_eq_true, if_false, Bool.not_false, if_true]

/-- Operands within the tree's bounds have no reserved bit. -/
theorem reserved_of_treeOperandBad {t : TreeDesc} {sel pos : Word} (h : treeOperandBad form t sel pos = none) :
    selReserved sel = false ∧ wfield pos 63 32 = 0 := by
  unfold treeOperandBad at h
  dsimp only at h
  split at h
  · cases h
  · rename_i hsel
    split at h
    · cases h
    · rename_i hpos
      simp only [Bool.or_eq_true, not_or, Bool.not_eq_true] at hsel
      exact ⟨hsel.1.1, not_not.1 hpos⟩

theorem State.treeAccess_ok (hv : tdValid (s.me.rd s.treeReg) = true)
    (hb : treeOperandBad form s.treeOf (s.me.portW .s7 1) (s.word .s7 src) = none) {ms : MemSys} {xs : List Xlat}
    (ht : translateAll (s.who s.curCore) form.kind (s.treeAddrs src form) s.ms = (ms, .ok xs)) : s.treeAccess src form home act =
      if home && !placementOk s.treeOf s.treeAt xs then { s with ms := ms }.faults .s7 0x10 s.treeAt form.kind.code else act ms xs := by
  obtain ⟨hs, hp⟩ := reserved_of_treeOperandBad hb
  simp only [State.treeAccess, hs, hp, hv, hb, ht, bne_self_eq_false, Bool.or_self, Bool.not_true, Bool.false_eq_true, if_false]

end

/-! ### The instructions -/

section
variable {s : State} {g : Guard} {src : Src} (hok : s.Ok) (h : s.Passes .s7 g src) (hx : s.xlWaits s.curCore = false)
  (hr : s.me.isReady s.treeReg = true) (hb : s.me.badAt s.treeReg = none)

/-- Each tree load is a tree access with the form and the held operation of its row. -/
theorem exec_treeForms (s : State) (g : Guard) (src : Src) : ∀ e ∈ treeForms, e.2.1 ≠ .update ∧
    exec (e.1 g src) s = treeOp s g src e.2.1 e.2.2.1 fun s k c d sel pos xs =>
      s.setCore k (c.oweEx false (if e.2.2.1 then 11 else 10) true (e.2.2.2 d sel pos xs)) := by
  simp only [-reduceCtorEq, treeForms, List.forall_mem_cons]
  exact ⟨⟨nofun, rfl⟩, ⟨nofun, rfl⟩, ⟨nofun, rfl⟩, ⟨nofun, rfl⟩, ⟨nofun, rfl⟩, ⟨nofun, rfl⟩, List.forall_mem_nil _⟩

include hok h hx hr hb

theorem treeLoad_passes (hn : s.me.exLoadRoom = true) : ∀ e ∈ treeForms, e.2.1.kind = .load ∧ exec (e.1 g src) s =
    .next (s.treeAccess src e.2.1 e.2.2.1 fun ms xs => { s with ms := ms }.after fun c =>
      c.oweEx false (if e.2.2.1 then 11 else 10) true
        (e.2.2.2 (tdWords (s.me.rd s.treeReg)) (s.me.portW .s7 1).toNat (s.word .s7 src).toNat xs)) := by
  intro e he
  obtain ⟨hne, hexec⟩ := exec_treeForms s g src e he
  have hk : e.2.1.kind = .load := if_neg hne
  refine ⟨hk, hexec.trans ((treeOp_passes h hx (by rwa [if_neg hne]) hr (by rw [hk]; rfl) hb _).trans (congrArg _ ?_))⟩
  congr 1
  funext ms xs
  exact State.setCore_popped hok ms fun c => c.oweEx false _ true (e.2.2.2 _ _ _ xs)

omit hok in
theorem execEx7Trst_passes (hn : s.me.exRoom = true) (hf : s.storeFull s.curCore = false) : execEx7Trst g src s =
    .next (s.treeAccess src .update true fun ms xs => (s.withRoom { s with ms := ms }).modCore s.curCore fun c =>
      c.holdEx (.trst (tdWords (s.me.rd s.treeReg)) (s.me.portW .s7 1).toNat (s.word .s7 src).toNat (wfield (s.me.portW .s7 2) 31 0) xs)
        none) := by
  refine (treeOp_passes h hx (by rwa [if_pos rfl]) hr (by rw [hf, Bool.and_false]) hb _).trans (congrArg _ ?_)
  congr 1
  funext ms xs
  rw [makeStoreRoom_popped_withMs]
  rfl

end

end Sys2Proof.Machine
end

section
/-! PROOFS. The obligation on element and tree accesses. -/

namespace Sys2Proof.Proofs.MemoryInstructions

open Sys2Proof.Machine

/-- Settles O36: legal element operands break no limit (`elementBad_load`, `elementBad_store`), and a tree access answers the first of its
checks that is met (`State.treeAccess`). -/
theorem elementAndTreeHeld : Obligations.ElementAndTreeHeld := by
  unfold Obligations.ElementAndTreeHeld
  refine ⟨fun g src s hok hp hx => ⟨?element, ?descriptor⟩, fun g src s hok hp hx => ?tree⟩
  case element =>
    intro hlo hhi hcls ha ms xs
    exact ⟨fun hn => execEx7Eld_holds hp hx hlo hhi hcls ha hok hn, fun hn hf => execEx7Est_holds hp hx hlo hhi hcls ha hn hf⟩
  case descriptor => exact fun hn => execEx7Tdld_passes hp hx hok hn
  case tree =>
    dsimp only
    intro hr hb
    refine ⟨fun e he hn => ?load, fun hn hf hv hbad ms xs ht => ?update⟩
    case load =>
      obtain ⟨hk, hexec⟩ := treeLoad_passes hok hp hx hr hb hn e he
      rw [hexec]
      refine ⟨fun hs => ?_, fun hs hpos => ?_, fun hs hpos hv => ?_, fun hv hbad ms xs ht => ?_⟩
      · rw [State.treeAccess_selector hs, hk]
        rfl
      · rw [State.treeAccess_position hs hpos, hk]
        rfl
      · rw [State.treeAccess_invalid hs hpos hv, hk]
        rfl
      · rw [State.treeAccess_ok hv hbad (by rw [hk]; exact ht), hk]
        rfl
    case update =>
      refine (execEx7Trst_passes hp hx hr hb hn hf).trans (congrArg _ ((State.treeAccess_ok hv hbad ht).trans ?_))
      exact ite_congr (by rw [Bool.true_and, Bool.not_eq_true']; rfl) (fun _ => rfl) fun _ => rfl

end Sys2Proof.Proofs.MemoryInstructions
end

section
/-! PROOFS. What reads of the scheduler's structures leave, and the mapping of streams (09 R236, R239, R240). -/

namespace Sys2Proof.Machine

/-! ### Reads of memory -/

/-- `t` is `s`, but for memory and its caches. -/
def State.SameButMs (s t : State) : Prop := ∃ m, t = { s with ms := m }

theorem State.SameButMs.refl (s : State) : s.SameButMs s := ⟨s.ms, rfl⟩

theorem State.SameButMs.trans {s t u : State} (h : s.SameButMs t) (h' : t.SameButMs u) : s.SameButMs u := by
  obtain ⟨m, rfl⟩ := h
  obtain ⟨m', rfl⟩ := h'
  exact ⟨m', rfl⟩

theorem State.SameButMs.of_eq {α : Type} {s t : State} {r : State × α} {a : α} (he : r = (t, a)) (h : s.SameButMs r.1) : s.SameButMs t := by
  rw [he] at h; exact h

section
variable {s t : State} (h : s.SameButMs t)
include h

theorem State.SameButMs.withMs (m : MemSys) : s.SameButMs { t with ms := m } := h.trans ⟨m, rfl⟩
theorem State.SameButMs.streamEntry (n : Nat) : s.SameButMs (t.streamEntry n).1 := h.trans (t.streamEntry_frame n)
theorem State.SameButMs.readCtx (n : Nat) : s.SameButMs (t.readCtx n).1 := h.trans ⟨_, t.readCtx_frame n⟩
theorem State.SameButMs.ctxWho (k x : Nat) (b : Bool) : s.SameButMs (t.ctxWho k x b).1 := h.trans (t.ctxWho_frame k x b)

theorem State.SameButMs.headReady (n : Nat) : s.SameButMs (headReady t n).1 := by
  unfold Machine.headReady
  split
  rename_i he
  replace he := (h.streamEntry n).of_eq he
  split
  · exact he
  split
  rename_i he2
  replace he2 := (he.readCtx _).of_eq he2
  split
  · exact he2
  dsimp -iota only
  split
  rename_i he3
  replace he3 := (he2.ctxWho _ _ _).of_eq he3
  split
  · exact he3.withMs _
  · exact he3.withMs _

theorem State.SameButMs.hasWork (n : Nat) : s.SameButMs (hasWork t n).1 := by
  unfold Machine.hasWork
  split
  · exact h
  · exact h.headReady n

end

theorem addWaiting_keeps {s : State} {a : State × List Waiting} (taken : List Nat) (n : Nat) (h : s.SameButMs a.1) :
    s.SameButMs (addWaiting taken a n).1 := by
  unfold addWaiting
  split
  · split
    · exact h
    · exact h.streamEntry n
  · exact h

theorem waitingStreams_keeps (s : State) : s.SameButMs (waitingStreams s).1 :=
  foldl_keeps (J := fun a : State × List Waiting => s.SameButMs a.1) (fun _ n h => addWaiting_keeps _ n h) (.refl s)

theorem betterCandidate_keeps {s : State} {a : State × Option (Nat × Nat × Nat)} (n : Nat) (h : s.SameButMs a.1) :
    s.SameButMs (betterCandidate a n).1 := by
  unfold betterCandidate
  split
  · rename_i x _
    split
    · split
      rename_i he
      replace he := (h.streamEntry x.stream).of_eq he
      dsimp only
      split
      · exact he
      · split
        · exact he
        · exact he
    · exact h
  · exact h

theorem chooseCandidate_keeps (s : State) (p : Nat) : s.SameButMs (chooseCandidate s p).1 := by
  unfold chooseCandidate
  generalize upto 0 64 = l
  exact foldl_keeps (J := fun a : State × Option (Nat × Nat × Nat) => s.SameButMs a.1) (fun _ n h => betterCandidate_keeps n h) (.refl s)

/-! ### The waits of streams (R240) -/

/-- `t` is `s`, but for memory and what the streams wait for. -/
def State.SameButWaits (s t : State) : Prop := ∃ m x, t = { s with ms := m, sched := { s.sched with streams := x } }

theorem State.SameButWaits.refl (s : State) : s.SameButWaits s := ⟨s.ms, s.sched.streams, rfl⟩

theorem State.SameButWaits.read {s t u : State} (h : s.SameButWaits t) (h' : t.SameButMs u) : s.SameButWaits u := by
  obtain ⟨m, x, rfl⟩ := h
  obtain ⟨m', rfl⟩ := h'
  exact ⟨m', x, rfl⟩

theorem State.SameButWaits.setStream {s t : State} (h : s.SameButWaits t) (n : Nat) (x : Stream) : s.SameButWaits (t.setStream n x) := by
  obtain ⟨m, y, rfl⟩ := h
  exact ⟨m, _, rfl⟩

theorem refreshWait_keeps {s t : State} (n : Nat) (h : s.SameButWaits t) : s.SameButWaits (refreshWait t n) := by
  unfold refreshWait
  split
  · exact h
  split
  rename_i he
  replace he := h.read (((State.SameButMs.refl t).hasWork n).of_eq he)
  dsimp only
  split
  · split
    · exact he
    · exact he.setStream _ _
  · exact he.setStream _ _

theorem refreshWaits_keeps (s : State) : s.SameButWaits (refreshWaits s) :=
  foldl_keeps (J := s.SameButWaits) (fun _ n h => refreshWait_keeps n h) (.refl s)

theorem waitingStreams_refreshWaits_keeps (s : State) : s.SameButWaits (waitingStreams (refreshWaits s)).1 :=
  (refreshWaits_keeps s).read (waitingStreams_keeps _)

/-! ### Mapping (R240, R253) -/

theorem loadShares_frame (s : State) (n : Nat) : ∃ m x, loadShares s n = { s with ms := m, sched := { s.sched with share := x } } := by
  rw [loadShares_eq]
  refine foldl_keeps (J := fun t : State => ∃ m x, t = { s with ms := m, sched := { s.sched with share := x } }) (fun t c h => ?_) ⟨_, _, rfl⟩
  obtain ⟨m, x, rfl⟩ := h
  obtain ⟨m', v, hv⟩ := loadShare_frame { s with ms := m, sched := { s.sched with share := x } } n c
  exact ⟨m', _, hv⟩

/-- A slot that a stream has just taken. -/
def StreamSlot.taken (n now : Nat) : StreamSlot := { stream := n, mappedAt := now, prevBoundary := false, leaving := none }

/-- Stream n has slot h and waits no more. -/
def State.takeSlot (s : State) (h n : Nat) : State :=
  (s.setSlot h (some (.taken n s.now))).setStream n { s.stream n with waitFrom := none }

/-- A stream that is mapped loads its counters besides. -/
theorem mapStream_frame (s : State) (h n : Nat) :
    ∃ m x, mapStream s h n = { s.takeSlot h n with ms := m, sched := { (s.takeSlot h n).sched with share := x } } := by
  unfold mapStream
  dsimp only
  split
  · exact loadShares_frame _ n
  · exact ⟨_, _, rfl⟩

theorem mapStream_maps (s : State) (h n : Nat) : (mapStream s h n).slotOf h = some (.taken n s.now) ∧
    ((mapStream s h n).stream n).waitFrom = none ∧ (mapStream s h n).cores = s.cores ∧
    ∀ i, i ≠ h → (mapStream s h n).slotOf i = s.slotOf i := by
  obtain ⟨m, x, hm⟩ := mapStream_frame s h n
  rw [hm]
  have hslot := State.slotOf_setSlot s h (some (.taken n s.now))
  have hstream := State.stream_setStream (s.setSlot h (some (.taken n s.now))) n { s.stream n with waitFrom := none }
  exact ⟨hslot, congrArg Stream.waitFrom hstream, rfl, fun i hi => State.slotOf_setSlot_other s (some (.taken n s.now)) hi⟩

theorem mapFirst_of_waiting {s s1 : State} {w : Waiting} {ws : List Waiting} (h : Nat)
    (hw : waitingStreams (refreshWaits s) = (s1, w :: ws)) : mapFirst s h = mapStream s1 h w.stream := by
  rw [mapFirst, hw]
  rfl

theorem emptied_of_none_leaving {s : State} (hleave : ∀ i x, s.slotOf i = some x → x.leaving = none) (i : Nat) : s.emptied i = false := by
  unfold State.emptied
  split
  · next x hx => rw [hleave i x hx]; rfl
  · rfl

theorem execStreamMap_of_freeSlot {s : State} {h : Nat} (hen : s.sched.en = true) (hnone : ∀ i, s.emptied i = false)
    (hfree : s.freeSlot = some h) : execStreamMap s = .next (mapFirst s h) := by
  have hfind : (upto 0 64).find? s.emptied = none := List.find?_eq_none.2 fun i _ he => Bool.false_ne_true ((hnone i).symm.trans he)
  rw [execStreamMap, if_neg (by rw [hen]; decide)]
  rw [hfind, hfree]
  dsimp only
  rw [Option.elim_some]

/-! ### The quantum boundary (R236, R240) -/

/-- When the next quantum begins, and how many have begun. -/
def State.quantumClock (s : State) : Nat × Nat := (s.sched.quantum, s.sched.quanta)

theorem State.SameButMs.quantumClock {s t : State} (h : s.SameButMs t) : t.quantumClock = s.quantumClock := by
  obtain ⟨m, rfl⟩ := h
  rfl

theorem State.SameButWaits.quantumClock {s t : State} (h : s.SameButWaits t) : t.quantumClock = s.quantumClock := by
  obtain ⟨m, x, rfl⟩ := h
  rfl

theorem countPartitionError_clock (s : State) (n : Nat) : (countPartitionError s n).quantumClock = s.quantumClock := by
  unfold countPartitionError
  split
  rename_i he
  replace he := (((State.SameButMs.refl s).streamEntry n).of_eq he).quantumClock
  split
  · exact he
  · exact he

theorem countPartitionErrors_clock (s : State) : (countPartitionErrors s).quantumClock = s.quantumClock := by
  unfold countPartitionErrors
  split
  · exact foldl_keeps (J := fun t : State => t.quantumClock = s.quantumClock) (fun t n h => (countPartitionError_clock t n).trans h) rfl
  · rfl

theorem mapStream_clock (s : State) (h n : Nat) : (mapStream s h n).quantumClock = s.quantumClock := by
  obtain ⟨m, x, hm⟩ := mapStream_frame s h n
  rw [hm]
  rfl

theorem replaceIn_clock (s : State) (w : Waiting) (h : Nat) : (replaceIn s w h).quantumClock = s.quantumClock := by
  unfold replaceIn
  split
  · rfl
  · rfl

theorem rotateOne_clock (s : State) (w : Waiting) : (rotateOne s w).quantumClock = s.quantumClock := by
  unfold rotateOne
  split
  · exact mapStream_clock ..
  · have hc := (chooseCandidate_keeps s w.prio).quantumClock
    generalize chooseCandidate s w.prio = r at hc
    obtain ⟨t, _ | h⟩ := r
    · exact hc
    · exact (replaceIn_clock t w h).trans hc

theorem rotate_clock (ws : List Waiting) (s : State) : (rotate ws s).quantumClock = s.quantumClock :=
  foldl_keeps (J := fun t : State => t.quantumClock = s.quantumClock) (fun t w h => (rotateOne_clock t w).trans h) rfl

theorem SMap.get_map_option {β γ : Type} (f : β → γ) (m : SMap (Option β)) (k : Nat) :
    SMap.get none (m.map fun e => (e.1, e.2.map f)) k = (SMap.get none m k).map f := by
  induction m with
  | nil => rfl
  | cons e m ih =>
    rw [List.map_cons, SMap.get, SMap.get, ih]
    exact (apply_ite (Option.map f) _ _ _).symm

/-- After a boundary every stream that was mapped before it is a candidate. -/
theorem State.prevBoundary_passBoundary {s : State} {t h : Nat} {x : StreamSlot} (hx : (s.passBoundary t).slotOf h = some x)
    (ht : x.mappedAt < t) : x.prevBoundary = true := by
  have hmap := SMap.get_map_option (fun y : StreamSlot => { y with prevBoundary := y.prevBoundary || decide (y.mappedAt < t) }) s.sched.slots h
  obtain ⟨y, -, rfl⟩ := Option.map_eq_some_iff.1 (hmap.symm.trans hx)
  exact Bool.or_eq_true_iff.2 (.inr (decide_eq_true ht))

theorem execQuantumBoundary_passes {s : State} (h : s.sched.quantum ≤ s.now) : ∃ u : State,
    execQuantumBoundary s = .next (u.passBoundary s.sched.quantum) ∧ u.quantumClock = (s.sched.quantum + 800000, s.sched.quanta + 1) := by
  rw [execQuantumBoundary, if_neg (Nat.not_lt.2 h)]
  dsimp only
  split
  · exact ⟨_, rfl, rfl⟩
  · refine ⟨_, rfl, ?_⟩
    rw [rotate_clock, (waitingStreams_refreshWaits_keeps _).quantumClock, countPartitionErrors_clock]
    rfl

end Sys2Proof.Machine
end

section
/-! PROOFS. Frames, pre-emption, forced kills and resumption: what each leaves of the cores (18 R387 to R395). -/

namespace Sys2Proof.Machine

/-! ### Re-evaluating a cluster (20 R404 to R406) -/

/-- `t` is `s`, but for the cores and the power states. -/
def State.SameButClocks (s t : State) : Prop := ∃ c p, t = { s with cores := c, pwr := p }

theorem State.SameButClocks.refl (s : State) : s.SameButClocks s := ⟨s.cores, s.pwr, rfl⟩

theorem State.SameButClocks.trans {s t u : State} (h : s.SameButClocks t) (h' : t.SameButClocks u) : s.SameButClocks u := by
  obtain ⟨c, p, rfl⟩ := h
  obtain ⟨c', p', rfl⟩ := h'
  exact ⟨c', p', rfl⟩

theorem State.switchCore_keeps (s : State) (k : Nat) : s.SameButClocks (s.switchCore k) := by
  unfold State.switchCore
  dsimp only
  split
  · exact .refl s
  · exact ⟨_, s.pwr, rfl⟩

theorem State.payClocks_keeps (s : State) (k : Nat) : s.SameButClocks (s.payClocks k) := by
  unfold State.payClocks
  dsimp only
  split
  · exact ⟨_, s.pwr, rfl⟩
  · exact .refl s

theorem State.moveVoltage_keeps (s : State) (cl : Nat) : s.SameButClocks (s.moveVoltage cl) := by
  unfold State.moveVoltage
  split
  · exact .refl s
  split
  · exact ⟨s.cores, _, rfl⟩
  split
  · exact ⟨s.cores, _, rfl⟩
  · exact .refl s

theorem State.applyCluster_keeps (s : State) (cl : Nat) : s.SameButClocks (s.applyCluster cl) := by
  rw [State.applyCluster_eq]
  generalize upto (8 * cl) 8 = l
  refine foldl_keeps (J := s.SameButClocks) (fun t k h => h.trans (t.payClocks_keeps k)) (.trans ?_ (State.moveVoltage_keeps _ cl))
  exact foldl_keeps (J := s.SameButClocks) (fun t k h => h.trans (t.switchCore_keeps k)) (.refl s)

theorem State.freeCore_sto (s : State) (k : Nat) : (s.freeCore k).sto = s.sto := by
  obtain ⟨c, p, h⟩ := State.applyCluster_keeps ({ s with ms := s.ms.completeFlush k }.modCore k Core.clear) (clusterOf k)
  rw [State.freeCore, State.applyCore, h]
  rfl

/-- A core that is freed holds no task. -/
theorem State.freeCore_idle (s : State) (k : Nat) : ((s.freeCore k).core k).task = none ∧ ((s.freeCore k).core k).ctl.phase = .idle := by
  obtain ⟨r, hr⟩ := State.core_freeCore s k
  rw [hr]
  exact ⟨rfl, rfl⟩

/-! ### Frames (R393, R394) -/

/-- `t` is `s`, but for memory and the frames that the module keeps. -/
def State.SameButKept (s t : State) : Prop := ∃ m x, t = { s with ms := m, sched := { s.sched with kept := x } }

theorem State.SameButMs.kept {s t : State} (h : s.SameButMs t) : s.SameButKept t := by
  obtain ⟨m, rfl⟩ := h
  exact ⟨m, s.sched.kept, rfl⟩

theorem State.SameButKept.cores {s t : State} (h : s.SameButKept t) : t.cores = s.cores := by
  obtain ⟨m, x, rfl⟩ := h
  rfl

theorem State.SameButKept.now {s t : State} (h : s.SameButKept t) : t.now = s.now := by
  obtain ⟨m, x, rfl⟩ := h
  rfl

theorem thenSome_keeps {α β : Type} {s : State} {r : State × Option α} {f : State → α → State × Option β} (h : s.SameButMs r.1)
    (hf : ∀ t x, s.SameButMs t → s.SameButMs (f t x).1) : s.SameButMs (thenSome r f).1 := by
  unfold thenSome
  split
  · exact h
  · exact hf _ _ h

section
variable (s : State) (ctx core f : Nat)

theorem State.frameXlat_keeps (off : Nat) (kind : XKind) : s.SameButMs (s.frameXlat ctx core f off kind).1 :=
  (((State.SameButMs.refl s).readCtx ctx).ctxWho core ctx true).withMs _

theorem State.frameGet_keeps (off n : Nat) : s.SameButMs (s.frameGet ctx core f off n).1 := by
  unfold State.frameGet
  split
  · exact .refl s
  · exact thenSome_keeps (s.frameXlat_keeps ctx core f off .load) fun t p h => h.withMs _

theorem State.fst_keeps : s.SameButMs (s.fst ctx core f).1 :=
  thenSome_keeps (s.frameGet_keeps ctx core f 0 8) fun _ _ h => h

theorem State.placeWrite_keeps (n v : Nat) (bad : Bool) (p : Who × Xlat) : s.SameButMs (s.placeWrite n v bad p).1 := by
  unfold State.placeWrite
  generalize homeWrite s.ms p.1 p.2 p.2.pa n v (allOnes n) 1 bad = d
  exact ⟨d.1, rfl⟩

theorem State.frameWrite_keeps (off n v : Nat) (bad : Bool) : s.SameButKept (s.frameWrite ctx core f off n v bad).1 := by
  have hx := s.frameXlat_keeps ctx core f off .store
  unfold State.frameWrite
  cases s.keptOf ctx core f with
  | some x => exact ⟨s.ms, _, rfl⟩
  | none =>
    generalize s.frameXlat ctx core f off .store = r at hx ⊢
    obtain ⟨t, _ | p⟩ := r
    · exact hx.kept
    · have hp := (hx.trans (t.placeWrite_keeps n v bad p)).kept
      generalize State.placeWrite = g at hp ⊢
      exact hp

theorem State.setFst_keeps (v : Nat) : s.SameButKept (s.setFst ctx core f v).1 := by
  obtain ⟨m, x, h⟩ := s.frameWrite_keeps ctx core f 0 8 (frameWord0 v) false
  unfold State.setFst
  dsimp only
  split
  · rw [h]
    exact ⟨m, _, rfl⟩
  · exact ⟨m, x, h⟩

end

theorem freeFrame_keeps (ctx core n : Nat) : ∀ (s : State) (f : Nat), s.SameButMs (freeFrame s ctx core n f).1 := by
  induction n with
  | zero => exact fun s _ => .refl s
  | succ n ih =>
    intro s f
    unfold freeFrame
    dsimp only
    split
    · exact s.fst_keeps ctx core f
    · exact (s.fst_keeps ctx core f).trans (ih _ _)

theorem State.forsake_keeps (s : State) (ctx core f : Nat) : (s.forsake ctx core f).cores = s.cores ∧ (s.forsake ctx core f).now = s.now := by
  unfold State.forsake
  split
  · dsimp only
    split
    · exact ⟨rfl, rfl⟩
    · exact ⟨rfl, rfl⟩
  · exact ⟨rfl, rfl⟩

theorem dropFrames_cores (s : State) (ctx core : Nat) (p : Task → Bool) : (dropFrames s ctx core p).cores = s.cores := by
  refine foldl_keeps (J := fun t : State => t.cores = s.cores) (fun t f h => ?_) rfl
  split
  · have hd : ((t.setFst ctx core f 0).1.setFrame ctx core f none).cores = s.cores := (t.setFst_keeps ctx core f 0).cores.trans h
    rw [apply_ite State.cores, hd, h, ite_self]
  · exact h

/-! ### Pre-emption (06 R184; 18 R391) -/

theorem Core.toBoundary_of_head {c : Core} (h : c.ctl.phase = .head) : c.toBoundary = c := by
  rw [Core.toBoundary, h]
  rfl

theorem Core.preemptNow_of_head {c : Core} (hp : c.trap.preempt = .pending) (h : c.ctl.phase = .head) (htl : c.trap.tl = false) :
    c.preemptNow = true := by
  rw [Core.preemptNow, hp, h, htl]
  rfl

/-- The task of core k stands in its frame f. -/
def State.inFrame (s : State) (k f : Nat) (c : Core) : State := (s.forsake c.ctx k f).setFrame c.ctx k f (some (c.snapshot false))

section
variable {s s1 s2 : State} {k f st : Nat} (hp : (s.core k).trap.preempt = .pending) (hh : (s.core k).ctl.phase = .head)
  (htl : (s.core k).trap.tl = false) (hf : freeFrame s (s.core k).ctx k 4 0 = (s1, some f))
  (hw : s1.setFst (s.core k).ctx k f 3 = (s2, true)) (hst : (s.core k).code.stubFor (s.core k).ctl.head = some st)
include hp hh htl hf hw hst

theorem execPreemptionTaken_diverts : execPreemptionTaken k s =
    .next ((s2.inFrame k f (s.core k)).modCore k fun c => c.toBoundary.divert f (s2.inFrame k f (s.core k)).now st) := by
  have hnow := Core.preemptNow_of_head hp hh htl
  unfold execPreemptionTaken
  rw [Core.toBoundary_of_head hh]
  dsimp only
  rw [hnow, if_neg (by decide), hf]
  dsimp only
  rw [hw]
  dsimp only
  rw [if_neg (by rw [hh]; decide), hst, hh]
  rfl

/-- A pre-empted task goes on at its stub, with the state that its frame holds. -/
theorem preemptionTaken_diverts : ∃ t, execPreemptionTaken k s = .next t ∧ t.core k = (s.core k).divert f s.now st ∧
      t.frameOf (s.core k).ctx k f = some ((s.core k).snapshot false) ∧ ∀ j, j ≠ k → t.core j = s.core j := by
  have h1 := (freeFrame_keeps (s.core k).ctx k 4 s 0).kept
  rw [hf] at h1
  have h2 := s1.setFst_keeps (s.core k).ctx k f 3
  rw [hw] at h2
  obtain ⟨hcores, hnow⟩ := s2.forsake_keeps (s.core k).ctx k f
  have hc : (s2.inFrame k f (s.core k)).cores = s.cores := hcores.trans (h2.cores.trans h1.cores)
  have hn : (s2.inFrame k f (s.core k)).now = s.now := hnow.trans (h2.now.trans h1.now)
  refine ⟨_, execPreemptionTaken_diverts hp hh htl hf hw hst, ?_, State.frameOf_setFrame _ _ _ _ _, fun j hj => ?_⟩
  · rw [State.core_modCore, State.core_congr hc, hn, Core.toBoundary_of_head hh]
  · rw [State.core_modCore_other _ _ hj, State.core_congr hc]

end

/-! ### Forced kills (R395) -/

theorem State.markForced_cores (s : State) (owner : Option Nat) : (s.markForced owner).cores = s.cores := by
  cases owner <;> rfl

theorem State.engineOut_markForced (s : State) (owner : Option Nat) (k : Nat) : (s.markForced owner).engineOut k = s.engineOut k := by
  cases owner <;> rfl

theorem State.crewCores_of_no_crew (s : State) (k : Nat) {u : Task} (h : u.crew = none) : s.crewCores k u = [k] := by
  rw [State.crewCores, h]
  rfl

/-- The forced kill of a task without a crew waits for the engine work of its core alone. -/
theorem forcedKill_of_no_crew {s : State} {k : Nat} {u : Task} (hu : (s.core k).task = some u) (hc : u.crew = none) :
    forcedKill s k = if s.engineOut k then ((s.markForced u.owner).abortCommands fun c => [k].contains c.core).stopTask k
      else endForced (s.markForced u.owner) k u := by
  rw [forcedKill, hu]
  dsimp only
  rw [State.crewCores_of_no_crew _ k hc, List.any_cons, List.any_nil, Bool.or_false, State.engineOut_markForced]
  rfl

theorem endForced_cores {s : State} {k : Nat} {u : Task} (hc : u.crew = none) : (endForced s k u).cores = (s.freeCore k).cores := by
  have hd := dropFrames_cores (s.freeCore k) u.ctx k fun v => v.trec == u.trec && v.record
  unfold endForced
  rw [hc, Option.bind_none]
  split
  · next hn _ => exact nomatch hn
  dsimp -iota only
  generalize dropFrames (s.freeCore k) u.ctx k (fun v => v.trec == u.trec && v.record) = t at hd
  rw [← hd]
  split
  · have hw := (State.Flies.refl t).ctxWho k u.ctx u.creatorSup
    generalize t.ctxWho k u.ctx u.creatorSup = q at hw ⊢
    obtain ⟨v, w⟩ := q
    dsimp only at hw ⊢
    split
    · exact (((hw.withMs _).setStatus _ _ _).pushReady _ _ _).cores
    · exact ((hw.withMs _).pushReady _ _ _).cores
  · exact completeRecord_cores ..

theorem forcedKill_frees {s : State} {k : Nat} {u : Task} (hu : (s.core k).task = some u) (hc : u.crew = none) (h : s.engineOut k = false) :
    ((forcedKill s k).core k).task = none ∧ ((forcedKill s k).core k).ctl.phase = .idle := by
  rw [forcedKill_of_no_crew hu hc, h, if_neg Bool.false_ne_true, State.core_congr (endForced_cores hc)]
  exact State.freeCore_idle _ k

theorem Command.abort_sent (now : Nat) (c : Command) : (c.abort now).abortAt ≠ none := by
  unfold Command.abort
  split
  · next h => exact Option.isSome_iff_ne_none.1 h
  · nofun

/-- An Abort has been sent for every command that `abortCommands` names by its core. -/
theorem State.abortCommands_sent {s : State} {k : Nat} {c : Command} (hc : c ∈ (s.abortCommands fun c => [k].contains c.core).sto.outstanding)
    (hk : c.core = k) : c.abortAt ≠ none := by
  obtain ⟨d, -, rfl⟩ := List.mem_map.1 hc
  dsimp only at hk ⊢
  split at hk
  · next hd =>
    rw [if_pos hd]
    exact d.abort_sent s.now
  · next hd => exact absurd (List.contains_iff_mem.2 (List.mem_singleton.2 hk)) hd

theorem State.stopTask_dies (s : State) (k : Nat) : ((s.stopTask k).core k).task = (s.core k).task ∧
    ((s.stopTask k).core k).ctl.phase = .dying ∧ (s.stopTask k).sto = s.sto := by
  refine ⟨?_, ?_, ?_⟩
  · rw [State.stopTask, State.core_modCore]
  · rw [State.stopTask, State.core_modCore]
  · rw [State.stopTask, State.modCore_sto, State.freeCore_sto]

theorem forcedKill_waits {s : State} {k : Nat} {u : Task} (hu : (s.core k).task = some u) (hc : u.crew = none) (h : s.engineOut k = true) :
    ((forcedKill s k).core k).task = some u ∧ ((forcedKill s k).core k).ctl.phase = .dying ∧
      ∀ c ∈ (forcedKill s k).sto.outstanding, c.core = k → c.abortAt ≠ none := by
  obtain ⟨htask, hphase, hsto⟩ := State.stopTask_dies ((s.markForced u.owner).abortCommands fun c => [k].contains c.core) k
  rw [forcedKill_of_no_crew hu hc, if_pos h, htask, hsto]
  refine ⟨?_, hphase, fun c hm hk => State.abortCommands_sent hm hk⟩
  rw [← hu]
  exact congrArg Core.task (State.core_congr (s.markForced_cores u.owner) k)

theorem execStubTimeout_kills {s : State} {k f since : Nat} (hp : (s.core k).trap.preempt = .stub f since)
    (ht : since + stubCycles ≤ s.now) (hy : (s.core k).yielded = false) : execStubTimeout k s = .next (forcedKill s k) := by
  rw [execStubTimeout, hp]
  exact if_pos ⟨ht, by rw [hy]; rfl⟩

/-! ### Yielding (05 R151; 18 R392) -/

theorem execYieldSave_saves {s : State} {k f since a : Nat} (hp : (s.core k).ctl.phase = .yielding a)
    (hst : (s.core k).trap.preempt = .stub f since) (hd : (performStores s k).drained k = true) :
    let r := saveTask (performStores s k) k f 1 a
    execYieldSave k s = .next (if r.2 then r.1.freeCore k else forcedKill r.1 k) := by
  dsimp only
  unfold execYieldSave
  dsimp only
  rw [hp, hst]
  dsimp only
  rw [if_pos hd]
  generalize saveTask (performStores s k) k f 1 a = r
  obtain ⟨t, _ | _⟩ := r
  · rfl
  · rfl

/-! ### Resumption (R395) -/

/-- The scratchpad ways that a saved task asks for. -/
def Core.savedWays (saved : Core) : Nat := match saved.task with | some t => t.spw | none => 0

/-- Core k, which waiting crews no longer hold, has the ways that a saved task asks for. -/
def State.makeRoom (s : State) (k : Nat) (saved : Core) : State :=
  moveWays { s with sched := { s.sched with crews := s.sched.crews.map fun c =>
    if c.admitted then c else { c with held := c.held.filter (· != k) } } } k saved.savedWays

/-- The core that frame f holds goes on at `resume`; the frame is free. -/
def State.takeBack (s3 : State) (ctx k f : Nat) (live c : Core) : State :=
  ((((s3.setCore k (live.adopt c)).applyCore k).setFst ctx k f 0).1).setFrame ctx k f none

theorem execFrameResume_of_saved {s s1 : State} {k ctx f : Nat} {saved : Core} (hi : (s.core k).idle = true) (hs : s.startsTasks = true)
    (hr : resumable s k = some (ctx, f, saved)) (hf : s.fst ctx k f = (s1, some 1)) : execFrameResume k s =
      match restoredCore (s1.makeRoom k saved) ctx k f { saved with ways := saved.savedWays } with
      | (s3, none) => .next (forcedKill (s3.setCore k (((s1.makeRoom k saved).core k).adopt saved)) k)
      | (s3, some (c, resume)) => .next (goOn (s3.takeBack ctx k f ((s1.makeRoom k saved).core k) c) k resume saved) := by
  unfold execFrameResume
  rw [hi, hs, if_neg (by decide), hr]
  dsimp only
  rw [hf]
  dsimp only
  rw [if_neg (by decide)]
  rfl

section
variable (s3 : State) (ctx k f resume : Nat) (live c saved : Core)

theorem State.core_takeBack : (live.adopt c).Reclocked ((s3.takeBack ctx k f live c).core k) := by
  have hc : (s3.takeBack ctx k f live c).cores = ((s3.setCore k (live.adopt c)).applyCore k).cores :=
    (State.setFrame_cores ..).trans (State.setFst_keeps _ ctx k f 0).cores
  have hk := State.core_setCore s3 k (live.adopt c)
  have h := State.core_applyCluster_of_waiting (cl := clusterOf k) (j := k) (s := s3.setCore k (live.adopt c)) (by rw [hk]; rfl)
  rw [hk] at h
  rw [State.core_congr hc]
  exact h

theorem State.frameOf_takeBack : (s3.takeBack ctx k f live c).frameOf ctx k f = none := State.frameOf_setFrame _ _ _ _ _

/-- A task that was saved at a block head goes on at `resume`. -/
theorem goOn_of_head {s : State} (hp : saved.ctl.phase = .head) (hb : saved.ctl.behind = {}) : goOn s k resume saved =
    s.modCtl k fun l => { l with phase := .head, head := resume, cameFrom := 0, negative := false, behind := {} } := by
  rw [goOn, if_neg (by rw [hp]; decide)]
  dsimp only
  rw [if_pos (by rw [hb])]

/-- A task that is resumed at a block head has what its frame held, but for the clocks of its core. -/
theorem resumed_holds (hp : saved.ctl.phase = .head) (hb : saved.ctl.behind = {}) :
    let t := goOn (s3.takeBack ctx k f live c) k resume saved
    (t.core k).regs = c.regs ∧ (t.core k).mx.tiles = c.mx.tiles ∧ (t.core k).mx.acc = c.mx.acc ∧ (t.core k).scratch = c.scratch ∧
      (t.core k).task = c.task ∧ (t.core k).ctl.phase = .head ∧ (t.core k).ctl.head = resume ∧ t.frameOf ctx k f = none := by
  obtain ⟨r, hr⟩ := State.core_takeBack s3 ctx k f live c
  have hframe := State.frameOf_takeBack s3 ctx k f live c
  generalize s3.takeBack ctx k f live c = u at hr hframe ⊢
  dsimp only
  rw [goOn_of_head k resume saved hp hb, State.core_modCtl, hr]
  exact ⟨rfl, rfl, rfl, rfl, rfl, rfl, rfl, hframe⟩

end

/-! ### Parking (R387) -/

theorem State.markRecord_cores (s : State) (k : Nat) (t : Option Task) (st : Nat) : (s.markRecord k t st).cores = s.cores := by
  unfold State.markRecord
  split
  · split
    · split
      rename_i he
      exact ((((State.Flies.refl s).ctxWho _ _ _).of_eq he).setStatus _ _ _).cores
    · rfl
  · rfl

theorem parkInPlace_parks {s : State} {k : Nat} (h : (s.core k).ctl.phase = .parking ∧ (s.core k).noNests = true ∧ (s.core k).tl = 0 ∧
    (s.core k).cp.queue = []) : ∃ t, execParkInPlace k s = .next t ∧
      t.core k = { s.core k with ctl := { (s.core k).ctl with phase := .parked } } ∧ ∀ j, j ≠ k → t.core j = s.core j := by
  have hc := State.markRecord_cores (s.modCtl k fun l => { l with phase := .parked }) k (s.core k).task 4
  refine ⟨_, if_pos h, ?_, fun j hj => ?_⟩
  · rw [State.core_congr hc, State.core_modCtl]
  · rw [State.core_congr hc, State.core_modCtl_other _ hj]

end Sys2Proof.Machine
end

section
/-! PROOFS. The obligation on streams and frames. -/

namespace Sys2Proof.Proofs.ExecutionModel

open Sys2Proof.Machine

/-- Settles O55: streams are mapped and quanta pass in the scheduler's own state, which reads of memory leave (`State.SameButMs`); what
befalls a task is what its core holds after the event, and the clocks of its cluster, which follow, leave that (`Core.Reclocked`). -/
theorem streamsAndFrames : Obligations.StreamsAndFrames := by
  unfold Obligations.StreamsAndFrames
  intro s
  refine ⟨?map, ?quantum, ?preempt, ?stub, ?yield, ?resume, ?park⟩
  case map =>
    intro h s1 w ws hen hleave hfree hw
    have hs1 := waitingStreams_refreshWaits_keeps s
    rw [hw] at hs1
    obtain ⟨m, x, rfl⟩ := hs1
    obtain ⟨hslot, hwait, hcores, hother⟩ := mapStream_maps { s with ms := m, sched := { s.sched with streams := x } } h w.stream
    exact ⟨_, _, (execStreamMap_of_freeSlot hen (emptied_of_none_leaving hleave) hfree).trans (congrArg _ (mapFirst_of_waiting h hw)),
      hslot, rfl, rfl, rfl, hwait, hcores, hother⟩
  case quantum =>
    intro hq
    obtain ⟨u, hexec, hu⟩ := execQuantumBoundary_passes hq
    exact ⟨_, hexec, congrArg Prod.fst hu, congrArg Prod.snd hu, fun h x hx ht => State.prevBoundary_passBoundary hx ht⟩
  case preempt =>
    intro k f st s1 s2 c hp hh htl hf hw hst
    obtain ⟨t, hexec, hcore, hframe, hother⟩ := preemptionTaken_diverts hp hh htl hf hw hst
    refine ⟨t, hexec, ?_, ?_, ?_, ?_, ?_, hframe, hother⟩ <;> rw [hcore] <;> rfl
  case stub =>
    intro k f since u c hp ht hy hu hc
    exact ⟨_, execStubTimeout_kills hp ht hy, rfl, forcedKill_frees hu hc, forcedKill_waits hu hc⟩
  case yield =>
    intro k f since a hp hst s1 hd r
    exact ⟨execYieldSave_saves hp hst hd, State.freeCore_idle r.1 k⟩
  case resume =>
    intro k ctx f s1 saved hi hs hr hf hp hb
    have hexec := execFrameResume_of_saved hi hs hr hf
    rcases hres : restoredCore (s1.makeRoom k saved) ctx k f { saved with ways := saved.savedWays } with ⟨s3, _ | ⟨c, resume⟩⟩
    · rw [hres] at hexec
      refine ⟨_, hexec, ?_⟩
      intro spw free s2
      have hread : restoredCore s2 ctx k f { saved with ways := spw } = (s3, none) := hres
      rw [hread]
      rfl
    · rw [hres] at hexec
      refine ⟨_, hexec, ?_⟩
      intro spw free s2
      have hread : restoredCore s2 ctx k f { saved with ways := spw } = (s3, some (c, resume)) := hres
      rw [hread]
      exact resumed_holds s3 ctx k f resume ((s1.makeRoom k saved).core k) c saved hp hb
  case park =>
    intro k c hp hn ht hq
    exact parkInPlace_parks ⟨hp, hn, ht, hq⟩

end Sys2Proof.Proofs.ExecutionModel
end

section
/-! PROOFS. What the arrival of a message leaves, and what the messages of the host and of peers do (09 R238; 20 R416; 22 R431, R434). -/

namespace Sys2Proof.Machine

/-! ### The end of a member's silence (20 R416) -/

/-- `t` is `s`, but for the tide, and the cores and power states that follow its ceiling. -/
def State.SameButTide (s t : State) : Prop := ∃ c p x, t = { s with cores := c, pwr := p, tide := x }

theorem State.SameButTide.refl (s : State) : s.SameButTide s := ⟨s.cores, s.pwr, s.tide, rfl⟩

theorem State.applyAll_keeps (s : State) : s.SameButClocks s.applyAll :=
  foldl_keeps (J := s.SameButClocks) (fun t cl h => h.trans (t.applyCluster_keeps cl)) (.refl s)

theorem State.recomputeCeil_keeps {s t : State} (h : s.SameButTide t) : s.SameButTide t.recomputeCeil := by
  unfold State.recomputeCeil
  split
  · exact h
  · obtain ⟨c, p, x, rfl⟩ := h
    obtain ⟨c', p', h'⟩ := State.applyAll_keeps { s with
      cores := c, pwr := p, tide := { x with ceil := ({ s with cores := c, pwr := p, tide := x } : State).wantCeil } }
    exact ⟨c', p', _, h'⟩

theorem State.heard_keeps (s : State) (dev : Nat) : s.SameButTide (s.heard dev) := by
  unfold State.heard
  split
  · exact State.recomputeCeil_keeps ⟨s.cores, s.pwr, _, rfl⟩
  · exact .refl s

theorem State.heard_ms (s : State) (dev : Nat) : (s.heard dev).ms = s.ms := by
  obtain ⟨c, p, x, h⟩ := s.heard_keeps dev
  rw [h]

theorem State.heard_fab (s : State) (dev : Nat) : (s.heard dev).fab = s.fab := by
  obtain ⟨c, p, x, h⟩ := s.heard_keeps dev
  rw [h]

theorem State.heard_boot (s : State) (dev : Nat) : (s.heard dev).boot = s.boot := by
  obtain ⟨c, p, x, h⟩ := s.heard_keeps dev
  rw [h]

theorem State.heard_committed (s : State) (dev : Nat) : (s.heard dev).committed = s.committed := by
  obtain ⟨c, p, x, h⟩ := s.heard_keeps dev
  rw [h]

/-! ### Arrival (22 R434) -/

theorem fabricArrival_ignored {s : State} {m : Msg} (type : Nat) (act : State → State) (h : s.ignores (msgSender m) = true) :
    fabricArrival s m type act = .next s := if_pos (.inr (.inr h))

theorem execLaunch_ignored {s : State} {m : Msg} (link : Nat) (h : s.ignores (msgSender m) = true) : execLaunch link m s = .next s :=
  fabricArrival_ignored _ _ h

theorem execComplete_ignored {s : State} {m : Msg} (h : s.ignores (msgSender m) = true) : execComplete m s = .next s :=
  fabricArrival_ignored _ _ h

theorem execFault_ignored {s : State} {m : Msg} (h : s.ignores (msgSender m) = true) : execFault m s = .next s :=
  fabricArrival_ignored _ _ h

/-- A well-formed message that the device serves acts once its sender has been heard. -/
theorem fabricArrival_acts {s : State} {m : Msg} {type : Nat} (act : State → State) (hr : msgReserved m = false)
    (hi : s.ignores (msgSender m) = false) (hs : s.serves = true) (ht : msgType m = type) :
    fabricArrival s m type act = .next (act (s.heard (msgSender m))) := by
  rw [fabricArrival, if_neg (by rw [hs, hi, ht]; simp), if_neg (by rw [hr]; decide)]

theorem execUnknownMessageType_answers {s : State} {m : Msg} (hi : s.ignores (msgSender m) = false) (hs : s.serves = true)
    (hk : knownType (msgType m) = false) : execUnknownMessageType m s = .next (s.send (msgSender m) (faultMsg s 1 0 0)) := by
  have hlaunch : msgType m ≠ 0x10 := fun h => by rw [h] at hk; exact absurd hk (by decide)
  rw [execUnknownMessageType, if_pos (by rw [hi, hs, hk]; rfl), State.discard, if_neg hlaunch]

/-! ### LAUNCH (09 R238) -/

/-- The launch is appended, or its refusal is answered. -/
theorem execLaunch_appends {s s1 s2 s3 : State} {m : Msg} {link e st : Nat} {w : Who} (hr : msgReserved m = false)
    (hi : s.ignores (msgSender m) = false) (hs : s.serves = true) (ht : msgType m = 0x10)
    (h1 : (s.heard (msgSender m)).streamEntry (wfield m.w1 11 0) = (s1, e))
    (h2 : s1.ctxWho (64 * (link / 8 % 4)) (entryCtx e) (s1.ingressSup link (msgSender m)) = (s2, w))
    (h3 : appendLaunch s2 w m.w2.toNat (wfield m.w1 11 0) (s2.ingressMid link (msgSender m)) (link / 8 % 4) = (s3, st)) :
    execLaunch link m s = .next (if st = 0 then s3 else s3.send (msgSender m) (faultMsg s3 2 st m.w3.toNat)) := by
  -- The operations stay closed: the kernel would evaluate them.
  obtain ⟨g1, hg1⟩ : ∃ g, State.streamEntry = g := ⟨_, rfl⟩
  obtain ⟨g2, hg2⟩ : ∃ g, State.ctxWho = g := ⟨_, rfl⟩
  obtain ⟨g3, hg3⟩ : ∃ g, appendLaunch = g := ⟨_, rfl⟩
  unfold execLaunch
  rw [hg1] at h1 ⊢
  rw [hg2] at h2 ⊢
  rw [hg3] at h3 ⊢
  rw [fabricArrival_acts _ hr hi hs ht]
  simp only [h1, h2, h3]

/-! ### COMPLETE (22 R431) -/

section
variable {pa n v : Nat} (m : MemSys) (h0 : 0 < n) (h : pa % 64 + n ≤ 64) (hv : v < 2 ^ (8 * n))
include h0 h hv

/-- A write of the device's own within one block stores as an access from outside does. -/
theorem MemSys.hwWrite_eq : m.hwWrite pa n v =
    if (m.check (stackDie pa) 0 pa .write false).2 && inAperture pa then
      (m.check (stackDie pa) 0 pa .write false).1.writeFrom (stackDie pa) false false v (Piece.whole pa n)
    else (m.check (stackDie pa) 0 pa .write false).1 := by
  rw [MemSys.writeFrom_block h0 h, Nat.mod_eq_of_lt hv, MemSys.hwWrite, MemSys.writeAs]
  generalize m.check (stackDie pa) 0 pa .write false = c
  rw [allOnes, pow2, Nat.one_shiftLeft]

theorem MemSys.hwWrite_readN (hc : (m.check (stackDie pa) 0 pa .write false).2 = true) (ha : inAperture pa = true) :
    (m.hwWrite pa n v).readN pa n = v := by
  rw [MemSys.hwWrite_eq m h0 h hv, hc, ha, Bool.and_self, if_pos rfl, MemSys.writeFrom_readN h0 h, Nat.mod_eq_of_lt hv]

theorem MemSys.hwWrite_byte {b : Nat} (hb : b < pa ∨ pa + n ≤ b) (hs : m.Settled (b / 256)) : (m.hwWrite pa n v).byte b = m.byte b := by
  have hc := MemSys.check_still (stackDie pa) 0 pa .write false (MemSys.Still.refl hs)
  rw [MemSys.hwWrite_eq m h0 h hv]
  split
  · exact MemSys.writeFrom_byte h0 h _ _ _ _ hb hc
  · exact (hc.2 b rfl).1

end

theorem msgNat_lt (m : Msg) : msgNat m < 2 ^ (8 * 32) := by
  have hw (w : BitVec 64) : w.toNat < 2 ^ 64 := w.isLt
  have h0 := hw m.w0
  have h1 := hw m.w1
  have h2 := hw m.w2
  have h3 := hw m.w3
  simp only [msgNat, ofWords, pow2, Nat.one_shiftLeft]
  omega

section
variable {s : State} {m : Msg} (hr : msgReserved m = false) (hi : s.ignores (msgSender m) = false) (hs : s.serves = true)
include hr hi hs

/-- Where the ring has room, COMPLETE enters it. -/
theorem execComplete_enters (ht : msgType m = 0x11) (hen : s.fab.cren = true)
    (hroom : (s.fab.crpc + 65536 - s.fab.crcc) % 65536 < 256) :
    execComplete m s = .next { s.heard (msgSender m) with
      ms := s.ms.hwWrite (s.fab.crbase * 256 + 32 * (s.fab.crpc % 256)) 32 (msgNat m)
      fab := { s.fab with crpc := (s.fab.crpc + 1) % 65536 } } := by
  rw [execComplete, fabricArrival_acts _ hr hi hs ht]
  dsimp only
  rw [State.heard_fab, State.heard_ms, if_neg (by rw [hen]; decide), if_neg (Nat.not_le.2 hroom)]

/-- Where it has none, COMPLETE is counted as lost. -/
theorem execComplete_lost (ht : msgType m = 0x11) (hen : s.fab.cren = true)
    (hfull : 256 ≤ (s.fab.crpc + 65536 - s.fab.crcc) % 65536) :
    execComplete m s = .next { s.heard (msgSender m) with
      fab := { (s.heard (msgSender m)).fab with crlost := min (s.fab.crlost + 1) 0xFFFFFFFF } } := by
  rw [execComplete, fabricArrival_acts _ hr hi hs ht]
  dsimp only
  rw [State.heard_fab, if_neg (by rw [hen]; decide), if_pos hfull]

/-- What COMPLETE leaves where it enters the ring. -/
theorem complete_enters (ht : msgType m = 0x11) (hen : s.fab.cren = true) (hroom : (s.fab.crpc + 65536 - s.fab.crcc) % 65536 < 256) :
    ∃ t, execComplete m s = .next t ∧ t.fab = { s.fab with crpc := (s.fab.crpc + 1) % 65536 } ∧ t.cores = (s.heard (msgSender m)).cores ∧
      let a := s.fab.crbase * 256 + 32 * (s.fab.crpc % 256)
      ((s.ms.check (stackDie a) 0 a .write false).2 = true → inAperture a = true → t.ms.readN a 32 = msgNat m) ∧
      ∀ b, (b < a ∨ a + 32 ≤ b) → s.ms.Settled (b / 256) → t.ms.byte b = s.ms.byte b := by
  have hblock : (s.fab.crbase * 256 + 32 * (s.fab.crpc % 256)) % 64 + 32 ≤ 64 := by omega
  exact ⟨_, execComplete_enters hr hi hs ht hen hroom, rfl, rfl,
    fun hc ha => MemSys.hwWrite_readN s.ms (by decide) hblock (msgNat_lt m) hc ha,
    fun b hb hset => MemSys.hwWrite_byte s.ms (by decide) hblock (msgNat_lt m) hb hset⟩

/-! ### FAULT (22 R434; log entry 74) -/

omit hr hi hs in
/-- The denial of a store that no channel has made reaches its core. -/
theorem State.deniedBy_of_store (t : State) {u : Unacked} (hst : u.store = true) (hch : u.ch = none) :
    t.deniedBy u = t.modCore u.core fun c => c.note (some (denied u.pa 1 u.path)) := by
  rw [State.deniedBy, hch, hst]
  rfl

/-- FAULT of a store delivers its denial and ends its wait. -/
theorem fault_delivers {l : Nat} {u : Unacked} (ht : msgType m = 0x12) (hcause : wfield m.w1 7 0 = 1)
    (hu : s.unackedTo (msgSender m) m.w2.toNat = some (l, u)) (hst : u.store = true) (hch : u.ch = none) :
    ∃ t, execFault m s = .next t ∧ t.core u.core = ((s.heard (msgSender m)).core u.core).note (some (denied u.pa 1 u.path)) ∧ t.ms = s.ms ∧
      (SMap.get [] t.fab.unacked l : List Unacked) = (SMap.get [] s.fab.unacked l : List Unacked).erase u ∧
      ∀ j, j ≠ u.core → t.core j = (s.heard (msgSender m)).core j := by
  have hfab := s.heard_fab (msgSender m)
  have hms := s.heard_ms (msgSender m)
  have hexec : execFault m s = _ := fabricArrival_acts _ hr hi hs ht
  have hu' : (s.heard (msgSender m)).unackedTo (msgSender m) m.w2.toNat = some (l, u) := by
    rw [State.unackedTo, hfab]
    exact hu
  generalize s.heard (msgSender m) = h at hfab hms hexec hu' ⊢
  dsimp only at hexec
  rw [if_neg (not_not_intro hcause), hu'] at hexec
  dsimp only at hexec
  rw [State.deniedBy_of_store _ hst hch, hfab] at hexec
  exact ⟨_, hexec, State.core_modCore _ _ _, hms, SMap.get_set_same _ _ _ _, fun j hj => State.core_modCore_other _ _ hj⟩

end

end Sys2Proof.Machine
end

section
/-! PROOFS. Messages of management: registers, attestation, status and restart (20 R424; 22 R437, R439). -/

namespace Sys2Proof.Machine

/-! ### Arrival (22 R439) -/

section
variable {s : State} {m : Msg} {op : Nat} (hr : msgReserved m = false) (hi : s.ignores (msgSender m) = false) (ht : msgType m = 0x20)
  (hm : s.manages op = true) (hop : wfield m.w1 7 0 = op)
include hr hi ht hm hop

/-- A well-formed operation that the device serves is answered once its sender has been heard. -/
theorem mgmtArrival_acts {act : State → State × Nat} (more : List Msg) {t : State} {v : Nat} (hact : act (s.heard (msgSender m)) = (t, v)) :
    mgmtArrival s m op act more =
      .next (more.foldl (fun t f => t.send (msgSender m) f) (t.send (msgSender m) (mgmtMsg s.fab.devn op v))) := by
  rw [mgmtArrival, if_neg (by rw [hi, ht, hm]; simp), if_neg (by rw [hr]; decide), if_neg (not_not_intro hop), hact]

end

/-! ### Registers (01 R13, R38; log entry 73) -/

theorem State.firmwareRead_of_allowed {s t : State} {pa : Nat} (hreg : isRegister pa = true) (hc : s.checkFirmware pa .read = (t, true)) :
    s.firmwareRead pa = (t, t.regRead pa) := by
  rw [State.firmwareRead, if_neg (by rw [hreg]; decide), hc]

theorem State.firmwareRead_of_no_register {s : State} {pa : Nat} (hreg : isRegister pa = false) : s.firmwareRead pa = (s, 0) := by
  rw [State.firmwareRead, if_pos (by rw [hreg]; rfl)]

theorem State.firmwareWrite_of_register {s t : State} {pa v : Nat} {ok : Bool} (hreg : isRegister pa = true)
    (hc : s.checkFirmware pa .write = (t, ok)) : s.firmwareWrite pa v = if ok then t.regWrite pa v else t := by
  rw [State.firmwareWrite, if_neg (by rw [hreg]; decide), hc]
  cases ok with
  | true => exact (if_pos rfl).symm
  | false => exact (if_neg Bool.false_ne_true).symm

section
variable {s t : State} {m : Msg} (hr : msgReserved m = false) (hi : s.ignores (msgSender m) = false) (ht : msgType m = 0x20)
include hr hi ht

theorem execMgmtRegisterRead_of_allowed (hm : s.manages 1 = true) (hop : wfield m.w1 7 0 = 1) (hreg : isRegister m.w2.toNat = true)
    (hc : (s.heard (msgSender m)).checkFirmware m.w2.toNat .read = (t, true)) :
    execMgmtRegisterRead m s = .next (t.send (msgSender m) (mgmtMsg s.fab.devn 1 (t.regRead m.w2.toNat))) :=
  mgmtArrival_acts (act := fun s => s.firmwareRead m.w2.toNat) hr hi ht hm hop [] (State.firmwareRead_of_allowed hreg hc)

theorem execMgmtRegisterRead_of_no_register (hm : s.manages 1 = true) (hop : wfield m.w1 7 0 = 1)
    (hreg : isRegister m.w2.toNat = false) :
    execMgmtRegisterRead m s = .next ((s.heard (msgSender m)).send (msgSender m) (mgmtMsg s.fab.devn 1 0)) :=
  mgmtArrival_acts (act := fun s => s.firmwareRead m.w2.toNat) hr hi ht hm hop [] (State.firmwareRead_of_no_register hreg)

theorem execMgmtRegisterWrite_of_register {ok : Bool} (hm : s.manages 2 = true) (hop : wfield m.w1 7 0 = 2)
    (hreg : isRegister m.w2.toNat = true) (hc : (s.heard (msgSender m)).checkFirmware m.w2.toNat .write = (t, ok)) :
    execMgmtRegisterWrite m s =
      .next ((if ok then t.regWrite m.w2.toNat m.w3.toNat else t).send (msgSender m) (mgmtMsg s.fab.devn 2 0)) :=
  mgmtArrival_acts (act := fun s => (s.firmwareWrite m.w2.toNat m.w3.toNat, 0)) hr hi ht hm hop []
    (congrArg (·, 0) (State.firmwareWrite_of_register hreg hc))

/-! ### Status (22 R439) -/

theorem execMgmtStatus_answers (hm : s.manages 5 = true) (hop : wfield m.w1 7 0 = 5) :
    execMgmtStatus m s = .next ((s.heard (msgSender m)).send (msgSender m) (mgmtMsg s.fab.devn 5
      ((match s.boot with | .running => 0 | .recovery => 1 | _ => 2) + 4 * b2n s.committed))) := by
  rw [← s.heard_boot (msgSender m), ← s.heard_committed (msgSender m)]
  exact mgmtArrival_acts hr hi ht hm hop [] rfl

end

/-! ### Attestation (22 R437) -/

theorem attestation_congr {s t : State} (h : t.fab = s.fab) (nonce : BitVec 256) : attestation t nonce = attestation s nonce := by
  rw [attestation, attestation, reportBody, reportBody, h]

/-- Messages to a device for which nothing waits leave in their order. -/
theorem foldl_send_outbox (x : Nat) (fs : List Msg) : ∀ {t : State}, t.holdsFor x = none →
    (fs.foldl (fun t f => t.send x f) t).fab.outbox = t.fab.outbox ++ fs.map fun f => (x, f) := by
  induction fs with
  | nil => exact fun _ => (List.append_nil _).symm
  | cons f fs ih =>
    intro t h
    have hsent : (t.send x f).holdsFor x = none := by
      rw [State.send_sent t x f h]
      exact h
    rw [List.foldl_cons, ih hsent, State.send_outbox t x f h, List.map_cons, List.append_assoc, List.singleton_append]

/-- Sending leaves the cores, memory and the reports. -/
theorem foldl_send_keeps (x : Nat) (fs : List Msg) (t : State) : (fs.foldl (fun t f => t.send x f) t).fab.reports = t.fab.reports ∧
    (fs.foldl (fun t f => t.send x f) t).cores = t.cores ∧ (fs.foldl (fun t f => t.send x f) t).ms = t.ms :=
  foldl_keeps (J := fun u : State => u.fab.reports = t.fab.reports ∧ u.cores = t.cores ∧ u.ms = t.ms) (fun _ _ h => h) ⟨rfl, rfl, rfl⟩

/-- The device keeps a report that it sends. -/
def State.addReport (s : State) (r : BitVec 1536) : State := { s with fab := { s.fab with reports := s.fab.reports ++ [r] } }

theorem State.holdsFor_addReport_heard (s : State) (r : BitVec 1536) (dev x : Nat) :
    ((s.heard x).addReport r).holdsFor dev = s.holdsFor dev := by
  obtain ⟨c, p, y, h⟩ := s.heard_keeps x
  rw [h]
  rfl

section
variable {s : State} {m : Msg} (hr : msgReserved m = false) (hi : s.ignores (msgSender m) = false) (ht : msgType m = 0x20)
include hr hi ht

theorem execMgmtAttestation_answers (nonce : BitVec 256) (hm : s.manages 3 = true) (hop : wfield m.w1 7 0 = 3) :
    execMgmtAttestation m nonce s = .next ((mgmtMsg s.fab.devn 3 0 :: reportFlits (attestation s nonce)).foldl
      (fun t f => t.send (msgSender m) f) ((s.heard (msgSender m)).addReport (attestation s nonce))) := by
  have hreport := attestation_congr (s.heard_fab (msgSender m)) nonce
  unfold execMgmtAttestation
  -- The report stays closed: the kernel would sign it.
  obtain ⟨g, hg⟩ : ∃ g, attestation = g := ⟨_, rfl⟩
  rw [hg] at hreport ⊢
  rw [List.foldl_cons]
  refine mgmtArrival_acts hr hi ht hm hop (reportFlits (g s nonce)) ?_
  rw [hreport]
  rfl

/-- The report follows the answer. -/
theorem mgmtAttestation_reports (nonce : BitVec 256) (hm : s.manages 3 = true) (hop : wfield m.w1 7 0 = 3)
    (hheld : s.holdsFor (msgSender m) = none) : ∃ t, execMgmtAttestation m nonce s = .next t ∧
      t.fab.reports = s.fab.reports ++ [attestation s nonce] ∧
      t.fab.outbox = s.fab.outbox ++
        (msgSender m, mgmtMsg s.fab.devn 3 0) :: (reportFlits (attestation s nonce)).map (fun f => (msgSender m, f)) ∧
      t.cores = (s.heard (msgSender m)).cores ∧ t.ms = s.ms := by
  have hexec := execMgmtAttestation_answers hr hi ht nonce hm hop
  generalize attestation s nonce = r at hexec ⊢
  have hout := foldl_send_outbox (msgSender m) (mgmtMsg s.fab.devn 3 0 :: reportFlits r)
    ((s.holdsFor_addReport_heard r (msgSender m) (msgSender m)).trans hheld)
  obtain ⟨hrep, hcores, hms⟩ :=
    foldl_send_keeps (msgSender m) (mgmtMsg s.fab.devn 3 0 :: reportFlits r) ((s.heard (msgSender m)).addReport r)
  refine ⟨_, hexec, hrep.trans ?_, hout.trans ?_, hcores, hms.trans (s.heard_ms _)⟩
  · rw [State.addReport, State.heard_fab]
  · rw [State.addReport, State.heard_fab]
    rfl

end

/-! ### Restart (20 R424; log entries 24, 39) -/

/-- No core runs, and memory holds nothing. -/
def State.Blank (s : State) : Prop := s.cores = [] ∧ s.ms = {}

theorem sendLost_blank {s : State} (devn e : Nat) (h : s.Blank) : (sendLost devn s e).Blank := by
  unfold sendLost
  dsimp only
  split
  · exact h
  · exact h

theorem restart_blank (s : State) (resume : Bool) (peer : Nat) : (restart s resume peer).Blank := by
  unfold restart
  split
  dsimp -iota only
  split
  rename_i t _ _
  have ht : t.bootUp.Blank := ⟨rfl, rfl⟩
  split
  · exact ht
  · have hflits {l : List Nat} {g : Nat → Msg} {u : State} (hu : u.Blank) : (l.foldl (fun t e => t.send peer (g e)) u).Blank :=
      foldl_keeps (J := State.Blank) (fun _ _ h => h) hu
    split
    · exact hflits ht
    · exact foldl_keeps (J := State.Blank) (fun _ e h => sendLost_blank _ e h) (hflits ht)

theorem readWindow_of_off {s : State} (h : s.windowOn = false) : readWindow s = (s, { good := true, commit := false, list := [] }) := by
  rw [readWindow, if_pos (by rw [h]; rfl)]

theorem State.linkTo_of_quiet {s : State} (dev : Nat) (hu : s.fab.unacked = []) (hd : s.fab.ldown = 0) : s.linkTo dev = some 0 := by
  have hnone : (upto 0 32).find? (fun l => !s.fab.ldown.getLsbD l &&
      (SMap.get [] s.fab.unacked l : List Unacked).any fun u => u.dev == dev) = none :=
    List.find?_eq_none.2 fun l _ => by rw [hu, SMap.get, List.any_nil, Bool.and_false]; exact Bool.false_ne_true
  have hup : (upto 0 32).find? (fun l => !s.fab.ldown.getLsbD l) = some 0 := by
    rw [hd, upto]
    exact List.find?_cons_of_pos (by decide)
  unfold State.linkTo
  dsimp only
  rw [hnone, hup]
  rfl

/-- Where every link is up and nothing waits on one, no message is held. -/
theorem State.holdsFor_of_quiet {s : State} (dev : Nat) (hu : s.fab.unacked = []) (hd : s.fab.ldown = 0) (hp : s.fab.paused = [])
    (hh : s.fab.held = []) : s.holdsFor dev = none := by
  rw [State.holdsFor, State.linkTo_of_quiet dev hu hd, hu, hp, hh]
  exact if_neg (by simp [SMap.get])

/-- Without a window the restart is a boot and an answer. -/
theorem restart_of_windowOff {s : State} (resume : Bool) (peer : Nat) (h : s.windowOn = false) :
    restart s resume peer = { s.bootUp with committed := false }.send peer (mgmtMsg s.fab.devn 4 0) := by
  unfold restart
  rw [readWindow_of_off h]
  cases resume
  · rfl
  · rfl

section
variable {s : State} {m : Msg} (hr : msgReserved m = false) (hi : s.ignores (msgSender m) = false) (ht : msgType m = 0x20)
include hr hi ht

theorem execMgmtRestart_restarts (hm : s.manages 4 = true) (hop : wfield m.w1 7 0 = 4) :
    execMgmtRestart m s = .next (restart s (m.w2.getLsbD 0) (msgSender m)) := by
  rw [execMgmtRestart, if_neg (by rw [hi, ht, hm]; simp), if_neg (by rw [hr]; decide), if_neg (not_not_intro hop)]

theorem mgmtRestart_restarts (hm : s.manages 4 = true) (hop : wfield m.w1 7 0 = 4) :
    ∃ t, execMgmtRestart m s = .next t ∧ t.cores = [] ∧ t.ms = {} ∧
      (s.windowOn = false → t.committed = false ∧ t.fab.outbox = s.fab.outbox ++ [(msgSender m, mgmtMsg s.fab.devn 4 0)]) := by
  obtain ⟨hcores, hms⟩ := restart_blank s (m.w2.getLsbD 0) (msgSender m)
  refine ⟨_, execMgmtRestart_restarts hr hi ht hm hop, hcores, hms, fun hw => ?_⟩
  rw [restart_of_windowOff _ _ hw]
  exact ⟨rfl, State.send_outbox { s.bootUp with committed := false } _ _ (State.holdsFor_of_quiet _ rfl rfl rfl rfl)⟩

end

end Sys2Proof.Machine
end

section
/-! PROOFS. The obligation on the messages of the fabric. -/

namespace Sys2Proof.Proofs.ExecutionModel

open Sys2Proof.Machine

/-- Settles O59: a message acts once its sender has been heard (`fabricArrival_acts`, `mgmtArrival_acts`), which leaves memory and the
fabric (`State.heard_keeps`). -/
theorem fabricMessages : Obligations.FabricMessages := by
  unfold Obligations.FabricMessages
  intro s m hr x h
  refine ⟨?ignored, ?heard, fun hi => ⟨fun hs => ⟨?launch, ?complete, ?lost, ?fault⟩, fun ht => ⟨?read, ?none, ?write, ?attest, ?restart,
    ?status⟩, ?unknown⟩⟩
  case ignored =>
    intro hi
    exact ⟨fun link => execLaunch_ignored link hi, execComplete_ignored hi, execFault_ignored hi⟩
  case heard => exact ⟨s.heard_ms x, s.heard_fab x, s.heard_stranger x⟩
  case launch =>
    intro link ht n r q a
    exact execLaunch_appends hr hi hs ht (Prod.mk.eta (p := r)).symm (Prod.mk.eta (p := q)).symm (Prod.mk.eta (p := a)).symm
  case complete => exact fun ht hen hroom => complete_enters hr hi hs ht hen hroom
  case lost => exact fun ht hen hfull => execComplete_lost hr hi hs ht hen hfull
  case fault => exact fun l u ht hcause hu hst hch => fault_delivers hr hi hs ht hcause hu hst hch
  case read => exact fun hm hop hreg t hc => execMgmtRegisterRead_of_allowed hr hi ht hm hop hreg hc
  case none => exact fun hm hop hreg => execMgmtRegisterRead_of_no_register hr hi ht hm hop hreg
  case write => exact fun hm hop hreg t ok hc => execMgmtRegisterWrite_of_register hr hi ht hm hop hreg hc
  case attest => exact fun nonce hm hop hheld => mgmtAttestation_reports hr hi ht nonce hm hop hheld
  case restart => exact fun hm hop => mgmtRestart_restarts hr hi ht hm hop
  case status => exact fun hm hop => execMgmtStatus_answers hr hi ht hm hop
  case unknown => exact fun hs hk => execUnknownMessageType_answers hi hs hk

end Sys2Proof.Proofs.ExecutionModel
end

section
/-! PROOFS. Words lane by lane and bit by bit: saturation, packed lanes, bit fields, counts and reversals (10 R257, R258, R260). -/

namespace Sys2Proof.Machine

/-! ### Saturation (10 R257) -/

theorem toInt_satWord (x : Int) : (satWord x).toInt = max (-2 ^ 63) (min (2 ^ 63 - 1) x) := by
  have hmax : maxInt 64 true = 2 ^ 63 - 1 := rfl
  have hmin : minInt 64 true = -2 ^ 63 := rfl
  rw [satWord, hmax, hmin]
  split_ifs <;> (rw [BitVec.toInt_ofInt_eq_self] <;> omega)

/-! ### Packed lanes (10 R257, R258) -/

section
variable {w x n : Nat} {f : Nat → Nat → Nat} (hf : ∀ i, f i (field x (w * i) w) < 2 ^ w)
include hf

theorem mapLanes_lt : mapLanes w x f n < 2 ^ (w * n) := by
  induction n with
  | zero => exact Nat.two_pow_pos _
  | succ n ih =>
    rw [mapLanes, Nat.shiftLeft_eq, Nat.add_comm, Nat.mul_add_one, Nat.pow_add, Nat.mul_comm (2 ^ (w * n))]
    calc f n (field x (w * n) w) * 2 ^ (w * n) + mapLanes w x f n
        < (f n (field x (w * n) w) + 1) * 2 ^ (w * n) := by rw [Nat.add_one_mul]; omega
      _ ≤ 2 ^ w * 2 ^ (w * n) := Nat.mul_le_mul_right _ (hf n)

/-- Bit `j` of lane `i`. -/
theorem testBit_mapLanes {i j : Nat} (hi : i < n) (hj : j < w) :
    (mapLanes w x f n).testBit (w * i + j) = (f i (field x (w * i) w)).testBit j := by
  induction n with
  | zero => exact absurd hi (Nat.not_lt_zero i)
  | succ n ih =>
    rw [mapLanes, Nat.shiftLeft_eq, Nat.add_comm, Nat.mul_comm (f n _), Nat.testBit_two_pow_mul_add _ (mapLanes_lt hf)]
    rcases Nat.lt_succ_iff_lt_or_eq.1 hi with hlt | rfl
    · have hle : w * (i + 1) ≤ w * n := Nat.mul_le_mul_left w hlt
      rw [Nat.mul_add_one] at hle
      rw [if_pos (by omega), ih hlt]
    · rw [if_neg (by omega), Nat.add_sub_cancel_left]

/-- A lane of a word that is made lane by lane. -/
theorem extractLsb'_mapLanes {i : Nat} (hi : i < n) (hn : w * n ≤ 64) :
    (BitVec.ofNat 64 (mapLanes w x f n)).extractLsb' (w * i) w = BitVec.ofNat w (f i (field x (w * i) w)) := by
  refine BitVec.eq_of_getLsbD_eq fun j hj => ?_
  have hle : w * (i + 1) ≤ w * n := Nat.mul_le_mul_left w hi
  rw [Nat.mul_add_one] at hle
  rw [BitVec.getLsbD_extractLsb', BitVec.getLsbD_ofNat, BitVec.getLsbD_ofNat, testBit_mapLanes hf hi hj,
    decide_eq_true (show w * i + j < 64 by omega), Bool.true_and]

end

theorem field_lt (x lo len : Nat) : field x lo len < 2 ^ len := Nat.mod_lt _ (Nat.two_pow_pos len)

theorem ofInt_lt (n : Nat) (x : Int) : ofInt n x < 2 ^ n := by
  have hpos : (0 : Int) < ((2 ^ n : Nat) : Int) := by positivity
  have hlt := Int.emod_lt_of_pos x hpos
  have hge := Int.emod_nonneg x hpos.ne'
  rw [ofInt]
  omega

theorem shiftLane_lt (kd : ShiftKind) {x w : Nat} (n : Nat) (hx : x < 2 ^ w) : shiftLane kd x n w < 2 ^ w := by
  have hpos := Nat.two_pow_pos w
  cases kd with
  | shl => rw [shiftLane, pow2_eq]; split; exacts [hpos, Nat.mod_lt _ hpos]
  | shr => rw [shiftLane]; split; exacts [hpos, (Nat.shiftRight_le x n).trans_lt hx]
  | sar => rw [shiftLane, pow2_eq]; split; exacts [by split <;> omega, ofInt_lt ..]

/-- A lane shifted left. -/
theorem ofNat_shiftLane_shl {w : Nat} (x : BitVec w) (n : Nat) : BitVec.ofNat w (shiftLane .shl x.toNat n w) = x <<< n := by
  rw [shiftLane, pow2_eq]
  split
  case isTrue h => exact (BitVec.shiftLeft_eq_zero h).symm
  case isFalse h =>
    apply BitVec.eq_of_toNat_eq
    rw [BitVec.toNat_ofNat, BitVec.toNat_shiftLeft, Nat.mod_mod]

theorem ofNat_shiftLane_shr {w : Nat} (x : BitVec w) (n : Nat) : BitVec.ofNat w (shiftLane .shr x.toNat n w) = x >>> n := by
  rw [shiftLane]
  split
  case isTrue h => exact (BitVec.ushiftRight_eq_zero h).symm
  case isFalse h =>
    apply BitVec.eq_of_toNat_eq
    rw [BitVec.toNat_ofNat, ← BitVec.toNat_ushiftRight, Nat.mod_eq_of_lt (BitVec.isLt _)]

theorem ofNat_ofInt (n : Nat) (x : Int) : BitVec.ofNat n (ofInt n x) = BitVec.ofInt n x := by
  apply BitVec.eq_of_toNat_eq
  rw [BitVec.toNat_ofNat, Nat.mod_eq_of_lt (ofInt_lt n x), BitVec.toNat_ofInt]
  rfl

theorem sint_toNat {w : Nat} (x : BitVec w) : sint w x.toNat = x.toInt := by
  rw [sint_eq_toInt, BitVec.ofNat_toNat, BitVec.setWidth_eq]

/-- A lane shifted right with its sign: at its width and above only copies of the sign are left. -/
theorem ofNat_shiftLane_sar {w : Nat} (x : BitVec w) (n : Nat) : BitVec.ofNat w (shiftLane .sar x.toNat n w) = x.sshiftRight n := by
  rw [shiftLane, pow2_eq]
  split
  case isTrue h =>
    refine BitVec.eq_of_getLsbD_eq fun i hi => ?_
    have hmsb : x.toNat.testBit (w - 1) = x.msb := (BitVec.msb_eq_getLsbD_last x).symm
    have hsign : (x.sshiftRight n).getLsbD i = x.msb := by
      rw [BitVec.getLsbD_sshiftRight, if_neg (show ¬ n + i < w by omega), decide_eq_false (show ¬ w ≤ i by omega), Bool.not_false,
        Bool.true_and]
    rw [BitVec.getLsbD_ofNat, hmsb, hsign, decide_eq_true hi, Bool.true_and]
    cases x.msb
    · exact Nat.zero_testBit i
    · rw [if_pos rfl, Nat.testBit_two_pow_sub_one, decide_eq_true hi]
  case isFalse h => rw [ofNat_ofInt, sint_toNat, BitVec.sshiftRight]

section
variable {w i : Nat} (hi : i < 64 / w) (a b : Word)
include hi

theorem extractLsb'_shiftWord (kd : ShiftKind) : (shiftWord kd w a b).extractLsb' (w * i) w =
    BitVec.ofNat w (shiftLane kd (a.extractLsb' (w * i) w).toNat b.toNat w) :=
  extractLsb'_mapLanes (fun _ => shiftLane_lt kd _ (field_lt ..)) hi (Nat.mul_div_le 64 w)

theorem extractLsb'_addLanes : (addLanes w a b).extractLsb' (w * i) w = a.extractLsb' (w * i) w + b.extractLsb' (w * i) w := by
  rw [addLanes, extractLsb'_mapLanes (fun i => by rw [pow2_eq]; exact Nat.mod_lt _ (Nat.two_pow_pos w)) hi (Nat.mul_div_le 64 w), pow2_eq]
  apply BitVec.eq_of_toNat_eq
  rw [BitVec.toNat_ofNat, BitVec.toNat_add, Nat.mod_mod]
  rfl

end

/-! ### Bit fields (10 R260) -/

section
variable (a b c : Word) (i : Nat)

theorem testBit_field (x lo len : Nat) : (field x lo len).testBit i = (decide (i < len) && x.testBit (lo + i)) := by
  rw [field, Nat.testBit_mod_two_pow, Nat.testBit_shiftRight]

variable {i} (hi : i < 64)
include hi

theorem getLsbD_bitExtract : (bitExtract a b).getLsbD i = (decide (i < fieldLen b) && a.getLsbD (fieldPos b + i)) := by
  rw [bitExtract, BitVec.getLsbD_ofNat, testBit_field, decide_eq_true hi, Bool.true_and]
  rfl

theorem getLsbD_bitInsert : (bitInsert a b c).getLsbD i =
    if fieldPos b ≤ i ∧ i < fieldPos b + fieldLen b then a.getLsbD (i - fieldPos b) else c.getLsbD i := by
  have hmask : (BitVec.ofNat 64 ((pow2 (fieldLen b) - 1) <<< fieldPos b)).getLsbD i =
      decide (fieldPos b ≤ i ∧ i < fieldPos b + fieldLen b) := by
    rw [BitVec.getLsbD_ofNat, pow2_eq, Nat.testBit_shiftLeft, Nat.testBit_two_pow_sub_one, decide_eq_true hi, Bool.true_and,
      ← Bool.decide_and]
    exact decide_eq_decide.2 (by omega)
  have hval : (BitVec.ofNat 64 (a.toNat <<< fieldPos b)).getLsbD i = (decide (fieldPos b ≤ i) && a.getLsbD (i - fieldPos b)) := by
    rw [BitVec.getLsbD_ofNat, Nat.testBit_shiftLeft, decide_eq_true hi, Bool.true_and]
    rfl
  rw [bitInsert, BitVec.getLsbD_or, BitVec.getLsbD_and, BitVec.getLsbD_and, BitVec.getLsbD_not, hmask, hval, decide_eq_true hi]
  split
  case isTrue h => simp [h]
  case isFalse h => simp [h]

/-- The sign of an extracted field is its highest bit. -/
theorem getLsbD_bitExtractS : (bitExtractS a b).getLsbD i =
    if i < fieldLen b then a.getLsbD (fieldPos b + i) else decide (0 < fieldLen b) && a.getLsbD (fieldPos b + (fieldLen b - 1)) := by
  rw [bitExtractS]
  split
  case isTrue h => simp [h]
  case isFalse h =>
    have hsign : sextWord (fieldLen b) (field a.toNat (fieldPos b) (fieldLen b)) = (a.extractLsb' (fieldPos b) (fieldLen b)).signExtend 64 :=
      congrArg (BitVec.ofInt 64) (sint_toNat (a.extractLsb' (fieldPos b) (fieldLen b)))
    have hpos : 0 < fieldLen b := Nat.pos_of_ne_zero h
    rw [hsign, BitVec.getLsbD_signExtend, BitVec.msb_eq_getLsbD_last, BitVec.getLsbD_extractLsb', BitVec.getLsbD_extractLsb',
      decide_eq_true hi, decide_eq_true (show fieldLen b - 1 < fieldLen b by omega), decide_eq_true hpos]
    split
    case isTrue hlt => simp [hlt]
    case isFalse hge => simp

/-- Byte `q` of a word comes from byte `7 - q`. -/
theorem getLsbD_byteSwap : (byteSwap a).getLsbD i = a.getLsbD (8 * (7 - i / 8) + i % 8) := by
  have hbit := testBit_mapLanes (w := 8) (x := 0) (n := 8) (f := fun i _ => field a.toNat (8 * (7 - i)) 8) (fun _ => field_lt ..)
    (show i / 8 < 8 by omega) (show i % 8 < 8 by omega)
  rw [Nat.div_add_mod, testBit_field, decide_eq_true (show i % 8 < 8 by omega), Bool.true_and] at hbit
  rw [byteSwap, BitVec.getLsbD_ofNat, decide_eq_true hi, Bool.true_and, hbit]
  rfl

end

/-! ### Counts (10 R260) -/

theorem upto_succ_last (a n : Nat) : upto a (n + 1) = upto a n ++ [a + n] := by
  induction n generalizing a with
  | zero => rfl
  | succ n ih => rw [upto, ih, upto, List.cons_append, Nat.add_right_comm, Nat.add_assoc]

theorem popcount_eq_length (x n : Nat) : popcount x n = ((upto 0 n).filter x.testBit).length := by
  induction n with
  | zero => rfl
  | succ n ih =>
    rw [popcount, ih, upto_succ_last, List.filter_append, List.length_append, Nat.add_comm, Nat.zero_add]
    cases h : x.testBit n <;> simp [b2n, h]

/-- Above the highest one of the low `n` bits there are zeros alone. -/
theorem leadZeros_spec (x n : Nat) : leadZeros x n ≤ n ∧ (∀ i, n - leadZeros x n ≤ i → i < n → x.testBit i = false) ∧
    (leadZeros x n < n → x.testBit (n - 1 - leadZeros x n) = true) := by
  induction n with
  | zero => exact ⟨le_rfl, fun i _ hi => absurd hi (Nat.not_lt_zero i), fun h => absurd h (Nat.not_lt_zero _)⟩
  | succ n ih =>
    obtain ⟨hle, hzero, hone⟩ := ih
    rw [leadZeros]
    split
    case isTrue h => exact ⟨Nat.zero_le _, fun i hlo hi => by omega, fun _ => h⟩
    case isFalse h =>
      refine ⟨by omega, fun i hlo hi => ?_, fun hlt => ?_⟩
      · rcases Nat.lt_succ_iff_lt_or_eq.1 hi with hlt | rfl
        · exact hzero i (by omega) hlt
        · exact Bool.eq_false_of_not_eq_true h
      · rw [show n + 1 - 1 - (1 + leadZeros x n) = n - 1 - leadZeros x n by omega]
        exact hone (by omega)

/-- Below the lowest one of the `n` bits from bit `i` on there are zeros alone. -/
theorem trailZeros_spec (x i n : Nat) : trailZeros x i n ≤ n ∧ (∀ j < trailZeros x i n, x.testBit (i + j) = false) ∧
    (trailZeros x i n < n → x.testBit (i + trailZeros x i n) = true) := by
  induction n generalizing i with
  | zero => exact ⟨le_rfl, fun j hj => absurd hj (Nat.not_lt_zero j), fun h => absurd h (Nat.not_lt_zero _)⟩
  | succ n ih =>
    obtain ⟨hle, hzero, hone⟩ := ih (i + 1)
    rw [trailZeros]
    split
    case isTrue h => exact ⟨Nat.zero_le _, fun j hj => absurd hj (Nat.not_lt_zero j), fun _ => h⟩
    case isFalse h =>
      refine ⟨by omega, fun j hj => ?_, fun hlt => ?_⟩
      · cases j with
        | zero => exact Bool.eq_false_of_not_eq_true h
        | succ j =>
          rw [← Nat.add_assoc, Nat.add_right_comm]
          exact hzero j (by omega)
      · rw [← Nat.add_assoc]
        exact hone (by omega)

section
variable (a : Word)

theorem getLsbD_of_leadZeros {i : Nat} (hi : 64 - leadZeros a.toNat 64 ≤ i) : a.getLsbD i = false := by
  obtain ⟨-, hzero, -⟩ := leadZeros_spec a.toNat 64
  rcases Nat.lt_or_ge i 64 with hlt | hge
  · exact hzero i hi hlt
  · exact BitVec.getLsbD_of_ge a i hge

theorem getLsbD_of_trailZeros {i : Nat} (hi : i < trailZeros a.toNat 0 64) : a.getLsbD i = false := by
  obtain ⟨-, hzero, -⟩ := trailZeros_spec a.toNat 0 64
  exact (congrArg a.toNat.testBit (Nat.zero_add i)).symm.trans (hzero i hi)

theorem counts_zero : leadZeros (0 : Word).toNat 64 = 64 ∧ trailZeros (0 : Word).toNat 0 64 = 64 := by decide

variable {a} (ha : a ≠ 0)
include ha

theorem getLsbD_leadZeros : leadZeros a.toNat 64 < 64 ∧ a.getLsbD (63 - leadZeros a.toNat 64) = true := by
  obtain ⟨hle, hzero, hone⟩ := leadZeros_spec a.toNat 64
  have hlt : leadZeros a.toNat 64 < 64 := by
    refine lt_of_le_of_ne hle fun h => ha (BitVec.eq_of_getLsbD_eq fun i hi => ?_)
    exact (hzero i (by omega) hi).trans BitVec.getLsbD_zero.symm
  exact ⟨hlt, hone hlt⟩

theorem getLsbD_trailZeros : trailZeros a.toNat 0 64 < 64 ∧ a.getLsbD (trailZeros a.toNat 0 64) = true := by
  obtain ⟨hle, -, hone⟩ := trailZeros_spec a.toNat 0 64
  have hlt : trailZeros a.toNat 0 64 < 64 := by
    refine lt_of_le_of_ne hle fun h => ha (BitVec.eq_of_getLsbD_eq fun i hi => ?_)
    exact (getLsbD_of_trailZeros a (by omega)).trans BitVec.getLsbD_zero.symm
  exact ⟨hlt, (congrArg a.toNat.testBit (Nat.zero_add _)).symm.trans (hone hlt)⟩

end

end Sys2Proof.Machine
end

section
/-! PROOFS. The integer operations as they pass: comparisons, carries, products and quotients (10 R257, R259), and where `ix1` and the
second ALU write them (10 R256; 07 R195). -/

namespace Sys2Proof.Machine

/-! ### Comparisons and carries (10 R257) -/

theorem boolWord_decide (p : Prop) [Decidable p] : boolWord (decide p) = if p then 1 else 0 := by
  by_cases h : p <;> simp [boolWord, h]

theorem aluCne_eq (a b : Word) : aluCne a b = if a = b then 0 else 1 := by
  rw [aluCne, boolWord_decide, ite_not]

theorem carryOut_eq (a b : Word) : carryOut a b = if 2 ^ 64 ≤ a.toNat + b.toNat then 1 else 0 := by
  rw [carryOut, boolWord_decide, pow2_eq]

/-! ### Products and quotients (10 R259) -/

/-- The count of the model's shift is an integer or a natural number as its file is read; `Int.shiftRight` is what both mean. -/
theorem mulHigh_eq (a b : Word) : mulHigh a b = BitVec.ofInt 64 (a.toInt * b.toInt / 2 ^ 64) := by
  have hshift : mulHigh a b = BitVec.ofInt 64 ((a.toInt * b.toInt).shiftRight 64) := by
    rw [mulHigh]
    cases a.toInt * b.toInt <;> rfl
  exact hshift.trans (congrArg (BitVec.ofInt 64) (Int.shiftRight_eq_div_pow _ 64))

theorem muluHigh_eq (a b : Word) : muluHigh a b = BitVec.ofNat 64 (a.toNat * b.toNat / 2 ^ 64) := by
  rw [muluHigh, Nat.shiftRight_eq_div_pow]

theorem divWord_eq (a b : Word) : divWord a b = if b = 0 then BitVec.allOnes 64 else a.sdiv b := by
  have h : BitVec.ofInt 64 (a.toInt.tdiv b.toInt) = a.sdiv b := by
    apply BitVec.eq_of_toInt_eq
    rw [BitVec.toInt_ofInt, BitVec.toInt_sdiv]
  rw [divWord, h]

theorem divuWord_eq (a b : Word) : divuWord a b = if b = 0 then BitVec.allOnes 64 else a / b := by
  have h : BitVec.ofNat 64 (a.toNat / b.toNat) = a / b := by rw [← BitVec.toNat_udiv, BitVec.ofNat_toNat, BitVec.setWidth_eq]
  rw [divuWord, h]

theorem remWord_eq (a b : Word) : remWord a b = if b = 0 then a else a.srem b := by
  have h : BitVec.ofInt 64 (a.toInt.tmod b.toInt) = a.srem b := by rw [← BitVec.toInt_srem, BitVec.ofInt_toInt]
  rw [remWord, h]

theorem remuWord_eq (a b : Word) : remuWord a b = if b = 0 then a else a % b := by
  have h : BitVec.ofNat 64 (a.toNat % b.toNat) = a % b := by rw [← BitVec.toNat_umod, BitVec.ofNat_toNat, BitVec.setWidth_eq]
  rw [remuWord, h]

/-! ### Where results go (10 R256; 07 R192, R195) -/

/-- A result is one write of its port, visible after the latency of its class. -/
theorem Core.result_wrote {c : Core} {sl : Slot} {r : Bool} (h : c.FirstAt sl (.rport sl.num r)) (cls : Nat) (v : Vec) :
    c.Wrote (.rport sl.num r) .put v (c.la cls) (c.result sl r cls v) := Core.write_wrote c sl _ _ _ _ h

section
variable {s : State} {g : Guard} {src : Src} (hok : s.Ok)
include hok

theorem ix1One_delivers (hp : s.Passes .s1 g src) (hr : s.me.FirstAt .s1 (.rport 1 false)) (cls : Nat) (f : Word → Word → Word → Word) :
    ∃ c', s.me.pop.Wrote (.rport 1 false) .put ((f (s.word .s1 src) (s.me.portW .s1 0) (s.me.portW .s1 1)).setWidth 1024) (s.me.la cls) c' ∧
      ix1One s g src cls f = .next (s.setCore s.curCore c') :=
  ⟨_, Core.result_wrote (c := s.me.pop) (sl := .s1) hr cls _, regTrigger_passes hp rfl hok⟩

theorem ix1Two_delivers (hp : s.Passes .s1 g src) (hr : s.me.FirstAt .s1 (.rport 1 false)) (hs : s.me.FirstAt .s1 (.rport 1 true))
    (cls : Nat) (f h : Word → Word → Word) :
    ∃ c1 c2, s.me.pop.Wrote (.rport 1 false) .put ((f (s.word .s1 src) (s.me.portW .s1 0)).setWidth 1024) (s.me.la cls) c1 ∧
      c1.Wrote (.rport 1 true) .put ((h (s.word .s1 src) (s.me.portW .s1 0)).setWidth 1024) (s.me.la cls) c2 ∧
      ix1Two s g src cls f h = .next (s.setCore s.curCore c2) := by
  have hs' : s.me.pop.FirstAt .s1 (.rport 1 true) := hs
  exact ⟨_, _, Core.result_wrote (c := s.me.pop) (sl := .s1) hr cls _, Core.result_wrote (sl := .s1) (hs'.write (.inl le_rfl) hr) cls _,
    regTrigger_passes hp rfl hok⟩

theorem sfx5Alu_delivers (hp : s.Passes .s5 g src) (hs : s.me.FirstAt .s5 (.rport 5 true)) (f : Word → Word → Word) :
    ∃ c', s.me.pop.Wrote (.rport 5 true) .put ((f ((s.value .s5 src .vector).setWidth 64) (s.me.portW .s5 2)).setWidth 1024) (s.me.la 0) c' ∧
      sfx5Alu s g src f = .next (s.setCore s.curCore c') :=
  ⟨_, Core.result_wrote (c := s.me.pop) (sl := .s5) hs 0 _, regTrigger_passes hp rfl hok⟩

end

/-! ### The instructions -/

section
variable (g : Guard) (src : Src) (s : State)

/-- Operations of `ix1` with functions that agree are one operation. -/
theorem ix1One_congr {cls : Nat} {f h : Word → Word → Word} (hfh : ∀ a b, f a b = h a b) :
    ix1One s g src cls (fun a b _ => f a b) = ix1One s g src cls fun a b _ => h a b :=
  congrArg (ix1One s g src cls) (funext fun a => funext fun b => funext fun _ => hfh a b)

theorem ix1Two_congr {cls : Nat} {f h f' h' : Word → Word → Word} (hf : ∀ a b, f a b = f' a b) (hh : ∀ a b, h a b = h' a b) :
    ix1Two s g src cls f h = ix1Two s g src cls f' h' :=
  congrArg₂ (ix1Two s g src cls) (funext fun a => funext (hf a)) (funext fun a => funext (hh a))

theorem sfx5Alu_congr {f h : Word → Word → Word} (hfh : ∀ a b, f a b = h a b) : sfx5Alu s g src f = sfx5Alu s g src h :=
  congrArg (sfx5Alu s g src) (funext fun a => funext (hfh a))

/-- Each operation of `ix1` with one result is its row of `ix1Single`. -/
theorem exec_ix1Single : ∀ e ∈ ix1Single, exec (e.1 g src) s = ix1One s g src e.2.1 e.2.2 := by
  simp only [-reduceCtorEq, ix1Single, List.forall_mem_append, List.forall_mem_cons]
  refine ⟨⟨⟨rfl, rfl, rfl, rfl, rfl, rfl, rfl, rfl, rfl, rfl, rfl, ?clts, ?cltu, ?ceq, ?cne, ?cles, ?cleu, List.forall_mem_nil _⟩,
    rfl, rfl, rfl, rfl, rfl, rfl, rfl, rfl, rfl, rfl, rfl, rfl, rfl, rfl, rfl, List.forall_mem_nil _⟩,
    ?div, ?divu, ?rem, ?remu, rfl, rfl, rfl, rfl, rfl, rfl, rfl, rfl, List.forall_mem_nil _⟩
  case clts => exact ix1One_congr g src s fun _ _ => boolWord_decide _
  case cltu => exact ix1One_congr g src s fun _ _ => boolWord_decide _
  case ceq => exact ix1One_congr g src s fun _ _ => boolWord_decide _
  case cne => exact ix1One_congr g src s aluCne_eq
  case cles => exact ix1One_congr g src s fun _ _ => boolWord_decide _
  case cleu => exact ix1One_congr g src s fun _ _ => boolWord_decide _
  case div => exact ix1One_congr g src s divWord_eq
  case divu => exact ix1One_congr g src s divuWord_eq
  case rem => exact ix1One_congr g src s remWord_eq
  case remu => exact ix1One_congr g src s remuWord_eq

/-- Each operation of `ix1` with two results is its row of `ix1Double`. -/
theorem exec_ix1Double : ∀ e ∈ ix1Double, exec (e.1 g src) s = ix1Two s g src e.2.1 e.2.2.1 e.2.2.2 := by
  simp only [-reduceCtorEq, ix1Double, List.forall_mem_cons]
  refine ⟨?add, ?sub, ?mul, ?mulu, List.forall_mem_nil _⟩
  case add => exact ix1Two_congr g src s (fun _ _ => rfl) carryOut_eq
  case sub => exact ix1Two_congr g src s (fun _ _ => rfl) fun _ _ => boolWord_decide _
  case mul => exact ix1Two_congr g src s (fun _ _ => rfl) mulHigh_eq
  case mulu => exact ix1Two_congr g src s (fun _ _ => rfl) muluHigh_eq

/-- Each operation of the second ALU is its row of `sfx5Single`. -/
theorem exec_sfx5Single : ∀ e ∈ sfx5Single, exec (e.1 g src) s = sfx5Alu s g src e.2 := by
  simp only [-reduceCtorEq, sfx5Single, List.forall_mem_append, List.forall_mem_cons]
  refine ⟨⟨rfl, rfl, rfl, rfl, rfl, rfl, rfl, rfl, rfl, rfl, rfl, rfl, rfl, ?clts, ?cltu, ?ceq, ?cne, ?cles, ?cleu, List.forall_mem_nil _⟩,
    rfl, rfl, rfl, rfl, rfl, rfl, rfl, rfl, rfl, rfl, rfl, rfl, rfl, rfl, rfl, List.forall_mem_nil _⟩
  case clts => exact sfx5Alu_congr g src s fun _ _ => boolWord_decide _
  case cltu => exact sfx5Alu_congr g src s fun _ _ => boolWord_decide _
  case ceq => exact sfx5Alu_congr g src s fun _ _ => boolWord_decide _
  case cne => exact sfx5Alu_congr g src s aluCne_eq
  case cles => exact sfx5Alu_congr g src s fun _ _ => boolWord_decide _
  case cleu => exact sfx5Alu_congr g src s fun _ _ => boolWord_decide _

end

end Sys2Proof.Machine
end

section
/-! PROOFS. The obligations on the integer units. -/

namespace Sys2Proof.Proofs.ScalarControl

open Sys2Proof.Machine

/-- Settles O14: each operation is its row of `ix1Single` (`exec_ix1Single`), whose result is one write (`ix1One_delivers`). -/
theorem integerSingleResult : Obligations.IntegerSingleResult := by
  unfold Obligations.IntegerSingleResult
  intro e he g src s hok hp hr
  rw [exec_ix1Single g src s e he]
  exact ix1One_delivers hok hp hr e.2.1 e.2.2

/-- Settles O15: the two results of `ix1` are two writes (`ix1Two_delivers`), that of the second ALU is one (`sfx5Alu_delivers`). -/
theorem integerPairResult : Obligations.IntegerPairResult := by
  unfold Obligations.IntegerPairResult
  refine ⟨fun e he g src s hok hp hr hs => ?pair, fun e he g src s hok hp hs => ?alu⟩
  case pair =>
    rw [exec_ix1Double g src s e he]
    exact ix1Two_delivers hok hp hr hs e.2.1 e.2.2.1 e.2.2.2
  case alu =>
    rw [exec_sfx5Single g src s e he]
    exact sfx5Alu_delivers hok hp hs e.2

/-- Settles O16: a lane of a packed result is the lane of `shiftLane` or of the sum (`extractLsb'_mapLanes`), each field and reversal is read
bit by bit, and the counts by what `leadZeros_spec` and `trailZeros_spec` say of the bits around them. -/
theorem packedAndFields : Obligations.PackedAndFields := by
  unfold Obligations.PackedAndFields
  refine ⟨toInt_satWord, fun a b w _ i hi => ?lanes, fun a b c i hi => ?fields, fun a => ?counts⟩
  case lanes =>
    intro x
    refine ⟨extractLsb'_addLanes hi a b, ?_, ?_, ?_⟩
    · rw [extractLsb'_shiftWord hi, ofNat_shiftLane_shl]
    · rw [extractLsb'_shiftWord hi, ofNat_shiftLane_shr]
    · rw [extractLsb'_shiftWord hi, ofNat_shiftLane_sar]
  case fields =>
    exact ⟨getLsbD_bitExtract a b hi, getLsbD_bitInsert a b c hi, getLsbD_byteSwap a hi, getLsbD_bitExtractS a b hi,
      popcount_eq_length a.toNat 64⟩
  case counts =>
    refine ⟨?_, fun ha => ?_, fun i => getLsbD_of_leadZeros a, fun i => getLsbD_of_trailZeros a⟩
    · rintro rfl
      exact counts_zero
    · obtain ⟨hz, hlead⟩ := getLsbD_leadZeros ha
      obtain ⟨ht, htrail⟩ := getLsbD_trailZeros ha
      exact ⟨hz, ht, hlead, htrail⟩

end Sys2Proof.Proofs.ScalarControl
end

section
/-! PROOFS. Operations of `ctl` that pass: the operand that breaks a limit faults, and without one the core changes (10 R265, R266,
R271, R272; 18 R382). -/

namespace Sys2Proof.Machine

/-! ### Fields of operands -/

theorem extractLsb'_eq_iff (w : Word) (lo len : Nat) {n : Nat} (h : n < 2 ^ len) :
    w.extractLsb' lo len = BitVec.ofNat len n ↔ field w.toNat lo len = n := by
  rw [← BitVec.toNat_inj, BitVec.toNat_ofNat, Nat.mod_eq_of_lt h]
  rfl

/-- A reserved field of an operand is not 0. -/
theorem wfield_ne_zero_iff (w : Word) (hi lo : Nat) : wfield w hi lo ≠ 0 ↔ w.extractLsb' lo (hi + 1 - lo) ≠ 0 :=
  not_congr (extractLsb'_eq_iff w lo _ (Nat.two_pow_pos _)).symm

theorem wfield_top_ne_zero_iff (w : Word) {lo : Nat} (h : lo ≤ 63) : wfield w 63 lo ≠ 0 ↔ 2 ^ lo ≤ w.toNat := by
  rw [wfield_top w h, Nat.div_ne_zero_iff]
  exact and_iff_right (Nat.two_pow_pos lo).ne'

theorem Core.ranging_iff (c : Core) : c.ranging = true ↔ c.seq.lv ≠ 0 := bne_iff_ne

/-- What a trigger of a 64-bit port does where its parcel passes, from the state in which the parcel is done. -/
theorem trigger_popped {s : State} {g : Guard} {src : Src} {need : Core → Bool} {act : State → Nat → Core → Vec → State}
    (hp : s.Passes .s0 g src) (hn : need s.me = true) :
    trigger s .s0 .scalar g src need act = .next (act s.popped s.curCore s.me.pop (s.value .s0 src .scalar)) :=
  trigger_passes (reads := fun _ => []) hp hn

theorem ctlOperand_popped (s : State) (w : Word) : ctlOperand s.popped s.curCore w = s.faults .s0 0x04 w.toNat 0 :=
  moveFault_popped s ..

/-- An outcome with one of two states. -/
theorem next_of_ite {o : Out} {p : Prop} [Decidable p] {t u : State} (h : o = .next (if p then t else u)) :
    if p then o = .next t else o = .next u := by
  rw [h]
  split <;> rfl

/-- Two operands that may fault, and otherwise one write of the core. -/
theorem write_of_ite {o : Out} {s : State} {p q : Prop} [Decidable p] [Decidable q] {t u : State} {l : Loc} {v : Vec}
    (h : o = .next (if p then t else if q then u else s.after fun c => c.write .s0 l .put v 1)) :
    if p then o = .next t
    else if q then o = .next u
    else s.me.FirstAt .s0 l → ∃ c', s.me.pop.Wrote l .put v 1 c' ∧ o = .next (s.setCore s.curCore c') := by
  rw [h]
  split
  · rfl
  · split
    · rfl
    · exact fun hf => ⟨_, Core.write_wrote s.me.pop .s0 _ _ _ _ hf, rfl⟩

/-! ### Operations with a check of their operands -/

/-- The common form of `ctlWrite`, which waits for nothing, and `ctlHeld`, which waits for room in the block store buffer. -/
def ctlChecked (need : Core → Bool) (s : State) (g : Guard) (src : Src) (bad : Core → Word → Option Word) (act : Core → Word → Core) : Out :=
  trigger s .s0 .scalar g src need fun s k c v =>
    match bad c (opWord v) with
    | some w => ctlOperand s k w
    | none => s.setCore k (act c (opWord v))

/-- What such an operation does where its parcel passes: `bad` is the operand that breaks a limit. -/
def State.checked (s : State) (bad : Option Word) (act : Core → Core) : State :=
  bad.elim (s.after act) fun w => s.faults .s0 0x04 w.toNat 0

section
variable {s : State} {act : Core → Core}

theorem State.checked_ite (p : Prop) [Decidable p] (w : Word) (rest : Option Word) : s.checked (if p then some w else rest) act =
    if p then s.faults .s0 0x04 w.toNat 0 else s.checked rest act :=
  apply_ite (s.checked · act) p (some w) rest

end

section
variable {s : State} {g : Guard} {src : Src} {bad : Core → Word → Option Word} {act : Core → Word → Core} (hok : s.Ok)
  (hp : s.Passes .s0 g src)
include hok hp

theorem ctlChecked_passes {need : Core → Bool} (hn : need s.me = true) : ctlChecked need s g src bad act =
    .next (s.checked (bad s.me.pop (s.word .s0 src)) fun c => act c (s.word .s0 src)) := by
  rw [ctlChecked, trigger_popped hp hn, State.checked, State.word, opWord]
  cases bad s.me.pop ((s.value .s0 src .scalar).setWidth 64) with
  | some w => exact congrArg _ (ctlOperand_popped s w)
  | none => exact congrArg _ (State.setCore_popped_self hok fun c => act c (s.word .s0 src))

theorem ctlWrite_passes : ctlWrite s g src bad act =
    .next (s.checked (bad s.me.pop (s.word .s0 src)) fun c => act c (s.word .s0 src)) := ctlChecked_passes (need := noNeed) hok hp rfl

theorem ctlHeld_passes (hn : s.me.storeRoom = true) : ctlHeld s g src bad act =
    .next (s.checked (bad s.me.pop (s.word .s0 src)) fun c => act c (s.word .s0 src)) := ctlChecked_passes hok hp hn

/-! ### The loop sequencer (10 R265, R266) -/

theorem execCtlLvl_passes : execCtlLvl g src s = .next
    (if 5 < ((s.me.portW .s0 0).extractLsb' 0 3).toNat then s.faults .s0 0x04 (s.me.portW .s0 0).toNat 0
     else if (s.word .s0 src).extractLsb' 16 48 ≠ 0 ∨ s.me.seq.lv ≠ 0 then s.faults .s0 0x04 (s.word .s0 src).toNat 0
     else s.after fun c => c.write .s0 (.trip ((s.me.portW .s0 0).extractLsb' 0 3).toNat) .put
       (BitVec.ofNat 1024 ((s.word .s0 src).extractLsb' 0 16).toNat + 1) 1) := by
  have hbad := or_congr (wfield_ne_zero_iff (s.word .s0 src) 63 16) s.me.ranging_iff
  rw [execCtlLvl, ctlWrite_passes hok hp, State.checked_ite, State.checked_ite]
  exact congrArg _ (ite_congr rfl (fun _ => rfl) fun _ => ite_congr (propext hbad) (fun _ => rfl) fun _ =>
    congrArg (fun v => s.after fun c => c.write .s0 (.trip ((s.me.portW .s0 0).extractLsb' 0 3).toNat) .put v 1) (BitVec.ofNat_add _ 1))

theorem execCtlCabase_passes : execCtlCabase g src s =
    .next (s.after fun c => c.write .s0 (.cb ((s.me.portW .s0 0).extractLsb' 0 3).toNat) .put ((s.word .s0 src).setWidth 1024) 1) :=
  ctlWrite_passes hok hp

theorem execCtlCastr_passes : execCtlCastr g src s = .next
    (if 5 < ((s.me.portW .s0 0).extractLsb' 4 3).toNat then s.faults .s0 0x04 (s.me.portW .s0 0).toNat 0
     else if s.me.seq.lv ≠ 0 then s.faults .s0 0x04 (s.word .s0 src).toNat 0
     else s.after fun c =>
       c.write .s0 (.cs ((s.me.portW .s0 0).extractLsb' 0 3).toNat ((s.me.portW .s0 0).extractLsb' 4 3).toNat) .put
         ((s.word .s0 src).setWidth 1024) 1) := by
  rw [execCtlCastr, ctlWrite_passes hok hp, State.checked_ite, State.checked_ite]
  exact congrArg _ (ite_congr rfl (fun _ => rfl) fun _ => ite_congr (propext s.me.ranging_iff) (fun _ => rfl) fun _ => rfl)

theorem execCtlLoop_passes : execCtlLoop g src s = .next
    (if (s.word .s0 src).extractLsb' 10 54 ≠ 0 ∨ (s.word .s0 src).extractLsb' 0 3 = 0 ∨ (s.word .s0 src).extractLsb' 0 3 = 7 ∨
       s.me.seq.lv ≠ 0 then s.faults .s0 0x04 (s.word .s0 src).toNat 0
     else s.after fun c =>
       { c with ctl := { c.ctl with loop := some ((s.word .s0 src).toNat, ((s.me.portW .s0 1).extractLsb' 0 32).toNat) } }) := by
  have hlevel {n : Nat} (hn : n < 2 ^ 3) := (extractLsb'_eq_iff (s.word .s0 src) 0 3 hn).symm
  have hbad := or_congr (wfield_ne_zero_iff (s.word .s0 src) 63 10)
    (or_congr (hlevel (n := 0) (by decide)) (or_congr (hlevel (n := 7) (by decide)) s.me.ranging_iff))
  rw [execCtlLoop, ctlWrite_passes hok hp, State.checked_ite]
  exact congrArg _ (ite_congr (propext hbad) (fun _ => rfl) fun _ => rfl)

/-! ### `ctl.wait` (10 R271) -/

/-- The state in which the task waits with the limits of a word. -/
def State.waiting (s : State) (a : Word) : State := s.after fun c => { c with ctl := { c.ctl with waiting := some a.toNat } }

theorem execCtlWait_passes : execCtlWait g src s = .next
    (if (s.word .s0 src).extractLsb' 24 40 ≠ 0 then s.faults .s0 0x04 (s.word .s0 src).toNat 0
     else if ((s.word .s0 src).extractLsb' 6 6).toNat < 63 then performStores (s.waiting (s.word .s0 src)) s.curCore
     else s.waiting (s.word .s0 src)) := by
  have hwait : s.popped.setCore s.curCore
      { s.me.pop with ctl := { s.me.pop.ctl with waiting := some (s.word .s0 src).toNat } } = s.waiting (s.word .s0 src) :=
    State.setCore_popped_self hok fun c => { c with ctl := { c.ctl with waiting := some (s.word .s0 src).toNat } }
  rw [execCtlWait, trigger_popped hp rfl, ← hwait, ← ctlOperand_popped]
  exact congrArg _ (ite_congr (propext (wfield_ne_zero_iff (s.word .s0 src) 63 24)) (fun _ => rfl) fun _ => rfl)

/-! ### The end of a block (10 R275, R277; 18 R382, R388, R392) -/

variable (hn : s.me.storeRoom = true)
include hn

theorem execCtlDone_passes : execCtlDone g src s = .next (s.after fun c => c.finish .done) := ctlHeld_passes hok hp hn

theorem execCtlBar_passes : execCtlBar g src s = .next (s.after fun c => c.hold .s0 .bar none) := ctlHeld_passes hok hp hn

theorem execCtlTrap_passes : execCtlTrap g src s = .next (s.after fun c => c.finish (.trap (s.word .s0 src))) := ctlHeld_passes hok hp hn

theorem execCtlYield_inStub {f : Nat} {t : Nat} (hst : s.me.trap.preempt = .stub f t) (ha : (s.word .s0 src).toNat < 2 ^ 32) :
    execCtlYield g src s = .next (s.after fun c => c.finish (.yield (s.word .s0 src).toNat)) := by
  have hlow : ¬ wfield (s.word .s0 src) 63 32 ≠ 0 := by rw [wfield_top_ne_zero_iff _ (by decide)]; exact not_le.2 ha
  rw [execCtlYield, ctlHeld_passes hok hp hn, if_neg hlow, Core.pop_trap, hst]
  rfl

/-- Outside a stub, `yield` is an operand fault whatever its operand. -/
theorem execCtlYield_outside (hst : ∀ f t, s.me.trap.preempt ≠ .stub f t) :
    execCtlYield g src s = .next (s.faults .s0 0x04 (s.word .s0 src).toNat 0) := by
  rw [execCtlYield, ctlHeld_passes hok hp hn, Core.pop_trap]
  split
  · rfl
  · split
    · exact absurd (by assumption) (hst _ _)
    · rfl

end

/-! ### Records (10 R272, R273) -/

section
variable {s : State} {g : Guard} {src : Src} {bad : Core → Option Word} {act : State → Nat → Core → Nat → State}
  (hp : s.Passes .s0 g src) (hn : s.me.storeRoom = true)
include hp hn

theorem recordOp_operand {w : Word} (hb : bad s.me.pop = some w) :
    recordOp s g src bad act = .next (s.faults .s0 0x04 w.toNat 0) := by
  rw [recordOp, trigger_popped hp hn]
  dsimp only
  rw [hb]
  exact congrArg _ (ctlOperand_popped s w)

theorem recordOp_misaligned (hb : bad s.me.pop = none) (ha : (s.word .s0 src).toNat % 64 ≠ 0) :
    recordOp s g src bad act = .next (s.faults .s0 0x05 (s.word .s0 src).toNat 2) := by
  rw [recordOp, trigger_popped hp hn]
  dsimp only
  rw [hb, ← kindFault_popped]
  exact congrArg _ (if_pos ha)

/-- A record on a page with R and W. -/
theorem recordOp_acts (hb : bad s.me.pop = none) (ha : (s.word .s0 src).toNat % 64 = 0) {ms : MemSys} {x : Xlat}
    (ht : translate s.ms (s.who s.curCore) (s.word .s0 src).toNat .atomic = (ms, .ok x)) :
    recordOp s g src bad act = .next (act { s.popped with ms := ms } s.curCore s.me.pop (s.word .s0 src).toNat) := by
  rw [recordOp, trigger_popped hp hn]
  dsimp only
  rw [hb]
  refine congrArg _ ((if_neg (not_not_intro ha)).trans ?_)
  rw [State.word] at ht
  rw [opWord, State.popped_ms, State.who_popped, ht]
  rfl

end

/-- The state in which an operation on a record is held, with memory in state `ms`, and owes its status. -/
def State.recordHeld (s : State) (ms : MemSys) (op : HOp) : State :=
  { s with ms := ms }.after fun c => (c.owe .s0 (.rport 0 false) .put 14 false).hold .s0 op (some c.nextId)

theorem setCore_holdCtl {s : State} (hok : s.Ok) (ms : MemSys) (op : HOp) :
    ({ s.popped with ms := ms } : State).setCore s.curCore (s.me.pop.holdCtl true op) = s.recordHeld ms op :=
  State.setCore_popped hok ms fun c => c.holdCtl true op

/-- A stream number of `launch` without a bit above [11:0] (10 R276). -/
theorem wfield_stream_eq_zero {w : Word} (h : w.toNat < 2 ^ 12) : ¬ wfield w 63 12 ≠ 0 := by
  rw [wfield_top_ne_zero_iff w (by decide)]
  exact not_le.2 h

section
variable {s : State} {g : Guard} {src : Src} (hp : s.Passes .s0 g src) (hn : s.me.storeRoom = true)
include hp hn

section
variable (ha : (s.word .s0 src).toNat % 64 ≠ 0)
include ha

theorem execCtlFork_misaligned : execCtlFork g src s = .next (s.faults .s0 0x05 (s.word .s0 src).toNat 2) :=
  recordOp_misaligned hp hn rfl ha

theorem execCtlJoin_misaligned : execCtlJoin g src s = .next (s.faults .s0 0x05 (s.word .s0 src).toNat 2) :=
  recordOp_misaligned hp hn rfl ha

theorem execCtlSpawn_misaligned : execCtlSpawn g src s = .next (s.faults .s0 0x05 (s.word .s0 src).toNat 2) :=
  recordOp_misaligned hp hn rfl ha

theorem execCtlLaunch_misaligned (ho : (s.me.portW .s0 0).toNat < 2 ^ 12) :
    execCtlLaunch g src s = .next (s.faults .s0 0x05 (s.word .s0 src).toNat 2) :=
  recordOp_misaligned hp hn (if_neg (wfield_stream_eq_zero ho)) ha

end

/-- The stream number is checked before the record. -/
theorem execCtlLaunch_stream (ho : 2 ^ 12 ≤ (s.me.portW .s0 0).toNat) :
    execCtlLaunch g src s = .next (s.faults .s0 0x04 (s.me.portW .s0 0).toNat 0) :=
  recordOp_operand hp hn (if_pos ((wfield_top_ne_zero_iff (s.me.portW .s0 0) (by decide)).2 ho))

variable (hok : s.Ok) (ha : (s.word .s0 src).toNat % 64 = 0) {ms : MemSys} {x : Xlat}
  (ht : translate s.ms (s.who s.curCore) (s.word .s0 src).toNat .atomic = (ms, .ok x))
include hok ha ht

theorem execCtlFork_acts : execCtlFork g src s = .next
    (if dequeFull s s.curCore s.me = true then { s with ms := ms }.faults .s0 0x16 (s.word .s0 src).toNat 2
     else s.recordHeld ms (.fork (s.word .s0 src).toNat)) := by
  rw [execCtlFork, recordOp_acts hp hn rfl ha ht, kindFault_popped_withMs, setCore_holdCtl hok]
  rfl

theorem execCtlJoin_acts : execCtlJoin g src s =
    .next ({ s with ms := ms }.after fun c => c.finish (.join (s.word .s0 src).toNat)) := by
  rw [execCtlJoin, recordOp_acts hp hn rfl ha ht]
  exact congrArg _ (State.setCore_popped hok ms fun c => c.finish (.join (s.word .s0 src).toNat))

theorem execCtlSpawn_acts : execCtlSpawn g src s = .next (s.recordHeld ms (.spawn (s.word .s0 src).toNat)) := by
  rw [execCtlSpawn, recordOp_acts hp hn rfl ha ht, setCore_holdCtl hok]

theorem execCtlLaunch_acts (ho : (s.me.portW .s0 0).toNat < 2 ^ 12) :
    execCtlLaunch g src s = .next (s.recordHeld ms (.launch (s.word .s0 src).toNat (s.me.portW .s0 0).toNat)) := by
  rw [execCtlLaunch, recordOp_acts hp hn (if_neg (wfield_stream_eq_zero ho)) ha ht, setCore_holdCtl hok, Core.pop_portW]

end

end Sys2Proof.Machine
end

section
/-! PROOFS. Bucket select: the bucket, the valid count, and the registers that it writes (10 R270). -/

namespace Sys2Proof.Machine

/-! ### The bucket and the valid count -/

/-- A bucket before the one that is selected is too small. -/
theorem lt_of_lt_bucketOf {v : Nat} {bs : List Nat} {i : Nat} (hi : i < bucketOf v bs) : ∃ b, bs[i]? = some b ∧ 96 * b < v := by
  induction bs generalizing i with
  | nil => exact absurd hi (Nat.not_lt_zero i)
  | cons b bs ih =>
    rw [bucketOf] at hi
    split at hi
    case isTrue => exact absurd hi (Nat.not_lt_zero i)
    case isFalse hb =>
      cases i with
      | zero => exact ⟨b, rfl, not_le.1 hb⟩
      | succ i => exact ih (Nat.lt_of_succ_lt_succ hi)

/-- The bucket that is selected holds the dimension, where there is one. -/
theorem bucketOf_holds (v : Nat) (bs : List Nat) :
    bucketOf v bs = bs.length ∨ ∃ b, bs[bucketOf v bs]? = some b ∧ v ≤ 96 * b := by
  induction bs with
  | nil => exact .inl rfl
  | cons b bs ih =>
    rw [bucketOf]
    split
    case isTrue hb => exact .inr ⟨b, rfl, hb⟩
    case isFalse => exact ih.imp (congrArg (· + 1)) id

theorem validCount_spec (v : Nat) :
    if v = 0 then validCount v = 0 else 1 ≤ validCount v ∧ validCount v ≤ 96 ∧ (v - validCount v) % 96 = 0 := by
  rw [validCount]
  split
  · rfl
  · omega

/-! ### One byte of a shape register -/

/-- Byte `lo / 8` of a register replaced by the low byte of another. -/
theorem getLsbD_putByte (old new : Vec) (lo : Nat) {i : Nat} (hi : i < 1024) :
    ((old &&& ~~~BitVec.ofNat 1024 (255 <<< lo)) ||| ((new &&& 0xFF) <<< lo)).getLsbD i =
      if lo ≤ i ∧ i < lo + 8 then new.getLsbD (i - lo) else old.getLsbD i := by
  have hmask : (BitVec.ofNat 1024 (255 <<< lo)).getLsbD i = decide (lo ≤ i ∧ i < lo + 8) := by
    rw [BitVec.getLsbD_ofNat, Nat.testBit_shiftLeft, show 255 = 2 ^ 8 - 1 from rfl, Nat.testBit_two_pow_sub_one, decide_eq_true hi,
      Bool.true_and, ← Bool.decide_and]
    exact decide_eq_decide.2 (by omega)
  have hlow : (0xFF : Vec).getLsbD (i - lo) = decide (i - lo < 8) := by
    rw [BitVec.ofNat_eq_ofNat, BitVec.getLsbD_ofNat, decide_eq_true (show i - lo < 1024 by omega), Bool.true_and]
    exact Nat.testBit_two_pow_sub_one 8 (i - lo)
  rw [BitVec.getLsbD_or, BitVec.getLsbD_and, BitVec.getLsbD_not, BitVec.getLsbD_shiftLeft, BitVec.getLsbD_and, hmask, hlow,
    decide_eq_true hi]
  split
  case isTrue h =>
    rw [decide_eq_true h, decide_eq_false (show ¬ i < lo by omega), decide_eq_true (show i - lo < 8 by omega)]
    simp
  case isFalse h =>
    rw [decide_eq_false h]
    by_cases hlo : i < lo
    · simp [hlo]
    · simp [show ¬ i - lo < 8 by omega]

section
variable {f : Vec → Vec → Vec} {lo : Nat} (hf : ∀ old new, f old new = (old &&& ~~~BitVec.ofNat 1024 (255 <<< lo)) ||| ((new &&& 0xFF) <<< lo))
  (old new : Vec)
include hf

theorem extractLsb'_putByte_same (hlo : lo + 8 ≤ 1024) : (f old new).extractLsb' lo 8 = new.extractLsb' 0 8 := by
  refine BitVec.eq_of_getLsbD_eq fun i hi => ?_
  rw [BitVec.getLsbD_extractLsb', BitVec.getLsbD_extractLsb', hf, getLsbD_putByte old new lo (by omega), if_pos (by omega),
    Nat.add_sub_cancel_left, Nat.zero_add]

theorem extractLsb'_putByte_other {start len : Nat} (hlen : start + len ≤ 1024) (h : start + len ≤ lo ∨ lo + 8 ≤ start) :
    (f old new).extractLsb' start len = old.extractLsb' start len := by
  refine BitVec.eq_of_getLsbD_eq fun i hi => ?_
  rw [BitVec.getLsbD_extractLsb', BitVec.getLsbD_extractLsb', hf, getLsbD_putByte old new lo (by omega), if_neg (by omega)]

end

theorem applyOp_byte1 (old new : Vec) :
    applyOp .byte1 old new = (old &&& ~~~BitVec.ofNat 1024 (255 <<< 8)) ||| ((new &&& 0xFF) <<< 8) := rfl

theorem applyOp_byte2 (old new : Vec) :
    applyOp .byte2 old new = (old &&& ~~~BitVec.ofNat 1024 (255 <<< 16)) ||| ((new &&& 0xFF) <<< 16) := rfl

/-! ### The registers that it writes -/

/-- Valid counts change the registers of a core alone. -/
theorem setShapes_eq (c : Core) (mask n : Nat) (op : WriteOp) (is : List Nat) :
    setShapes c mask n op is = { c with regs := (setShapes c mask n op is).regs } := by
  induction is generalizing c with
  | nil => rfl
  | cons i is ih =>
    rw [setShapes]
    split
    · exact ih (c.write .s0 (.tsh i) op (BitVec.ofNat 1024 n) 1)
    · exact ih c

/-- The places of two shape registers are two. -/
theorem key_tsh_inj (c : Core) {i j : Nat} : c.key (.tsh i) = c.key (.tsh j) ↔ i = j := Nat.add_left_cancel_iff

theorem key_tsh_ne_key_rport0 (c : Core) {n : Nat} (hn : n < 8) (r : Bool) : c.key (.tsh n) ≠ c.key (.rport 0 r) := by
  simp only [Core.key, Loc.key, b2n]
  cases r <;> cases c.regs.handler <;> simp <;> omega

theorem key_rport0_ne (c : Core) : c.key (.rport 0 true) ≠ c.key (.rport 0 false) := by
  simp only [Core.key, Loc.key, b2n]
  cases c.regs.handler <;> decide

/-- What a read gives from the next bundle on, after a write of the current one. -/
theorem read_write_next {c : Core} {sl : Slot} {l : Loc} (h : c.FirstAt sl l) (op : WriteOp) (v : Vec) {m : Nat} (hm : c.ctl.bcount + 1 ≤ m)
    (key blk : Nat) : (c.write sl l op v 1).regs.read key m blk =
      if key = c.key l then applyOp op (c.regs.read key m blk) v else c.regs.read key m blk := by
  obtain ⟨-, -, hread⟩ := Core.write_wrote c sl l op v 1 h
  rw [(hread key m blk).1]
  exact if_congr (and_iff_left hm) rfl rfl

/-- The valid count reaches the shape registers of the mask, and no other place. -/
theorem read_setShapes {c : Core} (mask n : Nat) (op : WriteOp) {is : List Nat} (hnd : is.Nodup) (hf : ∀ i ∈ is, c.FirstAt .s0 (.tsh i))
    {m : Nat} (hm : c.ctl.bcount + 1 ≤ m) (key blk : Nat) : (setShapes c mask n op is).regs.read key m blk =
      if ∃ i ∈ is, mask.testBit i = true ∧ key = c.key (.tsh i) then applyOp op (c.regs.read key m blk) (BitVec.ofNat 1024 n)
      else c.regs.read key m blk := by
  induction is generalizing c with
  | nil => rw [setShapes, if_neg (by simp)]
  | cons i is ih =>
    obtain ⟨hi, hnd⟩ := List.nodup_cons.1 hnd
    obtain ⟨hfi, hf⟩ := List.forall_mem_cons.1 hf
    rw [setShapes]
    by_cases hb : mask.testBit i = true
    · rw [if_pos hb, ih hnd (fun j hj => (hf j hj).write (.inl le_rfl) hfi) hm, read_write_next hfi _ _ hm]
      change (if ∃ j ∈ is, mask.testBit j = true ∧ key = c.key (.tsh j) then _ else _) = _
      by_cases hk : key = c.key (.tsh i)
      · have hnone : ¬ ∃ j ∈ is, mask.testBit j = true ∧ key = c.key (.tsh j) := by
          rintro ⟨j, hj, -, hkj⟩
          exact hi ((key_tsh_inj c).1 (hk.symm.trans hkj) ▸ hj)
        rw [if_neg hnone, if_pos hk, if_pos ⟨i, List.mem_cons_self, hb, hk⟩]
      · rw [if_neg hk]
        exact if_congr (by simp [hk]) rfl rfl
    · rw [if_neg hb, ih hnd hf hm]
      exact if_congr (by simp [hb]) rfl rfl

/-- The two results of bucket select. -/
def Core.deliverBucket (c : Core) (bucket entry : Nat) : Core :=
  (c.write .s0 (.rport 0 false) .put (BitVec.ofNat 1024 bucket) 1).write .s0 (.rport 0 true) .put (BitVec.ofNat 1024 entry) 1

/-- How bucket select writes the valid count: into the rows of a shape register, or into its columns. -/
def shapeOp (o3 : Word) : WriteOp := if o3.getLsbD 8 then .byte2 else .byte1

/-- Its results, and the valid count in the shape registers of its mask. -/
def Core.selectBucket (c : Core) (bucket entry : Nat) (o3 : Word) (n : Nat) : Core :=
  setShapes (c.deliverBucket bucket entry) (wfield o3 7 0) n (shapeOp o3) (upto 0 8)

theorem Core.selectBucket_eq (c : Core) (bucket entry : Nat) (o3 : Word) (n : Nat) :
    c.selectBucket bucket entry o3 n = { c with regs := (c.selectBucket bucket entry o3 n).regs } := setShapes_eq (c.deliverBucket bucket entry) ..

theorem mask_testBit (o3 : Word) {i : Nat} (hi : i < 8) : (wfield o3 7 0).testBit i = o3.getLsbD i := by
  rw [wfield, testBit_field, decide_eq_true (show i < 7 + 1 - 0 from hi), Bool.true_and, Nat.zero_add]
  rfl

section
variable {c : Core} (hr : c.FirstAt .s0 (.rport 0 false)) (hs : c.FirstAt .s0 (.rport 0 true)) (ht : ∀ n < 8, c.FirstAt .s0 (.tsh n))
  (bucket entry : Nat) (o3 : Word) (n : Nat) {m : Nat} (hm : c.ctl.bcount + 1 ≤ m) (blk : Nat)
include hr hs hm

theorem read_deliverBucket (key : Nat) : (c.deliverBucket bucket entry).regs.read key m blk =
    if key = c.key (.rport 0 true) then BitVec.ofNat 1024 entry
    else if key = c.key (.rport 0 false) then BitVec.ofNat 1024 bucket else c.regs.read key m blk := by
  rw [Core.deliverBucket, read_write_next (hs.write (.inl le_rfl) hr) _ _ hm, read_write_next hr _ _ hm]
  rfl

include ht

theorem read_selectBucket (key : Nat) : (c.selectBucket bucket entry o3 n).regs.read key m blk =
    if ∃ i ∈ upto 0 8, (wfield o3 7 0).testBit i = true ∧ key = c.key (.tsh i) then
      applyOp (shapeOp o3) ((c.deliverBucket bucket entry).regs.read key m blk) (BitVec.ofNat 1024 n)
    else (c.deliverBucket bucket entry).regs.read key m blk := by
  have hfirst : ∀ i ∈ upto 0 8, (c.deliverBucket bucket entry).FirstAt .s0 (.tsh i) := fun i hi =>
    ((ht i (mem_upto_iff.1 hi).2).write (.inl le_rfl) hr).write (.inl le_rfl) (hs.write (.inl le_rfl) hr)
  exact read_setShapes _ n (shapeOp o3) (by decide) hfirst hm key blk

/-- A place that is no shape register. -/
theorem read_selectBucket_of_no_shape {key : Nat} (hk : ∀ i < 8, key ≠ c.key (.tsh i)) :
    (c.selectBucket bucket entry o3 n).regs.read key m blk = (c.deliverBucket bucket entry).regs.read key m blk := by
  rw [read_selectBucket hr hs ht bucket entry o3 n hm, if_neg]
  rintro ⟨i, hi, -, hki⟩
  exact hk i (mem_upto_iff.1 hi).2 hki

theorem read_selectBucket_bucket :
    (c.selectBucket bucket entry o3 n).regs.read (c.key (.rport 0 false)) m blk = BitVec.ofNat 1024 bucket := by
  rw [read_selectBucket_of_no_shape hr hs ht bucket entry o3 n hm blk fun i hi => (key_tsh_ne_key_rport0 c hi false).symm,
    read_deliverBucket hr hs bucket entry hm, if_neg (key_rport0_ne c).symm, if_pos rfl]

theorem read_selectBucket_entry :
    (c.selectBucket bucket entry o3 n).regs.read (c.key (.rport 0 true)) m blk = BitVec.ofNat 1024 entry := by
  rw [read_selectBucket_of_no_shape hr hs ht bucket entry o3 n hm blk fun i hi => (key_tsh_ne_key_rport0 c hi true).symm,
    read_deliverBucket hr hs bucket entry hm, if_pos rfl]

theorem read_selectBucket_shape {i : Nat} (hi : i < 8) : (c.selectBucket bucket entry o3 n).regs.read (c.key (.tsh i)) m blk =
    if o3.getLsbD i then applyOp (shapeOp o3) (c.regs.read (c.key (.tsh i)) m blk) (BitVec.ofNat 1024 n)
    else c.regs.read (c.key (.tsh i)) m blk := by
  have hmask : (∃ j ∈ upto 0 8, (wfield o3 7 0).testBit j = true ∧ c.key (.tsh i) = c.key (.tsh j)) ↔ o3.getLsbD i = true := by
    rw [← mask_testBit o3 hi]
    exact ⟨fun ⟨j, _, hb, hk⟩ => (key_tsh_inj c).1 hk ▸ hb, fun hb => ⟨i, mem_upto_iff.2 (by omega), hb, rfl⟩⟩
  rw [read_selectBucket hr hs ht bucket entry o3 n hm, read_deliverBucket hr hs bucket entry hm,
    if_neg (key_tsh_ne_key_rport0 c hi true), if_neg (key_tsh_ne_key_rport0 c hi false)]
  exact if_congr hmask rfl rfl

theorem read_selectBucket_other {key : Nat} (h0 : key ≠ c.key (.rport 0 false)) (h1 : key ≠ c.key (.rport 0 true))
    (hk : ∀ i < 8, key ≠ c.key (.tsh i)) : (c.selectBucket bucket entry o3 n).regs.read key m blk = c.regs.read key m blk := by
  rw [read_selectBucket_of_no_shape hr hs ht bucket entry o3 n hm blk hk, read_deliverBucket hr hs bucket entry hm, if_neg h1, if_neg h0]

end

/-! ### The instruction -/

section
variable {s : State} {g : Guard} {src : Src} (hok : s.Ok) (hp : s.Passes .s0 g src)
include hok hp

theorem execCtlBsel_passes : execCtlBsel g src s = .next
    (if (s.me.portW .s0 2).extractLsb' 4 60 ≠ 0 ∨ ((s.me.portW .s0 2).extractLsb' 0 4).toNat = 0 ∨
        12 < ((s.me.portW .s0 2).extractLsb' 0 4).toNat then s.faults .s0 0x04 (s.me.portW .s0 2).toNat 0
     else if (s.me.portW .s0 3).extractLsb' 9 55 ≠ 0 then s.faults .s0 0x04 (s.me.portW .s0 3).toNat 0
     else s.after fun c => c.selectBucket (bucketOf (s.word .s0 src).toNat (buckets (s.me.portW .s0 0).toNat 8))
       (((s.me.portW .s0 1).extractLsb' 0 32).toNat +
         bucketOf (s.word .s0 src).toNat (buckets (s.me.portW .s0 0).toNat 8) * ((s.me.portW .s0 2).extractLsb' 0 4).toNat)
       (s.me.portW .s0 3) (validCount (s.word .s0 src).toNat)) := by
  have hsize := or_congr_left (c := wfield (s.me.portW .s0 2) 3 0 = 0 ∨ 12 < wfield (s.me.portW .s0 2) 3 0)
    (wfield_ne_zero_iff (s.me.portW .s0 2) 63 4)
  rw [execCtlBsel, ctlWrite_passes hok hp]
  dsimp only
  rw [State.checked_ite, State.checked_ite]
  exact congrArg _ (ite_congr (propext hsize) (fun _ => rfl) fun _ =>
    ite_congr (propext (wfield_ne_zero_iff (s.me.portW .s0 3) 63 9)) (fun _ => rfl) fun _ => rfl)

end

end Sys2Proof.Machine
end

section
/-! PROOFS. The obligations on bucket select, the loop sequencer, records and the end of a block. -/

namespace Sys2Proof.Proofs.ScalarControl

open Sys2Proof.Machine

/-- Settles O22: once its operands have passed, bucket select is two results and the valid count in the shape registers of its mask
(`execCtlBsel_passes`), and each read finds the write of its own place (`read_selectBucket`). -/
theorem bucketSelectResult : Obligations.BucketSelectResult := by
  unfold Obligations.BucketSelectResult
  refine ⟨fun g src s hok hp hr hs ht => ?select, ⟨fun v bs => ⟨fun i => lt_of_lt_bucketOf, bucketOf_holds v bs⟩, validCount_spec,
    fun old new => ?bytes⟩⟩
  case select =>
    have hexec := execCtlBsel_passes hok hp
    dsimp only
    split
    case isTrue hbad => rwa [if_pos hbad] at hexec
    case isFalse hbad =>
      rw [if_neg hbad] at hexec
      split
      case isTrue hmask => rwa [if_pos hmask] at hexec
      case isFalse hmask =>
        rw [if_neg hmask] at hexec
        refine ⟨_, Core.selectBucket_eq .., hexec, fun m blk hm => ⟨?_, ?_, fun n hn => ?_, fun key h0 h1 hk => ?_⟩⟩
        · exact read_selectBucket_bucket (c := s.me.pop) hr hs ht _ _ _ _ hm blk
        · exact read_selectBucket_entry (c := s.me.pop) hr hs ht _ _ _ _ hm blk
        · exact read_selectBucket_shape (c := s.me.pop) hr hs ht _ _ _ _ hm blk hn
        · exact read_selectBucket_other (c := s.me.pop) hr hs ht _ _ _ _ hm blk h0 h1 hk
  case bytes =>
    exact ⟨extractLsb'_putByte_same applyOp_byte1 old new (by decide),
      extractLsb'_putByte_other applyOp_byte1 old new (by decide) (by decide),
      extractLsb'_putByte_other applyOp_byte1 old new (by decide) (by decide),
      extractLsb'_putByte_same applyOp_byte2 old new (by decide),
      extractLsb'_putByte_other applyOp_byte2 old new (by decide) (by decide),
      extractLsb'_putByte_other applyOp_byte2 old new (by decide) (by decide)⟩

/-- Settles O24: each write of the loop sequencer, and `ctl.wait`, checks its operands and then changes its core (`ctlWrite_passes`,
`execCtlWait_passes`). -/
theorem sequencerWrites : Obligations.SequencerWrites := by
  unfold Obligations.SequencerWrites
  refine ⟨fun g src s hok hp => ⟨?lvl, fun hf => ?cabase, ?castr, ?loop⟩, fun g src s hok hp => ?wait⟩
  case lvl => exact write_of_ite (execCtlLvl_passes hok hp)
  case cabase => exact ⟨_, Core.write_wrote s.me.pop .s0 _ _ _ _ hf, execCtlCabase_passes hok hp⟩
  case castr => exact write_of_ite (execCtlCastr_passes hok hp)
  case loop => exact next_of_ite (execCtlLoop_passes hok hp)
  case wait => exact next_of_ite (execCtlWait_passes hok hp)

/-- Settles O25: an operation on a record checks its stream number, its alignment and its translation, in this order (`recordOp_operand`,
`recordOp_misaligned`, `recordOp_acts`), and then is held. -/
theorem recordOperations : Obligations.RecordOperations := by
  unfold Obligations.RecordOperations
  refine ⟨?held, fun g src s ms x hok hp hn ha ht => execCtlJoin_acts hp hn hok ha ht, fun g src s hp hn =>
    ⟨fun ha => ⟨execCtlFork_misaligned hp hn ha, execCtlJoin_misaligned hp hn ha, execCtlSpawn_misaligned hp hn ha,
      execCtlLaunch_misaligned hp hn ha⟩, execCtlLaunch_stream hp hn⟩⟩
  case held =>
    rw [recordForms]
    refine List.forall_mem_cons.2 ⟨?fork, List.forall_mem_cons.2 ⟨?spawn, List.forall_mem_cons.2 ⟨?launch, List.forall_mem_nil _⟩⟩⟩
    case fork =>
      intro g src s ms x hok hp hn a o ha _ ht
      exact (execCtlFork_acts hp hn hok ha ht).trans (congrArg _ (if_congr (and_iff_right rfl).symm rfl rfl))
    case spawn =>
      intro g src s ms x hok hp hn a o ha _ ht
      exact (execCtlSpawn_acts hp hn hok ha ht).trans (congrArg _ (if_neg fun h => Instr.noConfusion h.1).symm)
    case launch =>
      intro g src s ms x hok hp hn a o ha ho ht
      exact (execCtlLaunch_acts hp hn hok ha ht (ho rfl)).trans (congrArg _ (if_neg fun h => Instr.noConfusion h.1).symm)

/-- Settles O26: each is an operation with a check of its operand (`ctlHeld_passes`); that of `yield` passes in a stub alone. -/
theorem blockEndings : Obligations.BlockEndings := by
  unfold Obligations.BlockEndings
  intro g src s hok hp hn
  exact ⟨execCtlDone_passes hok hp hn, execCtlBar_passes hok hp hn, execCtlTrap_passes hok hp hn,
    fun f t hst ha => execCtlYield_inStub hok hp hn hst ha, execCtlYield_outside hok hp hn⟩

end Sys2Proof.Proofs.ScalarControl
end
